-- ==== Sys2Proof/Word.lean ====
section
/-! DEFINITION. The word types of the BDG-4096: bytes, 32-bit words, 64-bit words. -/

namespace Sys2Proof

/-- A byte. -/
abbrev Byte := BitVec 8
/-- A 32-bit register, signal-map entry or engine register. -/
abbrev Word := BitVec 32
/-- A 64-bit payload, descriptor or pair. -/
abbrev Word64 := BitVec 64

end Sys2Proof
end

