-- ==== Sys2Proof/Syntax.lean ====
section
/-! DEFINITION. The commands of the BDG-4096 (opcode table of the spec): one constructor per row, with its operands, and
the plain types that operands and state share. A command that the spec does not give to a signal engine carries `t`,
the count of the time base (TAI ns) at which it occurs. -/

namespace Sys2Proof

/-- Who makes a register access: the host over the HCP, or the management core (its accesses are never privileged,
R389). -/
inductive Acc where
  | host | mgc
deriving DecidableEq, Repr

/-- A supply whose drop causes a power-on reset (Table 18.8). -/
inductive Rail where
  | vsaf | vcore | vmem | vio18 | vio33
deriving DecidableEq, Repr

/-- A cause of a power-on reset that comes from a supply or a pin (Table 18.8, codes 0x0 to 0x4). -/
inductive PorCause where
  | cold | porst | drop (r : Rail)
deriving DecidableEq, Repr

/-- What a memory's check bits show on a read: nothing, one wrong bit, or an uncorrectable error (R349). -/
inductive EccErr where
  | ok | single | double
deriving DecidableEq, Repr

/-- A GimenLink block: sync header (0b01 data, 0b10 control) and 64-bit payload (R50). -/
structure Blk where
  hdr : BitVec 2
  pl : BitVec 64
deriving DecidableEq, Repr, Inhabited

/-! Contents of the partner link (chapter 12). The spec gives each mirror record's contents and length and not the packing
of its fields, so a mirror is plain data here. -/

/-- TRANS entry of a mirror: SM address, new state code, EDGE1, BLOCK flag. -/
structure TransRec where
  addr : Nat
  st : Nat
  edge : Nat
  block : Bool
deriving DecidableEq, Repr

/-- COND entry: SM address, cause code 0 to 6 (0: eligible), FROZEN flag. -/
structure CondRec where
  addr : Nat
  cause : Nat
  frozen : Bool
deriving DecidableEq, Repr

/-- ARM record: u0 (fp32), A (binary64), n0, sigma, last committed arm edge: instant in ns relative to t_j of the last
commanded cycle, direction. -/
structure ArmRec where
  arm : Nat
  u0 : Word
  acc : Word64
  n0 : Int
  sigma : Int
  edge : Int
  dir : Int
deriving DecidableEq, Repr

/-- CLU record of a named slot. -/
structure CluRec where
  slot : Nat
  r : Word
  i : Word
  d1 : Word
  v1 : Word
  e1 : Word
  q1 : Word
  q2 : Word
  qn1 : Word
  qn2 : Word
  y : Word
  mode : Nat
deriving DecidableEq, Repr

/-- TILE record: engine, tile address, words. -/
structure TileRec where
  engine : Nat
  addr : Nat
  words : List Word
deriving DecidableEq, Repr

/-- A mirror (Table 12.4). `keys`: address of the first SM, and the keys. -/
structure Mirror where
  trans : List TransRec := []
  cond : List CondRec := []
  arms : List ArmRec := []
  clu : List CluRec := []
  sigs : List (Nat × Word) := []
  tiles : List TileRec := []
  keys : Option (Nat × List (BitVec 16)) := none
deriving DecidableEq, Repr

/-- A lease record (Table 12.2). -/
structure LeaseRec where
  cycle : BitVec 32 := 0
  epoch : BitVec 32 := 0
  role : Nat := 0
  ready : Bool := false
  sfsOk : Bool := false
  release : Bool := false
  eqx : Bool := false
  relHold : Bool := false
  stopOrd : Bool := false
  blockOrd : Bool := false
  mlist : BitVec 16 := 0
  safeCrc : BitVec 32 := 0
  tails : BitVec 64 := 0
  eqxCyc : BitVec 32 := 0
  mirAck : BitVec 32 := 0
deriving DecidableEq, Repr

/-- What triggers a SAR sequence (R221), but for the host. -/
inductive SarTrig where
  | cycle | tsi (pin : Fin 32) | cont
deriving DecidableEq, Repr

/-- Who makes an urgent SAR request (R222): the host, naming the input it writes, or an edge at a TSI pin. -/
inductive UrgBy where
  | host (input : Fin 8) | tsi (pin : Fin 32)
deriving DecidableEq, Repr

/-! Station frames. The formats of IEC 62439-3, IEC 61850-9-2 and IEC 62351-6 are not the spec's, so a frame comes as the
fields that the station MAC finds in it. -/

/-- One ASDU of a sampled-value APDU: values with their qualities, smpCnt, smpSynch. -/
structure SvAsdu where
  vals : List (Word × Word)
  cnt : Nat
  synch : Nat
deriving DecidableEq, Repr

/-- A sampled-value APDU: confRev, whether the dataset holds INT32 values each followed by its quality, ASDUs. -/
structure SvApdu where
  confRev : Word
  dataOk : Bool
  asdus : List SvAsdu
deriving DecidableEq, Repr

/-- A frame at a station port: bytes without FCS, whether the FCS is right, destination and source address, 802.1Q tag (VID,
PCP), EtherType, APPID, PRP trailer or HSR tag (sequence number, LAN identifier), APDU of sampled values, key that the
MAC's key identifier names (none: no MAC; some none: unknown; some false KEY, some true KEY + 1), whether a PTP message
needs a feature that Table 10.5 marks absent. -/
structure StFrame where
  bytes : List Byte
  fcsOk : Bool
  da : BitVec 48
  sa : BitVec 48
  tag : Option (BitVec 12 × BitVec 3) := none
  etype : Nat
  appid : BitVec 16 := 0
  red : Option (BitVec 16 × BitVec 4) := none
  sv : Option SvApdu := none
  mac : Option (Option Bool) := none
  ptpAbsent : Bool := false
deriving DecidableEq, Repr

/-- What fails its read-back when the event log is scanned or cleared (R317): the erase of a slot, the write of the record that ends it. -/
structure LogFault where
  slot : Option Nat := none
  mark : Bool := false
deriving DecidableEq, Repr

/-- EXEC CAL with its CRC byte and what each MD channel will measure (R218): outputs in LSB for the shorted input and for the
+0.8 VFS reference, MD0 to MD11. -/
structure CalExec where
  crc : BitVec 8
  raws : List (Int × Int)
deriving DecidableEq, Repr

/-- The commands. -/
inductive Instr where
  /-- POWER_ON_RESET (R398): the causes that coincide -/
  | powerOnReset (t : Nat) (causes : List PorCause)
  /-- PORST_N_ASSERT (R399) -/
  | porstAssert (t : Nat)
  /-- PORST_N_RELEASE (R6): `uid`: the level of the UID strap -/
  | porstRelease (t : Nat) (uid : Bool)
  /-- BOOT_IMAGE_SELECT (R373) -/
  | bootImageSelect (t : Nat)
  /-- LOG_RECOVERY (R320): `bad`: a slot whose erase fails its verify; whether the write of START fails its read-back -/
  | logRecovery (t : Nat) (bad : LogFault)
  /-- WIPE_COMPLETE (R364) -/
  | wipeComplete (t : Nat)
  /-- BUTTON_PRESS (R400) -/
  | buttonPress (t : Nat)
  /-- BUTTON_RELEASE (R400): `saveOk`: the lifetime save verifies -/
  | buttonRelease (t : Nat) (saveOk : Bool)
  /-- BUTTON_STUCK (R400) -/
  | buttonStuck (t : Nat)
  /-- BUTTON_UNSTUCK (R400) -/
  | buttonUnstuck (t : Nat)
  /-- THERMAL_TRIP (R398) -/
  | thermalTrip (t : Nat)
  /-- MGC_WATCHDOG (R398) -/
  | mgcWatchdog (t : Nat) (saveOk : Bool)
  /-- JTAG_RESET (R398) -/
  | jtagReset (t : Nat) (saveOk : Bool)
  /-- VCORE_LOSS (R268) -/
  | vcoreLoss (t : Nat)
  /-- VSAF_LOSS (R397) -/
  | vsafLoss (t : Nat)
  /-- D3_LOSS (R20) -/
  | d3Loss (t : Nat)
  /-- D9_LOSS (R409) -/
  | d9Loss (t : Nat)
  /-- PFAIL_FALL (R404): `bad`: index of the committed record whose read-back fails -/
  | pfailFall (t : Nat) (bad : Option Nat) (saveOk : Bool)
  /-- PFAIL_ACCEPT_END (R319) -/
  | pfailAcceptEnd (t : Nat)
  /-- PFAIL_RECOVERED (R406) -/
  | pfailRecovered (t : Nat) (saveOk : Bool)
  /-- VBAT_LOW (R392) -/
  | vbatLow (t : Nat)
  /-- CYCLE_START (R29) -/
  | cycleStart (t : Nat)
  /-- TIME_BLOCK_SEND (R114): `early`: scheduled instant minus departure, in 1/64 ns -/
  | timeBlockSend (t : Nat) (port : Fin 64) (early : Fin 410)
  /-- P0_RELEASE (R37) -/
  | p0Release (t : Nat)
  /-- RANK_COMPLETE (R146) -/
  | rankComplete (t : Nat) (arm : Fin 12)
  /-- PHASE_RELEASE (R38) -/
  | phaseRelease (t : Nat) (n : Fin 8)
  /-- PHASE_COMPLETE (R203) -/
  | phaseComplete (t : Nat) (n : Fin 8)
  /-- SEND_POINT (R38) -/
  | sendPoint (t : Nat)
  /-- DOWN_FRAME_SEND (R35) -/
  | downFrameSend (t : Nat)
  /-- GIMENLINK_BLOCK_RECEIVED (R57): the 66 line bits, earliest first; on a ring lane the 33 level indices, two bits each. `tenth`: tenths of a ns of the arrival stamp. `off`: elastic-buffer offset from centre, in blocks. `ofs`: for a TIME block on a partner lane, the time offset that the two-way exchange gives in 1/16 ns (local less source) -/
  | blockReceived (t : Nat) (tenth : Fin 10) (lane : Fin 72) (line : BitVec 66) (off : Int) (ofs : Option Int)
  /-- BLOCK_LOCK_ACQUIRED (R55) -/
  | blockLockAcquired (t : Nat) (lane : Fin 72)
  /-- BLOCK_LOCK_LOST (R56) -/
  | blockLockLost (t : Nat) (lane : Fin 72)
  /-- RATE_MATCH (R59) -/
  | rateMatch (t : Nat) (lane : Fin 72)
  /-- BLOCK_SET_RECEIVED (R64) -/
  | blockSetReceived (t : Nat) (lane : Fin 72)
  /-- COLLECT_FRAME_RECEIVED (R99): the blocks from SOF to EOF; `via`: forwarded by the partner from a relayed port -/
  | collectFrame (t : Nat) (port : Fin 64) (via : Bool) (fs : List Blk)
  /-- DOWN_FRAME_RECEIVED (R100): the blocks from SOF on -/
  | downFrame (t : Nat) (port : Fin 64) (fs : List Blk)
  /-- IDENT_FRAME_RECEIVED (R117) -/
  | identFrame (t : Nat) (port : Fin 64) (fs : List Blk)
  /-- TSTAMP_FRAME_RECEIVED (R124): `refStamps`: departure and arrival stamps of the partner's port, for a frame that it forwards -/
  | tstampFrame (t : Nat) (port : Fin 64) (refStamps : Option (Nat × Nat)) (fs : List Blk)
  /-- IDENTIFY_RETRY (R118) -/
  | identifyRetry (t : Nat) (port : Fin 64)
  /-- SESSION_START (R122) -/
  | sessionStart (t : Nat) (port : Fin 64)
  /-- RELAY_FRAME_RECEIVED (R128) -/
  | relayFrame (t : Nat) (port : Fin 64) (fs : List Blk)
  /-- PARTNER_FRAME_RECEIVED (R281): the blocks from SOF to EOF, in stream order -/
  | partnerFrame (t : Nat) (fs : List Blk)
  /-- CYCLE_JUDGEMENT (R284) -/
  | cycleJudgement (t : Nat)
  /-- PARTNER_LINK_UP (R280): `partnerUid`: the strap that training finds at the partner -/
  | partnerLinkUp (t : Nat) (skew : Fin 16) (partnerUid : Bool)
  /-- PARTNER_LINK_DOWN (R280): the lane skew found, in blocks -/
  | partnerLinkDown (t : Nat) (skew : Fin 16)
  /-- PARTNER_LINK_DOWN_64 (R270) -/
  | partnerLinkDown64 (t : Nat)
  /-- CLAIM_WAIT_EXPIRY (R283) -/
  | claimWaitExpiry (t : Nat)
  /-- RECLAIM_SETTLE (R296) -/
  | reclaimSettle (t : Nat)
  /-- NOP (R191): engine n, P bit -/
  | nop (n : Fin 32) (p : Bool)
  /-- FADD (R195) -/
  | fadd (n : Fin 32) (p : Bool) (d a b : Fin 64)
  /-- FSUB (R195) -/
  | fsub (n : Fin 32) (p : Bool) (d a b : Fin 64)
  /-- FMUL (R195) -/
  | fmul (n : Fin 32) (p : Bool) (d a b : Fin 64)
  /-- FMA (R195) -/
  | fma (n : Fin 32) (p : Bool) (d a b c : Fin 64)
  /-- FMS (R195) -/
  | fms (n : Fin 32) (p : Bool) (d a b c : Fin 64)
  /-- FMIN (R195) -/
  | fmin (n : Fin 32) (p : Bool) (d a b : Fin 64)
  /-- FMAX (R195) -/
  | fmax (n : Fin 32) (p : Bool) (d a b : Fin 64)
  /-- FABS (R191) -/
  | fabs (n : Fin 32) (p : Bool) (d a : Fin 64)
  /-- FNEG (R191) -/
  | fneg (n : Fin 32) (p : Bool) (d a : Fin 64)
  /-- FCLAMP (R191) -/
  | fclamp (n : Fin 32) (p : Bool) (d a b c : Fin 64)
  /-- FSLT (R191) -/
  | fslt (n : Fin 32) (p : Bool) (d a b : Fin 64)
  /-- FSEQ (R191) -/
  | fseq (n : Fin 32) (p : Bool) (d a b : Fin 64)
  /-- F2I (R195) -/
  | f2i (n : Fin 32) (p : Bool) (d a : Fin 64)
  /-- I2F (R191) -/
  | i2f (n : Fin 32) (p : Bool) (d a : Fin 64)
  /-- FRCPE (R191) -/
  | frcpe (n : Fin 32) (p : Bool) (d a : Fin 64)
  /-- FRSQE (R191) -/
  | frsqe (n : Fin 32) (p : Bool) (d a : Fin 64)
  /-- TAP (R196): `err`: what the check bits of the word show -/
  | tap (n : Fin 32) (p : Bool) (d a b : Fin 64) (err : EccErr)
  /-- MAC (R191) -/
  | mac (n : Fin 32) (p : Bool) (d a b : Fin 64)
  /-- MACU (R191) -/
  | macu (n : Fin 32) (p : Bool) (d a b : Fin 64)
  /-- MUL64 (R191) -/
  | mul64 (n : Fin 32) (p : Bool) (d a b : Fin 64)
  /-- ACCRD (R195) -/
  | accrd (n : Fin 32) (p : Bool) (d a : Fin 64) (imm : BitVec 13)
  /-- MUL (R191) -/
  | mul (n : Fin 32) (p : Bool) (d a b : Fin 64)
  /-- ADD (R191) -/
  | add (n : Fin 32) (p : Bool) (d a b : Fin 64)
  /-- SUB (R191) -/
  | sub (n : Fin 32) (p : Bool) (d a b : Fin 64)
  /-- AND (R191) -/
  | andW (n : Fin 32) (p : Bool) (d a b : Fin 64)
  /-- OR (R191) -/
  | orW (n : Fin 32) (p : Bool) (d a b : Fin 64)
  /-- XOR (R191) -/
  | xorW (n : Fin 32) (p : Bool) (d a b : Fin 64)
  /-- SHL (R191) -/
  | shl (n : Fin 32) (p : Bool) (d a b : Fin 64)
  /-- SHR (R191) -/
  | shr (n : Fin 32) (p : Bool) (d a b : Fin 64)
  /-- SAR (R191) -/
  | sar (n : Fin 32) (p : Bool) (d a b : Fin 64)
  /-- ADDI (R191) -/
  | addi (n : Fin 32) (p : Bool) (d a : Fin 64) (imm : BitVec 13)
  /-- SLT (R191) -/
  | slt (n : Fin 32) (p : Bool) (d a b : Fin 64)
  /-- SEL (R191) -/
  | sel (n : Fin 32) (p : Bool) (d a b c : Fin 64)
  /-- LIL (R191) -/
  | lil (n : Fin 32) (p : Bool) (d : Fin 64) (imm : BitVec 16)
  /-- LIH (R191) -/
  | lih (n : Fin 32) (p : Bool) (d : Fin 64) (imm : BitVec 16)
  /-- LW (R192): `err`: what the check bits of the word show -/
  | lw (n : Fin 32) (p : Bool) (d a : Fin 64) (imm : BitVec 13) (err : EccErr)
  /-- SW (R192): `err`: what the check bits of the word show -/
  | sw (n : Fin 32) (p : Bool) (d a : Fin 64) (imm : BitVec 13) (err : EccErr)
  /-- LWI (R192): `err`: what the check bits of the word show -/
  | lwi (n : Fin 32) (p : Bool) (d a : Fin 64) (imm : BitVec 13) (err : EccErr)
  /-- SWI (R192): `err`: what the check bits of the word show -/
  | swi (n : Fin 32) (p : Bool) (d a : Fin 64) (imm : BitVec 13) (err : EccErr)
  /-- LW2 (R192): `err`: what the check bits of the word show -/
  | lw2 (n : Fin 32) (p : Bool) (d a : Fin 64) (imm : BitVec 13) (err : EccErr)
  /-- SW2 (R192): `err`: what the check bits of the word show -/
  | sw2 (n : Fin 32) (p : Bool) (d a : Fin 64) (imm : BitVec 13) (err : EccErr)
  /-- LDS (R193): `err`: what the check bits of the word show -/
  | lds (n : Fin 32) (p : Bool) (d a : Fin 64) (imm : BitVec 13) (err : EccErr)
  /-- LDSI (R193): `err`: what the check bits of the word show -/
  | ldsi (n : Fin 32) (p : Bool) (d a : Fin 64) (imm : BitVec 13) (err : EccErr)
  /-- STS (R194) -/
  | sts (n : Fin 32) (p : Bool) (d a : Fin 64) (imm : BitVec 13)
  /-- LDC (R193): `err`: what the check bits of the word show -/
  | ldc (n : Fin 32) (p : Bool) (d a : Fin 64) (imm : BitVec 13) (err : EccErr)
  /-- STC (R193): `err`: what the check bits of the word show -/
  | stc (n : Fin 32) (p : Bool) (d a : Fin 64) (imm : BitVec 13) (err : EccErr)
  /-- FENCE (R193) -/
  | fence (n : Fin 32) (p : Bool)
  /-- BNZ (R190) -/
  | bnz (n : Fin 32) (p : Bool) (a : Fin 64) (ofs : BitVec 19)
  /-- BZ (R190) -/
  | bz (n : Fin 32) (p : Bool) (a : Fin 64) (ofs : BitVec 19)
  /-- LOOP (R188) -/
  | loop (n : Fin 32) (p : Bool) (ofs : BitVec 19)
  /-- LOOPN (R191) -/
  | loopn (n : Fin 32) (p : Bool) (ofs : BitVec 19)
  /-- SETLC (R191) -/
  | setlc (n : Fin 32) (p : Bool) (a : Fin 64) (imm : BitVec 13)
  /-- DLX (R191) -/
  | dlx (n : Fin 32) (p : Bool) (a : Fin 64)
  /-- SPAWN (R205) -/
  | spawn (n : Fin 32) (p : Bool) (a b : Fin 64)
  /-- END (R193) -/
  | endTask (n : Fin 32) (p : Bool)
  /-- OUTSTANDING_COMPLETE (R193): the o-th oldest outstanding operation of engine n -/
  | outstandingComplete (t : Nat) (n : Fin 32) (o : Fin 8)
  /-- TASK_COMPLETE (R193): `donor`: which of the busy engines with a descriptor for engine n gives it -/
  | taskComplete (t : Nat) (n : Fin 32) (donor : Nat)
  /-- DESCRIPTOR_DISPATCH (R201): `pick`: which of the descriptors of one priority -/
  | descriptorDispatch (t : Nat) (n : Fin 32) (pick : Nat)
  /-- BOUND_EXCEEDED (R204) -/
  | boundExceeded (t : Nat) (n : Fin 32)
  /-- ADMISSION_COMPLETE (R207): `bad`: memory whose test fails, tile 0 to 3 of the cluster or its bank (4) -/
  | admissionComplete (t : Nat) (c : Fin 8) (bad : Option (Fin 5))
  /-- DS_WORD_COMPLETE (R214): `raw`: filter output in 2^-16 LSB; `ovr`: a run of 24 or more equal bits in the word's span; `stuck`: one of 1,024 or more -/
  | dsWord (t : Nat) (ch : Fin 20) (raw : Int) (ovr stuck : Bool)
  /-- MDX_LOSS (R217) -/
  | mdxLoss (t : Nat) (x : Fin 8)
  /-- SAR_TRIGGER (R221) -/
  | sarTrigger (t : Nat) (a : Fin 2) (trig : SarTrig)
  /-- SAR_CONVERSION_COMPLETE (R221) -/
  | sarConversion (t : Nat) (a : Fin 2) (code : BitVec 16)
  /-- SAR_START (R221) -/
  | sarStart (t : Nat) (a : Fin 2)
  /-- SAR_URGENT_REQ (R222) -/
  | sarUrgent (t : Nat) (a : Fin 2) (req : UrgBy)
  /-- SV_STREAM_LOST (R224) -/
  | svLost (t : Nat) (i : Fin 16)
  /-- PSI_EDGE (R227): `high`: level of the pin after the edge -/
  | psiEdge (t : Nat) (i : Fin 4) (high : Bool)
  /-- PSI_TIMEOUT (R227) -/
  | psiTimeout (t : Nat) (i : Fin 4)
  /-- CAL (R218): the CRC byte; what the calibration will measure: outputs for the shorted input and for the +0.8 VFS reference, MD0 to MD11, in LSB -/
  | cal (t : Nat) (x : CalExec)
  /-- CAL_COMPLETE (R218): what SAR A and SAR B have measured, as for CAL -/
  | calComplete (t : Nat) (raws : List (Int × Int))
  /-- RECAL (R219) -/
  | recal (t : Nat) (ch : Fin 16)
  /-- RECAL_COMPLETE (R219) -/
  | recalComplete (t : Nat) (raw0 raw1 : Int)
  /-- CAL_FACTOR_WRITE (R220): MD0 to MD11, X0 to X7, SAR A, SAR B; GCAL or OCAL -/
  | calFactorWrite (t : Nat) (ch : Fin 22) (gain : Bool) (v : BitVec 32)
  /-- STATION_FRAME_RECEIVED (R234) -/
  | stationFrame (t : Nat) (port : Fin 4) (f : StFrame)
  /-- RING_TAIL_WRITE (R237) -/
  | ringTailWrite (t : Nat) (pair : Fin 2) (tx : Bool) (q : Fin 4) (tail : Fin 4096)
  /-- TX_FRAME_SENT (R238): the message timestamp point of the frame in transmission leaves the port -/
  | txFrameSent (t : Nat) (port : Fin 4)
  /-- DUP_ENTRY_EXPIRY (R231) -/
  | dupExpiry (t : Nat) (pair : Fin 2)
  /-- LAN_SILENT (R255) -/
  | lanSilent (t : Nat) (port : Fin 4)
  /-- STATION_LINK_CHANGE (R255) -/
  | stationLink (t : Nat) (port : Fin 4) (locked : Bool)
  /-- OFS_IN (R246): the word written to TBU_OFS_IN_HI -/
  | ofsIn (t : Nat) (hi : BitVec 32)
  /-- TIME_STEP (R247): `byPartner`: offset in 1/16 ns that the partner source gives for the holder's step -/
  | timeStep (t : Nat) (byPartner : Option Int)
  /-- SOURCE_LOST (R245): source by its code in ACT_SRC -/
  | sourceLost (t : Nat) (src : Fin 5)
  /-- PPS_IN_EDGE (R254) -/
  | ppsInEdge (t : Nat)
  /-- PPS_IN_MISSING (R254) -/
  | ppsInMissing (t : Nat)
  /-- PPS_OUT_START (R254) -/
  | ppsOutStart (t : Nat)
  /-- PPS_OUT_END (R254) -/
  | ppsOutEnd (t : Nat)
  /-- STEP_REARM (R249) -/
  | stepRearm (t : Nat) (by' : Acc)
  /-- TSI_EDGE (R252): `pulse`: length in ns of the shorter of the two pulses that the edge bounds -/
  | tsiEdge (t : Nat) (i : Fin 32) (falling : Bool) (pulse : Nat)
  /-- TSI_POP (R252) -/
  | tsiPop (t : Nat) (i : Fin 32)
  /-- TIME_LO_READ (R242) -/
  | timeLoRead (t : Nat)
  /-- TSO_GO (R253): LEVEL of the written word -/
  | tsoGo (t : Nat) (o : Fin 8) (level : Bool)
  /-- TSO_ACTION (R253) -/
  | tsoAction (t : Nat) (o : Fin 8)
  /-- TSO_PERIODIC_EDGE (R253) -/
  | tsoPeriodicEdge (t : Nat) (o : Fin 8)
  /-- SIN_FILTERED_CHANGE (R260): `band`: how a difference within 1 us of T_disc is judged -/
  | sinChange (t : Nat) (p : Fin 8) (chB : Bool) (active : Bool) (band : Bool)
  /-- DISCREPANCY_LATCH (R262) -/
  | discrepancyLatch (t : Nat) (p : Fin 8)
  /-- STOP_COMPLETE (R266) -/
  | stopComplete (t : Nat)
  /-- TSTOP_EXPIRY (R266) -/
  | tstopExpiry (t : Nat)
  /-- RELEASE (R273) -/
  | release (t : Nat) (by' : Acc)
  /-- ACK (R263) -/
  | ack (t : Nat) (by' : Acc) (mask : BitVec 8)
  /-- STOP_REQ (R264) -/
  | stopReq (t : Nat) (by' : Acc)
  /-- BLOCK_REQ (R256) -/
  | blockReq (t : Nat) (by' : Acc)
  /-- SELF_TEST_FAILURE (R274) -/
  | selfTestFailure (t : Nat) (test : Fin 8)
  /-- RELEASE_REQ (R288) -/
  | releaseReq (t : Nat) (by' : Acc)
  /-- REL_CLR (R289) -/
  | relClr (t : Nat) (by' : Acc)
  /-- EQX_GO (R290): LATE_OK of the written word -/
  | eqxGo (t : Nat) (by' : Acc) (lateOk : Bool)
  /-- FCO_MESSAGE (R302): the messages that arrive in one D3 cycle -/
  | fcoMessage (t : Nat) (ms : List (BitVec 64))
  /-- THAW (R304) -/
  | thaw (t : Nat) (kind : Fin 256)
  /-- FCO_ACK (R306) -/
  | fcoAck (t : Nat) (by' : Acc) (kind : Fin 256)
  /-- FCO_INJ (R307): the value written to FCO_INJ_HI -/
  | fcoInj (t : Nat) (hi : BitVec 32)
  /-- INT_PEND_CLEAR (R24): `coinc`: sources of the word with a new event in the same D3 cycle -/
  | intPendClear (t : Nat) (w : Fin 8) (mask : BitVec 32) (coinc : BitVec 32)
  /-- EVENT_RECORD_ARRIVAL (R313) -/
  | eventArrival (t : Nat)
  /-- BUCKET_REFILL (R313): bucket entry i, 1,024 for the default bucket -/
  | bucketRefill (t : Nat) (i : Fin 1025)
  /-- ORDERING_RELEASE (R312) -/
  | orderingRelease (t : Nat)
  /-- COMMIT_TIMEOUT (R314) -/
  | commitTimeout (t : Nat)
  /-- EVR_COMMIT (R315) -/
  | evrCommit (t : Nat) (bad : Option Nat)
  /-- FROST_START (R322) -/
  | frostStart (t : Nat)
  /-- FROST_END (R322) -/
  | frostEnd (t : Nat)
  /-- FROST_TMO (R322) -/
  | frostTmo (t : Nat)
  /-- RSV_CLR (R324) -/
  | rsvClr (t : Nat) (by' : Acc)
  /-- RDW7_READ (R321) -/
  | rdw7Read (t : Nat)
  /-- LOG_CLEAR (R323) -/
  | logClear (t : Nat) (crc : BitVec 8)
  /-- LOG_CLEAR_COMPLETE (R323): `bad`: the slot whose erase fails its verify; whether the write of CLEARED fails its read-back -/
  | logClearComplete (t : Nat) (bad : LogFault)
  /-- RECORD_CLOSE (R331) -/
  | recordClose (t : Nat)
  /-- DRC_ARM (R333) -/
  | drcArm (t : Nat)
  /-- DRC_DISARM (R331) -/
  | drcDisarm (t : Nat)
  /-- DRC_REL (R331) -/
  | drcRel (t : Nat) (entry : Fin 1024)
  /-- MSK_PDATA_WRITE (R333) -/
  | mskPdataWrite (t : Nat) (by' : Acc) (m : Fin 16) (v : BitVec 32)
  /-- EXPORT (R334) -/
  | exportExec (t : Nat) (arg : BitVec 64) (crc : BitVec 8)
  /-- EXPORT_COMPLETE (R334) -/
  | exportComplete (t : Nat)
  /-- EXPORT_DONE (R334) -/
  | exportDone (t : Nat)
  /-- APW_PERIOD_BOUNDARY (R339) -/
  | apwBoundary (t : Nat) (c : Fin 12)
  /-- APW_TRIP_ACTIVE (R343): the filtered input becomes active, or inactive again -/
  | apwTrip (t : Nat) (i : Fin 8) (active : Bool)
  /-- BLANK_WINDOW_END (R344) -/
  | blankEnd (t : Nat) (i : Fin 8)
  /-- APW_FLT_N_LOW (R345) -/
  | apwFltLow (t : Nat)
  /-- FLT_CLR (R345) -/
  | fltClr (t : Nat)
  /-- TRIP_CLR (R343) -/
  | tripClr (t : Nat) (c : Fin 12)
  /-- FORCE_GO (R347): AT_BND of the written word -/
  | forceGo (t : Nat) (atBnd : Bool)
  /-- TAMPER (R359) -/
  | tamper (t : Nat) (i : Fin 4)
  /-- PRIV_KEY_RELOAD (R359) -/
  | privKeyReload (t : Nat)
  /-- TAMP_CLEAR (R359): the value written to MEM_TAMP_STAT -/
  | tampClear (t : Nat) (by' : Acc) (v : BitVec 32)
  /-- UNPOWERED_TAMPER (R360) -/
  | unpoweredTamper (t : Nat) (i : Fin 4)
  /-- WINTER_REQUEST (R361): bit i of MEM_WIN_TILE, or of MEM_WIN_CB -/
  | winterRequest (t : Nat) (cb : Bool) (i : Fin 32)
  /-- WINTER_WAKE (R362) -/
  | winterWake (t : Nat) (cb : Bool) (i : Fin 32)
  /-- WINTER_READY (R362) -/
  | winterReady (t : Nat) (cb : Bool) (i : Fin 32)
  /-- READ (R386): n + 1 words; `errs`: what the check bits of each word of memory show (none listed: no error) -/
  | read (t : Nat) (addr : BitVec 40) (n : Fin 64) (errs : List EccErr) (crc : BitVec 8)
  /-- WRITE (R386): `lost`: a word meets a port-A write of the staging DPRAM in the same D3 cycle -/
  | write (t : Nat) (addr : BitVec 40) (ws : List (BitVec 32)) (lost : Bool) (crc : BitVec 8)
  /-- CS_N_EARLY_RISE (R387) -/
  | csEarlyRise (t : Nat)
  /-- LOAD (R372) -/
  | load (t : Nat) (arg : BitVec 64) (crc : BitVec 8)
  /-- LOAD_COMPLETE (R372) -/
  | loadComplete (t : Nat)
  /-- SWITCH (R375) -/
  | switch (t : Nat) (arg : BitVec 64) (crc : BitVec 8)
  /-- SWITCH_VERIFIED (R375) -/
  | switchVerified (t : Nat)
  /-- SWITCH_INSTANT (R377) -/
  | switchInstant (t : Nat)
  /-- ACTIVATION_WORD_WRITTEN (R374) -/
  | activationWordWritten (t : Nat)
  /-- UPDATE (R378) -/
  | update (t : Nat) (arg : BitVec 64) (crc : BitVec 8)
  /-- UPDATE_COMPLETE (R378) -/
  | updateComplete (t : Nat)
  /-- LC (R384) -/
  | lc (t : Nat) (arg : BitVec 64) (crc : BitVec 8)
  /-- LC_COMPLETE (R384) -/
  | lcComplete (t : Nat)
  /-- PRIV_OPEN (R389) -/
  | privOpen (t : Nat) (tag : BitVec 128) (crc : BitVec 8)
  /-- PRIV_CLOSE (R389) -/
  | privClose (t : Nat) (crc : BitVec 8)
  /-- EXEC_NOP (R386) -/
  | execNop (t : Nat) (crc : BitVec 8)
  /-- PRIV_TIMEOUT (R389) -/
  | privTimeout (t : Nat)
  /-- LOCKOUT_EXPIRY (R389) -/
  | lockoutExpiry (t : Nat)
  /-- LIFETIME_SAVE_TIMER (R390) -/
  | lifetimeSaveTimer (t : Nat) (saveOk : Bool)
  /-- SAVE (R390) -/
  | save (t : Nat) (saveOk : Bool)
  /-- CALENDAR_SECOND (R391) -/
  | calendarSecond (t : Nat)
  /-- CAL_SET (R391): the value written to AON_CAL_SET_HI -/
  | calSet (t : Nat) (by' : Acc) (hi : BitVec 32)
  /-- QUAD_PD (R69) -/
  | quadPd (t : Nat) (q : Fin 18) (pd : Bool)
  /-- QUAD_PLL_LOCKED (R69) -/
  | quadPllLocked (t : Nat) (q : Fin 18)
  /-- SLEEP_REQUEST (R67): the value written to LPH_LANEl_PWR -/
  | sleepRequest (t : Nat) (lane : Fin 72) (v : BitVec 32)
  /-- SIGNAL_DETECT_RISE (R68) -/
  | signalDetectRise (t : Nat) (lane : Fin 72)
  /-- TXEQ_WRITE (R72) -/
  | txeqWrite (t : Nat) (lane : Fin 72) (v : BitVec 32)
  /-- ADAPT_RESTART (R72) -/
  | adaptRestart (t : Nat) (lane : Fin 72)
  /-- EYE_SCAN_RUN (R73): the value written to LPH_LANEl_EYE -/
  | eyeScanRun (t : Nat) (lane : Fin 72) (v : BitVec 32)
  /-- EYE_SCAN_DONE (R73): the margins measured -/
  | eyeScanDone (t : Nat) (lane : Fin 72) (h v : BitVec 8)
  /-- LOOP_PATTERN_WRITE (R74): the value written to LPH_LANEl_TEST -/
  | loopPatternWrite (t : Nat) (lane : Fin 72) (v : BitVec 32)
  /-- REIDENT (R118) -/
  | reident (t : Nat) (port : Fin 64)
  /-- RESESSION (R118) -/
  | resession (t : Nat) (port : Fin 64)
  /-- QUAR_CLEAR (R133) -/
  | quarClear (t : Nat) (port : Fin 64) (hi : Bool) (v : BitVec 32)
  /-- MDU_AUX (R160): the word written to MDU_AUX -/
  | mduAux (t : Nat) (v : BitVec 32)
  /-- CLU_COMMIT (R182): the bits written to CLU_COMMIT_LO, or to CLU_COMMIT_HI -/
  | cluCommit (t : Nat) (hi : Bool) (mask : BitVec 32)
  /-- PRESET (R181) -/
  | preset (t : Nat) (slot : Fin 64)
  /-- SCH_ARM (R185): LATE_OK of the written word -/
  | schArm (t : Nat) (slot : Fin 64) (lateOk : Bool)
  /-- SWAP (R209): LATE_OK of the written word -/
  | swap (t : Nat) (c : Fin 8) (lateOk : Bool)
  /-- ADMIT (R207) -/
  | admitCluster (t : Nat) (c : Fin 8)
  /-- Q_STAT_READ (R200) -/
  | qStatRead (t : Nat) (q : Fin 8)
  /-- CONF_READ (R355) -/
  | confRead (t : Nat) (m : Fin 16)
  /-- SE_PDATA_WRITE (R208) -/
  | sePdataWrite (t : Nat) (n : Fin 32) (v : BitVec 32)
  /-- SE_PDATA_READ (R208) -/
  | sePdataRead (t : Nat) (n : Fin 32)
  /-- REGISTER_WRITE (R5) -/
  | registerWrite (t : Nat) (by' : Acc) (addr : BitVec 40) (v : BitVec 32)
  /-- THERMAL_TRIP_END (R398) -/
  | thermalTripEnd (t : Nat) (uid : Bool)
  /-- SUPPLY_RECOVERY (R398) -/
  | supplyRecovery (t : Nat) (r : Rail) (uid : Bool)
  /-- APW_FLT_N_HIGH (R345) -/
  | apwFltHigh (t : Nat)
  /-- PATROL_SCRUB (R351): the word read, and what its check bits show -/
  | patrolScrub (t : Nat) (addr : BitVec 40) (err : EccErr)
  /-- MONITOR_WORD_GAP (R266) -/
  | monitorWordGap (t : Nat) (c : Fin 8)
  /-- SCP_RESTART_COMPLETE (R378) -/
  | scpRestartComplete (t : Nat)
deriving DecidableEq, Repr

end Sys2Proof
end

