-- ==== Sys2Proof/WellFormed.lean ====
section
/-! DEFINITION. Well-formed commands: operands that the hardware can be given. The types of the operands bound registers,
ports and channels already; the checks here bound the rest. -/

namespace Sys2Proof

/-- The count of the time base at which a command occurs; an instruction of a signal engine carries none. -/
def Instr.time : Instr → Option Nat
  | .powerOnReset t _ => some t
  | .porstAssert t => some t
  | .porstRelease t _ => some t
  | .bootImageSelect t => some t
  | .logRecovery t _ => some t
  | .wipeComplete t => some t
  | .buttonPress t => some t
  | .buttonRelease t _ => some t
  | .buttonStuck t => some t
  | .buttonUnstuck t => some t
  | .thermalTrip t => some t
  | .mgcWatchdog t _ => some t
  | .jtagReset t _ => some t
  | .vcoreLoss t => some t
  | .vsafLoss t => some t
  | .d3Loss t => some t
  | .d9Loss t => some t
  | .pfailFall t _ _ => some t
  | .pfailAcceptEnd t => some t
  | .pfailRecovered t _ => some t
  | .vbatLow t => some t
  | .cycleStart t => some t
  | .timeBlockSend t _ _ => some t
  | .p0Release t => some t
  | .rankComplete t _ => some t
  | .phaseRelease t _ => some t
  | .phaseComplete t _ => some t
  | .sendPoint t => some t
  | .downFrameSend t => some t
  | .blockReceived t _ _ _ _ _ => some t
  | .blockLockAcquired t _ => some t
  | .blockLockLost t _ => some t
  | .rateMatch t _ => some t
  | .blockSetReceived t _ => some t
  | .collectFrame t _ _ _ => some t
  | .downFrame t _ _ => some t
  | .identFrame t _ _ => some t
  | .tstampFrame t _ _ _ => some t
  | .identifyRetry t _ => some t
  | .sessionStart t _ => some t
  | .relayFrame t _ _ => some t
  | .partnerFrame t _ => some t
  | .cycleJudgement t => some t
  | .partnerLinkUp t _ _ => some t
  | .partnerLinkDown t _ => some t
  | .partnerLinkDown64 t => some t
  | .claimWaitExpiry t => some t
  | .reclaimSettle t => some t
  | .nop _ _ => none
  | .fadd _ _ _ _ _ => none
  | .fsub _ _ _ _ _ => none
  | .fmul _ _ _ _ _ => none
  | .fma _ _ _ _ _ _ => none
  | .fms _ _ _ _ _ _ => none
  | .fmin _ _ _ _ _ => none
  | .fmax _ _ _ _ _ => none
  | .fabs _ _ _ _ => none
  | .fneg _ _ _ _ => none
  | .fclamp _ _ _ _ _ _ => none
  | .fslt _ _ _ _ _ => none
  | .fseq _ _ _ _ _ => none
  | .f2i _ _ _ _ => none
  | .i2f _ _ _ _ => none
  | .frcpe _ _ _ _ => none
  | .frsqe _ _ _ _ => none
  | .tap _ _ _ _ _ _ => none
  | .mac _ _ _ _ _ => none
  | .macu _ _ _ _ _ => none
  | .mul64 _ _ _ _ _ => none
  | .accrd _ _ _ _ _ => none
  | .mul _ _ _ _ _ => none
  | .add _ _ _ _ _ => none
  | .sub _ _ _ _ _ => none
  | .andW _ _ _ _ _ => none
  | .orW _ _ _ _ _ => none
  | .xorW _ _ _ _ _ => none
  | .shl _ _ _ _ _ => none
  | .shr _ _ _ _ _ => none
  | .sar _ _ _ _ _ => none
  | .addi _ _ _ _ _ => none
  | .slt _ _ _ _ _ => none
  | .sel _ _ _ _ _ _ => none
  | .lil _ _ _ _ => none
  | .lih _ _ _ _ => none
  | .lw _ _ _ _ _ _ => none
  | .sw _ _ _ _ _ _ => none
  | .lwi _ _ _ _ _ _ => none
  | .swi _ _ _ _ _ _ => none
  | .lw2 _ _ _ _ _ _ => none
  | .sw2 _ _ _ _ _ _ => none
  | .lds _ _ _ _ _ _ => none
  | .ldsi _ _ _ _ _ _ => none
  | .sts _ _ _ _ _ => none
  | .ldc _ _ _ _ _ _ => none
  | .stc _ _ _ _ _ _ => none
  | .fence _ _ => none
  | .bnz _ _ _ _ => none
  | .bz _ _ _ _ => none
  | .loop _ _ _ => none
  | .loopn _ _ _ => none
  | .setlc _ _ _ _ => none
  | .dlx _ _ _ => none
  | .spawn _ _ _ _ => none
  | .endTask _ _ => none
  | .outstandingComplete t _ _ => some t
  | .taskComplete t _ _ => some t
  | .descriptorDispatch t _ _ => some t
  | .boundExceeded t _ => some t
  | .admissionComplete t _ _ => some t
  | .dsWord t _ _ _ _ => some t
  | .mdxLoss t _ => some t
  | .sarTrigger t _ _ => some t
  | .sarConversion t _ _ => some t
  | .sarStart t _ => some t
  | .sarUrgent t _ _ => some t
  | .svLost t _ => some t
  | .psiEdge t _ _ => some t
  | .psiTimeout t _ => some t
  | .cal t _ => some t
  | .calComplete t _ => some t
  | .recal t _ => some t
  | .recalComplete t _ _ => some t
  | .calFactorWrite t _ _ _ => some t
  | .stationFrame t _ _ => some t
  | .ringTailWrite t _ _ _ _ => some t
  | .txFrameSent t _ => some t
  | .dupExpiry t _ => some t
  | .lanSilent t _ => some t
  | .stationLink t _ _ => some t
  | .ofsIn t _ => some t
  | .timeStep t _ => some t
  | .sourceLost t _ => some t
  | .ppsInEdge t => some t
  | .ppsInMissing t => some t
  | .ppsOutStart t => some t
  | .ppsOutEnd t => some t
  | .stepRearm t _ => some t
  | .tsiEdge t _ _ _ => some t
  | .tsiPop t _ => some t
  | .timeLoRead t => some t
  | .tsoGo t _ _ => some t
  | .tsoAction t _ => some t
  | .tsoPeriodicEdge t _ => some t
  | .sinChange t _ _ _ _ => some t
  | .discrepancyLatch t _ => some t
  | .stopComplete t => some t
  | .tstopExpiry t => some t
  | .release t _ => some t
  | .ack t _ _ => some t
  | .stopReq t _ => some t
  | .blockReq t _ => some t
  | .selfTestFailure t _ => some t
  | .releaseReq t _ => some t
  | .relClr t _ => some t
  | .eqxGo t _ _ => some t
  | .fcoMessage t _ => some t
  | .thaw t _ => some t
  | .fcoAck t _ _ => some t
  | .fcoInj t _ => some t
  | .intPendClear t _ _ _ => some t
  | .eventArrival t => some t
  | .bucketRefill t _ => some t
  | .orderingRelease t => some t
  | .commitTimeout t => some t
  | .evrCommit t _ => some t
  | .frostStart t => some t
  | .frostEnd t => some t
  | .frostTmo t => some t
  | .rsvClr t _ => some t
  | .rdw7Read t => some t
  | .logClear t _ => some t
  | .logClearComplete t _ => some t
  | .recordClose t => some t
  | .drcArm t => some t
  | .drcDisarm t => some t
  | .drcRel t _ => some t
  | .mskPdataWrite t _ _ _ => some t
  | .exportExec t _ _ => some t
  | .exportComplete t => some t
  | .exportDone t => some t
  | .apwBoundary t _ => some t
  | .apwTrip t _ _ => some t
  | .blankEnd t _ => some t
  | .apwFltLow t => some t
  | .fltClr t => some t
  | .tripClr t _ => some t
  | .forceGo t _ => some t
  | .tamper t _ => some t
  | .privKeyReload t => some t
  | .tampClear t _ _ => some t
  | .unpoweredTamper t _ => some t
  | .winterRequest t _ _ => some t
  | .winterWake t _ _ => some t
  | .winterReady t _ _ => some t
  | .read t _ _ _ _ => some t
  | .write t _ _ _ _ => some t
  | .csEarlyRise t => some t
  | .load t _ _ => some t
  | .loadComplete t => some t
  | .switch t _ _ => some t
  | .switchVerified t => some t
  | .switchInstant t => some t
  | .activationWordWritten t => some t
  | .update t _ _ => some t
  | .updateComplete t => some t
  | .lc t _ _ => some t
  | .lcComplete t => some t
  | .privOpen t _ _ => some t
  | .privClose t _ => some t
  | .execNop t _ => some t
  | .privTimeout t => some t
  | .lockoutExpiry t => some t
  | .lifetimeSaveTimer t _ => some t
  | .save t _ => some t
  | .calendarSecond t => some t
  | .calSet t _ _ => some t
  | .quadPd t _ _ => some t
  | .quadPllLocked t _ => some t
  | .sleepRequest t _ _ => some t
  | .signalDetectRise t _ => some t
  | .txeqWrite t _ _ => some t
  | .adaptRestart t _ => some t
  | .eyeScanRun t _ _ => some t
  | .eyeScanDone t _ _ _ => some t
  | .loopPatternWrite t _ _ => some t
  | .reident t _ => some t
  | .resession t _ => some t
  | .quarClear t _ _ _ => some t
  | .mduAux t _ => some t
  | .cluCommit t _ _ => some t
  | .preset t _ => some t
  | .schArm t _ _ => some t
  | .swap t _ _ => some t
  | .admitCluster t _ => some t
  | .qStatRead t _ => some t
  | .confRead t _ => some t
  | .sePdataWrite t _ _ => some t
  | .sePdataRead t _ => some t
  | .registerWrite t _ _ _ => some t
  | .thermalTripEnd t _ => some t
  | .supplyRecovery t _ _ => some t
  | .apwFltHigh t => some t
  | .patrolScrub t _ _ => some t
  | .monitorWordGap t _ => some t
  | .scpRestartComplete t => some t

/-- The count has 64 bits (R242). -/
def timeOk (i : Instr) : Bool :=
  match i.time with
  | some t => decide (t < 2 ^ 64)
  | none => true

/-- A slot of the event log (R316), where one is named. -/
def slotOk (bad : Option Nat) : Bool :=
  match bad with
  | some b => decide (b < 131072)
  | none => true

/-- A frame of a ring: at least SOF and EOF, at most the longest collect frame, TAG and IDENT slots of 64 positions. -/
def frameOk (fs : List Blk) : Bool := decide (2 ≤ fs.length) && decide (fs.length ≤ 1024)

/-- Checks that one command's own operands call for. -/
def operandsOk (i : Instr) : Bool :=
  match i with
  | .powerOnReset _ causes => !causes.isEmpty
  | .logRecovery _ bad => slotOk bad.slot
  | .logClearComplete _ bad => slotOk bad.slot
  | .collectFrame _ _ _ fs => frameOk fs
  | .downFrame _ _ fs => frameOk fs
  | .identFrame _ _ fs => frameOk fs
  | .tstampFrame _ _ _ fs => frameOk fs
  | .relayFrame _ _ fs => frameOk fs
  | .fcoMessage _ ms => !ms.isEmpty
  | .read _ _ n errs _ => decide (errs.length ≤ n.val + 1)
  | .write _ _ ws _ _ => !ws.isEmpty && decide (ws.length ≤ 64)
  | .cal _ x => decide (x.raws.length = 12)
  | .calComplete _ raws => decide (raws.length = 2)
  | .winterRequest _ cb i => !cb || decide (i.val < 8)
  | .winterWake _ cb i => !cb || decide (i.val < 8)
  | .winterReady _ cb i => !cb || decide (i.val < 8)
  | .stationFrame _ _ f => decide (14 ≤ f.bytes.length)
  | _ => true

/-- A well-formed command. -/
def Instr.wf (i : Instr) : Bool := timeOk i && operandsOk i

end Sys2Proof
end

