-- ==== Sys2Proof/Decode.lean ====
section
/-! DEFINITION. Decoding by the opcode table: no row of it gives bits (each row's field list is empty), so no word spells a
command. The words of signal-engine programs have their codec beside their operands (Machine/Operands.lean). -/

namespace Sys2Proof

/-- The command that a word of `nbits` bits spells: none, since the table gives no row any bits. -/
def decodeTableWord (_nbits _w : Nat) : Option Instr := none

end Sys2Proof
end

