-- ==== Sys2Proof/Config.lean ====
section
/-! DEFINITION. What an implementation fixes and the free values: constants without a body, so that no proof can see
what they are (log entries 3 to 8). -/

namespace Sys2Proof.Config

/-- IEC 62351-6 MAC check of a station frame: algorithm, key, frame bytes (R236). -/
opaque stationMacOk : Nat → BitVec 256 → List Byte → Bool

/-- Serial number of the unit (SYS_SERIAL): fixed at manufacture, no value in the spec. -/
opaque serial : BitVec 56
/-- Silicon revision of SYS_ID: major and minor. -/
opaque revision : BitVec 16

/-- A fresh free value: the n-th value that the spec leaves open, at each width. -/
opaque free32 : Nat → BitVec 32
opaque free64 : Nat → BitVec 64
opaque free128 : Nat → BitVec 128
opaque freeBool : Nat → Bool
opaque freeNat : Nat → Nat

/-- Reciprocal and reciprocal square-root estimates (FRCPE, FRSQE): their value within the bound of Table 8.2. -/
opaque rcpEstimate : BitVec 32 → BitVec 32
opaque rsqEstimate : BitVec 32 → BitVec 32
/-- Whether tininess is detected after rounding (IEEE 754 leaves it open). -/
opaque tinyAfter : Bool
/-- Whether FMIN and FMAX of two zeros of different sign take the first operand. -/
opaque zeroFirst : Bool
/-- Whether a quiet NaN operand of FSLT or FSEQ, and a NaN operand of F2I, counts as an invalid operation. -/
opaque cmpNanInvalid : Bool
/-- Whether F2I of a value outside int32 counts as an invalid operation besides SAT. -/
opaque f2iRangeInvalid : Bool
/-- Whether the checker of lane l synchronises on the n-th span of 66 bits that it sees (R75 gives no criterion). -/
opaque prbsLock : Nat → Nat → Bool
/-- Start state of a pattern generator (R75). -/
opaque prbsSeed : Nat → BitVec 31

/-- SOF content of a partner frame below its FTYPE (Table 12.2: it holds CYCLE, and the spec does not say where). -/
opaque partnerSof : BitVec 32 → BitVec 48
/-- Packing of the entries of the mirror records (Table 12.4 gives their contents and lengths), and the argument of a record's
header. -/
opaque packTrans : TransRec → BitVec 32
opaque packCond : CondRec → BitVec 32
opaque packArm : ArmRec → BitVec 192
opaque packClu : CluRec → BitVec 352
opaque packSig : Nat → Word → BitVec 64
opaque packTile : Nat → Nat → BitVec 32
opaque mirrorArg : Nat → Nat → BitVec 16
/-- Bytes that fill a mirror up to whole blocks. -/
opaque mirrorFill : Nat → Byte
/-- The control area of a partner frame: STOP and BLOCK orders, frame number (R281 gives no layout). -/
opaque controlArea : Bool → Bool → Nat → List (BitVec 64)
/-- The mirror that the blocks between lease record and tag block of a partner frame carry. -/
opaque mirrorOf : List (BitVec 64) → Option Mirror

/-- End-to-end delay in 1/64 ns of a ring as last mirrored (Table 10.6 uses it; no record of Table 12.4 carries it): ring, MIR_ACK. -/
opaque ringDelay : Nat → BitVec 32 → Int

/-- Sequence word that the read window shows for the n-th buffered record, to which none is assigned yet (R321). -/
opaque bufSeq : Nat → BitVec 32

/-- The ports that LANSEL = 0b11 sends a frame to; the spec gives that code no meaning (Table 10.3). -/
opaque lanselReserved : Bool × Bool

/-- The mirror list of a MIRROR record's body: signals, tile-word runs (engine, tile address, words), CLU slots. The spec
names the contents and not their packing (Table 17.3). -/
opaque mirrorList : List Byte → List Nat × List (Nat × Nat × Nat) × List Nat
/-- A RECDEF record's body: register offsets with their words, mask points (mask x 4,096 + 2,048 for the upper envelope +
index) with their words. The spec names the contents and not their packing. -/
opaque recorderDefs : List Byte → List (Nat × BitVec 32) × List (Nat × BitVec 32)

/-- A byte of a lifetime copy between the tables that Table 17.15 lays out (offset 0x528 on). -/
opaque ltGap : Nat → Byte
/-- A byte of a lifetime copy whose save failed: SEQ of the save, offset. -/
opaque ltTorn : Nat → Nat → Byte
/-- A byte of an epoch cell of R390, whose layout the spec does not give: epoch, offset. -/
opaque epochCell : BitVec 32 → Nat → Byte

/-- Whether a quotient that the spec does not say how to round is rounded up: numerator, denominator. -/
opaque roundUp : Int → Nat → Bool

end Sys2Proof.Config
end

