-- ==== Sys2Proof/Machine/Regs.lean ====
section
/-! DEFINITION. The register map of the BDG-4096: every register of every block (Tables 1.8 to 17.22 of spec/),
its offset from 0x03_0000_0000, its fields, their access types (Table 0.3) and their reset values.
`R.X` is a register's offset, `F.X_Y` the field Y of it. A register family has its index or indices as arguments. -/

namespace Sys2Proof.Machine

/-- A register field: the register's offset from 0x03_0000_0000, its lowest bit and its width. -/
structure RF where
  addr : Nat
  lo : Nat
  w : Nat
deriving DecidableEq, Repr

/-- Access types of Table 0.3 (00_scope.md). -/
inductive FTy where
  | rw | ro | w1c | w1s | wo | rwl
deriving DecidableEq, Repr

/-- One field of the map: place, type, whether it keeps its value across warm reset (ST), reset value. -/
structure FRow where
  lo : Nat
  w : Nat
  ty : FTy
  st : Bool
  rst : Nat
deriving DecidableEq, Repr

/-- A register family: base, outer count and stride, inner count and stride, fields. -/
structure RRow where
  base : Nat
  c1 : Nat
  s1 : Nat
  c2 : Nat
  s2 : Nat
  fields : List FRow
deriving DecidableEq, Repr

/-- INT_CTL (01 Table 1.9). -/
def R.INT_CTL : Nat := 0x880000
def F.INT_CTL_HINT_GLOBAL_EN : RF := ⟨R.INT_CTL, 0, 1⟩

/-- INT_PEND (01 Table 1.8, R24). -/
def R.INT_PEND (i : Nat) : Nat := 0x880010 + i * 4
def F.INT_PEND_PEND (i : Nat) : RF := ⟨R.INT_PEND i, 0, 32⟩

/-- INT_ENA (01 Table 1.8). -/
def R.INT_ENA (i : Nat) : Nat := 0x880030 + i * 4
def F.INT_ENA_ENA (i : Nat) : RF := ⟨R.INT_ENA i, 0, 32⟩

/-- INT_HINT_STAT (01 Table 1.10, R25). -/
def R.INT_HINT_STAT (i : Nat) : Nat := 0x880050 + i * 4
def F.INT_HINT_STAT_ANY (i : Nat) : RF := ⟨R.INT_HINT_STAT i, 31, 1⟩
def F.INT_HINT_STAT_SRC (i : Nat) : RF := ⟨R.INT_HINT_STAT i, 0, 8⟩

/-- INT_SRC_CFG (01 Table 1.11). -/
def R.INT_SRC_CFG (i : Nat) : Nat := 0x880400 + i * 4
def F.INT_SRC_CFG_CNT (i : Nat) : RF := ⟨R.INT_SRC_CFG i, 8, 8⟩
def F.INT_SRC_CFG_TO_EVR (i : Nat) : RF := ⟨R.INT_SRC_CFG i, 5, 1⟩
def F.INT_SRC_CFG_TO_MGC (i : Nat) : RF := ⟨R.INT_SRC_CFG i, 4, 1⟩
def F.INT_SRC_CFG_HINT_EN (i : Nat) : RF := ⟨R.INT_SRC_CFG i, 2, 1⟩
def F.INT_SRC_CFG_HINT_SEL (i : Nat) : RF := ⟨R.INT_SRC_CFG i, 0, 2⟩

/-- TDS_CYC_TC (02 Table 2.9, R31). -/
def R.TDS_CYC_TC : Nat := 0x480000
def F.TDS_CYC_TC_TC_STEPS : RF := ⟨R.TDS_CYC_TC, 0, 12⟩

/-- TDS_CYC_P0 (02 Table 2.10, R37). -/
def R.TDS_CYC_P0 : Nat := 0x480004
def F.TDS_CYC_P0_P0_Q : RF := ⟨R.TDS_CYC_P0, 0, 13⟩

/-- TDS_CYC_B (02 Table 2.11, R38). -/
def R.TDS_CYC_B (i : Nat) : Nat := 0x480008 + i * 4
def F.TDS_CYC_B_BN_Q (i : Nat) : RF := ⟨R.TDS_CYC_B i, 0, 13⟩

/-- TDS_CYC_WIN (02 Table 2.8, R39). -/
def R.TDS_CYC_WIN : Nat := 0x480028
def F.TDS_CYC_WIN_WIN : RF := ⟨R.TDS_CYC_WIN, 0, 16⟩

/-- TDS_DLM_CTL (02 Table 2.12). -/
def R.TDS_DLM_CTL : Nat := 0x480030
def F.TDS_DLM_CTL_OVR_LIMIT : RF := ⟨R.TDS_DLM_CTL, 4, 4⟩
def F.TDS_DLM_CTL_PHASE_LATE_NOTE : RF := ⟨R.TDS_DLM_CTL, 0, 1⟩

/-- TDS_DLM_STAT (02 Table 2.13). -/
def R.TDS_DLM_STAT : Nat := 0x480034
def F.TDS_DLM_STAT_OVR : RF := ⟨R.TDS_DLM_STAT, 31, 1⟩
def F.TDS_DLM_STAT_PLATE : RF := ⟨R.TDS_DLM_STAT, 30, 1⟩
def F.TDS_DLM_STAT_RANK_LATE : RF := ⟨R.TDS_DLM_STAT, 29, 1⟩
def F.TDS_DLM_STAT_LATE_PHASE : RF := ⟨R.TDS_DLM_STAT, 24, 3⟩
def F.TDS_DLM_STAT_RUN : RF := ⟨R.TDS_DLM_STAT, 20, 4⟩

/-- TDS_OVR_CNT (02 Table 2.8, R45). -/
def R.TDS_OVR_CNT : Nat := 0x480038
def F.TDS_OVR_CNT_V : RF := ⟨R.TDS_OVR_CNT, 0, 32⟩

/-- TDS_PLATE_CNT (02 Table 2.8, R44). -/
def R.TDS_PLATE_CNT : Nat := 0x48003c
def F.TDS_PLATE_CNT_V : RF := ⟨R.TDS_PLATE_CNT, 0, 32⟩

/-- TDS_DROP_CNT (02 Table 2.8, R45). -/
def R.TDS_DROP_CNT : Nat := 0x480040
def F.TDS_DROP_CNT_V : RF := ⟨R.TDS_DROP_CNT, 0, 32⟩

/-- TDS_PH_DONE (02 Table 2.14). -/
def R.TDS_PH_DONE (i : Nat) : Nat := 0x480060 + i * 4
def F.TDS_PH_DONE_T_DONE (i : Nat) : RF := ⟨R.TDS_PH_DONE i, 0, 16⟩

/-- TDS_RANK_DONE (02 Table 2.8). -/
def R.TDS_RANK_DONE : Nat := 0x480080
def F.TDS_RANK_DONE_T : RF := ⟨R.TDS_RANK_DONE, 0, 16⟩

/-- TDS_STAT (08 Table 8.11). -/
def R.TDS_STAT : Nat := 0x480100
def F.TDS_STAT_SPDROP : RF := ⟨R.TDS_STAT, 31, 1⟩
def F.TDS_STAT_BEXC : RF := ⟨R.TDS_STAT, 30, 1⟩
def F.TDS_STAT_MDROP : RF := ⟨R.TDS_STAT, 29, 1⟩
def F.TDS_STAT_PHASE : RF := ⟨R.TDS_STAT, 0, 3⟩

/-- TDS_Q_STAT (08 Table 8.12). -/
def R.TDS_Q_STAT (i : Nat) : Nat := 0x480110 + i * 4
def F.TDS_Q_STAT_PEAK (i : Nat) : RF := ⟨R.TDS_Q_STAT i, 16, 11⟩
def F.TDS_Q_STAT_DEPTH (i : Nat) : RF := ⟨R.TDS_Q_STAT i, 0, 11⟩

/-- TDS_ENG_MASK (08 Table 8.10, R206). -/
def R.TDS_ENG_MASK : Nat := 0x480130
def F.TDS_ENG_MASK_V : RF := ⟨R.TDS_ENG_MASK, 0, 32⟩

/-- TDS_HOST_MASK (08 Table 8.10, R206). -/
def R.TDS_HOST_MASK : Nat := 0x480134
def F.TDS_HOST_MASK_V : RF := ⟨R.TDS_HOST_MASK, 0, 32⟩

/-- TDS_SPDROP_CNT (08 Table 8.10, R205). -/
def R.TDS_SPDROP_CNT : Nat := 0x480138
def F.TDS_SPDROP_CNT_V : RF := ⟨R.TDS_SPDROP_CNT, 0, 32⟩

/-- TDS_MDROP_CNT (08 Table 8.10, R206). -/
def R.TDS_MDROP_CNT : Nat := 0x48013c
def F.TDS_MDROP_CNT_V : RF := ⟨R.TDS_MDROP_CNT, 0, 32⟩

/-- TDS_BEXC_CNT (08 Table 8.10, R204). -/
def R.TDS_BEXC_CNT : Nat := 0x480140
def F.TDS_BEXC_CNT_V : RF := ⟨R.TDS_BEXC_CNT, 0, 32⟩

/-- TDS_CL_CTL (08 Table 8.13, R207, R209). -/
def R.TDS_CL_CTL (i : Nat) : Nat := 0x480150 + i * 4
def F.TDS_CL_CTL_SWAP (i : Nat) : RF := ⟨R.TDS_CL_CTL i, 31, 1⟩
def F.TDS_CL_CTL_LATE_OK (i : Nat) : RF := ⟨R.TDS_CL_CTL i, 30, 1⟩
def F.TDS_CL_CTL_SW_ST (i : Nat) : RF := ⟨R.TDS_CL_CTL i, 28, 2⟩
def F.TDS_CL_CTL_SW_REF (i : Nat) : RF := ⟨R.TDS_CL_CTL i, 27, 1⟩
def F.TDS_CL_CTL_ADMIT (i : Nat) : RF := ⟨R.TDS_CL_CTL i, 26, 1⟩
def F.TDS_CL_CTL_ADM_FAIL (i : Nat) : RF := ⟨R.TDS_CL_CTL i, 25, 1⟩
def F.TDS_CL_CTL_PSEL (i : Nat) : RF := ⟨R.TDS_CL_CTL i, 24, 1⟩
def F.TDS_CL_CTL_SHADOW_OK (i : Nat) : RF := ⟨R.TDS_CL_CTL i, 23, 1⟩
def F.TDS_CL_CTL_ISOL (i : Nat) : RF := ⟨R.TDS_CL_CTL i, 0, 4⟩

/-- TDS_CL_SWCYC (08 Table 8.10, R209). -/
def R.TDS_CL_SWCYC (i : Nat) : Nat := 0x480170 + i * 4
def F.TDS_CL_SWCYC_V (i : Nat) : RF := ⟨R.TDS_CL_SWCYC i, 0, 32⟩

/-- TDS_TT_ADDR (08 Table 8.10). -/
def R.TDS_TT_ADDR : Nat := 0x480190
def F.TDS_TT_ADDR_INDEX : RF := ⟨R.TDS_TT_ADDR, 0, 13⟩

/-- TDS_TT_DATA (08 Table 8.10). -/
def R.TDS_TT_DATA (i : Nat) : Nat := 0x480194 + i * 4
def F.TDS_TT_DATA_V (i : Nat) : RF := ⟨R.TDS_TT_DATA i, 0, 32⟩

/-- SE_STAT (08 Table 8.7). -/
def R.SE_STAT (i : Nat) : Nat := 0x500000 + i * 0x1000
def F.SE_STAT_TASK_ERR (i : Nat) : RF := ⟨R.SE_STAT i, 31, 1⟩
def F.SE_STAT_INV (i : Nat) : RF := ⟨R.SE_STAT i, 30, 1⟩
def F.SE_STAT_OVF (i : Nat) : RF := ⟨R.SE_STAT i, 29, 1⟩
def F.SE_STAT_UNF (i : Nat) : RF := ⟨R.SE_STAT i, 28, 1⟩
def F.SE_STAT_SAT (i : Nat) : RF := ⟨R.SE_STAT i, 27, 1⟩
def F.SE_STAT_BUSY (i : Nat) : RF := ⟨R.SE_STAT i, 26, 1⟩
def F.SE_STAT_MASKED (i : Nat) : RF := ⟨R.SE_STAT i, 25, 1⟩
def F.SE_STAT_ISOLATED (i : Nat) : RF := ⟨R.SE_STAT i, 24, 1⟩

/-- SE_ERR (08 Table 8.8, R197). -/
def R.SE_ERR (i : Nat) : Nat := 0x500004 + i * 0x1000
def F.SE_ERR_CODE (i : Nat) : RF := ⟨R.SE_ERR i, 28, 4⟩
def F.SE_ERR_TASK (i : Nat) : RF := ⟨R.SE_ERR i, 13, 13⟩
def F.SE_ERR_PC (i : Nat) : RF := ⟨R.SE_ERR i, 0, 13⟩

/-- SE_TASK_CNT (08 Table 8.6). -/
def R.SE_TASK_CNT (i : Nat) : Nat := 0x500008 + i * 0x1000
def F.SE_TASK_CNT_V (i : Nat) : RF := ⟨R.SE_TASK_CNT i, 0, 32⟩

/-- SE_ERR_CNT (08 Table 8.6, R197). -/
def R.SE_ERR_CNT (i : Nat) : Nat := 0x50000c + i * 0x1000
def F.SE_ERR_CNT_V (i : Nat) : RF := ⟨R.SE_ERR_CNT i, 0, 32⟩

/-- SE_BUSY (08 Table 8.6). -/
def R.SE_BUSY (i : Nat) : Nat := 0x500010 + i * 0x1000
def F.SE_BUSY_NS (i : Nat) : RF := ⟨R.SE_BUSY i, 0, 16⟩

/-- SE_PADDR (08 Table 8.9, R208). -/
def R.SE_PADDR (i : Nat) : Nat := 0x500020 + i * 0x1000
def F.SE_PADDR_PWR_ERR (i : Nat) : RF := ⟨R.SE_PADDR i, 14, 1⟩
def F.SE_PADDR_SLOT (i : Nat) : RF := ⟨R.SE_PADDR i, 13, 1⟩
def F.SE_PADDR_INDEX (i : Nat) : RF := ⟨R.SE_PADDR i, 0, 13⟩

/-- SE_PDATA (08 Table 8.6, R208). -/
def R.SE_PDATA (i : Nat) : Nat := 0x500024 + i * 0x1000
def F.SE_PDATA_V (i : Nat) : RF := ⟨R.SE_PDATA i, 0, 32⟩

/-- LPH_LANE_CTL (03 Table 3.7). -/
def R.LPH_LANE_CTL (i : Nat) : Nat := 0x200000 + i * 0x1000
def F.LPH_LANE_CTL_PRECODE (i : Nat) : RF := ⟨R.LPH_LANE_CTL i, 7, 1⟩
def F.LPH_LANE_CTL_TX_INV (i : Nat) : RF := ⟨R.LPH_LANE_CTL i, 6, 1⟩
def F.LPH_LANE_CTL_RX_INV (i : Nat) : RF := ⟨R.LPH_LANE_CTL i, 5, 1⟩
def F.LPH_LANE_CTL_MODE (i : Nat) : RF := ⟨R.LPH_LANE_CTL i, 0, 2⟩

/-- LPH_LANE_STAT (03 Table 3.8). -/
def R.LPH_LANE_STAT (i : Nat) : Nat := 0x200004 + i * 0x1000
def F.LPH_LANE_STAT_LOCK_LOST (i : Nat) : RF := ⟨R.LPH_LANE_STAT i, 31, 1⟩
def F.LPH_LANE_STAT_RM_OVF (i : Nat) : RF := ⟨R.LPH_LANE_STAT i, 30, 1⟩
def F.LPH_LANE_STAT_SLEEP_REFUSED (i : Nat) : RF := ⟨R.LPH_LANE_STAT i, 29, 1⟩
def F.LPH_LANE_STAT_LOOP_REFUSED (i : Nat) : RF := ⟨R.LPH_LANE_STAT i, 28, 1⟩
def F.LPH_LANE_STAT_TXEQ_ERR (i : Nat) : RF := ⟨R.LPH_LANE_STAT i, 27, 1⟩
def F.LPH_LANE_STAT_SIG_DET (i : Nat) : RF := ⟨R.LPH_LANE_STAT i, 7, 1⟩
def F.LPH_LANE_STAT_CDR_LOCK (i : Nat) : RF := ⟨R.LPH_LANE_STAT i, 6, 1⟩
def F.LPH_LANE_STAT_BLOCK_LOCK (i : Nat) : RF := ⟨R.LPH_LANE_STAT i, 5, 1⟩
def F.LPH_LANE_STAT_BLOCK_RX (i : Nat) : RF := ⟨R.LPH_LANE_STAT i, 4, 1⟩
def F.LPH_LANE_STAT_HBL_IDLE (i : Nat) : RF := ⟨R.LPH_LANE_STAT i, 3, 1⟩
def F.LPH_LANE_STAT_TX_ACTIVE (i : Nat) : RF := ⟨R.LPH_LANE_STAT i, 2, 1⟩
def F.LPH_LANE_STAT_INJECT (i : Nat) : RF := ⟨R.LPH_LANE_STAT i, 1, 1⟩

/-- LPH_LANE_PWR (03 Table 3.9, R67). -/
def R.LPH_LANE_PWR (i : Nat) : Nat := 0x200008 + i * 0x1000
def F.LPH_LANE_PWR_RX_AUTO_WAKE (i : Nat) : RF := ⟨R.LPH_LANE_PWR i, 2, 1⟩
def F.LPH_LANE_PWR_TX_SLEEP (i : Nat) : RF := ⟨R.LPH_LANE_PWR i, 1, 1⟩
def F.LPH_LANE_PWR_RX_SLEEP (i : Nat) : RF := ⟨R.LPH_LANE_PWR i, 0, 1⟩

/-- LPH_LANE_TXEQ (03 Table 3.10, R72). -/
def R.LPH_LANE_TXEQ (i : Nat) : Nat := 0x20000c + i * 0x1000
def F.LPH_LANE_TXEQ_PRE (i : Nat) : RF := ⟨R.LPH_LANE_TXEQ i, 18, 4⟩
def F.LPH_LANE_TXEQ_MAIN (i : Nat) : RF := ⟨R.LPH_LANE_TXEQ i, 12, 6⟩
def F.LPH_LANE_TXEQ_POST (i : Nat) : RF := ⟨R.LPH_LANE_TXEQ i, 7, 5⟩

/-- LPH_LANE_RXEQ (03 Table 3.11, R72). -/
def R.LPH_LANE_RXEQ (i : Nat) : Nat := 0x200010 + i * 0x1000
def F.LPH_LANE_RXEQ_ADAPT_FREEZE (i : Nat) : RF := ⟨R.LPH_LANE_RXEQ i, 31, 1⟩
def F.LPH_LANE_RXEQ_ADAPT_RESTART (i : Nat) : RF := ⟨R.LPH_LANE_RXEQ i, 30, 1⟩
def F.LPH_LANE_RXEQ_CTLE_CODE (i : Nat) : RF := ⟨R.LPH_LANE_RXEQ i, 16, 8⟩
def F.LPH_LANE_RXEQ_DFE1 (i : Nat) : RF := ⟨R.LPH_LANE_RXEQ i, 8, 8⟩
def F.LPH_LANE_RXEQ_VGA (i : Nat) : RF := ⟨R.LPH_LANE_RXEQ i, 0, 8⟩

/-- LPH_LANE_EYE (03 Table 3.12, R73). -/
def R.LPH_LANE_EYE (i : Nat) : Nat := 0x200014 + i * 0x1000
def F.LPH_LANE_EYE_RUN (i : Nat) : RF := ⟨R.LPH_LANE_EYE i, 31, 1⟩
def F.LPH_LANE_EYE_DONE (i : Nat) : RF := ⟨R.LPH_LANE_EYE i, 30, 1⟩
def F.LPH_LANE_EYE_EYE_SEL (i : Nat) : RF := ⟨R.LPH_LANE_EYE i, 28, 2⟩
def F.LPH_LANE_EYE_HMARGIN (i : Nat) : RF := ⟨R.LPH_LANE_EYE i, 8, 8⟩
def F.LPH_LANE_EYE_VMARGIN (i : Nat) : RF := ⟨R.LPH_LANE_EYE i, 0, 8⟩

/-- LPH_LANE_TEST (03 Table 3.13, R74). -/
def R.LPH_LANE_TEST (i : Nat) : Nat := 0x200018 + i * 0x1000
def F.LPH_LANE_TEST_LOOP (i : Nat) : RF := ⟨R.LPH_LANE_TEST i, 28, 3⟩
def F.LPH_LANE_TEST_GEN (i : Nat) : RF := ⟨R.LPH_LANE_TEST i, 22, 2⟩
def F.LPH_LANE_TEST_CHK (i : Nat) : RF := ⟨R.LPH_LANE_TEST i, 20, 2⟩
def F.LPH_LANE_TEST_CHK_LOCK (i : Nat) : RF := ⟨R.LPH_LANE_TEST i, 15, 1⟩

/-- LPH_LANE_HDR_ERR (03 Table 3.6, R57). -/
def R.LPH_LANE_HDR_ERR (i : Nat) : Nat := 0x200020 + i * 0x1000
def F.LPH_LANE_HDR_ERR_V (i : Nat) : RF := ⟨R.LPH_LANE_HDR_ERR i, 0, 32⟩

/-- LPH_LANE_LOCK_CNT (03 Table 3.6, R56). -/
def R.LPH_LANE_LOCK_CNT (i : Nat) : Nat := 0x200024 + i * 0x1000
def F.LPH_LANE_LOCK_CNT_V (i : Nat) : RF := ⟨R.LPH_LANE_LOCK_CNT i, 0, 32⟩

/-- LPH_LANE_RM_CNT (03 Table 3.6, R59). -/
def R.LPH_LANE_RM_CNT (i : Nat) : Nat := 0x200028 + i * 0x1000
def F.LPH_LANE_RM_CNT_INS (i : Nat) : RF := ⟨R.LPH_LANE_RM_CNT i, 16, 16⟩
def F.LPH_LANE_RM_CNT_DEL (i : Nat) : RF := ⟨R.LPH_LANE_RM_CNT i, 0, 16⟩

/-- LPH_LANE_UNK_CNT (03 Table 3.6, R54). -/
def R.LPH_LANE_UNK_CNT (i : Nat) : Nat := 0x20002c + i * 0x1000
def F.LPH_LANE_UNK_CNT_V (i : Nat) : RF := ⟨R.LPH_LANE_UNK_CNT i, 0, 32⟩

/-- LPH_LANE_PRBS_ERR (03 Table 3.6, R75). -/
def R.LPH_LANE_PRBS_ERR (i : Nat) : Nat := 0x200030 + i * 0x1000
def F.LPH_LANE_PRBS_ERR_V (i : Nat) : RF := ⟨R.LPH_LANE_PRBS_ERR i, 0, 32⟩

/-- LPH_QUAD_CTL (03 Table 3.14, R69). -/
def R.LPH_QUAD_CTL (i : Nat) : Nat := 0x248000 + i * 0x100
def F.LPH_QUAD_CTL_Q_REFUSED (i : Nat) : RF := ⟨R.LPH_QUAD_CTL i, 31, 1⟩
def F.LPH_QUAD_CTL_PLL_LOCK (i : Nat) : RF := ⟨R.LPH_QUAD_CTL i, 1, 1⟩
def F.LPH_QUAD_CTL_PD (i : Nat) : RF := ⟨R.LPH_QUAD_CTL i, 0, 1⟩

/-- RPU_PORT_CTL (05 Table 5.12). -/
def R.RPU_PORT_CTL (i : Nat) : Nat := 0x100000 + i * 0x4000
def F.RPU_PORT_CTL_RELAY_EN (i : Nat) : RF := ⟨R.RPU_PORT_CTL i, 3, 1⟩
def F.RPU_PORT_CTL_REIDENT (i : Nat) : RF := ⟨R.RPU_PORT_CTL i, 2, 1⟩
def F.RPU_PORT_CTL_RESESSION (i : Nat) : RF := ⟨R.RPU_PORT_CTL i, 1, 1⟩
def F.RPU_PORT_CTL_EN (i : Nat) : RF := ⟨R.RPU_PORT_CTL i, 0, 1⟩

/-- RPU_PORT_STAT (05 Table 5.13, R127). -/
def R.RPU_PORT_STAT (i : Nat) : Nat := 0x100004 + i * 0x4000
def F.RPU_PORT_STAT_PHASE (i : Nat) : RF := ⟨R.RPU_PORT_STAT i, 29, 3⟩
def F.RPU_PORT_STAT_BROKEN (i : Nat) : RF := ⟨R.RPU_PORT_STAT i, 28, 1⟩
def F.RPU_PORT_STAT_BRK_POS (i : Nat) : RF := ⟨R.RPU_PORT_STAT i, 22, 6⟩
def F.RPU_PORT_STAT_SM_ORIG (i : Nat) : RF := ⟨R.RPU_PORT_STAT i, 21, 1⟩
def F.RPU_PORT_STAT_ALL_TIMEOK (i : Nat) : RF := ⟨R.RPU_PORT_STAT i, 20, 1⟩
def F.RPU_PORT_STAT_MAP_ERR (i : Nat) : RF := ⟨R.RPU_PORT_STAT i, 19, 1⟩
def F.RPU_PORT_STAT_QUAR_NEW (i : Nat) : RF := ⟨R.RPU_PORT_STAT i, 18, 1⟩
def F.RPU_PORT_STAT_SLOW (i : Nat) : RF := ⟨R.RPU_PORT_STAT i, 17, 1⟩
def F.RPU_PORT_STAT_OVER_CAP (i : Nat) : RF := ⟨R.RPU_PORT_STAT i, 16, 1⟩
def F.RPU_PORT_STAT_BRK_UNK (i : Nat) : RF := ⟨R.RPU_PORT_STAT i, 15, 1⟩
def F.RPU_PORT_STAT_NFOUND (i : Nat) : RF := ⟨R.RPU_PORT_STAT i, 0, 7⟩

/-- RPU_PORT_GEOM (05 Table 5.11). -/
def R.RPU_PORT_GEOM (i : Nat) : Nat := 0x100008 + i * 0x4000
def F.RPU_PORT_GEOM_NCFG (i : Nat) : RF := ⟨R.RPU_PORT_GEOM i, 24, 7⟩
def F.RPU_PORT_GEOM_LEAD_B (i : Nat) : RF := ⟨R.RPU_PORT_GEOM i, 12, 10⟩
def F.RPU_PORT_GEOM_LEAD_A (i : Nat) : RF := ⟨R.RPU_PORT_GEOM i, 0, 10⟩

/-- RPU_PORT_QCFG (05 Table 5.11, R133). -/
def R.RPU_PORT_QCFG (i : Nat) : Nat := 0x10000c + i * 0x4000
def F.RPU_PORT_QCFG_Q_THR (i : Nat) : RF := ⟨R.RPU_PORT_QCFG i, 24, 8⟩
def F.RPU_PORT_QCFG_QWIN (i : Nat) : RF := ⟨R.RPU_PORT_QCFG i, 0, 16⟩

/-- RPU_PORT_QUAR_LO (05 Table 5.11, R133). -/
def R.RPU_PORT_QUAR_LO (i : Nat) : Nat := 0x100010 + i * 0x4000
def F.RPU_PORT_QUAR_LO_V (i : Nat) : RF := ⟨R.RPU_PORT_QUAR_LO i, 0, 32⟩

/-- RPU_PORT_QUAR_HI (05 Table 5.11, R133). -/
def R.RPU_PORT_QUAR_HI (i : Nat) : Nat := 0x100014 + i * 0x4000
def F.RPU_PORT_QUAR_HI_V (i : Nat) : RF := ⟨R.RPU_PORT_QUAR_HI i, 0, 32⟩

/-- RPU_PORT_VALID_CNT (05 Table 5.11). -/
def R.RPU_PORT_VALID_CNT (i : Nat) : Nat := 0x100020 + i * 0x4000
def F.RPU_PORT_VALID_CNT_V (i : Nat) : RF := ⟨R.RPU_PORT_VALID_CNT i, 0, 32⟩

/-- RPU_PORT_EMPTY_CNT (05 Table 5.11). -/
def R.RPU_PORT_EMPTY_CNT (i : Nat) : Nat := 0x100024 + i * 0x4000
def F.RPU_PORT_EMPTY_CNT_V (i : Nat) : RF := ⟨R.RPU_PORT_EMPTY_CNT i, 0, 32⟩

/-- RPU_PORT_TAGBAD_CNT (05 Table 5.11). -/
def R.RPU_PORT_TAGBAD_CNT (i : Nat) : Nat := 0x100028 + i * 0x4000
def F.RPU_PORT_TAGBAD_CNT_V (i : Nat) : RF := ⟨R.RPU_PORT_TAGBAD_CNT i, 0, 32⟩

/-- RPU_PORT_LATE_CNT (05 Table 5.11, R34). -/
def R.RPU_PORT_LATE_CNT (i : Nat) : Nat := 0x10002c + i * 0x4000
def F.RPU_PORT_LATE_CNT_V (i : Nat) : RF := ⟨R.RPU_PORT_LATE_CNT i, 0, 32⟩

/-- RPU_PORT_FDISC_CNT (05 Table 5.11, R99). -/
def R.RPU_PORT_FDISC_CNT (i : Nat) : Nat := 0x100030 + i * 0x4000
def F.RPU_PORT_FDISC_CNT_V (i : Nat) : RF := ⟨R.RPU_PORT_FDISC_CNT i, 0, 32⟩

/-- RPU_PORT_TAIL_CNT (05 Table 5.11, R100). -/
def R.RPU_PORT_TAIL_CNT (i : Nat) : Nat := 0x100034 + i * 0x4000
def F.RPU_PORT_TAIL_CNT_V (i : Nat) : RF := ⟨R.RPU_PORT_TAIL_CNT i, 0, 32⟩

/-- RPU_PORT_SMORIG_CNT (05 Table 5.11). -/
def R.RPU_PORT_SMORIG_CNT (i : Nat) : Nat := 0x100038 + i * 0x4000
def F.RPU_PORT_SMORIG_CNT_V (i : Nat) : RF := ⟨R.RPU_PORT_SMORIG_CNT i, 0, 32⟩

/-- RPU_PORT_RELAY_CNT (05 Table 5.11). -/
def R.RPU_PORT_RELAY_CNT (i : Nat) : Nat := 0x10003c + i * 0x4000
def F.RPU_PORT_RELAY_CNT_V (i : Nat) : RF := ⟨R.RPU_PORT_RELAY_CNT i, 0, 32⟩

/-- RPU_PORT_POS (05 Table 5.14). -/
def R.RPU_PORT_POS (i j : Nat) : Nat := 0x100400 + i * 0x4000 + j * 4
def F.RPU_PORT_POS_ADM (i j : Nat) : RF := ⟨R.RPU_PORT_POS i j, 31, 1⟩
def F.RPU_PORT_POS_QUAR (i j : Nat) : RF := ⟨R.RPU_PORT_POS i j, 30, 1⟩
def F.RPU_PORT_POS_TIMEOK (i j : Nat) : RF := ⟨R.RPU_PORT_POS i j, 29, 1⟩
def F.RPU_PORT_POS_SLOW (i j : Nat) : RF := ⟨R.RPU_PORT_POS i j, 28, 1⟩
def F.RPU_PORT_POS_MATCH (i j : Nat) : RF := ⟨R.RPU_PORT_POS i j, 24, 4⟩
def F.RPU_PORT_POS_TAGBAD (i j : Nat) : RF := ⟨R.RPU_PORT_POS i j, 16, 8⟩
def F.RPU_PORT_POS_DELAY (i j : Nat) : RF := ⟨R.RPU_PORT_POS i j, 0, 16⟩

/-- RPU_PORT_ID (05 Table 5.11). -/
def R.RPU_PORT_ID (i j : Nat) : Nat := 0x100600 + i * 0x4000 + j * 8
def F.RPU_PORT_ID_SERIAL (i j : Nat) : RF := ⟨R.RPU_PORT_ID i j, 0, 32⟩

/-- RPU_PORT_ID_HI (05 Table 5.11). -/
def R.RPU_PORT_ID_HI (i j : Nat) : Nat := 0x100604 + i * 0x4000 + j * 8
def F.RPU_PORT_ID_HI_TYPE (i j : Nat) : RF := ⟨R.RPU_PORT_ID_HI i j, 24, 8⟩
def F.RPU_PORT_ID_HI_SERIAL (i j : Nat) : RF := ⟨R.RPU_PORT_ID_HI i j, 0, 24⟩

/-- MDU_CTL (06 Table 6.5). -/
def R.MDU_CTL : Nat := 0x400000
def F.MDU_CTL_STALE_LIM : RF := ⟨R.MDU_CTL, 8, 4⟩
def F.MDU_CTL_SWCHK_EN : RF := ⟨R.MDU_CTL, 0, 1⟩

/-- MDU_STAT (06 Table 6.6). -/
def R.MDU_STAT : Nat := 0x400004
def F.MDU_STAT_RANK_OLD : RF := ⟨R.MDU_STAT, 16, 12⟩
def F.MDU_STAT_ARM_RUN : RF := ⟨R.MDU_STAT, 0, 12⟩

/-- MDU_AUX (06 Table 6.7, R160). -/
def R.MDU_AUX : Nat := 0x400008
def F.MDU_AUX_ADDR : RF := ⟨R.MDU_AUX, 16, 12⟩
def F.MDU_AUX_CMDX : RF := ⟨R.MDU_AUX, 0, 4⟩

/-- MDU_AUX_STAT (06 Table 6.8, R160). -/
def R.MDU_AUX_STAT : Nat := 0x40000c
def F.MDU_AUX_STAT_FULL : RF := ⟨R.MDU_AUX_STAT, 31, 1⟩
def F.MDU_AUX_STAT_AUX_REJ : RF := ⟨R.MDU_AUX_STAT, 30, 1⟩
def F.MDU_AUX_STAT_DEPTH : RF := ⟨R.MDU_AUX_STAT, 0, 5⟩

/-- MDU_ARM_CTL (06 Table 6.9). -/
def R.MDU_ARM_CTL (i : Nat) : Nat := 0x400100 + i * 0x40
def F.MDU_ARM_CTL_RUN (i : Nat) : RF := ⟨R.MDU_ARM_CTL i, 7, 1⟩
def F.MDU_ARM_CTL_EN (i : Nat) : RF := ⟨R.MDU_ARM_CTL i, 6, 1⟩
def F.MDU_ARM_CTL_NEG_EN (i : Nat) : RF := ⟨R.MDU_ARM_CTL i, 5, 1⟩
def F.MDU_ARM_CTL_ALT_BYP (i : Nat) : RF := ⟨R.MDU_ARM_CTL i, 4, 1⟩
def F.MDU_ARM_CTL_LATE_OK_EN (i : Nat) : RF := ⟨R.MDU_ARM_CTL i, 3, 1⟩
def F.MDU_ARM_CTL_OOS_STATE (i : Nat) : RF := ⟨R.MDU_ARM_CTL i, 2, 1⟩
def F.MDU_ARM_CTL_SWAP_MAX (i : Nat) : RF := ⟨R.MDU_ARM_CTL i, 0, 2⟩

/-- MDU_ARM_ISIG (06 Table 6.10, R150). -/
def R.MDU_ARM_ISIG (i : Nat) : Nat := 0x400104 + i * 0x40
def F.MDU_ARM_ISIG_ISIG (i : Nat) : RF := ⟨R.MDU_ARM_ISIG i, 16, 14⟩
def F.MDU_ARM_ISIG_IDB (i : Nat) : RF := ⟨R.MDU_ARM_ISIG i, 0, 16⟩

/-- MDU_ARM_DWELL (06 Table 6.4, R149). -/
def R.MDU_ARM_DWELL (i : Nat) : Nat := 0x400108 + i * 0x40
def F.MDU_ARM_DWELL_DWELL (i : Nat) : RF := ⟨R.MDU_ARM_DWELL i, 0, 17⟩

/-- MDU_ARM_PULSE (06 Table 6.4, R144). -/
def R.MDU_ARM_PULSE (i : Nat) : Nat := 0x40010c + i * 0x40
def F.MDU_ARM_PULSE_MIN_PULSE (i : Nat) : RF := ⟨R.MDU_ARM_PULSE i, 0, 11⟩

/-- MDU_ARM_BUDGET (06 Table 6.11, R153). -/
def R.MDU_ARM_BUDGET (i : Nat) : Nat := 0x400110 + i * 0x40
def F.MDU_ARM_BUDGET_BUD_CAP (i : Nat) : RF := ⟨R.MDU_ARM_BUDGET i, 24, 8⟩
def F.MDU_ARM_BUDGET_BUD_REFILL (i : Nat) : RF := ⟨R.MDU_ARM_BUDGET i, 0, 16⟩

/-- MDU_ARM_SWAP (06 Table 6.4, R155). -/
def R.MDU_ARM_SWAP (i : Nat) : Nat := 0x400114 + i * 0x40
def F.MDU_ARM_SWAP_SWAP_T (i : Nat) : RF := ⟨R.MDU_ARM_SWAP i, 16, 15⟩

/-- MDU_ARM_HYST (06 Table 6.4, R155). -/
def R.MDU_ARM_HYST (i : Nat) : Nat := 0x400118 + i * 0x40
def F.MDU_ARM_HYST_V (i : Nat) : RF := ⟨R.MDU_ARM_HYST i, 0, 32⟩

/-- MDU_ARM_ACCLIM (06 Table 6.4, R145). -/
def R.MDU_ARM_ACCLIM (i : Nat) : Nat := 0x40011c + i * 0x40
def F.MDU_ARM_ACCLIM_V (i : Nat) : RF := ⟨R.MDU_ARM_ACCLIM i, 0, 32⟩

/-- MDU_ARM_STAT (06 Table 6.12, R164). -/
def R.MDU_ARM_STAT (i : Nat) : Nat := 0x400120 + i * 0x40
def F.MDU_ARM_STAT_CLIP (i : Nat) : RF := ⟨R.MDU_ARM_STAT i, 31, 1⟩
def F.MDU_ARM_STAT_ACC_SAT (i : Nat) : RF := ⟨R.MDU_ARM_STAT i, 30, 1⟩
def F.MDU_ARM_STAT_EMPTY (i : Nat) : RF := ⟨R.MDU_ARM_STAT i, 29, 1⟩
def F.MDU_ARM_STAT_SWMIS (i : Nat) : RF := ⟨R.MDU_ARM_STAT i, 28, 1⟩
def F.MDU_ARM_STAT_RANK_OLD (i : Nat) : RF := ⟨R.MDU_ARM_STAT i, 27, 1⟩
def F.MDU_ARM_STAT_EDGE_OVF (i : Nat) : RF := ⟨R.MDU_ARM_STAT i, 26, 1⟩
def F.MDU_ARM_STAT_OOS_CHG (i : Nat) : RF := ⟨R.MDU_ARM_STAT i, 25, 1⟩
def F.MDU_ARM_STAT_REF_INV (i : Nat) : RF := ⟨R.MDU_ARM_STAT i, 24, 1⟩
def F.MDU_ARM_STAT_SIGMA (i : Nat) : RF := ⟨R.MDU_ARM_STAT i, 0, 1⟩

/-- MDU_ARM_ACC (06 Table 6.4, R415). -/
def R.MDU_ARM_ACC (i : Nat) : Nat := 0x400124 + i * 0x40
def F.MDU_ARM_ACC_V (i : Nat) : RF := ⟨R.MDU_ARM_ACC i, 0, 32⟩

/-- MDU_ARM_VBAR (06 Table 6.4, R415). -/
def R.MDU_ARM_VBAR (i : Nat) : Nat := 0x400128 + i * 0x40
def F.MDU_ARM_VBAR_V (i : Nat) : RF := ⟨R.MDU_ARM_VBAR i, 0, 32⟩

/-- MDU_ARM_LEVEL (06 Table 6.13). -/
def R.MDU_ARM_LEVEL (i : Nat) : Nat := 0x40012c + i * 0x40
def F.MDU_ARM_LEVEL_NELIG (i : Nat) : RF := ⟨R.MDU_ARM_LEVEL i, 16, 12⟩
def F.MDU_ARM_LEVEL_LEVEL (i : Nat) : RF := ⟨R.MDU_ARM_LEVEL i, 0, 12⟩

/-- MDU_ARM_NFB (06 Table 6.4). -/
def R.MDU_ARM_NFB (i : Nat) : Nat := 0x400130 + i * 0x40
def F.MDU_ARM_NFB_V (i : Nat) : RF := ⟨R.MDU_ARM_NFB i, 0, 11⟩

/-- MDU_ARM_EDGE_CNT (06 Table 6.4). -/
def R.MDU_ARM_EDGE_CNT (i : Nat) : Nat := 0x400134 + i * 0x40
def F.MDU_ARM_EDGE_CNT_V (i : Nat) : RF := ⟨R.MDU_ARM_EDGE_CNT i, 0, 32⟩

/-- MDU_ARM_CARRY_CNT (06 Table 6.4, R144). -/
def R.MDU_ARM_CARRY_CNT (i : Nat) : Nat := 0x400138 + i * 0x40
def F.MDU_ARM_CARRY_CNT_V (i : Nat) : RF := ⟨R.MDU_ARM_CARRY_CNT i, 0, 32⟩

/-- MDU_ARM_SWMIS_CNT (06 Table 6.4, R161). -/
def R.MDU_ARM_SWMIS_CNT (i : Nat) : Nat := 0x40013c + i * 0x40
def F.MDU_ARM_SWMIS_CNT_V (i : Nat) : RF := ⟨R.MDU_ARM_SWMIS_CNT i, 0, 32⟩

/-- MDU_OOS (06 Table 6.4). -/
def R.MDU_OOS (i : Nat) : Nat := 0x400800 + i * 4
def F.MDU_OOS_V (i : Nat) : RF := ⟨R.MDU_OOS i, 0, 32⟩

/-- MDU_SM_STATE (06 Table 6.14). -/
def R.MDU_SM_STATE (i : Nat) : Nat := 0x404000 + i * 4
def F.MDU_SM_STATE_STATE (i : Nat) : RF := ⟨R.MDU_SM_STATE i, 28, 4⟩
def F.MDU_SM_STATE_ELIG (i : Nat) : RF := ⟨R.MDU_SM_STATE i, 27, 1⟩
def F.MDU_SM_STATE_CAUSE (i : Nat) : RF := ⟨R.MDU_SM_STATE i, 24, 3⟩
def F.MDU_SM_STATE_FB (i : Nat) : RF := ⟨R.MDU_SM_STATE i, 23, 1⟩
def F.MDU_SM_STATE_FROZEN (i : Nat) : RF := ⟨R.MDU_SM_STATE i, 22, 1⟩
def F.MDU_SM_STATE_DWELL_REM (i : Nat) : RF := ⟨R.MDU_SM_STATE i, 8, 14⟩
def F.MDU_SM_STATE_TOKENS (i : Nat) : RF := ⟨R.MDU_SM_STATE i, 0, 8⟩

/-- CLU_STAT (07 Table 7.6). -/
def R.CLU_STAT : Nat := 0x440000
def F.CLU_STAT_COMMIT_PEND : RF := ⟨R.CLU_STAT, 31, 1⟩
def F.CLU_STAT_COMMIT_ERR : RF := ⟨R.CLU_STAT, 30, 1⟩
def F.CLU_STAT_ERR_SLOT : RF := ⟨R.CLU_STAT, 24, 6⟩
def F.CLU_STAT_NEN : RF := ⟨R.CLU_STAT, 0, 7⟩

/-- CLU_COMMIT_LO (07 Table 7.5, R182). -/
def R.CLU_COMMIT_LO : Nat := 0x440008
def F.CLU_COMMIT_LO_V : RF := ⟨R.CLU_COMMIT_LO, 0, 32⟩

/-- CLU_COMMIT_HI (07 Table 7.5, R182). -/
def R.CLU_COMMIT_HI : Nat := 0x44000c
def F.CLU_COMMIT_HI_V : RF := ⟨R.CLU_COMMIT_HI, 0, 32⟩

/-- CLU_FLAG_LO (07 Table 7.5). -/
def R.CLU_FLAG_LO : Nat := 0x440010
def F.CLU_FLAG_LO_V : RF := ⟨R.CLU_FLAG_LO, 0, 32⟩

/-- CLU_FLAG_HI (07 Table 7.5). -/
def R.CLU_FLAG_HI : Nat := 0x440014
def F.CLU_FLAG_HI_V : RF := ⟨R.CLU_FLAG_HI, 0, 32⟩

/-- CLU_SLOT_CTL (07 Table 7.7). -/
def R.CLU_SLOT_CTL (i : Nat) : Nat := 0x441000 + i * 0x100
def F.CLU_SLOT_CTL_EN (i : Nat) : RF := ⟨R.CLU_SLOT_CTL i, 15, 1⟩
def F.CLU_SLOT_CTL_SP_SRC (i : Nat) : RF := ⟨R.CLU_SLOT_CTL i, 13, 2⟩
def F.CLU_SLOT_CTL_AW (i : Nat) : RF := ⟨R.CLU_SLOT_CTL i, 12, 1⟩
def F.CLU_SLOT_CTL_D_ON_PV (i : Nat) : RF := ⟨R.CLU_SLOT_CTL i, 11, 1⟩
def F.CLU_SLOT_CTL_NOTCH_EN (i : Nat) : RF := ⟨R.CLU_SLOT_CTL i, 10, 1⟩
def F.CLU_SLOT_CTL_FF_EN (i : Nat) : RF := ⟨R.CLU_SLOT_CTL i, 9, 1⟩
def F.CLU_SLOT_CTL_OUT2_EN (i : Nat) : RF := ⟨R.CLU_SLOT_CTL i, 8, 1⟩
def F.CLU_SLOT_CTL_BUMPLESS (i : Nat) : RF := ⟨R.CLU_SLOT_CTL i, 7, 1⟩

/-- CLU_SLOT_SEL (07 Table 7.5). -/
def R.CLU_SLOT_SEL (i : Nat) : Nat := 0x441004 + i * 0x100
def F.CLU_SLOT_SEL_PV_IDX (i : Nat) : RF := ⟨R.CLU_SLOT_SEL i, 16, 14⟩
def F.CLU_SLOT_SEL_SP_IDX (i : Nat) : RF := ⟨R.CLU_SLOT_SEL i, 0, 14⟩

/-- CLU_SLOT_SEL2 (07 Table 7.5). -/
def R.CLU_SLOT_SEL2 (i : Nat) : Nat := 0x441008 + i * 0x100
def F.CLU_SLOT_SEL2_FF_IDX (i : Nat) : RF := ⟨R.CLU_SLOT_SEL2 i, 16, 14⟩
def F.CLU_SLOT_SEL2_OUT2_IDX (i : Nat) : RF := ⟨R.CLU_SLOT_SEL2 i, 0, 14⟩

/-- CLU_SLOT_SP (07 Table 7.5). -/
def R.CLU_SLOT_SP (i : Nat) : Nat := 0x44100c + i * 0x100
def F.CLU_SLOT_SP_V (i : Nat) : RF := ⟨R.CLU_SLOT_SP i, 0, 32⟩

/-- CLU_SLOT_RUP (07 Table 7.5). -/
def R.CLU_SLOT_RUP (i : Nat) : Nat := 0x441010 + i * 0x100
def F.CLU_SLOT_RUP_V (i : Nat) : RF := ⟨R.CLU_SLOT_RUP i, 0, 32⟩

/-- CLU_SLOT_RDN (07 Table 7.5). -/
def R.CLU_SLOT_RDN (i : Nat) : Nat := 0x441014 + i * 0x100
def F.CLU_SLOT_RDN_V (i : Nat) : RF := ⟨R.CLU_SLOT_RDN i, 0, 32⟩

/-- CLU_SLOT_KP (07 Table 7.5). -/
def R.CLU_SLOT_KP (i : Nat) : Nat := 0x441018 + i * 0x100
def F.CLU_SLOT_KP_V (i : Nat) : RF := ⟨R.CLU_SLOT_KP i, 0, 32⟩

/-- CLU_SLOT_KI (07 Table 7.5). -/
def R.CLU_SLOT_KI (i : Nat) : Nat := 0x44101c + i * 0x100
def F.CLU_SLOT_KI_V (i : Nat) : RF := ⟨R.CLU_SLOT_KI i, 0, 32⟩

/-- CLU_SLOT_KD (07 Table 7.5). -/
def R.CLU_SLOT_KD (i : Nat) : Nat := 0x441020 + i * 0x100
def F.CLU_SLOT_KD_V (i : Nat) : RF := ⟨R.CLU_SLOT_KD i, 0, 32⟩

/-- CLU_SLOT_TF (07 Table 7.5). -/
def R.CLU_SLOT_TF (i : Nat) : Nat := 0x441024 + i * 0x100
def F.CLU_SLOT_TF_V (i : Nat) : RF := ⟨R.CLU_SLOT_TF i, 0, 32⟩

/-- CLU_SLOT_KB (07 Table 7.5). -/
def R.CLU_SLOT_KB (i : Nat) : Nat := 0x441028 + i * 0x100
def F.CLU_SLOT_KB_V (i : Nat) : RF := ⟨R.CLU_SLOT_KB i, 0, 32⟩

/-- CLU_SLOT_KFF (07 Table 7.5). -/
def R.CLU_SLOT_KFF (i : Nat) : Nat := 0x44102c + i * 0x100
def F.CLU_SLOT_KFF_V (i : Nat) : RF := ⟨R.CLU_SLOT_KFF i, 0, 32⟩

/-- CLU_SLOT_OMIN (07 Table 7.5). -/
def R.CLU_SLOT_OMIN (i : Nat) : Nat := 0x441030 + i * 0x100
def F.CLU_SLOT_OMIN_V (i : Nat) : RF := ⟨R.CLU_SLOT_OMIN i, 0, 32⟩

/-- CLU_SLOT_OMAX (07 Table 7.5). -/
def R.CLU_SLOT_OMAX (i : Nat) : Nat := 0x441034 + i * 0x100
def F.CLU_SLOT_OMAX_V (i : Nat) : RF := ⟨R.CLU_SLOT_OMAX i, 0, 32⟩

/-- CLU_SLOT_N_F0 (07 Table 7.5). -/
def R.CLU_SLOT_N_F0 (i : Nat) : Nat := 0x441038 + i * 0x100
def F.CLU_SLOT_N_F0_V (i : Nat) : RF := ⟨R.CLU_SLOT_N_F0 i, 0, 32⟩

/-- CLU_SLOT_N_DEPTH (07 Table 7.5). -/
def R.CLU_SLOT_N_DEPTH (i : Nat) : Nat := 0x44103c + i * 0x100
def F.CLU_SLOT_N_DEPTH_V (i : Nat) : RF := ⟨R.CLU_SLOT_N_DEPTH i, 0, 32⟩

/-- CLU_SLOT_N_BW (07 Table 7.5). -/
def R.CLU_SLOT_N_BW (i : Nat) : Nat := 0x441040 + i * 0x100
def F.CLU_SLOT_N_BW_V (i : Nat) : RF := ⟨R.CLU_SLOT_N_BW i, 0, 32⟩

/-- CLU_SLOT_FE_THR (07 Table 7.5). -/
def R.CLU_SLOT_FE_THR (i : Nat) : Nat := 0x441044 + i * 0x100
def F.CLU_SLOT_FE_THR_V (i : Nat) : RF := ⟨R.CLU_SLOT_FE_THR i, 0, 32⟩

/-- CLU_SLOT_MAN_OUT (07 Table 7.5). -/
def R.CLU_SLOT_MAN_OUT (i : Nat) : Nat := 0x441048 + i * 0x100
def F.CLU_SLOT_MAN_OUT_V (i : Nat) : RF := ⟨R.CLU_SLOT_MAN_OUT i, 0, 32⟩

/-- CLU_SLOT_I_PRESET (07 Table 7.5). -/
def R.CLU_SLOT_I_PRESET (i : Nat) : Nat := 0x44104c + i * 0x100
def F.CLU_SLOT_I_PRESET_V (i : Nat) : RF := ⟨R.CLU_SLOT_I_PRESET i, 0, 32⟩

/-- CLU_SLOT_MODE (07 Table 7.8). -/
def R.CLU_SLOT_MODE (i : Nat) : Nat := 0x441050 + i * 0x100
def F.CLU_SLOT_MODE_PRESET (i : Nat) : RF := ⟨R.CLU_SLOT_MODE i, 3, 1⟩
def F.CLU_SLOT_MODE_SP_TRACK (i : Nat) : RF := ⟨R.CLU_SLOT_MODE i, 2, 1⟩
def F.CLU_SLOT_MODE_MAN_TRACK (i : Nat) : RF := ⟨R.CLU_SLOT_MODE i, 1, 1⟩
def F.CLU_SLOT_MODE_MANUAL (i : Nat) : RF := ⟨R.CLU_SLOT_MODE i, 0, 1⟩

/-- CLU_SLOT_SCH_SP (07 Table 7.5, R185). -/
def R.CLU_SLOT_SCH_SP (i : Nat) : Nat := 0x441054 + i * 0x100
def F.CLU_SLOT_SCH_SP_V (i : Nat) : RF := ⟨R.CLU_SLOT_SCH_SP i, 0, 32⟩

/-- CLU_SLOT_SCH_CYC (07 Table 7.5, R185). -/
def R.CLU_SLOT_SCH_CYC (i : Nat) : Nat := 0x441058 + i * 0x100
def F.CLU_SLOT_SCH_CYC_V (i : Nat) : RF := ⟨R.CLU_SLOT_SCH_CYC i, 0, 32⟩

/-- CLU_SLOT_SCH_CTL (07 Table 7.9, R185). -/
def R.CLU_SLOT_SCH_CTL (i : Nat) : Nat := 0x44105c + i * 0x100
def F.CLU_SLOT_SCH_CTL_ARM (i : Nat) : RF := ⟨R.CLU_SLOT_SCH_CTL i, 31, 1⟩
def F.CLU_SLOT_SCH_CTL_LATE_OK (i : Nat) : RF := ⟨R.CLU_SLOT_SCH_CTL i, 30, 1⟩
def F.CLU_SLOT_SCH_CTL_SCH_ST (i : Nat) : RF := ⟨R.CLU_SLOT_SCH_CTL i, 28, 2⟩
def F.CLU_SLOT_SCH_CTL_REPL (i : Nat) : RF := ⟨R.CLU_SLOT_SCH_CTL i, 27, 1⟩

/-- CLU_SLOT_STAT (07 Table 7.10). -/
def R.CLU_SLOT_STAT (i : Nat) : Nat := 0x441060 + i * 0x100
def F.CLU_SLOT_STAT_FOLLOW_ERR (i : Nat) : RF := ⟨R.CLU_SLOT_STAT i, 31, 1⟩
def F.CLU_SLOT_STAT_LIMIT (i : Nat) : RF := ⟨R.CLU_SLOT_STAT i, 30, 1⟩
def F.CLU_SLOT_STAT_NAN (i : Nat) : RF := ⟨R.CLU_SLOT_STAT i, 29, 1⟩
def F.CLU_SLOT_STAT_SP_INV (i : Nat) : RF := ⟨R.CLU_SLOT_STAT i, 28, 1⟩
def F.CLU_SLOT_STAT_COMMIT_ERR (i : Nat) : RF := ⟨R.CLU_SLOT_STAT i, 27, 1⟩
def F.CLU_SLOT_STAT_CERR (i : Nat) : RF := ⟨R.CLU_SLOT_STAT i, 24, 3⟩
def F.CLU_SLOT_STAT_IN_LIMIT (i : Nat) : RF := ⟨R.CLU_SLOT_STAT i, 1, 1⟩
def F.CLU_SLOT_STAT_MAN_ACT (i : Nat) : RF := ⟨R.CLU_SLOT_STAT i, 0, 1⟩

/-- CLU_SLOT_Y (07 Table 7.5). -/
def R.CLU_SLOT_Y (i : Nat) : Nat := 0x441064 + i * 0x100
def F.CLU_SLOT_Y_V (i : Nat) : RF := ⟨R.CLU_SLOT_Y i, 0, 32⟩

/-- CLU_SLOT_I (07 Table 7.5). -/
def R.CLU_SLOT_I (i : Nat) : Nat := 0x441068 + i * 0x100
def F.CLU_SLOT_I_V (i : Nat) : RF := ⟨R.CLU_SLOT_I i, 0, 32⟩

/-- CLU_SLOT_R (07 Table 7.5). -/
def R.CLU_SLOT_R (i : Nat) : Nat := 0x44106c + i * 0x100
def F.CLU_SLOT_R_V (i : Nat) : RF := ⟨R.CLU_SLOT_R i, 0, 32⟩

/-- CLU_SLOT_E (07 Table 7.5). -/
def R.CLU_SLOT_E (i : Nat) : Nat := 0x441070 + i * 0x100
def F.CLU_SLOT_E_V (i : Nat) : RF := ⟨R.CLU_SLOT_E i, 0, 32⟩

/-- CLU_SLOT_W (07 Table 7.5). -/
def R.CLU_SLOT_W (i : Nat) : Nat := 0x441074 + i * 0x100
def F.CLU_SLOT_W_V (i : Nat) : RF := ⟨R.CLU_SLOT_W i, 0, 32⟩

/-- CLU_SLOT_NC (07 Table 7.5, R177 (NB0, NB1, NB2, NA1, NA2)). -/
def R.CLU_SLOT_NC (i j : Nat) : Nat := 0x441080 + i * 0x100 + j * 4
def F.CLU_SLOT_NC_V (i j : Nat) : RF := ⟨R.CLU_SLOT_NC i j, 0, 32⟩

/-- MSU_CTL (09 Table 9.6). -/
def R.MSU_CTL : Nat := 0x600000
def F.MSU_CTL_REQ_CAL : RF := ⟨R.MSU_CTL, 0, 1⟩

/-- MSU_STAT (09 Table 9.7). -/
def R.MSU_STAT : Nat := 0x600004
def F.MSU_STAT_CFG_ERR : RF := ⟨R.MSU_STAT, 31, 1⟩
def F.MSU_STAT_OVR_ANY : RF := ⟨R.MSU_STAT, 30, 1⟩
def F.MSU_STAT_CLIP_ANY : RF := ⟨R.MSU_STAT, 29, 1⟩
def F.MSU_STAT_MDX_LOSS : RF := ⟨R.MSU_STAT, 28, 1⟩
def F.MSU_STAT_SEQ_OVR : RF := ⟨R.MSU_STAT, 27, 1⟩
def F.MSU_STAT_PSI_INV : RF := ⟨R.MSU_STAT, 26, 1⟩

/-- MSU_CAL_STAT (09 Table 9.8). -/
def R.MSU_CAL_STAT : Nat := 0x600008
def F.MSU_CAL_STAT_BUSY : RF := ⟨R.MSU_CAL_STAT, 31, 1⟩
def F.MSU_CAL_STAT_CAL_FAIL : RF := ⟨R.MSU_CAL_STAT, 30, 1⟩
def F.MSU_CAL_STAT_CAL_VALID : RF := ⟨R.MSU_CAL_STAT, 0, 14⟩

/-- MSU_CAL_CTL (09 Table 9.6, R219). -/
def R.MSU_CAL_CTL : Nat := 0x60000c
def F.MSU_CAL_CTL_RECAL : RF := ⟨R.MSU_CAL_CTL, 31, 1⟩
def F.MSU_CAL_CTL_CH : RF := ⟨R.MSU_CAL_CTL, 0, 4⟩

/-- MSU_MDX_CLK (09 Table 9.6, R217). -/
def R.MSU_MDX_CLK : Nat := 0x600010
def F.MSU_MDX_CLK_CLK1_DIV4 : RF := ⟨R.MSU_MDX_CLK, 1, 1⟩
def F.MSU_MDX_CLK_CLK0_DIV4 : RF := ⟨R.MSU_MDX_CLK, 0, 1⟩

/-- MSU_MD_CFG (09 Table 9.9). -/
def R.MSU_MD_CFG (i : Nat) : Nat := 0x600100 + i * 0x20
def F.MSU_MD_CFG_EN (i : Nat) : RF := ⟨R.MSU_MD_CFG i, 31, 1⟩
def F.MSU_MD_CFG_INSEL (i : Nat) : RF := ⟨R.MSU_MD_CFG i, 29, 2⟩
def F.MSU_MD_CFG_GAIN (i : Nat) : RF := ⟨R.MSU_MD_CFG i, 27, 2⟩
def F.MSU_MD_CFG_ORDER_M1 (i : Nat) : RF := ⟨R.MSU_MD_CFG i, 25, 2⟩
def F.MSU_MD_CFG_DEC (i : Nat) : RF := ⟨R.MSU_MD_CFG i, 0, 13⟩

/-- MSU_MDX_CFG (09 Table 9.10). -/
def R.MSU_MDX_CFG (i : Nat) : Nat := 0x600300 + i * 0x20
def F.MSU_MDX_CFG_EN (i : Nat) : RF := ⟨R.MSU_MDX_CFG i, 31, 1⟩
def F.MSU_MDX_CFG_PIN (i : Nat) : RF := ⟨R.MSU_MDX_CFG i, 28, 3⟩
def F.MSU_MDX_CFG_CLKSEL (i : Nat) : RF := ⟨R.MSU_MDX_CFG i, 27, 1⟩
def F.MSU_MDX_CFG_ORDER_M1 (i : Nat) : RF := ⟨R.MSU_MDX_CFG i, 25, 2⟩
def F.MSU_MDX_CFG_DLY (i : Nat) : RF := ⟨R.MSU_MDX_CFG i, 20, 5⟩
def F.MSU_MDX_CFG_DEC (i : Nat) : RF := ⟨R.MSU_MDX_CFG i, 0, 13⟩

/-- MSU_MD_GCAL (09 Table 9.6, R218). -/
def R.MSU_MD_GCAL (i : Nat) : Nat := 0x600104 + i * 0x20
def F.MSU_MD_GCAL_V (i : Nat) : RF := ⟨R.MSU_MD_GCAL i, 0, 32⟩

/-- MSU_MD_OCAL (09 Table 9.6, R218). -/
def R.MSU_MD_OCAL (i : Nat) : Nat := 0x600108 + i * 0x20
def F.MSU_MD_OCAL_V (i : Nat) : RF := ⟨R.MSU_MD_OCAL i, 0, 24⟩

/-- MSU_MD_RES (09 Table 9.6, R215). -/
def R.MSU_MD_RES (i : Nat) : Nat := 0x60010c + i * 0x20
def F.MSU_MD_RES_V (i : Nat) : RF := ⟨R.MSU_MD_RES i, 0, 32⟩

/-- MSU_MD_TS (09 Table 9.6). -/
def R.MSU_MD_TS (i : Nat) : Nat := 0x600110 + i * 0x20
def F.MSU_MD_TS_V (i : Nat) : RF := ⟨R.MSU_MD_TS i, 0, 32⟩

/-- MSU_MD_CNT (09 Table 9.6). -/
def R.MSU_MD_CNT (i : Nat) : Nat := 0x600114 + i * 0x20
def F.MSU_MD_CNT_OVR (i : Nat) : RF := ⟨R.MSU_MD_CNT i, 16, 16⟩
def F.MSU_MD_CNT_CLIP (i : Nat) : RF := ⟨R.MSU_MD_CNT i, 0, 16⟩

/-- MSU_MDX_GCAL (09 Table 9.6). -/
def R.MSU_MDX_GCAL (i : Nat) : Nat := 0x600304 + i * 0x20
def F.MSU_MDX_GCAL_V (i : Nat) : RF := ⟨R.MSU_MDX_GCAL i, 0, 32⟩

/-- MSU_MDX_OCAL (09 Table 9.6). -/
def R.MSU_MDX_OCAL (i : Nat) : Nat := 0x600308 + i * 0x20
def F.MSU_MDX_OCAL_V (i : Nat) : RF := ⟨R.MSU_MDX_OCAL i, 0, 24⟩

/-- MSU_MDX_RES (09 Table 9.6). -/
def R.MSU_MDX_RES (i : Nat) : Nat := 0x60030c + i * 0x20
def F.MSU_MDX_RES_V (i : Nat) : RF := ⟨R.MSU_MDX_RES i, 0, 32⟩

/-- MSU_MDX_TS (09 Table 9.6). -/
def R.MSU_MDX_TS (i : Nat) : Nat := 0x600310 + i * 0x20
def F.MSU_MDX_TS_V (i : Nat) : RF := ⟨R.MSU_MDX_TS i, 0, 32⟩

/-- MSU_MDX_CNT (09 Table 9.6). -/
def R.MSU_MDX_CNT (i : Nat) : Nat := 0x600314 + i * 0x20
def F.MSU_MDX_CNT_OVR (i : Nat) : RF := ⟨R.MSU_MDX_CNT i, 16, 16⟩
def F.MSU_MDX_CNT_CLIP (i : Nat) : RF := ⟨R.MSU_MDX_CNT i, 0, 16⟩

/-- MSU_SAR_CTL (09 Table 9.11, R221). -/
def R.MSU_SAR_CTL (i : Nat) : Nat := 0x600400 + i * 0x100
def F.MSU_SAR_CTL_START (i : Nat) : RF := ⟨R.MSU_SAR_CTL i, 31, 1⟩
def F.MSU_SAR_CTL_TRIG (i : Nat) : RF := ⟨R.MSU_SAR_CTL i, 28, 3⟩
def F.MSU_SAR_CTL_TSEL (i : Nat) : RF := ⟨R.MSU_SAR_CTL i, 23, 5⟩
def F.MSU_SAR_CTL_URG_TSEL (i : Nat) : RF := ⟨R.MSU_SAR_CTL i, 18, 5⟩
def F.MSU_SAR_CTL_URG_TSI_EN (i : Nat) : RF := ⟨R.MSU_SAR_CTL i, 17, 1⟩
def F.MSU_SAR_CTL_TRG_OFS (i : Nat) : RF := ⟨R.MSU_SAR_CTL i, 4, 13⟩
def F.MSU_SAR_CTL_SEQ_LEN_M1 (i : Nat) : RF := ⟨R.MSU_SAR_CTL i, 0, 4⟩

/-- MSU_SAR_URG (09 Table 9.12, R222). -/
def R.MSU_SAR_URG (i : Nat) : Nat := 0x600408 + i * 0x100
def F.MSU_SAR_URG_REQ (i : Nat) : RF := ⟨R.MSU_SAR_URG i, 31, 1⟩
def F.MSU_SAR_URG_URG_ST (i : Nat) : RF := ⟨R.MSU_SAR_URG i, 29, 2⟩
def F.MSU_SAR_URG_INPUT (i : Nat) : RF := ⟨R.MSU_SAR_URG i, 0, 3⟩

/-- MSU_SAR_URG_RES (09 Table 9.6). -/
def R.MSU_SAR_URG_RES (i : Nat) : Nat := 0x60040c + i * 0x100
def F.MSU_SAR_URG_RES_V (i : Nat) : RF := ⟨R.MSU_SAR_URG_RES i, 0, 32⟩

/-- MSU_SAR_URG_DROP (09 Table 9.6, R222). -/
def R.MSU_SAR_URG_DROP (i : Nat) : Nat := 0x600410 + i * 0x100
def F.MSU_SAR_URG_DROP_V (i : Nat) : RF := ⟨R.MSU_SAR_URG_DROP i, 0, 32⟩

/-- MSU_SAR_SEQ_OVR (09 Table 9.6, R221). -/
def R.MSU_SAR_SEQ_OVR (i : Nat) : Nat := 0x600414 + i * 0x100
def F.MSU_SAR_SEQ_OVR_V (i : Nat) : RF := ⟨R.MSU_SAR_SEQ_OVR i, 0, 32⟩

/-- MSU_SAR_GCAL (09 Table 9.6). -/
def R.MSU_SAR_GCAL (i : Nat) : Nat := 0x600418 + i * 0x100
def F.MSU_SAR_GCAL_V (i : Nat) : RF := ⟨R.MSU_SAR_GCAL i, 0, 32⟩

/-- MSU_SAR_OCAL (09 Table 9.6). -/
def R.MSU_SAR_OCAL (i : Nat) : Nat := 0x60041c + i * 0x100
def F.MSU_SAR_OCAL_V (i : Nat) : RF := ⟨R.MSU_SAR_OCAL i, 0, 24⟩

/-- MSU_SAR_SEQ (09 Table 9.6, R221). -/
def R.MSU_SAR_SEQ (i j : Nat) : Nat := 0x600440 + i * 0x100 + j * 4
def F.MSU_SAR_SEQ_INPUT (i j : Nat) : RF := ⟨R.MSU_SAR_SEQ i j, 0, 3⟩

/-- MSU_SV_CFG (09 Table 9.13). -/
def R.MSU_SV_CFG (i : Nat) : Nat := 0x600800 + i * 0x20
def F.MSU_SV_CFG_EN (i : Nat) : RF := ⟨R.MSU_SV_CFG i, 31, 1⟩
def F.MSU_SV_CFG_TEST_OK (i : Nat) : RF := ⟨R.MSU_SV_CFG i, 30, 1⟩
def F.MSU_SV_CFG_UNSYNC_OK (i : Nat) : RF := ⟨R.MSU_SV_CFG i, 29, 1⟩
def F.MSU_SV_CFG_SV_TMO (i : Nat) : RF := ⟨R.MSU_SV_CFG i, 21, 8⟩
def F.MSU_SV_CFG_NVAL (i : Nat) : RF := ⟨R.MSU_SV_CFG i, 17, 4⟩
def F.MSU_SV_CFG_RATE (i : Nat) : RF := ⟨R.MSU_SV_CFG i, 0, 17⟩

/-- MSU_SV_STAT (09 Table 9.6). -/
def R.MSU_SV_STAT (i : Nat) : Nat := 0x600804 + i * 0x20
def F.MSU_SV_STAT_LOST (i : Nat) : RF := ⟨R.MSU_SV_STAT i, 31, 1⟩
def F.MSU_SV_STAT_QBAD (i : Nat) : RF := ⟨R.MSU_SV_STAT i, 30, 1⟩
def F.MSU_SV_STAT_UNSYNC (i : Nat) : RF := ⟨R.MSU_SV_STAT i, 29, 1⟩
def F.MSU_SV_STAT_SYNCH (i : Nat) : RF := ⟨R.MSU_SV_STAT i, 0, 8⟩

/-- MSU_SV_MISS_CNT (09 Table 9.6, R224). -/
def R.MSU_SV_MISS_CNT (i : Nat) : Nat := 0x600808 + i * 0x20
def F.MSU_SV_MISS_CNT_V (i : Nat) : RF := ⟨R.MSU_SV_MISS_CNT i, 0, 32⟩

/-- MSU_PSI_CFG (09 Table 9.14). -/
def R.MSU_PSI_CFG (i : Nat) : Nat := 0x600a00 + i * 0x20
def F.MSU_PSI_CFG_MODE (i : Nat) : RF := ⟨R.MSU_PSI_CFG i, 30, 2⟩
def F.MSU_PSI_CFG_INV (i : Nat) : RF := ⟨R.MSU_PSI_CFG i, 29, 1⟩
def F.MSU_PSI_CFG_FLT (i : Nat) : RF := ⟨R.MSU_PSI_CFG i, 0, 8⟩

/-- MSU_PSI_TMO (09 Table 9.6, R227). -/
def R.MSU_PSI_TMO (i : Nat) : Nat := 0x600a04 + i * 0x20
def F.MSU_PSI_TMO_TMO (i : Nat) : RF := ⟨R.MSU_PSI_TMO i, 0, 16⟩

/-- MSU_PSI_XMIN (09 Table 9.6). -/
def R.MSU_PSI_XMIN (i : Nat) : Nat := 0x600a08 + i * 0x20
def F.MSU_PSI_XMIN_V (i : Nat) : RF := ⟨R.MSU_PSI_XMIN i, 0, 32⟩

/-- MSU_PSI_XMAX (09 Table 9.6). -/
def R.MSU_PSI_XMAX (i : Nat) : Nat := 0x600a0c + i * 0x20
def F.MSU_PSI_XMAX_V (i : Nat) : RF := ⟨R.MSU_PSI_XMAX i, 0, 32⟩

/-- MSU_PSI_X (09 Table 9.6). -/
def R.MSU_PSI_X (i : Nat) : Nat := 0x600a10 + i * 0x20
def F.MSU_PSI_X_V (i : Nat) : RF := ⟨R.MSU_PSI_X i, 0, 32⟩

/-- MSU_CH_SCALE (09 Table 9.6, R212). -/
def R.MSU_CH_SCALE (i : Nat) : Nat := 0x601000 + i * 8
def F.MSU_CH_SCALE_V (i : Nat) : RF := ⟨R.MSU_CH_SCALE i, 0, 32⟩

/-- MSU_CH_BIAS (09 Table 9.6, R212). -/
def R.MSU_CH_BIAS (i : Nat) : Nat := 0x601004 + i * 8
def F.MSU_CH_BIAS_V (i : Nat) : RF := ⟨R.MSU_CH_BIAS i, 0, 32⟩

/-- SPU_PAIR_CTL (10 Table 10.10). -/
def R.SPU_PAIR_CTL (i : Nat) : Nat := 0x300000 + i * 0x1000
def F.SPU_PAIR_CTL_MODE (i : Nat) : RF := ⟨R.SPU_PAIR_CTL i, 30, 2⟩
def F.SPU_PAIR_CTL_FORGET (i : Nat) : RF := ⟨R.SPU_PAIR_CTL i, 20, 10⟩
def F.SPU_PAIR_CTL_EN (i : Nat) : RF := ⟨R.SPU_PAIR_CTL i, 0, 1⟩

/-- SPU_PAIR_STAT (10 Table 10.11). -/
def R.SPU_PAIR_STAT (i : Nat) : Nat := 0x300004 + i * 0x1000
def F.SPU_PAIR_STAT_DUP_OVF (i : Nat) : RF := ⟨R.SPU_PAIR_STAT i, 31, 1⟩
def F.SPU_PAIR_STAT_LAN_A_SILENT (i : Nat) : RF := ⟨R.SPU_PAIR_STAT i, 30, 1⟩
def F.SPU_PAIR_STAT_LAN_B_SILENT (i : Nat) : RF := ⟨R.SPU_PAIR_STAT i, 29, 1⟩
def F.SPU_PAIR_STAT_TXERR (i : Nat) : RF := ⟨R.SPU_PAIR_STAT i, 28, 1⟩

/-- SPU_PAIR_MAC_LO (10 Table 10.9). -/
def R.SPU_PAIR_MAC_LO (i : Nat) : Nat := 0x300008 + i * 0x1000
def F.SPU_PAIR_MAC_LO_V (i : Nat) : RF := ⟨R.SPU_PAIR_MAC_LO i, 0, 32⟩

/-- SPU_PAIR_MAC_HI (10 Table 10.9). -/
def R.SPU_PAIR_MAC_HI (i : Nat) : Nat := 0x30000c + i * 0x1000
def F.SPU_PAIR_MAC_HI_V (i : Nat) : RF := ⟨R.SPU_PAIR_MAC_HI i, 0, 16⟩

/-- SPU_PAIR_DUP_CNT (10 Table 10.9, R231). -/
def R.SPU_PAIR_DUP_CNT (i : Nat) : Nat := 0x300010 + i * 0x1000
def F.SPU_PAIR_DUP_CNT_V (i : Nat) : RF := ⟨R.SPU_PAIR_DUP_CNT i, 0, 32⟩

/-- SPU_PAIR_WRONG_LAN (10 Table 10.9, R231). -/
def R.SPU_PAIR_WRONG_LAN (i : Nat) : Nat := 0x300014 + i * 0x1000
def F.SPU_PAIR_WRONG_LAN_V (i : Nat) : RF := ⟨R.SPU_PAIR_WRONG_LAN i, 0, 32⟩

/-- SPU_PAIR_NOBUF (10 Table 10.9, R239). -/
def R.SPU_PAIR_NOBUF (i : Nat) : Nat := 0x300018 + i * 0x1000
def F.SPU_PAIR_NOBUF_V (i : Nat) : RF := ⟨R.SPU_PAIR_NOBUF i, 0, 32⟩

/-- SPU_PAIR_NOMATCH (10 Table 10.9, R234). -/
def R.SPU_PAIR_NOMATCH (i : Nat) : Nat := 0x30001c + i * 0x1000
def F.SPU_PAIR_NOMATCH_V (i : Nat) : RF := ⟨R.SPU_PAIR_NOMATCH i, 0, 32⟩

/-- SPU_PAIR_AUTH_FAIL (10 Table 10.9, R236). -/
def R.SPU_PAIR_AUTH_FAIL (i : Nat) : Nat := 0x300020 + i * 0x1000
def F.SPU_PAIR_AUTH_FAIL_V (i : Nat) : RF := ⟨R.SPU_PAIR_AUTH_FAIL i, 0, 32⟩

/-- SPU_PAIR_MC_LO (10 Table 10.9). -/
def R.SPU_PAIR_MC_LO (i j : Nat) : Nat := 0x300080 + i * 0x1000 + j * 8
def F.SPU_PAIR_MC_LO_V (i j : Nat) : RF := ⟨R.SPU_PAIR_MC_LO i j, 0, 32⟩

/-- SPU_PAIR_MC_HI (10 Table 10.9). -/
def R.SPU_PAIR_MC_HI (i j : Nat) : Nat := 0x300084 + i * 0x1000 + j * 8
def F.SPU_PAIR_MC_HI_EN (i j : Nat) : RF := ⟨R.SPU_PAIR_MC_HI i j, 16, 1⟩
def F.SPU_PAIR_MC_HI_HI (i j : Nat) : RF := ⟨R.SPU_PAIR_MC_HI i j, 0, 16⟩

/-- SPU_PAIR_TX_BASE (10 Table 10.9, R237). -/
def R.SPU_PAIR_TX_BASE (i j : Nat) : Nat := 0x300100 + i * 0x1000 + j * 0x10
def F.SPU_PAIR_TX_BASE_BASE (i j : Nat) : RF := ⟨R.SPU_PAIR_TX_BASE i j, 5, 27⟩

/-- SPU_PAIR_TX_SIZE (10 Table 10.9, R237). -/
def R.SPU_PAIR_TX_SIZE (i j : Nat) : Nat := 0x300104 + i * 0x1000 + j * 0x10
def F.SPU_PAIR_TX_SIZE_SIZE (i j : Nat) : RF := ⟨R.SPU_PAIR_TX_SIZE i j, 16, 13⟩
def F.SPU_PAIR_TX_SIZE_BASE_HI (i j : Nat) : RF := ⟨R.SPU_PAIR_TX_SIZE i j, 0, 8⟩

/-- SPU_PAIR_TX_HEAD (10 Table 10.9, R237). -/
def R.SPU_PAIR_TX_HEAD (i j : Nat) : Nat := 0x300108 + i * 0x1000 + j * 0x10
def F.SPU_PAIR_TX_HEAD_V (i j : Nat) : RF := ⟨R.SPU_PAIR_TX_HEAD i j, 0, 12⟩

/-- SPU_PAIR_TX_TAIL (10 Table 10.9, R237). -/
def R.SPU_PAIR_TX_TAIL (i j : Nat) : Nat := 0x30010c + i * 0x1000 + j * 0x10
def F.SPU_PAIR_TX_TAIL_V (i j : Nat) : RF := ⟨R.SPU_PAIR_TX_TAIL i j, 0, 12⟩

/-- SPU_PAIR_RX_BASE (10 Table 10.9, R237). -/
def R.SPU_PAIR_RX_BASE (i j : Nat) : Nat := 0x300200 + i * 0x1000 + j * 0x10
def F.SPU_PAIR_RX_BASE_BASE (i j : Nat) : RF := ⟨R.SPU_PAIR_RX_BASE i j, 5, 27⟩

/-- SPU_PAIR_RX_SIZE (10 Table 10.9, R237). -/
def R.SPU_PAIR_RX_SIZE (i j : Nat) : Nat := 0x300204 + i * 0x1000 + j * 0x10
def F.SPU_PAIR_RX_SIZE_SIZE (i j : Nat) : RF := ⟨R.SPU_PAIR_RX_SIZE i j, 16, 13⟩
def F.SPU_PAIR_RX_SIZE_BASE_HI (i j : Nat) : RF := ⟨R.SPU_PAIR_RX_SIZE i j, 0, 8⟩

/-- SPU_PAIR_RX_HEAD (10 Table 10.9, R237). -/
def R.SPU_PAIR_RX_HEAD (i j : Nat) : Nat := 0x300208 + i * 0x1000 + j * 0x10
def F.SPU_PAIR_RX_HEAD_V (i j : Nat) : RF := ⟨R.SPU_PAIR_RX_HEAD i j, 0, 12⟩

/-- SPU_PAIR_RX_TAIL (10 Table 10.9, R237). -/
def R.SPU_PAIR_RX_TAIL (i j : Nat) : Nat := 0x30020c + i * 0x1000 + j * 0x10
def F.SPU_PAIR_RX_TAIL_V (i j : Nat) : RF := ⟨R.SPU_PAIR_RX_TAIL i j, 0, 12⟩

/-- SPU_PORT_STAT (10 Table 10.9, R255). -/
def R.SPU_PORT_STAT (i : Nat) : Nat := 0x302000 + i * 0x400
def F.SPU_PORT_STAT_LINK_CHG (i : Nat) : RF := ⟨R.SPU_PORT_STAT i, 31, 1⟩
def F.SPU_PORT_STAT_BLOCK_LOCK (i : Nat) : RF := ⟨R.SPU_PORT_STAT i, 1, 1⟩
def F.SPU_PORT_STAT_SIG_DET (i : Nat) : RF := ⟨R.SPU_PORT_STAT i, 0, 1⟩

/-- SPU_PORT_DLY (10 Table 10.9, R240). -/
def R.SPU_PORT_DLY (i : Nat) : Nat := 0x302004 + i * 0x400
def F.SPU_PORT_DLY_TX (i : Nat) : RF := ⟨R.SPU_PORT_DLY i, 8, 8⟩
def F.SPU_PORT_DLY_RX (i : Nat) : RF := ⟨R.SPU_PORT_DLY i, 0, 8⟩

/-- SPU_PORT_RXOK_CNT (10 Table 10.9). -/
def R.SPU_PORT_RXOK_CNT (i : Nat) : Nat := 0x302008 + i * 0x400
def F.SPU_PORT_RXOK_CNT_V (i : Nat) : RF := ⟨R.SPU_PORT_RXOK_CNT i, 0, 32⟩

/-- SPU_PORT_RXERR_CNT (10 Table 10.9, R230). -/
def R.SPU_PORT_RXERR_CNT (i : Nat) : Nat := 0x30200c + i * 0x400
def F.SPU_PORT_RXERR_CNT_V (i : Nat) : RF := ⟨R.SPU_PORT_RXERR_CNT i, 0, 32⟩

/-- SPU_PORT_TXOK_CNT (10 Table 10.9). -/
def R.SPU_PORT_TXOK_CNT (i : Nat) : Nat := 0x302010 + i * 0x400
def F.SPU_PORT_TXOK_CNT_V (i : Nat) : RF := ⟨R.SPU_PORT_TXOK_CNT i, 0, 32⟩

/-- SPU_PTP_IGN_CNT (10 Table 10.9, R241). -/
def R.SPU_PTP_IGN_CNT : Nat := 0x301f00
def F.SPU_PTP_IGN_CNT_V : RF := ⟨R.SPU_PTP_IGN_CNT, 0, 32⟩

/-- SPU_SV_CFG (10 Table 10.12, R235). -/
def R.SPU_SV_CFG (i : Nat) : Nat := 0x303000 + i * 0x20
def F.SPU_SV_CFG_EN (i : Nat) : RF := ⟨R.SPU_SV_CFG i, 31, 1⟩
def F.SPU_SV_CFG_VID_CHK (i : Nat) : RF := ⟨R.SPU_SV_CFG i, 30, 1⟩
def F.SPU_SV_CFG_COPY (i : Nat) : RF := ⟨R.SPU_SV_CFG i, 29, 1⟩
def F.SPU_SV_CFG_AUTH (i : Nat) : RF := ⟨R.SPU_SV_CFG i, 28, 1⟩
def F.SPU_SV_CFG_ALG (i : Nat) : RF := ⟨R.SPU_SV_CFG i, 26, 2⟩
def F.SPU_SV_CFG_KEY (i : Nat) : RF := ⟨R.SPU_SV_CFG i, 21, 5⟩
def F.SPU_SV_CFG_PAIR (i : Nat) : RF := ⟨R.SPU_SV_CFG i, 20, 1⟩
def F.SPU_SV_CFG_VID (i : Nat) : RF := ⟨R.SPU_SV_CFG i, 0, 12⟩

/-- SPU_SV_DA_LO (10 Table 10.9). -/
def R.SPU_SV_DA_LO (i : Nat) : Nat := 0x303004 + i * 0x20
def F.SPU_SV_DA_LO_V (i : Nat) : RF := ⟨R.SPU_SV_DA_LO i, 0, 32⟩

/-- SPU_SV_DA_HI (10 Table 10.9). -/
def R.SPU_SV_DA_HI (i : Nat) : Nat := 0x303008 + i * 0x20
def F.SPU_SV_DA_HI_APPID (i : Nat) : RF := ⟨R.SPU_SV_DA_HI i, 16, 16⟩
def F.SPU_SV_DA_HI_HI (i : Nat) : RF := ⟨R.SPU_SV_DA_HI i, 0, 16⟩

/-- SPU_SV_CONFREV (10 Table 10.9). -/
def R.SPU_SV_CONFREV (i : Nat) : Nat := 0x30300c + i * 0x20
def F.SPU_SV_CONFREV_V (i : Nat) : RF := ⟨R.SPU_SV_CONFREV i, 0, 32⟩

/-- SPU_SV_DISC_CNT (10 Table 10.9, R235). -/
def R.SPU_SV_DISC_CNT (i : Nat) : Nat := 0x303010 + i * 0x20
def F.SPU_SV_DISC_CNT_V (i : Nat) : RF := ⟨R.SPU_SV_DISC_CNT i, 0, 32⟩

/-- SPU_GO_CFG (10 Table 10.9). -/
def R.SPU_GO_CFG (i : Nat) : Nat := 0x303400 + i * 0x10
def F.SPU_GO_CFG_EN (i : Nat) : RF := ⟨R.SPU_GO_CFG i, 31, 1⟩
def F.SPU_GO_CFG_AUTH (i : Nat) : RF := ⟨R.SPU_GO_CFG i, 30, 1⟩
def F.SPU_GO_CFG_ALG (i : Nat) : RF := ⟨R.SPU_GO_CFG i, 28, 2⟩
def F.SPU_GO_CFG_KEY (i : Nat) : RF := ⟨R.SPU_GO_CFG i, 23, 5⟩
def F.SPU_GO_CFG_APPID (i : Nat) : RF := ⟨R.SPU_GO_CFG i, 0, 16⟩

/-- SPU_GO_DA_LO (10 Table 10.9). -/
def R.SPU_GO_DA_LO (i : Nat) : Nat := 0x303404 + i * 0x10
def F.SPU_GO_DA_LO_V (i : Nat) : RF := ⟨R.SPU_GO_DA_LO i, 0, 32⟩

/-- SPU_GO_DA_HI (10 Table 10.9). -/
def R.SPU_GO_DA_HI (i : Nat) : Nat := 0x303408 + i * 0x10
def F.SPU_GO_DA_HI_APPID (i : Nat) : RF := ⟨R.SPU_GO_DA_HI i, 16, 16⟩
def F.SPU_GO_DA_HI_HI (i : Nat) : RF := ⟨R.SPU_GO_DA_HI i, 0, 16⟩

/-- TBU_CTL (10 Table 10.14). -/
def R.TBU_CTL : Nat := 0x340000
def F.TBU_CTL_STEP_REARM : RF := ⟨R.TBU_CTL, 31, 1⟩
def F.TBU_CTL_SRC : RF := ⟨R.TBU_CTL, 28, 3⟩
def F.TBU_CTL_PTP_PAIR : RF := ⟨R.TBU_CTL, 27, 1⟩
def F.TBU_CTL_RSLOPE : RF := ⟨R.TBU_CTL, 22, 5⟩

/-- TBU_STAT (10 Table 10.15). -/
def R.TBU_STAT : Nat := 0x340004
def F.TBU_STAT_STEP_ARM : RF := ⟨R.TBU_STAT, 31, 1⟩
def F.TBU_STAT_LOCK : RF := ⟨R.TBU_STAT, 30, 1⟩
def F.TBU_STAT_SLEW : RF := ⟨R.TBU_STAT, 29, 1⟩
def F.TBU_STAT_HOLD : RF := ⟨R.TBU_STAT, 28, 1⟩
def F.TBU_STAT_CAL_INV : RF := ⟨R.TBU_STAT, 27, 1⟩
def F.TBU_STAT_PAIR_DIFF : RF := ⟨R.TBU_STAT, 26, 1⟩
def F.TBU_STAT_ACT_SRC : RF := ⟨R.TBU_STAT, 23, 3⟩

/-- TBU_TIME_LO (10 Table 10.13, R242). -/
def R.TBU_TIME_LO : Nat := 0x340008
def F.TBU_TIME_LO_V : RF := ⟨R.TBU_TIME_LO, 0, 32⟩

/-- TBU_TIME_HI (10 Table 10.13, R242). -/
def R.TBU_TIME_HI : Nat := 0x34000c
def F.TBU_TIME_HI_V : RF := ⟨R.TBU_TIME_HI, 0, 32⟩

/-- TBU_CYCLE (10 Table 10.13). -/
def R.TBU_CYCLE : Nat := 0x340010
def F.TBU_CYCLE_V : RF := ⟨R.TBU_CYCLE, 0, 32⟩

/-- TBU_OFS_IN_LO (10 Table 10.13, R245). -/
def R.TBU_OFS_IN_LO : Nat := 0x340014
def F.TBU_OFS_IN_LO_V : RF := ⟨R.TBU_OFS_IN_LO, 0, 32⟩

/-- TBU_OFS_IN_HI (10 Table 10.13, R245). -/
def R.TBU_OFS_IN_HI : Nat := 0x340018
def F.TBU_OFS_IN_HI_V : RF := ⟨R.TBU_OFS_IN_HI, 0, 32⟩

/-- TBU_RATE (10 Table 10.13, R242). -/
def R.TBU_RATE : Nat := 0x34001c
def F.TBU_RATE_V : RF := ⟨R.TBU_RATE, 0, 32⟩

/-- TBU_STEP_THR (10 Table 10.13, R246). -/
def R.TBU_STEP_THR : Nat := 0x340020
def F.TBU_STEP_THR_V : RF := ⟨R.TBU_STEP_THR, 0, 32⟩

/-- TBU_LOCK_THR (10 Table 10.13, R250). -/
def R.TBU_LOCK_THR : Nat := 0x340024
def F.TBU_LOCK_THR_PAIR_TOL : RF := ⟨R.TBU_LOCK_THR, 16, 16⟩
def F.TBU_LOCK_THR_LOCK_THR : RF := ⟨R.TBU_LOCK_THR, 0, 16⟩

/-- TBU_KP_S (10 Table 10.13). -/
def R.TBU_KP_S : Nat := 0x340028
def F.TBU_KP_S_V : RF := ⟨R.TBU_KP_S, 0, 32⟩

/-- TBU_KI_S (10 Table 10.13). -/
def R.TBU_KI_S : Nat := 0x34002c
def F.TBU_KI_S_V : RF := ⟨R.TBU_KI_S, 0, 32⟩

/-- TBU_LAST_OFS (10 Table 10.13). -/
def R.TBU_LAST_OFS : Nat := 0x340030
def F.TBU_LAST_OFS_V : RF := ⟨R.TBU_LAST_OFS, 0, 32⟩

/-- TBU_STEP_CNT (10 Table 10.13, R249). -/
def R.TBU_STEP_CNT : Nat := 0x340034
def F.TBU_STEP_CNT_REARM : RF := ⟨R.TBU_STEP_CNT, 16, 16⟩
def F.TBU_STEP_CNT_STEPS : RF := ⟨R.TBU_STEP_CNT, 0, 16⟩

/-- TBU_UTC_OFS (10 Table 10.13). -/
def R.TBU_UTC_OFS : Nat := 0x340038
def F.TBU_UTC_OFS_V : RF := ⟨R.TBU_UTC_OFS, 0, 16⟩

/-- TBU_PPS (10 Table 10.13, R254). -/
def R.TBU_PPS : Nat := 0x34003c
def F.TBU_PPS_PPS_W : RF := ⟨R.TBU_PPS, 23, 9⟩
def F.TBU_PPS_PPS_IN_DLY : RF := ⟨R.TBU_PPS, 15, 8⟩
def F.TBU_PPS_PPS_OUT_DLY : RF := ⟨R.TBU_PPS, 7, 8⟩
def F.TBU_PPS_PPS_FREE : RF := ⟨R.TBU_PPS, 0, 1⟩

/-- TBU_TSI_CFG (10 Table 10.13, R252). -/
def R.TBU_TSI_CFG (i : Nat) : Nat := 0x340400 + i * 0x20
def F.TBU_TSI_CFG_EDGE (i : Nat) : RF := ⟨R.TBU_TSI_CFG i, 30, 2⟩
def F.TBU_TSI_CFG_EVT (i : Nat) : RF := ⟨R.TBU_TSI_CFG i, 29, 1⟩
def F.TBU_TSI_CFG_FLT (i : Nat) : RF := ⟨R.TBU_TSI_CFG i, 16, 8⟩
def F.TBU_TSI_CFG_TSI_DLY (i : Nat) : RF := ⟨R.TBU_TSI_CFG i, 0, 8⟩

/-- TBU_TSI_POP (10 Table 10.13, R252). -/
def R.TBU_TSI_POP (i : Nat) : Nat := 0x340404 + i * 0x20
def F.TBU_TSI_POP_VALID (i : Nat) : RF := ⟨R.TBU_TSI_POP i, 31, 1⟩
def F.TBU_TSI_POP_EDGE (i : Nat) : RF := ⟨R.TBU_TSI_POP i, 30, 1⟩
def F.TBU_TSI_POP_N (i : Nat) : RF := ⟨R.TBU_TSI_POP i, 0, 5⟩

/-- TBU_TSI_TSL (10 Table 10.13, R252). -/
def R.TBU_TSI_TSL (i : Nat) : Nat := 0x340408 + i * 0x20
def F.TBU_TSI_TSL_V (i : Nat) : RF := ⟨R.TBU_TSI_TSL i, 0, 32⟩

/-- TBU_TSI_TSH (10 Table 10.13, R252). -/
def R.TBU_TSI_TSH (i : Nat) : Nat := 0x34040c + i * 0x20
def F.TBU_TSI_TSH_V (i : Nat) : RF := ⟨R.TBU_TSI_TSH i, 0, 32⟩

/-- TBU_TSI_OVF_CNT (10 Table 10.13, R252). -/
def R.TBU_TSI_OVF_CNT (i : Nat) : Nat := 0x340410 + i * 0x20
def F.TBU_TSI_OVF_CNT_V (i : Nat) : RF := ⟨R.TBU_TSI_OVF_CNT i, 0, 32⟩

/-- TBU_TSO_CTL (10 Table 10.16, R253). -/
def R.TBU_TSO_CTL (i : Nat) : Nat := 0x340800 + i * 0x20
def F.TBU_TSO_CTL_MODE (i : Nat) : RF := ⟨R.TBU_TSO_CTL i, 31, 1⟩
def F.TBU_TSO_CTL_LATE_OK (i : Nat) : RF := ⟨R.TBU_TSO_CTL i, 30, 1⟩
def F.TBU_TSO_CTL_ST (i : Nat) : RF := ⟨R.TBU_TSO_CTL i, 27, 3⟩
def F.TBU_TSO_CTL_IDLE (i : Nat) : RF := ⟨R.TBU_TSO_CTL i, 26, 1⟩
def F.TBU_TSO_CTL_TSO_DLY (i : Nat) : RF := ⟨R.TBU_TSO_CTL i, 16, 8⟩
def F.TBU_TSO_CTL_DEPTH (i : Nat) : RF := ⟨R.TBU_TSO_CTL i, 0, 3⟩

/-- TBU_TSO_TL (10 Table 10.13, R253). -/
def R.TBU_TSO_TL (i : Nat) : Nat := 0x340804 + i * 0x20
def F.TBU_TSO_TL_V (i : Nat) : RF := ⟨R.TBU_TSO_TL i, 0, 32⟩

/-- TBU_TSO_TH (10 Table 10.13, R253). -/
def R.TBU_TSO_TH (i : Nat) : Nat := 0x340808 + i * 0x20
def F.TBU_TSO_TH_V (i : Nat) : RF := ⟨R.TBU_TSO_TH i, 0, 32⟩

/-- TBU_TSO_PERIOD (10 Table 10.13, R253). -/
def R.TBU_TSO_PERIOD (i : Nat) : Nat := 0x34080c + i * 0x20
def F.TBU_TSO_PERIOD_V (i : Nat) : RF := ⟨R.TBU_TSO_PERIOD i, 0, 32⟩

/-- TBU_TSO_HIGH (10 Table 10.13, R253). -/
def R.TBU_TSO_HIGH (i : Nat) : Nat := 0x340810 + i * 0x20
def F.TBU_TSO_HIGH_V (i : Nat) : RF := ⟨R.TBU_TSO_HIGH i, 0, 32⟩

/-- TBU_TSO_CMD (10 Table 10.13, R253). -/
def R.TBU_TSO_CMD (i : Nat) : Nat := 0x340814 + i * 0x20
def F.TBU_TSO_CMD_GO (i : Nat) : RF := ⟨R.TBU_TSO_CMD i, 31, 1⟩
def F.TBU_TSO_CMD_LEVEL (i : Nat) : RF := ⟨R.TBU_TSO_CMD i, 0, 1⟩

/-- SFI_CTL (11 Table 11.7). -/
def R.SFI_CTL : Nat := 0x700000
def F.SFI_CTL_RELEASE : RF := ⟨R.SFI_CTL, 31, 1⟩
def F.SFI_CTL_STOP_REQ : RF := ⟨R.SFI_CTL, 30, 1⟩
def F.SFI_CTL_BLOCK_REQ : RF := ⟨R.SFI_CTL, 29, 1⟩
def F.SFI_CTL_ACK : RF := ⟨R.SFI_CTL, 0, 8⟩

/-- SFI_STAT (11 Table 11.8). -/
def R.SFI_STAT : Nat := 0x700004
def F.SFI_STAT_STATE : RF := ⟨R.SFI_STAT, 30, 2⟩
def F.SFI_STAT_SFS_OK : RF := ⟨R.SFI_STAT, 29, 1⟩
def F.SFI_STAT_HBL_OK : RF := ⟨R.SFI_STAT, 28, 1⟩
def F.SFI_STAT_SCP_OK : RF := ⟨R.SFI_STAT, 27, 1⟩
def F.SFI_STAT_BLK_CAUSE : RF := ⟨R.SFI_STAT, 24, 3⟩
def F.SFI_STAT_STOP_CAUSE : RF := ⟨R.SFI_STAT, 22, 2⟩
def F.SFI_STAT_REL_REF : RF := ⟨R.SFI_STAT, 21, 1⟩
def F.SFI_STAT_PARTNER_DIFF : RF := ⟨R.SFI_STAT, 20, 1⟩
def F.SFI_STAT_BLKOUT_A : RF := ⟨R.SFI_STAT, 19, 1⟩
def F.SFI_STAT_BLKOUT_B : RF := ⟨R.SFI_STAT, 18, 1⟩
def F.SFI_STAT_INJ : RF := ⟨R.SFI_STAT, 17, 1⟩
def F.SFI_STAT_ENV_EXIT : RF := ⟨R.SFI_STAT, 16, 1⟩
def F.SFI_STAT_TSTOP_EXP : RF := ⟨R.SFI_STAT, 15, 1⟩
def F.SFI_STAT_TEST_FAIL : RF := ⟨R.SFI_STAT, 0, 8⟩

/-- SFI_SIN_STAT (11 Table 11.9). -/
def R.SFI_SIN_STAT : Nat := 0x700008
def F.SFI_SIN_STAT_DISC : RF := ⟨R.SFI_SIN_STAT, 24, 8⟩
def F.SFI_SIN_STAT_DEMAND : RF := ⟨R.SFI_SIN_STAT, 16, 8⟩
def F.SFI_SIN_STAT_B_ACT : RF := ⟨R.SFI_SIN_STAT, 8, 8⟩
def F.SFI_SIN_STAT_A_ACT : RF := ⟨R.SFI_SIN_STAT, 0, 8⟩

/-- SFI_TSTOP_MAX (11 Table 11.6, R266). -/
def R.SFI_TSTOP_MAX : Nat := 0x700010
def F.SFI_TSTOP_MAX_V : RF := ⟨R.SFI_TSTOP_MAX, 0, 24⟩

/-- SFI_RATE_DC (11 Table 11.6, R265). -/
def R.SFI_RATE_DC : Nat := 0x700014
def F.SFI_RATE_DC_V : RF := ⟨R.SFI_RATE_DC, 0, 32⟩

/-- SFI_RATE_AC (11 Table 11.6, R265). -/
def R.SFI_RATE_AC : Nat := 0x700018
def F.SFI_RATE_AC_V : RF := ⟨R.SFI_RATE_AC, 0, 32⟩

/-- SFI_STOP_DC_LO (11 Table 11.6, R265). -/
def R.SFI_STOP_DC_LO : Nat := 0x700020
def F.SFI_STOP_DC_LO_V : RF := ⟨R.SFI_STOP_DC_LO, 0, 32⟩

/-- SFI_STOP_DC_HI (11 Table 11.6, R265). -/
def R.SFI_STOP_DC_HI : Nat := 0x700024
def F.SFI_STOP_DC_HI_V : RF := ⟨R.SFI_STOP_DC_HI, 0, 32⟩

/-- SFI_STOP_AC_LO (11 Table 11.6, R265). -/
def R.SFI_STOP_AC_LO : Nat := 0x700028
def F.SFI_STOP_AC_LO_V : RF := ⟨R.SFI_STOP_AC_LO, 0, 32⟩

/-- SFI_STOP_AC_HI (11 Table 11.6, R265). -/
def R.SFI_STOP_AC_HI : Nat := 0x70002c
def F.SFI_STOP_AC_HI_V : RF := ⟨R.SFI_STOP_AC_HI, 0, 32⟩

/-- SFI_SAFE_CRC (11 Table 11.6, R275). -/
def R.SFI_SAFE_CRC : Nat := 0x700030
def F.SFI_SAFE_CRC_V : RF := ⟨R.SFI_SAFE_CRC, 0, 32⟩

/-- SFI_PARTNER_CRC (11 Table 11.6, R275). -/
def R.SFI_PARTNER_CRC : Nat := 0x700034
def F.SFI_PARTNER_CRC_V : RF := ⟨R.SFI_PARTNER_CRC, 0, 32⟩

/-- SFI_BLOCK_CNT (11 Table 11.6). -/
def R.SFI_BLOCK_CNT : Nat := 0x700038
def F.SFI_BLOCK_CNT_V : RF := ⟨R.SFI_BLOCK_CNT, 0, 32⟩

/-- SFI_STOP_CNT (11 Table 11.6). -/
def R.SFI_STOP_CNT : Nat := 0x70003c
def F.SFI_STOP_CNT_V : RF := ⟨R.SFI_STOP_CNT, 0, 32⟩

/-- SFI_SIN_CFG (11 Table 11.10). -/
def R.SFI_SIN_CFG (i : Nat) : Nat := 0x700040 + i * 4
def F.SFI_SIN_CFG_FUNC (i : Nat) : RF := ⟨R.SFI_SIN_CFG i, 30, 2⟩
def F.SFI_SIN_CFG_FILT_Q (i : Nat) : RF := ⟨R.SFI_SIN_CFG i, 20, 8⟩
def F.SFI_SIN_CFG_TDISC_Q (i : Nat) : RF := ⟨R.SFI_SIN_CFG i, 0, 20⟩

/-- SFI_DNEAR_CNT (11 Table 11.6, R262). -/
def R.SFI_DNEAR_CNT (i : Nat) : Nat := 0x700060 + i * 4
def F.SFI_DNEAR_CNT_V (i : Nat) : RF := ⟨R.SFI_DNEAR_CNT i, 0, 32⟩

/-- SFI_MON_CFG (11 Table 11.11). -/
def R.SFI_MON_CFG (i : Nat) : Nat := 0x700100 + i * 0x10
def F.SFI_MON_CFG_EN (i : Nat) : RF := ⟨R.SFI_MON_CFG i, 31, 1⟩
def F.SFI_MON_CFG_CLASS (i : Nat) : RF := ⟨R.SFI_MON_CFG i, 30, 1⟩
def F.SFI_MON_CFG_PEAK_WIN (i : Nat) : RF := ⟨R.SFI_MON_CFG i, 16, 8⟩
def F.SFI_MON_CFG_CHAN (i : Nat) : RF := ⟨R.SFI_MON_CFG i, 0, 6⟩

/-- SFI_MON_SCALE (11 Table 11.6, R266). -/
def R.SFI_MON_SCALE (i : Nat) : Nat := 0x700104 + i * 0x10
def F.SFI_MON_SCALE_V (i : Nat) : RF := ⟨R.SFI_MON_SCALE i, 0, 32⟩

/-- SFI_MON_RATE (11 Table 11.6, R266). -/
def R.SFI_MON_RATE (i : Nat) : Nat := 0x700108 + i * 0x10
def F.SFI_MON_RATE_V (i : Nat) : RF := ⟨R.SFI_MON_RATE i, 0, 32⟩

/-- SFI_MON_TOL (11 Table 11.6, R266). -/
def R.SFI_MON_TOL (i : Nat) : Nat := 0x70010c + i * 0x10
def F.SFI_MON_TOL_V (i : Nat) : RF := ⟨R.SFI_MON_TOL i, 0, 32⟩

/-- RDU_CTL (12 Table 12.7). -/
def R.RDU_CTL : Nat := 0x380000
def F.RDU_CTL_CLAIM_EN : RF := ⟨R.RDU_CTL, 31, 1⟩
def F.RDU_CTL_REL_CLR : RF := ⟨R.RDU_CTL, 30, 1⟩
def F.RDU_CTL_RELEASE_REQ : RF := ⟨R.RDU_CTL, 29, 1⟩

/-- RDU_STAT (12 Table 12.8). -/
def R.RDU_STAT : Nat := 0x380004
def F.RDU_STAT_ROLE : RF := ⟨R.RDU_STAT, 30, 2⟩
def F.RDU_STAT_READY : RF := ⟨R.RDU_STAT, 29, 1⟩
def F.RDU_STAT_P_READY : RF := ⟨R.RDU_STAT, 28, 1⟩
def F.RDU_STAT_PL_UP : RF := ⟨R.RDU_STAT, 27, 1⟩
def F.RDU_STAT_COLD : RF := ⟨R.RDU_STAT, 26, 1⟩
def F.RDU_STAT_REL_HOLD : RF := ⟨R.RDU_STAT, 25, 1⟩
def F.RDU_STAT_FENCED : RF := ⟨R.RDU_STAT, 24, 1⟩
def F.RDU_STAT_MIR_LATE : RF := ⟨R.RDU_STAT, 23, 1⟩
def F.RDU_STAT_UID_CONF : RF := ⟨R.RDU_STAT, 22, 1⟩
def F.RDU_STAT_UID : RF := ⟨R.RDU_STAT, 21, 1⟩
def F.RDU_STAT_SILENT : RF := ⟨R.RDU_STAT, 16, 4⟩

/-- RDU_EPOCH (12 Table 12.6, R282). -/
def R.RDU_EPOCH : Nat := 0x380008
def F.RDU_EPOCH_V : RF := ⟨R.RDU_EPOCH, 0, 32⟩

/-- RDU_EPOCH_MAX (12 Table 12.6, R282). -/
def R.RDU_EPOCH_MAX : Nat := 0x38000c
def F.RDU_EPOCH_MAX_V : RF := ⟨R.RDU_EPOCH_MAX, 0, 32⟩

/-- RDU_LEASE (12 Table 12.9). -/
def R.RDU_LEASE : Nat := 0x380010
def F.RDU_LEASE_LEASE_L : RF := ⟨R.RDU_LEASE, 28, 4⟩
def F.RDU_LEASE_TQ : RF := ⟨R.RDU_LEASE, 20, 8⟩
def F.RDU_LEASE_RIDE_N : RF := ⟨R.RDU_LEASE, 13, 7⟩

/-- RDU_RET (12 Table 12.10). -/
def R.RDU_RET : Nat := 0x380014
def F.RDU_RET_MODE : RF := ⟨R.RDU_RET, 31, 1⟩
def F.RDU_RET_PREF : RF := ⟨R.RDU_RET, 30, 1⟩
def F.RDU_RET_SETTLE : RF := ⟨R.RDU_RET, 0, 16⟩

/-- RDU_EQX_CYC (12 Table 12.6, R290). -/
def R.RDU_EQX_CYC : Nat := 0x380018
def F.RDU_EQX_CYC_V : RF := ⟨R.RDU_EQX_CYC, 0, 32⟩

/-- RDU_EQX_CTL (12 Table 12.11). -/
def R.RDU_EQX_CTL : Nat := 0x38001c
def F.RDU_EQX_CTL_GO : RF := ⟨R.RDU_EQX_CTL, 31, 1⟩
def F.RDU_EQX_CTL_LATE_OK : RF := ⟨R.RDU_EQX_CTL, 30, 1⟩
def F.RDU_EQX_CTL_EQ_ST : RF := ⟨R.RDU_EQX_CTL, 27, 3⟩

/-- RDU_MIR_CFG (12 Table 12.6, R293). -/
def R.RDU_MIR_CFG : Nat := 0x380020
def F.RDU_MIR_CFG_RELAY_CH : RF := ⟨R.RDU_MIR_CFG, 20, 4⟩
def F.RDU_MIR_CFG_KQ : RF := ⟨R.RDU_MIR_CFG, 16, 4⟩
def F.RDU_MIR_CFG_MIRROR_MAX : RF := ⟨R.RDU_MIR_CFG, 0, 12⟩

/-- RDU_MIR_STAT (12 Table 12.6). -/
def R.RDU_MIR_STAT : Nat := 0x380024
def F.RDU_MIR_STAT_LEN : RF := ⟨R.RDU_MIR_STAT, 16, 12⟩
def F.RDU_MIR_STAT_TRANS : RF := ⟨R.RDU_MIR_STAT, 0, 16⟩

/-- RDU_TAIL_LO (12 Table 12.6). -/
def R.RDU_TAIL_LO : Nat := 0x380028
def F.RDU_TAIL_LO_V : RF := ⟨R.RDU_TAIL_LO, 0, 32⟩

/-- RDU_TAIL_HI (12 Table 12.6). -/
def R.RDU_TAIL_HI : Nat := 0x38002c
def F.RDU_TAIL_HI_V : RF := ⟨R.RDU_TAIL_HI, 0, 32⟩

/-- RDU_PTAIL_LO (12 Table 12.6). -/
def R.RDU_PTAIL_LO : Nat := 0x380030
def F.RDU_PTAIL_LO_V : RF := ⟨R.RDU_PTAIL_LO, 0, 32⟩

/-- RDU_PTAIL_HI (12 Table 12.6). -/
def R.RDU_PTAIL_HI : Nat := 0x380034
def F.RDU_PTAIL_HI_V : RF := ⟨R.RDU_PTAIL_HI, 0, 32⟩

/-- RDU_CLAIM_WAIT (12 Table 12.6, R283). -/
def R.RDU_CLAIM_WAIT : Nat := 0x380038
def F.RDU_CLAIM_WAIT_V : RF := ⟨R.RDU_CLAIM_WAIT, 0, 16⟩

/-- RDU_EXP_CNT (12 Table 12.6, R284). -/
def R.RDU_EXP_CNT : Nat := 0x380040
def F.RDU_EXP_CNT_V : RF := ⟨R.RDU_EXP_CNT, 0, 32⟩

/-- RDU_REL_CNT (12 Table 12.6, R288). -/
def R.RDU_REL_CNT : Nat := 0x380044
def F.RDU_REL_CNT_V : RF := ⟨R.RDU_REL_CNT, 0, 32⟩

/-- RDU_EQX_CNT (12 Table 12.6, R291). -/
def R.RDU_EQX_CNT : Nat := 0x380048
def F.RDU_EQX_CNT_V : RF := ⟨R.RDU_EQX_CNT, 0, 32⟩

/-- RDU_FENCE_CNT (12 Table 12.6, R287). -/
def R.RDU_FENCE_CNT : Nat := 0x38004c
def F.RDU_FENCE_CNT_V : RF := ⟨R.RDU_FENCE_CNT, 0, 32⟩

/-- RDU_MIR_LATE_CNT (12 Table 12.6, R293). -/
def R.RDU_MIR_LATE_CNT : Nat := 0x380050
def F.RDU_MIR_LATE_CNT_V : RF := ⟨R.RDU_MIR_LATE_CNT, 0, 32⟩

/-- PL_CTL (12 Table 12.6). -/
def R.PL_CTL : Nat := 0x380100
def F.PL_CTL_FIBRE_M : RF := ⟨R.PL_CTL, 8, 8⟩
def F.PL_CTL_EN : RF := ⟨R.PL_CTL, 0, 1⟩

/-- PL_STAT (12 Table 12.12). -/
def R.PL_STAT : Nat := 0x380104
def F.PL_STAT_UP : RF := ⟨R.PL_STAT, 31, 1⟩
def F.PL_STAT_LINK_CHG : RF := ⟨R.PL_STAT, 30, 1⟩
def F.PL_STAT_SKEW_ERR : RF := ⟨R.PL_STAT, 29, 1⟩
def F.PL_STAT_AUTH_ERR : RF := ⟨R.PL_STAT, 28, 1⟩
def F.PL_STAT_LANE_LOCK : RF := ⟨R.PL_STAT, 24, 4⟩
def F.PL_STAT_SKEW : RF := ⟨R.PL_STAT, 20, 4⟩

/-- PL_CRC_CNT (12 Table 12.6, R281). -/
def R.PL_CRC_CNT : Nat := 0x380108
def F.PL_CRC_CNT_V : RF := ⟨R.PL_CRC_CNT, 0, 32⟩

/-- PL_AUTH_CNT (12 Table 12.6, R281). -/
def R.PL_AUTH_CNT : Nat := 0x38010c
def F.PL_AUTH_CNT_V : RF := ⟨R.PL_AUTH_CNT, 0, 32⟩

/-- FCO_STAT (13 Table 13.8). -/
def R.FCO_STAT : Nat := 0x740000
def F.FCO_STAT_ANY_LAT : RF := ⟨R.FCO_STAT, 31, 1⟩
def F.FCO_STAT_QOVF : RF := ⟨R.FCO_STAT, 30, 1⟩
def F.FCO_STAT_ACK_REF : RF := ⟨R.FCO_STAT, 29, 1⟩
def F.FCO_STAT_INJ_REF : RF := ⟨R.FCO_STAT, 28, 1⟩
def F.FCO_STAT_LAST_KIND : RF := ⟨R.FCO_STAT, 0, 8⟩

/-- FCO_LAST_LO (13 Table 13.7). -/
def R.FCO_LAST_LO : Nat := 0x740008
def F.FCO_LAST_LO_V : RF := ⟨R.FCO_LAST_LO, 0, 32⟩

/-- FCO_LAST_HI (13 Table 13.7). -/
def R.FCO_LAST_HI : Nat := 0x74000c
def F.FCO_LAST_HI_V : RF := ⟨R.FCO_LAST_HI, 0, 32⟩

/-- FCO_LAST_TSL (13 Table 13.7). -/
def R.FCO_LAST_TSL : Nat := 0x740010
def F.FCO_LAST_TSL_V : RF := ⟨R.FCO_LAST_TSL, 0, 32⟩

/-- FCO_LAST_TSH (13 Table 13.7). -/
def R.FCO_LAST_TSH : Nat := 0x740014
def F.FCO_LAST_TSH_V : RF := ⟨R.FCO_LAST_TSH, 0, 32⟩

/-- FCO_ACK (13 Table 13.9, R306). -/
def R.FCO_ACK : Nat := 0x740018
def F.FCO_ACK_KIND : RF := ⟨R.FCO_ACK, 0, 8⟩

/-- FCO_MSG_CNT (13 Table 13.7). -/
def R.FCO_MSG_CNT : Nat := 0x74001c
def F.FCO_MSG_CNT_V : RF := ⟨R.FCO_MSG_CNT, 0, 32⟩

/-- FCO_DROP_CNT (13 Table 13.7, R303). -/
def R.FCO_DROP_CNT : Nat := 0x740020
def F.FCO_DROP_CNT_V : RF := ⟨R.FCO_DROP_CNT, 0, 32⟩

/-- FCO_THAW_CNT (13 Table 13.7, R305). -/
def R.FCO_THAW_CNT : Nat := 0x740024
def F.FCO_THAW_CNT_V : RF := ⟨R.FCO_THAW_CNT, 0, 32⟩

/-- FCO_INJ_LO (13 Table 13.7, R307). -/
def R.FCO_INJ_LO : Nat := 0x740030
def F.FCO_INJ_LO_V : RF := ⟨R.FCO_INJ_LO, 0, 32⟩

/-- FCO_INJ_HI (13 Table 13.7, R307). -/
def R.FCO_INJ_HI : Nat := 0x740034
def F.FCO_INJ_HI_V : RF := ⟨R.FCO_INJ_HI, 0, 32⟩

/-- FCO_ACT (13 Table 13.7, R304). -/
def R.FCO_ACT (i : Nat) : Nat := 0x740040 + i * 4
def F.FCO_ACT_V (i : Nat) : RF := ⟨R.FCO_ACT i, 0, 32⟩

/-- FCO_LAT (13 Table 13.7, R305). -/
def R.FCO_LAT (i : Nat) : Nat := 0x740060 + i * 4
def F.FCO_LAT_V (i : Nat) : RF := ⟨R.FCO_LAT i, 0, 32⟩

/-- FCO_RT (13 Table 13.10). -/
def R.FCO_RT (i : Nat) : Nat := 0x740400 + i * 4
def F.FCO_RT_CLASS (i : Nat) : RF := ⟨R.FCO_RT i, 29, 3⟩
def F.FCO_RT_K (i : Nat) : RF := ⟨R.FCO_RT i, 24, 4⟩
def F.FCO_RT_W_UNIT (i : Nat) : RF := ⟨R.FCO_RT i, 22, 2⟩
def F.FCO_RT_W_CNT (i : Nat) : RF := ⟨R.FCO_RT i, 12, 10⟩
def F.FCO_RT_F_UNIT (i : Nat) : RF := ⟨R.FCO_RT i, 10, 2⟩
def F.FCO_RT_F_CNT (i : Nat) : RF := ⟨R.FCO_RT i, 0, 10⟩

/-- FCO_KCNT (13 Table 13.11). -/
def R.FCO_KCNT (i : Nat) : Nat := 0x740800 + i * 4
def F.FCO_KCNT_MSGS (i : Nat) : RF := ⟨R.FCO_KCNT i, 16, 16⟩
def F.FCO_KCNT_THAWS (i : Nat) : RF := ⟨R.FCO_KCNT i, 8, 8⟩
def F.FCO_KCNT_LAT (i : Nat) : RF := ⟨R.FCO_KCNT i, 1, 1⟩
def F.FCO_KCNT_ACT (i : Nat) : RF := ⟨R.FCO_KCNT i, 0, 1⟩

/-- EVR_CTL (14 Table 14.10). -/
def R.EVR_CTL : Nat := 0x780000
def F.EVR_CTL_FROST : RF := ⟨R.EVR_CTL, 31, 1⟩
def F.EVR_CTL_RSV_CLR : RF := ⟨R.EVR_CTL, 30, 1⟩

/-- EVR_STAT (14 Table 14.11). -/
def R.EVR_STAT : Nat := 0x780004
def F.EVR_STAT_DEGRADED : RF := ⟨R.EVR_STAT, 31, 1⟩
def F.EVR_STAT_FULL : RF := ⟨R.EVR_STAT, 30, 1⟩
def F.EVR_STAT_FROZEN : RF := ⟨R.EVR_STAT, 29, 1⟩
def F.EVR_STAT_LOSS : RF := ⟨R.EVR_STAT, 28, 1⟩
def F.EVR_STAT_CLEARING : RF := ⟨R.EVR_STAT, 27, 1⟩
def F.EVR_STAT_BUF_DEPTH : RF := ⟨R.EVR_STAT, 0, 12⟩

/-- EVR_WPTR (14 Table 14.9). -/
def R.EVR_WPTR : Nat := 0x780008
def F.EVR_WPTR_V : RF := ⟨R.EVR_WPTR, 0, 18⟩

/-- EVR_SEQ_NEXT (14 Table 14.9, R315). -/
def R.EVR_SEQ_NEXT : Nat := 0x78000c
def F.EVR_SEQ_NEXT_V : RF := ⟨R.EVR_SEQ_NEXT, 0, 32⟩

/-- EVR_BUF_LOST_CNT (14 Table 14.9, R314). -/
def R.EVR_BUF_LOST_CNT : Nat := 0x780010
def F.EVR_BUF_LOST_CNT_V : RF := ⟨R.EVR_BUF_LOST_CNT, 0, 32⟩

/-- EVR_FULL_LOST_CNT (14 Table 14.9, R316). -/
def R.EVR_FULL_LOST_CNT : Nat := 0x780014
def F.EVR_FULL_LOST_CNT_V : RF := ⟨R.EVR_FULL_LOST_CNT, 0, 32⟩

/-- EVR_DEG_LOST_CNT (14 Table 14.9, R318). -/
def R.EVR_DEG_LOST_CNT : Nat := 0x780018
def F.EVR_DEG_LOST_CNT_V : RF := ⟨R.EVR_DEG_LOST_CNT, 0, 32⟩

/-- EVR_SUPP_CNT (14 Table 14.9, R313). -/
def R.EVR_SUPP_CNT : Nat := 0x78001c
def F.EVR_SUPP_CNT_V : RF := ⟨R.EVR_SUPP_CNT, 0, 32⟩

/-- EVR_EARLY_CNT (14 Table 14.9, R312). -/
def R.EVR_EARLY_CNT : Nat := 0x780020
def F.EVR_EARLY_CNT_V : RF := ⟨R.EVR_EARLY_CNT, 0, 32⟩

/-- EVR_TORN_CNT (14 Table 14.9, R320). -/
def R.EVR_TORN_CNT : Nat := 0x780024
def F.EVR_TORN_CNT_V : RF := ⟨R.EVR_TORN_CNT, 0, 32⟩

/-- EVR_FROST_TMO (14 Table 14.9, R322). -/
def R.EVR_FROST_TMO : Nat := 0x780028
def F.EVR_FROST_TMO_V : RF := ⟨R.EVR_FROST_TMO, 0, 6⟩

/-- EVR_RD_CTL (14 Table 14.12). -/
def R.EVR_RD_CTL : Nat := 0x780030
def F.EVR_RD_CTL_SEL : RF := ⟨R.EVR_RD_CTL, 30, 2⟩
def F.EVR_RD_CTL_AUTO_INC : RF := ⟨R.EVR_RD_CTL, 29, 1⟩
def F.EVR_RD_CTL_CUR : RF := ⟨R.EVR_RD_CTL, 0, 18⟩

/-- EVR_RD_STAT (14 Table 14.13). -/
def R.EVR_RD_STAT : Nat := 0x780034
def F.EVR_RD_STAT_VALID : RF := ⟨R.EVR_RD_STAT, 31, 1⟩
def F.EVR_RD_STAT_END : RF := ⟨R.EVR_RD_STAT, 30, 1⟩
def F.EVR_RD_STAT_ERASED : RF := ⟨R.EVR_RD_STAT, 29, 1⟩

/-- EVR_RDW (14 Table 14.9, R321). -/
def R.EVR_RDW (i : Nat) : Nat := 0x780040 + i * 4
def F.EVR_RDW_V (i : Nat) : RF := ⟨R.EVR_RDW i, 0, 32⟩

/-- EVR_RL_DEF (14 Table 14.14, R313). -/
def R.EVR_RL_DEF : Nat := 0x780100
def F.EVR_RL_DEF_EN : RF := ⟨R.EVR_RL_DEF, 31, 1⟩
def F.EVR_RL_DEF_BURST : RF := ⟨R.EVR_RL_DEF, 16, 8⟩
def F.EVR_RL_DEF_CODE : RF := ⟨R.EVR_RL_DEF, 0, 16⟩

/-- EVR_RL_DEF_RATE (14 Table 14.9, R313). -/
def R.EVR_RL_DEF_RATE : Nat := 0x780104
def F.EVR_RL_DEF_RATE_RATE : RF := ⟨R.EVR_RL_DEF_RATE, 0, 20⟩

/-- EVR_RSV_W (14 Table 14.9, R324). -/
def R.EVR_RSV_W (i j : Nat) : Nat := 0x780200 + i * 0x20 + j * 4
def F.EVR_RSV_W_V (i j : Nat) : RF := ⟨R.EVR_RSV_W i j, 0, 32⟩

/-- EVR_RSV_STAT (14 Table 14.9, R324). -/
def R.EVR_RSV_STAT : Nat := 0x780400
def F.EVR_RSV_STAT_COUNT : RF := ⟨R.EVR_RSV_STAT, 16, 5⟩
def F.EVR_RSV_STAT_RSV_LOST : RF := ⟨R.EVR_RSV_STAT, 0, 16⟩

/-- EVR_RL (14 Table 14.14, R313). -/
def R.EVR_RL (i : Nat) : Nat := 0x781000 + i * 8
def F.EVR_RL_EN (i : Nat) : RF := ⟨R.EVR_RL i, 31, 1⟩
def F.EVR_RL_BURST (i : Nat) : RF := ⟨R.EVR_RL i, 16, 8⟩
def F.EVR_RL_CODE (i : Nat) : RF := ⟨R.EVR_RL i, 0, 16⟩

/-- EVR_RL_RATE (14 Table 14.9, R313). -/
def R.EVR_RL_RATE (i : Nat) : Nat := 0x781004 + i * 8
def F.EVR_RL_RATE_RATE (i : Nat) : RF := ⟨R.EVR_RL_RATE i, 0, 20⟩

/-- DRC_CTL (14 Table 14.16). -/
def R.DRC_CTL : Nat := 0x7c0000
def F.DRC_CTL_ARM : RF := ⟨R.DRC_CTL, 31, 1⟩
def F.DRC_CTL_DISARM : RF := ⟨R.DRC_CTL, 30, 1⟩
def F.DRC_CTL_EXTEND : RF := ⟨R.DRC_CTL, 29, 1⟩

/-- DRC_STAT (14 Table 14.17). -/
def R.DRC_STAT : Nat := 0x7c0004
def F.DRC_STAT_ARMED : RF := ⟨R.DRC_STAT, 31, 1⟩
def F.DRC_STAT_STOPPED : RF := ⟨R.DRC_STAT, 30, 1⟩
def F.DRC_STAT_OPEN : RF := ⟨R.DRC_STAT, 29, 1⟩
def F.DRC_STAT_TRUNC : RF := ⟨R.DRC_STAT, 28, 1⟩
def F.DRC_STAT_TRIG_LOST : RF := ⟨R.DRC_STAT, 27, 1⟩
def F.DRC_STAT_CFG_ERR : RF := ⟨R.DRC_STAT, 26, 1⟩
def F.DRC_STAT_NDIR : RF := ⟨R.DRC_STAT, 0, 11⟩

/-- DRC_AREA (14 Table 14.15, R329). -/
def R.DRC_AREA : Nat := 0x7c0008
def F.DRC_AREA_BASE : RF := ⟨R.DRC_AREA, 8, 7⟩
def F.DRC_AREA_SIZE : RF := ⟨R.DRC_AREA, 0, 8⟩

/-- DRC_KEYF (14 Table 14.15, R326). -/
def R.DRC_KEYF : Nat := 0x7c000c
def F.DRC_KEYF_V : RF := ⟨R.DRC_KEYF, 0, 17⟩

/-- DRC_PRE (14 Table 14.15, R331). -/
def R.DRC_PRE : Nat := 0x7c0010
def F.DRC_PRE_V : RF := ⟨R.DRC_PRE, 0, 20⟩

/-- DRC_POST (14 Table 14.15, R331). -/
def R.DRC_POST : Nat := 0x7c0014
def F.DRC_POST_V : RF := ⟨R.DRC_POST, 0, 24⟩

/-- DRC_REL (14 Table 14.15, R331). -/
def R.DRC_REL : Nat := 0x7c0018
def F.DRC_REL_ENTRY : RF := ⟨R.DRC_REL, 0, 10⟩

/-- DRC_TRIG_LOST_CNT (14 Table 14.15, R331). -/
def R.DRC_TRIG_LOST_CNT : Nat := 0x7c001c
def F.DRC_TRIG_LOST_CNT_V : RF := ⟨R.DRC_TRIG_LOST_CNT, 0, 32⟩

/-- DRC_TRUNC_CNT (14 Table 14.15, R329). -/
def R.DRC_TRUNC_CNT : Nat := 0x7c0020
def F.DRC_TRUNC_CNT_V : RF := ⟨R.DRC_TRUNC_CNT, 0, 32⟩

/-- DRC_STOP_CYC (14 Table 14.15, R333). -/
def R.DRC_STOP_CYC : Nat := 0x7c0024
def F.DRC_STOP_CYC_V : RF := ⟨R.DRC_STOP_CYC, 0, 32⟩

/-- DRC_WPTR (14 Table 14.15). -/
def R.DRC_WPTR : Nat := 0x7c0028
def F.DRC_WPTR_V : RF := ⟨R.DRC_WPTR, 0, 30⟩

/-- DRC_EXP_CTL (14 Table 14.15, R334). -/
def R.DRC_EXP_CTL : Nat := 0x7c0040
def F.DRC_EXP_CTL_DONE : RF := ⟨R.DRC_EXP_CTL, 31, 1⟩
def F.DRC_EXP_CTL_ENTRY : RF := ⟨R.DRC_EXP_CTL, 0, 10⟩

/-- DRC_EXP_STAT (14 Table 14.18). -/
def R.DRC_EXP_STAT : Nat := 0x7c0044
def F.DRC_EXP_STAT_READY : RF := ⟨R.DRC_EXP_STAT, 31, 1⟩
def F.DRC_EXP_STAT_EXP_TORN : RF := ⟨R.DRC_EXP_STAT, 30, 1⟩
def F.DRC_EXP_STAT_REFUSED : RF := ⟨R.DRC_EXP_STAT, 29, 1⟩
def F.DRC_EXP_STAT_ENTRY : RF := ⟨R.DRC_EXP_STAT, 0, 10⟩

/-- DRC_EXP_SEG_ADDR (14 Table 14.15, R334). -/
def R.DRC_EXP_SEG_ADDR (i : Nat) : Nat := 0x7c0048 + i * 8
def F.DRC_EXP_SEG_ADDR_V (i : Nat) : RF := ⟨R.DRC_EXP_SEG_ADDR i, 0, 30⟩

/-- DRC_EXP_SEG_LEN (14 Table 14.15, R334). -/
def R.DRC_EXP_SEG_LEN (i : Nat) : Nat := 0x7c004c + i * 8
def F.DRC_EXP_SEG_LEN_V (i : Nat) : RF := ⟨R.DRC_EXP_SEG_LEN i, 0, 30⟩

/-- DRC_EXP_MEAS (14 Table 14.15, R334). -/
def R.DRC_EXP_MEAS : Nat := 0x7c0058
def F.DRC_EXP_MEAS_V : RF := ⟨R.DRC_EXP_MEAS, 0, 30⟩

/-- DRC_ACH_CFG (14 Table 14.19). -/
def R.DRC_ACH_CFG (i : Nat) : Nat := 0x7c0400 + i * 8
def F.DRC_ACH_CFG_EN (i : Nat) : RF := ⟨R.DRC_ACH_CFG i, 31, 1⟩
def F.DRC_ACH_CFG_TYPE (i : Nat) : RF := ⟨R.DRC_ACH_CFG i, 30, 1⟩
def F.DRC_ACH_CFG_MEAS (i : Nat) : RF := ⟨R.DRC_ACH_CFG i, 29, 1⟩
def F.DRC_ACH_CFG_IDX (i : Nat) : RF := ⟨R.DRC_ACH_CFG i, 0, 14⟩

/-- DRC_ACH_DB (14 Table 14.15, R326). -/
def R.DRC_ACH_DB (i : Nat) : Nat := 0x7c0404 + i * 8
def F.DRC_ACH_DB_V (i : Nat) : RF := ⟨R.DRC_ACH_DB i, 0, 32⟩

/-- DRC_SMDB (14 Table 14.15, R326). -/
def R.DRC_SMDB (i : Nat) : Nat := 0x7c0c00 + i * 4
def F.DRC_SMDB_V (i : Nat) : RF := ⟨R.DRC_SMDB i, 0, 32⟩

/-- DRC_TRG_CFG (14 Table 14.20). -/
def R.DRC_TRG_CFG (i : Nat) : Nat := 0x7c2000 + i * 0x20
def F.DRC_TRG_CFG_TYPE (i : Nat) : RF := ⟨R.DRC_TRG_CFG i, 29, 3⟩
def F.DRC_TRG_CFG_DIR (i : Nat) : RF := ⟨R.DRC_TRG_CFG i, 28, 1⟩
def F.DRC_TRG_CFG_HOLD (i : Nat) : RF := ⟨R.DRC_TRG_CFG i, 20, 8⟩
def F.DRC_TRG_CFG_ARG (i : Nat) : RF := ⟨R.DRC_TRG_CFG i, 0, 16⟩

/-- DRC_TRG_LVL (14 Table 14.15, R330). -/
def R.DRC_TRG_LVL (i : Nat) : Nat := 0x7c2004 + i * 0x20
def F.DRC_TRG_LVL_V (i : Nat) : RF := ⟨R.DRC_TRG_LVL i, 0, 32⟩

/-- DRC_TRG_HI (14 Table 14.15, R330). -/
def R.DRC_TRG_HI (i : Nat) : Nat := 0x7c2008 + i * 0x20
def F.DRC_TRG_HI_V (i : Nat) : RF := ⟨R.DRC_TRG_HI i, 0, 32⟩

/-- DRC_CMB_MASK (14 Table 14.15, R330). -/
def R.DRC_CMB_MASK (i : Nat) : Nat := 0x7c2400 + i * 8
def F.DRC_CMB_MASK_V (i : Nat) : RF := ⟨R.DRC_CMB_MASK i, 0, 32⟩

/-- DRC_CMB_CTL (14 Table 14.15, R330). -/
def R.DRC_CMB_CTL (i : Nat) : Nat := 0x7c2404 + i * 8
def F.DRC_CMB_CTL_EN (i : Nat) : RF := ⟨R.DRC_CMB_CTL i, 31, 1⟩
def F.DRC_CMB_CTL_OP (i : Nat) : RF := ⟨R.DRC_CMB_CTL i, 30, 1⟩

/-- DRC_MSK_CFG (14 Table 14.21, R333). -/
def R.DRC_MSK_CFG (i : Nat) : Nat := 0x7c3000 + i * 0x10
def F.DRC_MSK_CFG_EN (i : Nat) : RF := ⟨R.DRC_MSK_CFG i, 31, 1⟩
def F.DRC_MSK_CFG_STOP (i : Nat) : RF := ⟨R.DRC_MSK_CFG i, 30, 1⟩
def F.DRC_MSK_CFG_STEP_M1 (i : Nat) : RF := ⟨R.DRC_MSK_CFG i, 22, 8⟩
def F.DRC_MSK_CFG_CHAN (i : Nat) : RF := ⟨R.DRC_MSK_CFG i, 14, 8⟩

/-- DRC_MSK_OFS (14 Table 14.15, R333). -/
def R.DRC_MSK_OFS (i : Nat) : Nat := 0x7c3004 + i * 0x10
def F.DRC_MSK_OFS_VPOST (i : Nat) : RF := ⟨R.DRC_MSK_OFS i, 16, 16⟩
def F.DRC_MSK_OFS_OFS (i : Nat) : RF := ⟨R.DRC_MSK_OFS i, 0, 16⟩

/-- DRC_MSK_PADDR (14 Table 14.15, R333). -/
def R.DRC_MSK_PADDR (i : Nat) : Nat := 0x7c3008 + i * 0x10
def F.DRC_MSK_PADDR_SIDE (i : Nat) : RF := ⟨R.DRC_MSK_PADDR i, 11, 1⟩
def F.DRC_MSK_PADDR_POINT (i : Nat) : RF := ⟨R.DRC_MSK_PADDR i, 0, 11⟩

/-- DRC_MSK_PDATA (14 Table 14.15, R333). -/
def R.DRC_MSK_PDATA (i : Nat) : Nat := 0x7c300c + i * 0x10
def F.DRC_MSK_PDATA_V (i : Nat) : RF := ⟨R.DRC_MSK_PDATA i, 0, 32⟩

/-- APW_CTL (15 Table 15.3, R345). -/
def R.APW_CTL : Nat := 0x640000
def F.APW_CTL_FLT_CLR : RF := ⟨R.APW_CTL, 31, 1⟩

/-- APW_STAT (15 Table 15.3). -/
def R.APW_STAT : Nat := 0x640004
def F.APW_STAT_FLT : RF := ⟨R.APW_STAT, 31, 1⟩
def F.APW_STAT_CFG_ERR : RF := ⟨R.APW_STAT, 30, 1⟩
def F.APW_STAT_TRIPPED : RF := ⟨R.APW_STAT, 0, 12⟩

/-- APW_UPDLK (15 Table 15.3, R339). -/
def R.APW_UPDLK : Nat := 0x640008
def F.APW_UPDLK_V : RF := ⟨R.APW_UPDLK, 0, 12⟩

/-- APW_FORCE_MASK (15 Table 15.3, R347). -/
def R.APW_FORCE_MASK : Nat := 0x64000c
def F.APW_FORCE_MASK_V : RF := ⟨R.APW_FORCE_MASK, 0, 12⟩

/-- APW_FORCE_VAL (15 Table 15.3, R347). -/
def R.APW_FORCE_VAL : Nat := 0x640010
def F.APW_FORCE_VAL_V : RF := ⟨R.APW_FORCE_VAL, 0, 24⟩

/-- APW_FORCE_CTL (15 Table 15.3, R347). -/
def R.APW_FORCE_CTL : Nat := 0x640014
def F.APW_FORCE_CTL_GO : RF := ⟨R.APW_FORCE_CTL, 31, 1⟩
def F.APW_FORCE_CTL_AT_BND : RF := ⟨R.APW_FORCE_CTL, 0, 1⟩

/-- APW_TRIP_CFG (15 Table 15.4). -/
def R.APW_TRIP_CFG (i : Nat) : Nat := 0x640040 + i * 4
def F.APW_TRIP_CFG_ACT_HI (i : Nat) : RF := ⟨R.APW_TRIP_CFG i, 31, 1⟩
def F.APW_TRIP_CFG_BLANK_EN (i : Nat) : RF := ⟨R.APW_TRIP_CFG i, 30, 1⟩
def F.APW_TRIP_CFG_BLANK_CH (i : Nat) : RF := ⟨R.APW_TRIP_CFG i, 26, 4⟩
def F.APW_TRIP_CFG_BLANK_T (i : Nat) : RF := ⟨R.APW_TRIP_CFG i, 8, 9⟩
def F.APW_TRIP_CFG_TFLT (i : Nat) : RF := ⟨R.APW_TRIP_CFG i, 0, 7⟩

/-- APW_CH_CTL (15 Table 15.5). -/
def R.APW_CH_CTL (i : Nat) : Nat := 0x640100 + i * 0x40
def F.APW_CH_CTL_EN (i : Nat) : RF := ⟨R.APW_CH_CTL i, 31, 1⟩
def F.APW_CH_CTL_ALIGN (i : Nat) : RF := ⟨R.APW_CH_CTL i, 30, 1⟩
def F.APW_CH_CTL_POL (i : Nat) : RF := ⟨R.APW_CH_CTL i, 29, 1⟩
def F.APW_CH_CTL_SAFE_OFF (i : Nat) : RF := ⟨R.APW_CH_CTL i, 28, 1⟩
def F.APW_CH_CTL_LEASE_ONLY (i : Nat) : RF := ⟨R.APW_CH_CTL i, 27, 1⟩
def F.APW_CH_CTL_POLICY (i : Nat) : RF := ⟨R.APW_CH_CTL i, 25, 2⟩
def F.APW_CH_CTL_TMODE (i : Nat) : RF := ⟨R.APW_CH_CTL i, 24, 1⟩
def F.APW_CH_CTL_TRIP_MASK (i : Nat) : RF := ⟨R.APW_CH_CTL i, 0, 8⟩

/-- APW_CH_PERIOD (15 Table 15.3, R337). -/
def R.APW_CH_PERIOD (i : Nat) : Nat := 0x640104 + i * 0x40
def F.APW_CH_PERIOD_V (i : Nat) : RF := ⟨R.APW_CH_PERIOD i, 0, 20⟩

/-- APW_CH_DUTY (15 Table 15.3, R337). -/
def R.APW_CH_DUTY (i : Nat) : Nat := 0x640108 + i * 0x40
def F.APW_CH_DUTY_V (i : Nat) : RF := ⟨R.APW_CH_DUTY i, 0, 23⟩

/-- APW_CH_PHASE (15 Table 15.3, R338). -/
def R.APW_CH_PHASE (i : Nat) : Nat := 0x64010c + i * 0x40
def F.APW_CH_PHASE_V (i : Nat) : RF := ⟨R.APW_CH_PHASE i, 0, 20⟩

/-- APW_CH_DT (15 Table 15.3, R341). -/
def R.APW_CH_DT (i : Nat) : Nat := 0x640110 + i * 0x40
def F.APW_CH_DT_MINP (i : Nat) : RF := ⟨R.APW_CH_DT i, 16, 10⟩
def F.APW_CH_DT_DT (i : Nat) : RF := ⟨R.APW_CH_DT i, 0, 10⟩

/-- APW_CH_ACTP (15 Table 15.3). Its reset value is not given: the staged PERIOD's (log entry 28). -/
def R.APW_CH_ACTP (i : Nat) : Nat := 0x640114 + i * 0x40
def F.APW_CH_ACTP_V (i : Nat) : RF := ⟨R.APW_CH_ACTP i, 0, 20⟩

/-- APW_CH_ACTD (15 Table 15.3). -/
def R.APW_CH_ACTD (i : Nat) : Nat := 0x640118 + i * 0x40
def F.APW_CH_ACTD_V (i : Nat) : RF := ⟨R.APW_CH_ACTD i, 0, 23⟩

/-- APW_CH_CARRY (15 Table 15.3, R342). -/
def R.APW_CH_CARRY (i : Nat) : Nat := 0x64011c + i * 0x40
def F.APW_CH_CARRY_V (i : Nat) : RF := ⟨R.APW_CH_CARRY i, 0, 32⟩

/-- APW_CH_STAT (15 Table 15.6). -/
def R.APW_CH_STAT (i : Nat) : Nat := 0x640120 + i * 0x40
def F.APW_CH_STAT_MISMATCH (i : Nat) : RF := ⟨R.APW_CH_STAT i, 31, 1⟩
def F.APW_CH_STAT_CARRY_SAT (i : Nat) : RF := ⟨R.APW_CH_STAT i, 30, 1⟩
def F.APW_CH_STAT_TRIPPED (i : Nat) : RF := ⟨R.APW_CH_STAT i, 29, 1⟩
def F.APW_CH_STAT_FORCED (i : Nat) : RF := ⟨R.APW_CH_STAT i, 28, 1⟩
def F.APW_CH_STAT_PEND (i : Nat) : RF := ⟨R.APW_CH_STAT i, 27, 1⟩
def F.APW_CH_STAT_H (i : Nat) : RF := ⟨R.APW_CH_STAT i, 1, 1⟩
def F.APW_CH_STAT_L (i : Nat) : RF := ⟨R.APW_CH_STAT i, 0, 1⟩

/-- APW_CH_CNT (15 Table 15.3, R342). -/
def R.APW_CH_CNT (i : Nat) : Nat := 0x640124 + i * 0x40
def F.APW_CH_CNT_SUPP (i : Nat) : RF := ⟨R.APW_CH_CNT i, 16, 16⟩
def F.APW_CH_CNT_STR (i : Nat) : RF := ⟨R.APW_CH_CNT i, 0, 16⟩

/-- APW_CH_TRIP_CNT (15 Table 15.3, R343). -/
def R.APW_CH_TRIP_CNT (i : Nat) : Nat := 0x640128 + i * 0x40
def F.APW_CH_TRIP_CNT_V (i : Nat) : RF := ⟨R.APW_CH_TRIP_CNT i, 0, 32⟩

/-- APW_CH_TRIP_CLR (15 Table 15.3, R343). -/
def R.APW_CH_TRIP_CLR (i : Nat) : Nat := 0x64012c + i * 0x40
def F.APW_CH_TRIP_CLR_TRIP_CLR (i : Nat) : RF := ⟨R.APW_CH_TRIP_CLR i, 0, 1⟩

/-- MEM_STAT (16 Table 16.9). -/
def R.MEM_STAT : Nat := 0x800000
def F.MEM_STAT_WIPING : RF := ⟨R.MEM_STAT, 31, 1⟩
def F.MEM_STAT_LOST_WRITE : RF := ⟨R.MEM_STAT, 30, 1⟩
def F.MEM_STAT_DP_UNC : RF := ⟨R.MEM_STAT, 29, 1⟩
def F.MEM_STAT_WIN_REF : RF := ⟨R.MEM_STAT, 28, 1⟩
def F.MEM_STAT_ACC_ERR : RF := ⟨R.MEM_STAT, 27, 1⟩
def F.MEM_STAT_RETIRE_FULL : RF := ⟨R.MEM_STAT, 26, 1⟩

/-- MEM_WIN_TILE (16 Table 16.8, R361). -/
def R.MEM_WIN_TILE : Nat := 0x800004
def F.MEM_WIN_TILE_V : RF := ⟨R.MEM_WIN_TILE, 0, 32⟩

/-- MEM_WIN_CB (16 Table 16.8, R361). -/
def R.MEM_WIN_CB : Nat := 0x800008
def F.MEM_WIN_CB_V : RF := ⟨R.MEM_WIN_CB, 0, 8⟩

/-- MEM_WIN_RDY_TILE (16 Table 16.8, R362). -/
def R.MEM_WIN_RDY_TILE : Nat := 0x80000c
def F.MEM_WIN_RDY_TILE_V : RF := ⟨R.MEM_WIN_RDY_TILE, 0, 32⟩

/-- MEM_WIN_RDY_CB (16 Table 16.8, R362). -/
def R.MEM_WIN_RDY_CB : Nat := 0x800010
def F.MEM_WIN_RDY_CB_V : RF := ⟨R.MEM_WIN_RDY_CB, 0, 8⟩

/-- MEM_DP_LOST_CNT (16 Table 16.8, R354). -/
def R.MEM_DP_LOST_CNT : Nat := 0x800020
def F.MEM_DP_LOST_CNT_V : RF := ⟨R.MEM_DP_LOST_CNT, 0, 32⟩

/-- MEM_DP_UNC_CNT (16 Table 16.8). -/
def R.MEM_DP_UNC_CNT : Nat := 0x800024
def F.MEM_DP_UNC_CNT_V : RF := ⟨R.MEM_DP_UNC_CNT, 0, 32⟩

/-- MEM_SRAM_CORR_CNT (16 Table 16.8, R349). -/
def R.MEM_SRAM_CORR_CNT : Nat := 0x800028
def F.MEM_SRAM_CORR_CNT_V : RF := ⟨R.MEM_SRAM_CORR_CNT, 0, 32⟩

/-- MEM_RS_CORR_CNT (16 Table 16.8, R349). -/
def R.MEM_RS_CORR_CNT : Nat := 0x80002c
def F.MEM_RS_CORR_CNT_V : RF := ⟨R.MEM_RS_CORR_CNT, 0, 32⟩

/-- MEM_NV_CORR_CNT (16 Table 16.8, R349). -/
def R.MEM_NV_CORR_CNT : Nat := 0x800030
def F.MEM_NV_CORR_CNT_V : RF := ⟨R.MEM_NV_CORR_CNT, 0, 32⟩

/-- MEM_RS_RETIRED (16 Table 16.8, R350). -/
def R.MEM_RS_RETIRED : Nat := 0x800034
def F.MEM_RS_RETIRED_V : RF := ⟨R.MEM_RS_RETIRED, 0, 9⟩

/-- MEM_ACC_ERR_CNT (16 Table 16.8, R358). -/
def R.MEM_ACC_ERR_CNT : Nat := 0x800038
def F.MEM_ACC_ERR_CNT_V : RF := ⟨R.MEM_ACC_ERR_CNT, 0, 32⟩

/-- MEM_W (16 Table 16.8, R355). -/
def R.MEM_W (i : Nat) : Nat := 0x800040 + i * 4
def F.MEM_W_V (i : Nat) : RF := ⟨R.MEM_W i, 0, 4⟩

/-- MEM_CONF (16 Table 16.8, R355). -/
def R.MEM_CONF (i : Nat) : Nat := 0x800080 + i * 4
def F.MEM_CONF_V (i : Nat) : RF := ⟨R.MEM_CONF i, 0, 32⟩

/-- MEM_RS_A (16 Table 16.8, R356). -/
def R.MEM_RS_A (i : Nat) : Nat := 0x8000c0 + i * 4
def F.MEM_RS_A_V (i : Nat) : RF := ⟨R.MEM_RS_A i, 0, 10⟩

/-- MEM_RS_STAT (16 Table 16.8). -/
def R.MEM_RS_STAT : Nat := 0x8000e0
def F.MEM_RS_STAT_V : RF := ⟨R.MEM_RS_STAT, 0, 10⟩

/-- MEM_TAMP_CFG (16 Table 16.10, R359). -/
def R.MEM_TAMP_CFG : Nat := 0x800100
def F.MEM_TAMP_CFG_EN : RF := ⟨R.MEM_TAMP_CFG, 28, 4⟩
def F.MEM_TAMP_CFG_ACT_HI : RF := ⟨R.MEM_TAMP_CFG, 24, 4⟩
def F.MEM_TAMP_CFG_FLT : RF := ⟨R.MEM_TAMP_CFG, 0, 6⟩

/-- MEM_TAMP_STAT (16 Table 16.8, R359). -/
def R.MEM_TAMP_STAT : Nat := 0x800104
def F.MEM_TAMP_STAT_UNPWR : RF := ⟨R.MEM_TAMP_STAT, 4, 1⟩
def F.MEM_TAMP_STAT_LATCH : RF := ⟨R.MEM_TAMP_STAT, 0, 4⟩

/-- SYS_ID (17 Table 17.17). -/
def R.SYS_ID : Nat := 0
def F.SYS_ID_PART : RF := ⟨R.SYS_ID, 16, 16⟩
def F.SYS_ID_MAJOR : RF := ⟨R.SYS_ID, 8, 8⟩
def F.SYS_ID_MINOR : RF := ⟨R.SYS_ID, 0, 8⟩

/-- SYS_LC (17 Table 17.17, R384). -/
def R.SYS_LC : Nat := 4
def F.SYS_LC_STATE : RF := ⟨R.SYS_LC, 0, 2⟩

/-- SYS_SERIAL_LO (17 Table 17.17). -/
def R.SYS_SERIAL_LO : Nat := 8
def F.SYS_SERIAL_LO_V : RF := ⟨R.SYS_SERIAL_LO, 0, 32⟩

/-- SYS_SERIAL_HI (17 Table 17.17). -/
def R.SYS_SERIAL_HI : Nat := 12
def F.SYS_SERIAL_HI_V : RF := ⟨R.SYS_SERIAL_HI, 0, 24⟩

/-- SYS_PRIV (17 Table 17.18, R389). -/
def R.SYS_PRIV : Nat := 0x10
def F.SYS_PRIV_OPEN : RF := ⟨R.SYS_PRIV, 31, 1⟩
def F.SYS_PRIV_LOCKOUT : RF := ⟨R.SYS_PRIV, 30, 1⟩
def F.SYS_PRIV_FAILS : RF := ⟨R.SYS_PRIV, 26, 4⟩
def F.SYS_PRIV_REMAIN : RF := ⟨R.SYS_PRIV, 0, 12⟩

/-- SYS_PRIV_NONCE_LO (17 Table 17.17, R389). -/
def R.SYS_PRIV_NONCE_LO : Nat := 0x14
def F.SYS_PRIV_NONCE_LO_V : RF := ⟨R.SYS_PRIV_NONCE_LO, 0, 32⟩

/-- SYS_PRIV_NONCE_HI (17 Table 17.17, R389). -/
def R.SYS_PRIV_NONCE_HI : Nat := 0x18
def F.SYS_PRIV_NONCE_HI_V : RF := ⟨R.SYS_PRIV_NONCE_HI, 0, 32⟩

/-- SYS_PRIV_TMO (17 Table 17.17, R389). -/
def R.SYS_PRIV_TMO : Nat := 0x1c
def F.SYS_PRIV_TMO_V : RF := ⟨R.SYS_PRIV_TMO, 0, 12⟩

/-- SYS_RST_CAUSE (17 Table 17.17, R398). -/
def R.SYS_RST_CAUSE : Nat := 0x20
def F.SYS_RST_CAUSE_V : RF := ⟨R.SYS_RST_CAUSE, 0, 4⟩

/-- CFC_STAT (17 Table 17.19). -/
def R.CFC_STAT : Nat := 0x10000
def F.CFC_STAT_NOIMG : RF := ⟨R.CFC_STAT, 31, 1⟩
def F.CFC_STAT_FALLBACK : RF := ⟨R.CFC_STAT, 30, 1⟩
def F.CFC_STAT_SW_PEND : RF := ⟨R.CFC_STAT, 29, 1⟩
def F.CFC_STAT_ACTIVE_SLOT : RF := ⟨R.CFC_STAT, 28, 1⟩
def F.CFC_STAT_SW_ST : RF := ⟨R.CFC_STAT, 26, 2⟩

/-- CFC_ERR (17 Table 17.20). -/
def R.CFC_ERR : Nat := 0x10004
def F.CFC_ERR_CODE : RF := ⟨R.CFC_ERR, 24, 8⟩
def F.CFC_ERR_SECTION : RF := ⟨R.CFC_ERR, 16, 8⟩
def F.CFC_ERR_DETAIL : RF := ⟨R.CFC_ERR, 0, 16⟩

/-- CFC_ERR_OFS (17 Table 17.17). -/
def R.CFC_ERR_OFS : Nat := 0x10008
def F.CFC_ERR_OFS_V : RF := ⟨R.CFC_ERR_OFS, 0, 32⟩

/-- CFC_SW_CYC (17 Table 17.17). -/
def R.CFC_SW_CYC : Nat := 0x1000c
def F.CFC_SW_CYC_V : RF := ⟨R.CFC_SW_CYC, 0, 32⟩

/-- CFC_SLOT_ID_LO (17 Table 17.17). -/
def R.CFC_SLOT_ID_LO (i : Nat) : Nat := 0x10020 + i * 0x10
def F.CFC_SLOT_ID_LO_V (i : Nat) : RF := ⟨R.CFC_SLOT_ID_LO i, 0, 32⟩

/-- CFC_SLOT_ID_HI (17 Table 17.17). -/
def R.CFC_SLOT_ID_HI (i : Nat) : Nat := 0x10024 + i * 0x10
def F.CFC_SLOT_ID_HI_V (i : Nat) : RF := ⟨R.CFC_SLOT_ID_HI i, 0, 32⟩

/-- CFC_SLOT_GEN (17 Table 17.17). -/
def R.CFC_SLOT_GEN (i : Nat) : Nat := 0x10028 + i * 0x10
def F.CFC_SLOT_GEN_V (i : Nat) : RF := ⟨R.CFC_SLOT_GEN i, 0, 32⟩

/-- CFC_SLOT_STAT (17 Table 17.17). -/
def R.CFC_SLOT_STAT (i : Nat) : Nat := 0x1002c + i * 0x10
def F.CFC_SLOT_STAT_ST (i : Nat) : RF := ⟨R.CFC_SLOT_STAT i, 30, 2⟩
def F.CFC_SLOT_STAT_PARTIAL (i : Nat) : RF := ⟨R.CFC_SLOT_STAT i, 29, 1⟩
def F.CFC_SLOT_STAT_ACTIVE (i : Nat) : RF := ⟨R.CFC_SLOT_STAT i, 28, 1⟩

/-- HCP_STAT (17 Table 17.21). -/
def R.HCP_STAT : Nat := 0x20000
def F.HCP_STAT_BUSY : RF := ⟨R.HCP_STAT, 31, 1⟩
def F.HCP_STAT_LAST_EXEC : RF := ⟨R.HCP_STAT, 16, 8⟩
def F.HCP_STAT_LAST_RESULT : RF := ⟨R.HCP_STAT, 8, 8⟩

/-- HCP_CRC_CNT (17 Table 17.17, R387). -/
def R.HCP_CRC_CNT : Nat := 0x20004
def F.HCP_CRC_CNT_V : RF := ⟨R.HCP_CRC_CNT, 0, 32⟩

/-- HCP_BUSY_CNT (17 Table 17.17, R388). -/
def R.HCP_BUSY_CNT : Nat := 0x20008
def F.HCP_BUSY_CNT_V : RF := ⟨R.HCP_BUSY_CNT, 0, 32⟩

/-- AON_STAT (17 Table 17.22). -/
def R.AON_STAT : Nat := 0x840000
def F.AON_STAT_CAL_VALID : RF := ⟨R.AON_STAT, 31, 1⟩
def F.AON_STAT_VBAT_LOW : RF := ⟨R.AON_STAT, 30, 1⟩
def F.AON_STAT_LT_FAIL : RF := ⟨R.AON_STAT, 29, 1⟩
def F.AON_STAT_BTN_STUCK : RF := ⟨R.AON_STAT, 28, 1⟩

/-- AON_CAL_LO (17 Table 17.17, R391). -/
def R.AON_CAL_LO : Nat := 0x840004
def F.AON_CAL_LO_V : RF := ⟨R.AON_CAL_LO, 0, 32⟩

/-- AON_CAL_HI (17 Table 17.17, R391). -/
def R.AON_CAL_HI : Nat := 0x840008
def F.AON_CAL_HI_V : RF := ⟨R.AON_CAL_HI, 0, 16⟩

/-- AON_CAL_SUB (17 Table 17.17, R391). -/
def R.AON_CAL_SUB : Nat := 0x84000c
def F.AON_CAL_SUB_V : RF := ⟨R.AON_CAL_SUB, 0, 15⟩

/-- AON_CAL_SET_LO (17 Table 17.17, R391). -/
def R.AON_CAL_SET_LO : Nat := 0x840010
def F.AON_CAL_SET_LO_V : RF := ⟨R.AON_CAL_SET_LO, 0, 32⟩

/-- AON_CAL_SET_HI (17 Table 17.17, R391). -/
def R.AON_CAL_SET_HI : Nat := 0x840014
def F.AON_CAL_SET_HI_V : RF := ⟨R.AON_CAL_SET_HI, 0, 16⟩

/-- AON_LT_SEQ (17 Table 17.17, R390). -/
def R.AON_LT_SEQ : Nat := 0x840018
def F.AON_LT_SEQ_V : RF := ⟨R.AON_LT_SEQ, 0, 32⟩

/-- AON_LT_CTL (17 Table 17.17, R390). -/
def R.AON_LT_CTL : Nat := 0x84001c
def F.AON_LT_CTL_SAVE : RF := ⟨R.AON_LT_CTL, 31, 1⟩

/-- AON_EVT_WPTR (17 Table 17.17, R391). -/
def R.AON_EVT_WPTR : Nat := 0x840020
def F.AON_EVT_WPTR_V : RF := ⟨R.AON_EVT_WPTR, 0, 6⟩

/-- AON_EVT_W (17 Table 17.17, R391). -/
def R.AON_EVT_W (i j : Nat) : Nat := 0x840400 + i * 0x20 + j * 4
def F.AON_EVT_W_V (i j : Nat) : RF := ⟨R.AON_EVT_W i j, 0, 32⟩

/-- Rows of the SYS block. -/
def rowsSys : List RRow := [
  ⟨0, 1, 4, 1, 4, [⟨16, 16, .ro, false, 0x4096⟩, ⟨8, 8, .ro, false, 0⟩, ⟨0, 8, .ro, false, 0⟩]⟩,
  ⟨4, 1, 4, 1, 4, [⟨0, 2, .ro, true, 0⟩]⟩,
  ⟨8, 1, 4, 1, 4, [⟨0, 32, .ro, true, 0⟩]⟩,
  ⟨12, 1, 4, 1, 4, [⟨0, 24, .ro, true, 0⟩]⟩,
  ⟨0x10, 1, 4, 1, 4, [⟨31, 1, .ro, false, 0⟩, ⟨30, 1, .ro, false, 0⟩, ⟨26, 4, .ro, false, 0⟩, ⟨0, 12, .ro, false, 0⟩]⟩,
  ⟨0x14, 1, 4, 1, 4, [⟨0, 32, .ro, false, 0⟩]⟩,
  ⟨0x18, 1, 4, 1, 4, [⟨0, 32, .ro, false, 0⟩]⟩,
  ⟨0x1c, 1, 4, 1, 4, [⟨0, 12, .rwl, false, 0x12c⟩]⟩,
  ⟨0x20, 1, 4, 1, 4, [⟨0, 4, .ro, true, 0⟩]⟩]

/-- Rows of the CFC block. -/
def rowsCfc : List RRow := [
  ⟨0x10000, 1, 4, 1, 4, [⟨31, 1, .ro, false, 1⟩, ⟨30, 1, .w1c, false, 0⟩, ⟨29, 1, .ro, false, 0⟩, ⟨28, 1, .ro, false, 0⟩, ⟨26, 2, .ro, false, 0⟩]⟩,
  ⟨0x10004, 1, 4, 1, 4, [⟨24, 8, .ro, false, 0⟩, ⟨16, 8, .ro, false, 0⟩, ⟨0, 16, .ro, false, 0⟩]⟩,
  ⟨0x10008, 1, 4, 1, 4, [⟨0, 32, .ro, false, 0⟩]⟩,
  ⟨0x1000c, 1, 4, 1, 4, [⟨0, 32, .ro, false, 0⟩]⟩,
  ⟨0x10020, 2, 0x10, 1, 4, [⟨0, 32, .ro, false, 0⟩]⟩,
  ⟨0x10024, 2, 0x10, 1, 4, [⟨0, 32, .ro, false, 0⟩]⟩,
  ⟨0x10028, 2, 0x10, 1, 4, [⟨0, 32, .ro, false, 0⟩]⟩,
  ⟨0x1002c, 2, 0x10, 1, 4, [⟨30, 2, .ro, false, 0⟩, ⟨29, 1, .ro, false, 0⟩, ⟨28, 1, .ro, false, 0⟩]⟩]

/-- Rows of the HCP block. -/
def rowsHcp : List RRow := [
  ⟨0x20000, 1, 4, 1, 4, [⟨31, 1, .ro, false, 0⟩, ⟨16, 8, .ro, false, 0⟩, ⟨8, 8, .ro, false, 0⟩]⟩,
  ⟨0x20004, 1, 4, 1, 4, [⟨0, 32, .ro, true, 0⟩]⟩,
  ⟨0x20008, 1, 4, 1, 4, [⟨0, 32, .ro, true, 0⟩]⟩]

/-- Rows of the RPU block. -/
def rowsRpu : List RRow := [
  ⟨0x100000, 64, 0x4000, 1, 4, [⟨3, 1, .rwl, false, 0⟩, ⟨2, 1, .w1s, false, 0⟩, ⟨1, 1, .w1s, false, 0⟩, ⟨0, 1, .rwl, false, 0⟩]⟩,
  ⟨0x100004, 64, 0x4000, 1, 4, [⟨29, 3, .ro, false, 0⟩, ⟨28, 1, .ro, false, 0⟩, ⟨22, 6, .ro, false, 0⟩, ⟨21, 1, .ro, false, 0⟩, ⟨20, 1, .ro, false, 0⟩, ⟨19, 1, .w1c, false, 0⟩, ⟨18, 1, .w1c, false, 0⟩, ⟨17, 1, .w1c, false, 0⟩, ⟨16, 1, .w1c, false, 0⟩, ⟨15, 1, .ro, false, 0⟩, ⟨0, 7, .ro, false, 0⟩]⟩,
  ⟨0x100008, 64, 0x4000, 1, 4, [⟨24, 7, .rwl, false, 0⟩, ⟨12, 10, .rwl, false, 0⟩, ⟨0, 10, .rwl, false, 0⟩]⟩,
  ⟨0x10000c, 64, 0x4000, 1, 4, [⟨24, 8, .rw, false, 8⟩, ⟨0, 16, .rw, false, 0x400⟩]⟩,
  ⟨0x100010, 64, 0x4000, 1, 4, [⟨0, 32, .w1c, false, 0⟩]⟩,
  ⟨0x100014, 64, 0x4000, 1, 4, [⟨0, 32, .w1c, false, 0⟩]⟩,
  ⟨0x100020, 64, 0x4000, 1, 4, [⟨0, 32, .ro, false, 0⟩]⟩,
  ⟨0x100024, 64, 0x4000, 1, 4, [⟨0, 32, .ro, false, 0⟩]⟩,
  ⟨0x100028, 64, 0x4000, 1, 4, [⟨0, 32, .ro, true, 0⟩]⟩,
  ⟨0x10002c, 64, 0x4000, 1, 4, [⟨0, 32, .ro, false, 0⟩]⟩,
  ⟨0x100030, 64, 0x4000, 1, 4, [⟨0, 32, .ro, false, 0⟩]⟩,
  ⟨0x100034, 64, 0x4000, 1, 4, [⟨0, 32, .ro, false, 0⟩]⟩,
  ⟨0x100038, 64, 0x4000, 1, 4, [⟨0, 32, .ro, true, 0⟩]⟩,
  ⟨0x10003c, 64, 0x4000, 1, 4, [⟨0, 32, .ro, true, 0⟩]⟩,
  ⟨0x100400, 64, 0x4000, 64, 4, [⟨31, 1, .ro, false, 0⟩, ⟨30, 1, .ro, false, 0⟩, ⟨29, 1, .ro, false, 0⟩, ⟨28, 1, .ro, false, 0⟩, ⟨24, 4, .ro, false, 0⟩, ⟨16, 8, .ro, false, 0⟩, ⟨0, 16, .ro, false, 0⟩]⟩,
  ⟨0x100600, 64, 0x4000, 64, 8, [⟨0, 32, .ro, false, 0⟩]⟩,
  ⟨0x100604, 64, 0x4000, 64, 8, [⟨24, 8, .ro, false, 0⟩, ⟨0, 24, .ro, false, 0⟩]⟩]

/-- Rows of the LPH block. -/
def rowsLph : List RRow := [
  ⟨0x200000, 64, 0x1000, 1, 4, [⟨7, 1, .rwl, false, 1⟩, ⟨6, 1, .rwl, false, 0⟩, ⟨5, 1, .rwl, false, 0⟩, ⟨0, 2, .ro, false, 0⟩]⟩,
  ⟨0x240000, 4, 0x1000, 1, 4, [⟨7, 1, .rwl, false, 1⟩, ⟨6, 1, .rwl, false, 0⟩, ⟨5, 1, .rwl, false, 0⟩, ⟨0, 2, .ro, false, 2⟩]⟩,
  ⟨0x244000, 4, 0x1000, 1, 4, [⟨7, 1, .rwl, false, 1⟩, ⟨6, 1, .rwl, false, 0⟩, ⟨5, 1, .rwl, false, 0⟩, ⟨0, 2, .ro, false, 1⟩]⟩,
  ⟨0x200004, 72, 0x1000, 1, 4, [⟨31, 1, .w1c, false, 0⟩, ⟨30, 1, .w1c, false, 0⟩, ⟨29, 1, .w1c, false, 0⟩, ⟨28, 1, .w1c, false, 0⟩, ⟨27, 1, .w1c, false, 0⟩, ⟨7, 1, .ro, false, 0⟩, ⟨6, 1, .ro, false, 0⟩, ⟨5, 1, .ro, false, 0⟩, ⟨4, 1, .ro, false, 0⟩, ⟨3, 1, .ro, false, 0⟩, ⟨2, 1, .ro, false, 0⟩, ⟨1, 1, .ro, false, 0⟩]⟩,
  ⟨0x200008, 72, 0x1000, 1, 4, [⟨2, 1, .rw, false, 1⟩, ⟨1, 1, .rw, false, 0⟩, ⟨0, 1, .rw, false, 0⟩]⟩,
  ⟨0x20000c, 72, 0x1000, 1, 4, [⟨18, 4, .rw, false, 4⟩, ⟨12, 6, .rw, false, 0x33⟩, ⟨7, 5, .rw, false, 8⟩]⟩,
  ⟨0x200010, 72, 0x1000, 1, 4, [⟨31, 1, .rw, false, 0⟩, ⟨30, 1, .w1s, false, 0⟩, ⟨16, 8, .ro, false, 0⟩, ⟨8, 8, .ro, false, 0⟩, ⟨0, 8, .ro, false, 0⟩]⟩,
  ⟨0x200014, 72, 0x1000, 1, 4, [⟨31, 1, .w1s, false, 0⟩, ⟨30, 1, .ro, false, 0⟩, ⟨28, 2, .rw, false, 0⟩, ⟨8, 8, .ro, false, 0⟩, ⟨0, 8, .ro, false, 0⟩]⟩,
  ⟨0x200018, 72, 0x1000, 1, 4, [⟨28, 3, .rw, false, 0⟩, ⟨22, 2, .rw, false, 0⟩, ⟨20, 2, .rw, false, 0⟩, ⟨15, 1, .ro, false, 0⟩]⟩,
  ⟨0x200020, 72, 0x1000, 1, 4, [⟨0, 32, .ro, false, 0⟩]⟩,
  ⟨0x200024, 72, 0x1000, 1, 4, [⟨0, 32, .ro, false, 0⟩]⟩,
  ⟨0x200028, 72, 0x1000, 1, 4, [⟨16, 16, .ro, false, 0⟩, ⟨0, 16, .ro, false, 0⟩]⟩,
  ⟨0x20002c, 72, 0x1000, 1, 4, [⟨0, 32, .ro, false, 0⟩]⟩,
  ⟨0x200030, 72, 0x1000, 1, 4, [⟨0, 32, .ro, false, 0⟩]⟩,
  ⟨0x248000, 18, 0x100, 1, 4, [⟨31, 1, .w1c, false, 0⟩, ⟨1, 1, .ro, false, 0⟩, ⟨0, 1, .rw, false, 0⟩]⟩]

/-- Rows of the SPU block, part 0. -/
def rowsSpu0 : List RRow := [
  ⟨0x300000, 2, 0x1000, 1, 4, [⟨30, 2, .rwl, false, 0⟩, ⟨20, 10, .rwl, false, 0x190⟩, ⟨0, 1, .rwl, false, 0⟩]⟩,
  ⟨0x300004, 2, 0x1000, 1, 4, [⟨31, 1, .w1c, false, 0⟩, ⟨30, 1, .ro, false, 0⟩, ⟨29, 1, .ro, false, 0⟩, ⟨28, 1, .w1c, false, 0⟩]⟩,
  ⟨0x300008, 2, 0x1000, 1, 4, [⟨0, 32, .rwl, false, 0⟩]⟩,
  ⟨0x30000c, 2, 0x1000, 1, 4, [⟨0, 16, .rwl, false, 0⟩]⟩,
  ⟨0x300010, 2, 0x1000, 1, 4, [⟨0, 32, .ro, false, 0⟩]⟩,
  ⟨0x300014, 2, 0x1000, 1, 4, [⟨0, 32, .ro, false, 0⟩]⟩,
  ⟨0x300018, 2, 0x1000, 1, 4, [⟨0, 32, .ro, false, 0⟩]⟩,
  ⟨0x30001c, 2, 0x1000, 1, 4, [⟨0, 32, .ro, false, 0⟩]⟩,
  ⟨0x300020, 2, 0x1000, 1, 4, [⟨0, 32, .ro, true, 0⟩]⟩,
  ⟨0x300080, 2, 0x1000, 16, 8, [⟨0, 32, .rwl, false, 0⟩]⟩,
  ⟨0x300084, 2, 0x1000, 16, 8, [⟨16, 1, .rwl, false, 0⟩, ⟨0, 16, .rwl, false, 0⟩]⟩,
  ⟨0x300100, 2, 0x1000, 4, 0x10, [⟨5, 27, .rwl, false, 0⟩]⟩,
  ⟨0x300104, 2, 0x1000, 4, 0x10, [⟨16, 13, .rwl, false, 0⟩, ⟨0, 8, .rwl, false, 0⟩]⟩,
  ⟨0x300108, 2, 0x1000, 4, 0x10, [⟨0, 12, .ro, false, 0⟩]⟩,
  ⟨0x30010c, 2, 0x1000, 4, 0x10, [⟨0, 12, .rw, false, 0⟩]⟩,
  ⟨0x300200, 2, 0x1000, 3, 0x10, [⟨5, 27, .rwl, false, 0⟩]⟩,
  ⟨0x300204, 2, 0x1000, 3, 0x10, [⟨16, 13, .rwl, false, 0⟩, ⟨0, 8, .rwl, false, 0⟩]⟩,
  ⟨0x300208, 2, 0x1000, 3, 0x10, [⟨0, 12, .ro, false, 0⟩]⟩,
  ⟨0x30020c, 2, 0x1000, 3, 0x10, [⟨0, 12, .rw, false, 0⟩]⟩,
  ⟨0x302000, 4, 0x400, 1, 4, [⟨31, 1, .w1c, false, 0⟩, ⟨1, 1, .ro, false, 0⟩, ⟨0, 1, .ro, false, 0⟩]⟩,
  ⟨0x302004, 4, 0x400, 1, 4, [⟨8, 8, .rwl, false, 0⟩, ⟨0, 8, .rwl, false, 0⟩]⟩,
  ⟨0x302008, 4, 0x400, 1, 4, [⟨0, 32, .ro, false, 0⟩]⟩,
  ⟨0x30200c, 4, 0x400, 1, 4, [⟨0, 32, .ro, false, 0⟩]⟩,
  ⟨0x302010, 4, 0x400, 1, 4, [⟨0, 32, .ro, false, 0⟩]⟩]

/-- Rows of the SPU block, part 1. -/
def rowsSpu1 : List RRow := [
  ⟨0x301f00, 1, 4, 1, 4, [⟨0, 32, .ro, false, 0⟩]⟩,
  ⟨0x303000, 16, 0x20, 1, 4, [⟨31, 1, .rwl, false, 0⟩, ⟨30, 1, .rwl, false, 0⟩, ⟨29, 1, .rw, false, 0⟩, ⟨28, 1, .rwl, false, 0⟩, ⟨26, 2, .rwl, false, 0⟩, ⟨21, 5, .rwl, false, 0⟩, ⟨20, 1, .rwl, false, 0⟩, ⟨0, 12, .rwl, false, 0⟩]⟩,
  ⟨0x303004, 16, 0x20, 1, 4, [⟨0, 32, .rwl, false, 0⟩]⟩,
  ⟨0x303008, 16, 0x20, 1, 4, [⟨16, 16, .rwl, false, 0⟩, ⟨0, 16, .rwl, false, 0⟩]⟩,
  ⟨0x30300c, 16, 0x20, 1, 4, [⟨0, 32, .rwl, false, 0⟩]⟩,
  ⟨0x303010, 16, 0x20, 1, 4, [⟨0, 32, .ro, false, 0⟩]⟩,
  ⟨0x303400, 64, 0x10, 1, 4, [⟨31, 1, .rwl, false, 0⟩, ⟨30, 1, .rwl, false, 0⟩, ⟨28, 2, .rwl, false, 0⟩, ⟨23, 5, .rwl, false, 0⟩, ⟨0, 16, .rwl, false, 0⟩]⟩,
  ⟨0x303404, 64, 0x10, 1, 4, [⟨0, 32, .rwl, false, 0⟩]⟩,
  ⟨0x303408, 64, 0x10, 1, 4, [⟨16, 16, .rwl, false, 0⟩, ⟨0, 16, .rwl, false, 0⟩]⟩]

/-- Rows of the SPU block. -/
def rowsSpu : List RRow := rowsSpu0 ++ rowsSpu1

/-- Rows of the TBU block, part 0. -/
def rowsTbu0 : List RRow := [
  ⟨0x340000, 1, 4, 1, 4, [⟨31, 1, .w1s, false, 0⟩, ⟨28, 3, .rwl, false, 1⟩, ⟨27, 1, .rwl, false, 0⟩, ⟨22, 5, .rwl, false, 10⟩]⟩,
  ⟨0x340004, 1, 4, 1, 4, [⟨31, 1, .ro, false, 1⟩, ⟨30, 1, .ro, false, 0⟩, ⟨29, 1, .ro, false, 0⟩, ⟨28, 1, .ro, false, 0⟩, ⟨27, 1, .ro, false, 0⟩, ⟨26, 1, .w1c, false, 0⟩, ⟨23, 3, .ro, false, 0⟩]⟩,
  ⟨0x340008, 1, 4, 1, 4, [⟨0, 32, .ro, false, 0⟩]⟩,
  ⟨0x34000c, 1, 4, 1, 4, [⟨0, 32, .ro, false, 0⟩]⟩,
  ⟨0x340010, 1, 4, 1, 4, [⟨0, 32, .ro, false, 0⟩]⟩,
  ⟨0x340014, 1, 4, 1, 4, [⟨0, 32, .wo, false, 0⟩]⟩,
  ⟨0x340018, 1, 4, 1, 4, [⟨0, 32, .wo, false, 0⟩]⟩,
  ⟨0x34001c, 1, 4, 1, 4, [⟨0, 32, .ro, false, 0⟩]⟩,
  ⟨0x340020, 1, 4, 1, 4, [⟨0, 32, .rw, false, 0x3e8⟩]⟩,
  ⟨0x340024, 1, 4, 1, 4, [⟨16, 16, .rw, false, 0x64⟩, ⟨0, 16, .rw, false, 0x64⟩]⟩,
  ⟨0x340028, 1, 4, 1, 4, [⟨0, 32, .rw, false, 0x3f000000⟩]⟩,
  ⟨0x34002c, 1, 4, 1, 4, [⟨0, 32, .rw, false, 0x3d800000⟩]⟩,
  ⟨0x340030, 1, 4, 1, 4, [⟨0, 32, .ro, false, 0⟩]⟩,
  ⟨0x340034, 1, 4, 1, 4, [⟨16, 16, .ro, true, 0⟩, ⟨0, 16, .ro, true, 0⟩]⟩,
  ⟨0x340038, 1, 4, 1, 4, [⟨0, 16, .rw, false, 0⟩]⟩,
  ⟨0x34003c, 1, 4, 1, 4, [⟨23, 9, .rw, false, 0x64⟩, ⟨15, 8, .rw, false, 0⟩, ⟨7, 8, .rw, false, 0⟩, ⟨0, 1, .rw, false, 0⟩]⟩,
  ⟨0x340400, 32, 0x20, 1, 4, [⟨30, 2, .rw, false, 0⟩, ⟨29, 1, .rw, false, 0⟩, ⟨16, 8, .rw, false, 0⟩, ⟨0, 8, .rw, false, 0⟩]⟩,
  ⟨0x340404, 32, 0x20, 1, 4, [⟨31, 1, .ro, false, 0⟩, ⟨30, 1, .ro, false, 0⟩, ⟨0, 5, .ro, false, 0⟩]⟩,
  ⟨0x340408, 32, 0x20, 1, 4, [⟨0, 32, .ro, false, 0⟩]⟩,
  ⟨0x34040c, 32, 0x20, 1, 4, [⟨0, 32, .ro, false, 0⟩]⟩,
  ⟨0x340410, 32, 0x20, 1, 4, [⟨0, 32, .ro, false, 0⟩]⟩,
  ⟨0x340800, 8, 0x20, 1, 4, [⟨31, 1, .rw, false, 0⟩, ⟨30, 1, .rw, false, 0⟩, ⟨27, 3, .ro, false, 0⟩, ⟨26, 1, .rw, false, 0⟩, ⟨16, 8, .rw, false, 0⟩, ⟨0, 3, .ro, false, 0⟩]⟩,
  ⟨0x340804, 8, 0x20, 1, 4, [⟨0, 32, .rw, false, 0⟩]⟩,
  ⟨0x340808, 8, 0x20, 1, 4, [⟨0, 32, .rw, false, 0⟩]⟩]

/-- Rows of the TBU block, part 1. -/
def rowsTbu1 : List RRow := [
  ⟨0x34080c, 8, 0x20, 1, 4, [⟨0, 32, .rw, false, 0⟩]⟩,
  ⟨0x340810, 8, 0x20, 1, 4, [⟨0, 32, .rw, false, 0⟩]⟩,
  ⟨0x340814, 8, 0x20, 1, 4, [⟨31, 1, .w1s, false, 0⟩, ⟨0, 1, .rw, false, 0⟩]⟩]

/-- Rows of the TBU block. -/
def rowsTbu : List RRow := rowsTbu0 ++ rowsTbu1

/-- Rows of the RDU block. -/
def rowsRdu : List RRow := [
  ⟨0x380000, 1, 4, 1, 4, [⟨31, 1, .rw, false, 0⟩, ⟨30, 1, .w1s, false, 0⟩, ⟨29, 1, .w1s, false, 0⟩]⟩,
  ⟨0x380004, 1, 4, 1, 4, [⟨30, 2, .ro, false, 0⟩, ⟨29, 1, .ro, false, 0⟩, ⟨28, 1, .ro, false, 0⟩, ⟨27, 1, .ro, false, 0⟩, ⟨26, 1, .w1c, false, 0⟩, ⟨25, 1, .ro, false, 0⟩, ⟨24, 1, .w1c, false, 0⟩, ⟨23, 1, .w1c, false, 0⟩, ⟨22, 1, .ro, false, 0⟩, ⟨21, 1, .ro, false, 0⟩, ⟨16, 4, .ro, false, 0⟩]⟩,
  ⟨0x380008, 1, 4, 1, 4, [⟨0, 32, .ro, false, 0⟩]⟩,
  ⟨0x38000c, 1, 4, 1, 4, [⟨0, 32, .ro, true, 0⟩]⟩,
  ⟨0x380010, 1, 4, 1, 4, [⟨28, 4, .rwl, false, 4⟩, ⟨20, 8, .rwl, false, 0⟩, ⟨13, 7, .rwl, false, 8⟩]⟩,
  ⟨0x380014, 1, 4, 1, 4, [⟨31, 1, .rwl, false, 0⟩, ⟨30, 1, .rwl, false, 0⟩, ⟨0, 16, .rwl, false, 10⟩]⟩,
  ⟨0x380018, 1, 4, 1, 4, [⟨0, 32, .rw, false, 0⟩]⟩,
  ⟨0x38001c, 1, 4, 1, 4, [⟨31, 1, .w1s, false, 0⟩, ⟨30, 1, .rw, false, 0⟩, ⟨27, 3, .ro, false, 0⟩]⟩,
  ⟨0x380020, 1, 4, 1, 4, [⟨20, 4, .rwl, false, 1⟩, ⟨16, 4, .rwl, false, 4⟩, ⟨0, 12, .rwl, false, 0x800⟩]⟩,
  ⟨0x380024, 1, 4, 1, 4, [⟨16, 12, .ro, false, 0⟩, ⟨0, 16, .ro, false, 0⟩]⟩,
  ⟨0x380028, 1, 4, 1, 4, [⟨0, 32, .ro, false, 0⟩]⟩,
  ⟨0x38002c, 1, 4, 1, 4, [⟨0, 32, .ro, false, 0⟩]⟩,
  ⟨0x380030, 1, 4, 1, 4, [⟨0, 32, .ro, false, 0⟩]⟩,
  ⟨0x380034, 1, 4, 1, 4, [⟨0, 32, .ro, false, 0⟩]⟩,
  ⟨0x380038, 1, 4, 1, 4, [⟨0, 16, .rwl, false, 0x64⟩]⟩,
  ⟨0x380040, 1, 4, 1, 4, [⟨0, 32, .ro, true, 0⟩]⟩,
  ⟨0x380044, 1, 4, 1, 4, [⟨0, 32, .ro, true, 0⟩]⟩,
  ⟨0x380048, 1, 4, 1, 4, [⟨0, 32, .ro, true, 0⟩]⟩,
  ⟨0x38004c, 1, 4, 1, 4, [⟨0, 32, .ro, true, 0⟩]⟩,
  ⟨0x380050, 1, 4, 1, 4, [⟨0, 32, .ro, false, 0⟩]⟩,
  ⟨0x380100, 1, 4, 1, 4, [⟨8, 8, .rwl, false, 0⟩, ⟨0, 1, .rwl, false, 1⟩]⟩,
  ⟨0x380104, 1, 4, 1, 4, [⟨31, 1, .ro, false, 0⟩, ⟨30, 1, .w1c, false, 0⟩, ⟨29, 1, .w1c, false, 0⟩, ⟨28, 1, .w1c, false, 0⟩, ⟨24, 4, .ro, false, 0⟩, ⟨20, 4, .ro, false, 0⟩]⟩,
  ⟨0x380108, 1, 4, 1, 4, [⟨0, 32, .ro, false, 0⟩]⟩,
  ⟨0x38010c, 1, 4, 1, 4, [⟨0, 32, .ro, true, 0⟩]⟩]

/-- Rows of the MDU block. -/
def rowsMdu : List RRow := [
  ⟨0x400000, 1, 4, 1, 4, [⟨8, 4, .rwl, false, 4⟩, ⟨0, 1, .rw, false, 1⟩]⟩,
  ⟨0x400004, 1, 4, 1, 4, [⟨16, 12, .w1c, false, 0⟩, ⟨0, 12, .ro, false, 0⟩]⟩,
  ⟨0x400008, 1, 4, 1, 4, [⟨16, 12, .wo, false, 0⟩, ⟨0, 4, .wo, false, 0⟩]⟩,
  ⟨0x40000c, 1, 4, 1, 4, [⟨31, 1, .ro, false, 0⟩, ⟨30, 1, .w1c, false, 0⟩, ⟨0, 5, .ro, false, 0⟩]⟩,
  ⟨0x400100, 12, 0x40, 1, 4, [⟨7, 1, .rw, false, 0⟩, ⟨6, 1, .rwl, false, 0⟩, ⟨5, 1, .rwl, false, 0⟩, ⟨4, 1, .rw, false, 0⟩, ⟨3, 1, .rw, false, 0⟩, ⟨2, 1, .rw, false, 0⟩, ⟨0, 2, .rw, false, 1⟩]⟩,
  ⟨0x400104, 12, 0x40, 1, 4, [⟨16, 14, .rwl, false, 0⟩, ⟨0, 16, .rw, false, 0x14⟩]⟩,
  ⟨0x400108, 12, 0x40, 1, 4, [⟨0, 17, .rwl, false, 0x1388⟩]⟩,
  ⟨0x40010c, 12, 0x40, 1, 4, [⟨0, 11, .rwl, false, 0xc8⟩]⟩,
  ⟨0x400110, 12, 0x40, 1, 4, [⟨24, 8, .rw, false, 8⟩, ⟨0, 16, .rw, false, 0x4e2⟩]⟩,
  ⟨0x400114, 12, 0x40, 1, 4, [⟨16, 15, .rw, false, 0x3e8⟩]⟩,
  ⟨0x400118, 12, 0x40, 1, 4, [⟨0, 32, .rw, false, 0x42200000⟩]⟩,
  ⟨0x40011c, 12, 0x40, 1, 4, [⟨0, 32, .rw, false, 0x40000000⟩]⟩,
  ⟨0x400120, 12, 0x40, 1, 4, [⟨31, 1, .w1c, false, 0⟩, ⟨30, 1, .w1c, false, 0⟩, ⟨29, 1, .w1c, false, 0⟩, ⟨28, 1, .w1c, false, 0⟩, ⟨27, 1, .w1c, false, 0⟩, ⟨26, 1, .w1c, false, 0⟩, ⟨25, 1, .w1c, false, 0⟩, ⟨24, 1, .w1c, false, 0⟩, ⟨0, 1, .ro, false, 0⟩]⟩,
  ⟨0x400124, 12, 0x40, 1, 4, [⟨0, 32, .ro, false, 0⟩]⟩,
  ⟨0x400128, 12, 0x40, 1, 4, [⟨0, 32, .ro, false, 0⟩]⟩,
  ⟨0x40012c, 12, 0x40, 1, 4, [⟨16, 12, .ro, false, 0⟩, ⟨0, 12, .ro, false, 0⟩]⟩,
  ⟨0x400130, 12, 0x40, 1, 4, [⟨0, 11, .ro, false, 0⟩]⟩,
  ⟨0x400134, 12, 0x40, 1, 4, [⟨0, 32, .ro, false, 0⟩]⟩,
  ⟨0x400138, 12, 0x40, 1, 4, [⟨0, 32, .ro, false, 0⟩]⟩,
  ⟨0x40013c, 12, 0x40, 1, 4, [⟨0, 32, .ro, true, 0⟩]⟩,
  ⟨0x400800, 128, 4, 1, 4, [⟨0, 32, .rw, false, 0⟩]⟩,
  ⟨0x404000, 4096, 4, 1, 4, [⟨28, 4, .ro, false, 0⟩, ⟨27, 1, .ro, false, 0⟩, ⟨24, 3, .ro, false, 1⟩, ⟨23, 1, .ro, false, 0⟩, ⟨22, 1, .ro, false, 0⟩, ⟨8, 14, .ro, false, 0⟩, ⟨0, 8, .ro, false, 0⟩]⟩]

/-- Rows of the CLU block, part 0. -/
def rowsClu0 : List RRow := [
  ⟨0x440000, 1, 4, 1, 4, [⟨31, 1, .ro, false, 0⟩, ⟨30, 1, .w1c, false, 0⟩, ⟨24, 6, .ro, false, 0⟩, ⟨0, 7, .ro, false, 0⟩]⟩,
  ⟨0x440008, 1, 4, 1, 4, [⟨0, 32, .w1s, false, 0⟩]⟩,
  ⟨0x44000c, 1, 4, 1, 4, [⟨0, 32, .w1s, false, 0⟩]⟩,
  ⟨0x440010, 1, 4, 1, 4, [⟨0, 32, .ro, false, 0⟩]⟩,
  ⟨0x440014, 1, 4, 1, 4, [⟨0, 32, .ro, false, 0⟩]⟩,
  ⟨0x441000, 64, 0x100, 1, 4, [⟨15, 1, .rwl, false, 0⟩, ⟨13, 2, .rw, false, 0⟩, ⟨12, 1, .rw, false, 0⟩, ⟨11, 1, .rw, false, 1⟩, ⟨10, 1, .rw, false, 0⟩, ⟨9, 1, .rw, false, 0⟩, ⟨8, 1, .rwl, false, 0⟩, ⟨7, 1, .rw, false, 1⟩]⟩,
  ⟨0x441004, 64, 0x100, 1, 4, [⟨16, 14, .rw, false, 0⟩, ⟨0, 14, .rw, false, 0⟩]⟩,
  ⟨0x441008, 64, 0x100, 1, 4, [⟨16, 14, .rw, false, 0⟩, ⟨0, 14, .rwl, false, 0⟩]⟩,
  ⟨0x44100c, 64, 0x100, 1, 4, [⟨0, 32, .rw, false, 0⟩]⟩,
  ⟨0x441010, 64, 0x100, 1, 4, [⟨0, 32, .rw, false, 0x7f800000⟩]⟩,
  ⟨0x441014, 64, 0x100, 1, 4, [⟨0, 32, .rw, false, 0x7f800000⟩]⟩,
  ⟨0x441018, 64, 0x100, 1, 4, [⟨0, 32, .rw, false, 0⟩]⟩,
  ⟨0x44101c, 64, 0x100, 1, 4, [⟨0, 32, .rw, false, 0⟩]⟩,
  ⟨0x441020, 64, 0x100, 1, 4, [⟨0, 32, .rw, false, 0⟩]⟩,
  ⟨0x441024, 64, 0x100, 1, 4, [⟨0, 32, .rw, false, 0⟩]⟩,
  ⟨0x441028, 64, 0x100, 1, 4, [⟨0, 32, .rw, false, 0⟩]⟩,
  ⟨0x44102c, 64, 0x100, 1, 4, [⟨0, 32, .rw, false, 0⟩]⟩,
  ⟨0x441030, 64, 0x100, 1, 4, [⟨0, 32, .rw, false, 0xff800000⟩]⟩,
  ⟨0x441034, 64, 0x100, 1, 4, [⟨0, 32, .rw, false, 0x7f800000⟩]⟩,
  ⟨0x441038, 64, 0x100, 1, 4, [⟨0, 32, .rw, false, 0⟩]⟩,
  ⟨0x44103c, 64, 0x100, 1, 4, [⟨0, 32, .rw, false, 0x3f800000⟩]⟩,
  ⟨0x441040, 64, 0x100, 1, 4, [⟨0, 32, .rw, false, 0⟩]⟩,
  ⟨0x441044, 64, 0x100, 1, 4, [⟨0, 32, .rw, false, 0x7f800000⟩]⟩,
  ⟨0x441048, 64, 0x100, 1, 4, [⟨0, 32, .rw, false, 0⟩]⟩]

/-- Rows of the CLU block, part 1. -/
def rowsClu1 : List RRow := [
  ⟨0x44104c, 64, 0x100, 1, 4, [⟨0, 32, .rw, false, 0⟩]⟩,
  ⟨0x441050, 64, 0x100, 1, 4, [⟨3, 1, .w1s, false, 0⟩, ⟨2, 1, .rw, false, 0⟩, ⟨1, 1, .rw, false, 1⟩, ⟨0, 1, .rw, false, 1⟩]⟩,
  ⟨0x441054, 64, 0x100, 1, 4, [⟨0, 32, .rw, false, 0⟩]⟩,
  ⟨0x441058, 64, 0x100, 1, 4, [⟨0, 32, .rw, false, 0⟩]⟩,
  ⟨0x44105c, 64, 0x100, 1, 4, [⟨31, 1, .w1s, false, 0⟩, ⟨30, 1, .rw, false, 0⟩, ⟨28, 2, .ro, false, 0⟩, ⟨27, 1, .w1c, false, 0⟩]⟩,
  ⟨0x441060, 64, 0x100, 1, 4, [⟨31, 1, .w1c, false, 0⟩, ⟨30, 1, .w1c, false, 0⟩, ⟨29, 1, .w1c, false, 0⟩, ⟨28, 1, .w1c, false, 0⟩, ⟨27, 1, .w1c, false, 0⟩, ⟨24, 3, .ro, false, 0⟩, ⟨1, 1, .ro, false, 0⟩, ⟨0, 1, .ro, false, 1⟩]⟩,
  ⟨0x441064, 64, 0x100, 1, 4, [⟨0, 32, .ro, false, 0⟩]⟩,
  ⟨0x441068, 64, 0x100, 1, 4, [⟨0, 32, .ro, false, 0⟩]⟩,
  ⟨0x44106c, 64, 0x100, 1, 4, [⟨0, 32, .ro, false, 0⟩]⟩,
  ⟨0x441070, 64, 0x100, 1, 4, [⟨0, 32, .ro, false, 0⟩]⟩,
  ⟨0x441074, 64, 0x100, 1, 4, [⟨0, 32, .ro, false, 0⟩]⟩,
  ⟨0x441080, 64, 0x100, 5, 4, [⟨0, 32, .ro, false, 0⟩]⟩]

/-- Rows of the CLU block. -/
def rowsClu : List RRow := rowsClu0 ++ rowsClu1

/-- Rows of the TDS block, part 0. -/
def rowsTds0 : List RRow := [
  ⟨0x480000, 1, 4, 1, 4, [⟨0, 12, .rwl, false, 0xfa⟩]⟩,
  ⟨0x480004, 1, 4, 1, 4, [⟨0, 13, .rwl, false, 0x109⟩]⟩,
  ⟨0x480008, 1, 4, 1, 4, [⟨0, 13, .rwl, false, 0x14⟩]⟩,
  ⟨0x48000c, 1, 4, 1, 4, [⟨0, 13, .rwl, false, 0x3c⟩]⟩,
  ⟨0x480010, 1, 4, 1, 4, [⟨0, 13, .rwl, false, 0x50⟩]⟩,
  ⟨0x480014, 1, 4, 1, 4, [⟨0, 13, .rwl, false, 0x82⟩]⟩,
  ⟨0x480018, 1, 4, 1, 4, [⟨0, 13, .rwl, false, 0x96⟩]⟩,
  ⟨0x48001c, 1, 4, 1, 4, [⟨0, 13, .rwl, false, 0xa0⟩]⟩,
  ⟨0x480020, 1, 4, 1, 4, [⟨0, 13, .rwl, false, 0xb9⟩]⟩,
  ⟨0x480028, 1, 4, 1, 4, [⟨0, 16, .ro, false, 0x320⟩]⟩,
  ⟨0x480030, 1, 4, 1, 4, [⟨4, 4, .rwl, false, 3⟩, ⟨0, 1, .rw, false, 1⟩]⟩,
  ⟨0x480034, 1, 4, 1, 4, [⟨31, 1, .w1c, false, 0⟩, ⟨30, 1, .w1c, false, 0⟩, ⟨29, 1, .w1c, false, 0⟩, ⟨24, 3, .ro, false, 0⟩, ⟨20, 4, .ro, false, 0⟩]⟩,
  ⟨0x480038, 1, 4, 1, 4, [⟨0, 32, .ro, true, 0⟩]⟩,
  ⟨0x48003c, 1, 4, 1, 4, [⟨0, 32, .ro, true, 0⟩]⟩,
  ⟨0x480040, 1, 4, 1, 4, [⟨0, 32, .ro, false, 0⟩]⟩,
  ⟨0x480060, 8, 4, 1, 4, [⟨0, 16, .ro, false, 0xffff⟩]⟩,
  ⟨0x480080, 1, 4, 1, 4, [⟨0, 16, .ro, false, 0⟩]⟩,
  ⟨0x480100, 1, 4, 1, 4, [⟨31, 1, .w1c, false, 0⟩, ⟨30, 1, .w1c, false, 0⟩, ⟨29, 1, .w1c, false, 0⟩, ⟨0, 3, .ro, false, 0⟩]⟩,
  ⟨0x480110, 8, 4, 1, 4, [⟨16, 11, .ro, false, 0⟩, ⟨0, 11, .ro, false, 0⟩]⟩,
  ⟨0x480130, 1, 4, 1, 4, [⟨0, 32, .ro, false, 0⟩]⟩,
  ⟨0x480134, 1, 4, 1, 4, [⟨0, 32, .rw, false, 0⟩]⟩,
  ⟨0x480138, 1, 4, 1, 4, [⟨0, 32, .ro, false, 0⟩]⟩,
  ⟨0x48013c, 1, 4, 1, 4, [⟨0, 32, .ro, true, 0⟩]⟩,
  ⟨0x480140, 1, 4, 1, 4, [⟨0, 32, .ro, true, 0⟩]⟩]

/-- Rows of the TDS block, part 1. -/
def rowsTds1 : List RRow := [
  ⟨0x480150, 8, 4, 1, 4, [⟨31, 1, .w1s, false, 0⟩, ⟨30, 1, .rw, false, 0⟩, ⟨28, 2, .ro, false, 0⟩, ⟨27, 1, .w1c, false, 0⟩, ⟨26, 1, .w1s, false, 0⟩, ⟨25, 1, .w1c, false, 0⟩, ⟨24, 1, .ro, false, 0⟩, ⟨23, 1, .ro, false, 0⟩, ⟨0, 4, .ro, false, 0⟩]⟩,
  ⟨0x480170, 8, 4, 1, 4, [⟨0, 32, .rw, false, 0⟩]⟩,
  ⟨0x480190, 1, 4, 1, 4, [⟨0, 13, .rw, false, 0⟩]⟩,
  ⟨0x480194, 6, 4, 1, 4, [⟨0, 32, .ro, false, 0⟩]⟩]

/-- Rows of the TDS block. -/
def rowsTds : List RRow := rowsTds0 ++ rowsTds1

/-- Rows of the SE block. -/
def rowsSe : List RRow := [
  ⟨0x500000, 32, 0x1000, 1, 4, [⟨31, 1, .w1c, false, 0⟩, ⟨30, 1, .w1c, false, 0⟩, ⟨29, 1, .w1c, false, 0⟩, ⟨28, 1, .w1c, false, 0⟩, ⟨27, 1, .w1c, false, 0⟩, ⟨26, 1, .ro, false, 0⟩, ⟨25, 1, .ro, false, 0⟩, ⟨24, 1, .ro, false, 0⟩]⟩,
  ⟨0x500004, 32, 0x1000, 1, 4, [⟨28, 4, .ro, false, 0⟩, ⟨13, 13, .ro, false, 0⟩, ⟨0, 13, .ro, false, 0⟩]⟩,
  ⟨0x500008, 32, 0x1000, 1, 4, [⟨0, 32, .ro, false, 0⟩]⟩,
  ⟨0x50000c, 32, 0x1000, 1, 4, [⟨0, 32, .ro, true, 0⟩]⟩,
  ⟨0x500010, 32, 0x1000, 1, 4, [⟨0, 16, .ro, false, 0⟩]⟩,
  ⟨0x500020, 32, 0x1000, 1, 4, [⟨14, 1, .w1c, false, 0⟩, ⟨13, 1, .rw, false, 0⟩, ⟨0, 13, .rw, false, 0⟩]⟩,
  ⟨0x500024, 32, 0x1000, 1, 4, [⟨0, 32, .rw, false, 0⟩]⟩]

/-- Rows of the MSU block, part 0. -/
def rowsMsu0 : List RRow := [
  ⟨0x600000, 1, 4, 1, 4, [⟨0, 1, .rwl, false, 0⟩]⟩,
  ⟨0x600004, 1, 4, 1, 4, [⟨31, 1, .w1c, false, 0⟩, ⟨30, 1, .w1c, false, 0⟩, ⟨29, 1, .w1c, false, 0⟩, ⟨28, 1, .w1c, false, 0⟩, ⟨27, 1, .w1c, false, 0⟩, ⟨26, 1, .w1c, false, 0⟩]⟩,
  ⟨0x600008, 1, 4, 1, 4, [⟨31, 1, .ro, false, 0⟩, ⟨30, 1, .w1c, false, 0⟩, ⟨0, 14, .ro, false, 0⟩]⟩,
  ⟨0x60000c, 1, 4, 1, 4, [⟨31, 1, .w1s, false, 0⟩, ⟨0, 4, .rw, false, 0⟩]⟩,
  ⟨0x600010, 1, 4, 1, 4, [⟨1, 1, .rwl, false, 0⟩, ⟨0, 1, .rwl, false, 0⟩]⟩,
  ⟨0x600100, 12, 0x20, 1, 4, [⟨31, 1, .rw, false, 0⟩, ⟨29, 2, .rw, false, 0⟩, ⟨27, 2, .rw, false, 0⟩, ⟨25, 2, .rw, false, 2⟩, ⟨0, 13, .rw, false, 0x80⟩]⟩,
  ⟨0x600300, 8, 0x20, 1, 4, [⟨31, 1, .rw, false, 0⟩, ⟨28, 3, .rw, false, 0⟩, ⟨27, 1, .rw, false, 0⟩, ⟨25, 2, .rw, false, 2⟩, ⟨20, 5, .rw, false, 0⟩, ⟨0, 13, .rw, false, 0x80⟩]⟩,
  ⟨0x600104, 12, 0x20, 1, 4, [⟨0, 32, .rw, false, 0x3f800000⟩]⟩,
  ⟨0x600108, 12, 0x20, 1, 4, [⟨0, 24, .rw, false, 0⟩]⟩,
  ⟨0x60010c, 12, 0x20, 1, 4, [⟨0, 32, .ro, false, 0⟩]⟩,
  ⟨0x600110, 12, 0x20, 1, 4, [⟨0, 32, .ro, false, 0⟩]⟩,
  ⟨0x600114, 12, 0x20, 1, 4, [⟨16, 16, .ro, false, 0⟩, ⟨0, 16, .ro, false, 0⟩]⟩,
  ⟨0x600304, 8, 0x20, 1, 4, [⟨0, 32, .rw, false, 0x3f800000⟩]⟩,
  ⟨0x600308, 8, 0x20, 1, 4, [⟨0, 24, .rw, false, 0⟩]⟩,
  ⟨0x60030c, 8, 0x20, 1, 4, [⟨0, 32, .ro, false, 0⟩]⟩,
  ⟨0x600310, 8, 0x20, 1, 4, [⟨0, 32, .ro, false, 0⟩]⟩,
  ⟨0x600314, 8, 0x20, 1, 4, [⟨16, 16, .ro, false, 0⟩, ⟨0, 16, .ro, false, 0⟩]⟩,
  ⟨0x600400, 2, 0x100, 1, 4, [⟨31, 1, .w1s, false, 0⟩, ⟨28, 3, .rw, false, 0⟩, ⟨23, 5, .rw, false, 0⟩, ⟨18, 5, .rw, false, 0⟩, ⟨17, 1, .rw, false, 0⟩, ⟨4, 13, .rw, false, 0⟩, ⟨0, 4, .rw, false, 0⟩]⟩,
  ⟨0x600408, 2, 0x100, 1, 4, [⟨31, 1, .w1s, false, 0⟩, ⟨29, 2, .ro, false, 0⟩, ⟨0, 3, .rw, false, 0⟩]⟩,
  ⟨0x60040c, 2, 0x100, 1, 4, [⟨0, 32, .ro, false, 0⟩]⟩,
  ⟨0x600410, 2, 0x100, 1, 4, [⟨0, 32, .ro, true, 0⟩]⟩,
  ⟨0x600414, 2, 0x100, 1, 4, [⟨0, 32, .ro, false, 0⟩]⟩,
  ⟨0x600418, 2, 0x100, 1, 4, [⟨0, 32, .rw, false, 0x3f800000⟩]⟩,
  ⟨0x60041c, 2, 0x100, 1, 4, [⟨0, 24, .rw, false, 0⟩]⟩]

/-- Rows of the MSU block, part 1. -/
def rowsMsu1 : List RRow := [
  ⟨0x600440, 2, 0x100, 16, 4, [⟨0, 3, .rw, false, 0⟩]⟩,
  ⟨0x600800, 16, 0x20, 1, 4, [⟨31, 1, .rwl, false, 0⟩, ⟨30, 1, .rw, false, 0⟩, ⟨29, 1, .rw, false, 0⟩, ⟨21, 8, .rw, false, 3⟩, ⟨17, 4, .rwl, false, 8⟩, ⟨0, 17, .rwl, false, 0x12c0⟩]⟩,
  ⟨0x600804, 16, 0x20, 1, 4, [⟨31, 1, .ro, false, 0⟩, ⟨30, 1, .w1c, false, 0⟩, ⟨29, 1, .w1c, false, 0⟩, ⟨0, 8, .ro, false, 0⟩]⟩,
  ⟨0x600808, 16, 0x20, 1, 4, [⟨0, 32, .ro, false, 0⟩]⟩,
  ⟨0x600a00, 4, 0x20, 1, 4, [⟨30, 2, .rw, false, 0⟩, ⟨29, 1, .rw, false, 0⟩, ⟨0, 8, .rw, false, 1⟩]⟩,
  ⟨0x600a04, 4, 0x20, 1, 4, [⟨0, 16, .rw, false, 0x3e8⟩]⟩,
  ⟨0x600a08, 4, 0x20, 1, 4, [⟨0, 32, .rw, false, 0xff800000⟩]⟩,
  ⟨0x600a0c, 4, 0x20, 1, 4, [⟨0, 32, .rw, false, 0x7f800000⟩]⟩,
  ⟨0x600a10, 4, 0x20, 1, 4, [⟨0, 32, .ro, false, 0⟩]⟩,
  ⟨0x601000, 248, 8, 1, 4, [⟨0, 32, .rwl, false, 0x3f800000⟩]⟩,
  ⟨0x601004, 248, 8, 1, 4, [⟨0, 32, .rwl, false, 0⟩]⟩]

/-- Rows of the MSU block. -/
def rowsMsu : List RRow := rowsMsu0 ++ rowsMsu1

/-- Rows of the APW block. -/
def rowsApw : List RRow := [
  ⟨0x640000, 1, 4, 1, 4, [⟨31, 1, .w1s, false, 0⟩]⟩,
  ⟨0x640004, 1, 4, 1, 4, [⟨31, 1, .ro, false, 0⟩, ⟨30, 1, .w1c, false, 0⟩, ⟨0, 12, .ro, false, 0⟩]⟩,
  ⟨0x640008, 1, 4, 1, 4, [⟨0, 12, .rw, false, 0⟩]⟩,
  ⟨0x64000c, 1, 4, 1, 4, [⟨0, 12, .rw, false, 0⟩]⟩,
  ⟨0x640010, 1, 4, 1, 4, [⟨0, 24, .rw, false, 0⟩]⟩,
  ⟨0x640014, 1, 4, 1, 4, [⟨31, 1, .w1s, false, 0⟩, ⟨0, 1, .rw, false, 0⟩]⟩,
  ⟨0x640040, 8, 4, 1, 4, [⟨31, 1, .rw, false, 0⟩, ⟨30, 1, .rw, false, 0⟩, ⟨26, 4, .rw, false, 0⟩, ⟨8, 9, .rw, false, 0⟩, ⟨0, 7, .rw, false, 5⟩]⟩,
  ⟨0x640100, 12, 0x40, 1, 4, [⟨31, 1, .rw, false, 0⟩, ⟨30, 1, .rw, false, 0⟩, ⟨29, 1, .rwl, false, 0⟩, ⟨28, 1, .rwl, false, 1⟩, ⟨27, 1, .rwl, false, 0⟩, ⟨25, 2, .rw, false, 0⟩, ⟨24, 1, .rw, false, 0⟩, ⟨0, 8, .rw, false, 0⟩]⟩,
  ⟨0x640104, 12, 0x40, 1, 4, [⟨0, 20, .rw, false, 0xc350⟩]⟩,
  ⟨0x640108, 12, 0x40, 1, 4, [⟨0, 23, .rw, false, 0⟩]⟩,
  ⟨0x64010c, 12, 0x40, 1, 4, [⟨0, 20, .rw, false, 0⟩]⟩,
  ⟨0x640110, 12, 0x40, 1, 4, [⟨16, 10, .rw, false, 0⟩, ⟨0, 10, .rw, false, 0⟩]⟩,
  ⟨0x640114, 12, 0x40, 1, 4, [⟨0, 20, .ro, false, 50000⟩]⟩,
  ⟨0x640118, 12, 0x40, 1, 4, [⟨0, 23, .ro, false, 0⟩]⟩,
  ⟨0x64011c, 12, 0x40, 1, 4, [⟨0, 32, .ro, false, 0⟩]⟩,
  ⟨0x640120, 12, 0x40, 1, 4, [⟨31, 1, .w1c, false, 0⟩, ⟨30, 1, .w1c, false, 0⟩, ⟨29, 1, .ro, false, 0⟩, ⟨28, 1, .ro, false, 0⟩, ⟨27, 1, .ro, false, 0⟩, ⟨1, 1, .ro, false, 0⟩, ⟨0, 1, .ro, false, 0⟩]⟩,
  ⟨0x640124, 12, 0x40, 1, 4, [⟨16, 16, .ro, false, 0⟩, ⟨0, 16, .ro, false, 0⟩]⟩,
  ⟨0x640128, 12, 0x40, 1, 4, [⟨0, 32, .ro, true, 0⟩]⟩,
  ⟨0x64012c, 12, 0x40, 1, 4, [⟨0, 1, .w1s, false, 0⟩]⟩]

/-- Rows of the SFI block. -/
def rowsSfi : List RRow := [
  ⟨0x700000, 1, 4, 1, 4, [⟨31, 1, .w1s, false, 0⟩, ⟨30, 1, .w1s, false, 0⟩, ⟨29, 1, .w1s, false, 0⟩, ⟨0, 8, .w1s, false, 0⟩]⟩,
  ⟨0x700004, 1, 4, 1, 4, [⟨30, 2, .ro, false, 2⟩, ⟨29, 1, .ro, false, 0⟩, ⟨28, 1, .ro, false, 0⟩, ⟨27, 1, .ro, false, 0⟩, ⟨24, 3, .ro, false, 7⟩, ⟨22, 2, .ro, false, 0⟩, ⟨21, 1, .w1c, false, 0⟩, ⟨20, 1, .w1c, false, 0⟩, ⟨19, 1, .ro, false, 0⟩, ⟨18, 1, .ro, false, 0⟩, ⟨17, 1, .ro, false, 0⟩, ⟨16, 1, .w1c, false, 0⟩, ⟨15, 1, .w1c, false, 0⟩, ⟨0, 8, .ro, true, 0⟩]⟩,
  ⟨0x700008, 1, 4, 1, 4, [⟨24, 8, .ro, false, 0⟩, ⟨16, 8, .ro, false, 0⟩, ⟨8, 8, .ro, false, 0⟩, ⟨0, 8, .ro, false, 0⟩]⟩,
  ⟨0x700010, 1, 4, 1, 4, [⟨0, 24, .rwl, false, 0x30d40⟩]⟩,
  ⟨0x700014, 1, 4, 1, 4, [⟨0, 32, .rwl, false, 0⟩]⟩,
  ⟨0x700018, 1, 4, 1, 4, [⟨0, 32, .rwl, false, 0⟩]⟩,
  ⟨0x700020, 1, 4, 1, 4, [⟨0, 32, .rwl, false, 0⟩]⟩,
  ⟨0x700024, 1, 4, 1, 4, [⟨0, 32, .rwl, false, 0⟩]⟩,
  ⟨0x700028, 1, 4, 1, 4, [⟨0, 32, .rwl, false, 0⟩]⟩,
  ⟨0x70002c, 1, 4, 1, 4, [⟨0, 32, .rwl, false, 0⟩]⟩,
  ⟨0x700030, 1, 4, 1, 4, [⟨0, 32, .ro, false, 0⟩]⟩,
  ⟨0x700034, 1, 4, 1, 4, [⟨0, 32, .ro, false, 0⟩]⟩,
  ⟨0x700038, 1, 4, 1, 4, [⟨0, 32, .ro, true, 0⟩]⟩,
  ⟨0x70003c, 1, 4, 1, 4, [⟨0, 32, .ro, true, 0⟩]⟩,
  ⟨0x700040, 8, 4, 1, 4, [⟨30, 2, .rwl, false, 2⟩, ⟨20, 8, .rwl, false, 0x14⟩, ⟨0, 20, .rwl, false, 0xc350⟩]⟩,
  ⟨0x700060, 8, 4, 1, 4, [⟨0, 32, .ro, true, 0⟩]⟩,
  ⟨0x700100, 8, 0x10, 1, 4, [⟨31, 1, .rwl, false, 0⟩, ⟨30, 1, .rwl, false, 0⟩, ⟨16, 8, .rwl, false, 0x14⟩, ⟨0, 6, .rwl, false, 0⟩]⟩,
  ⟨0x700104, 8, 0x10, 1, 4, [⟨0, 32, .rwl, false, 0⟩]⟩,
  ⟨0x700108, 8, 0x10, 1, 4, [⟨0, 32, .rwl, false, 0⟩]⟩,
  ⟨0x70010c, 8, 0x10, 1, 4, [⟨0, 32, .rwl, false, 0⟩]⟩]

/-- Rows of the FCO block. -/
def rowsFco : List RRow := [
  ⟨0x740000, 1, 4, 1, 4, [⟨31, 1, .ro, false, 0⟩, ⟨30, 1, .w1c, false, 0⟩, ⟨29, 1, .w1c, false, 0⟩, ⟨28, 1, .w1c, false, 0⟩, ⟨0, 8, .ro, false, 0⟩]⟩,
  ⟨0x740008, 1, 4, 1, 4, [⟨0, 32, .ro, false, 0⟩]⟩,
  ⟨0x74000c, 1, 4, 1, 4, [⟨0, 32, .ro, false, 0⟩]⟩,
  ⟨0x740010, 1, 4, 1, 4, [⟨0, 32, .ro, false, 0⟩]⟩,
  ⟨0x740014, 1, 4, 1, 4, [⟨0, 32, .ro, false, 0⟩]⟩,
  ⟨0x740018, 1, 4, 1, 4, [⟨0, 8, .wo, false, 0⟩]⟩,
  ⟨0x74001c, 1, 4, 1, 4, [⟨0, 32, .ro, true, 0⟩]⟩,
  ⟨0x740020, 1, 4, 1, 4, [⟨0, 32, .ro, true, 0⟩]⟩,
  ⟨0x740024, 1, 4, 1, 4, [⟨0, 32, .ro, true, 0⟩]⟩,
  ⟨0x740030, 1, 4, 1, 4, [⟨0, 32, .wo, false, 0⟩]⟩,
  ⟨0x740034, 1, 4, 1, 4, [⟨0, 32, .wo, false, 0⟩]⟩,
  ⟨0x740040, 8, 4, 1, 4, [⟨0, 32, .ro, false, 0⟩]⟩,
  ⟨0x740060, 8, 4, 1, 4, [⟨0, 32, .ro, false, 0⟩]⟩,
  ⟨0x740400, 256, 4, 1, 4, [⟨29, 3, .rwl, false, 0⟩, ⟨24, 4, .rwl, false, 0⟩, ⟨22, 2, .rwl, false, 0⟩, ⟨12, 10, .rwl, false, 0⟩, ⟨10, 2, .rwl, false, 0⟩, ⟨0, 10, .rwl, false, 0⟩]⟩,
  ⟨0x740800, 256, 4, 1, 4, [⟨16, 16, .ro, true, 0⟩, ⟨8, 8, .ro, true, 0⟩, ⟨1, 1, .ro, false, 0⟩, ⟨0, 1, .ro, false, 0⟩]⟩]

/-- Rows of the EVR block. -/
def rowsEvr : List RRow := [
  ⟨0x780000, 1, 4, 1, 4, [⟨31, 1, .rw, false, 0⟩, ⟨30, 1, .w1s, false, 0⟩]⟩,
  ⟨0x780004, 1, 4, 1, 4, [⟨31, 1, .ro, false, 0⟩, ⟨30, 1, .ro, false, 0⟩, ⟨29, 1, .ro, false, 0⟩, ⟨28, 1, .w1c, false, 0⟩, ⟨27, 1, .ro, false, 0⟩, ⟨0, 12, .ro, false, 0⟩]⟩,
  ⟨0x780008, 1, 4, 1, 4, [⟨0, 18, .ro, false, 0⟩]⟩,
  ⟨0x78000c, 1, 4, 1, 4, [⟨0, 32, .ro, true, 0⟩]⟩,
  ⟨0x780010, 1, 4, 1, 4, [⟨0, 32, .ro, true, 0⟩]⟩,
  ⟨0x780014, 1, 4, 1, 4, [⟨0, 32, .ro, true, 0⟩]⟩,
  ⟨0x780018, 1, 4, 1, 4, [⟨0, 32, .ro, true, 0⟩]⟩,
  ⟨0x78001c, 1, 4, 1, 4, [⟨0, 32, .ro, false, 0⟩]⟩,
  ⟨0x780020, 1, 4, 1, 4, [⟨0, 32, .ro, false, 0⟩]⟩,
  ⟨0x780024, 1, 4, 1, 4, [⟨0, 32, .ro, true, 0⟩]⟩,
  ⟨0x780028, 1, 4, 1, 4, [⟨0, 6, .rw, false, 10⟩]⟩,
  ⟨0x780030, 1, 4, 1, 4, [⟨30, 2, .rw, false, 0⟩, ⟨29, 1, .rw, false, 1⟩, ⟨0, 18, .rw, false, 0⟩]⟩,
  ⟨0x780034, 1, 4, 1, 4, [⟨31, 1, .ro, false, 0⟩, ⟨30, 1, .ro, false, 0⟩, ⟨29, 1, .ro, false, 0⟩]⟩,
  ⟨0x780040, 8, 4, 1, 4, [⟨0, 32, .ro, false, 0⟩]⟩,
  ⟨0x780100, 1, 4, 1, 4, [⟨31, 1, .rwl, false, 0⟩, ⟨16, 8, .rwl, false, 0x10⟩, ⟨0, 16, .rwl, false, 0⟩]⟩,
  ⟨0x780104, 1, 4, 1, 4, [⟨0, 20, .rwl, false, 0⟩]⟩,
  ⟨0x780200, 16, 0x20, 8, 4, [⟨0, 32, .ro, false, 0⟩]⟩,
  ⟨0x780400, 1, 4, 1, 4, [⟨16, 5, .ro, false, 0⟩, ⟨0, 16, .ro, true, 0⟩]⟩,
  ⟨0x781000, 1024, 8, 1, 4, [⟨31, 1, .rwl, false, 0⟩, ⟨16, 8, .rwl, false, 0x10⟩, ⟨0, 16, .rwl, false, 0⟩]⟩,
  ⟨0x781004, 1024, 8, 1, 4, [⟨0, 20, .rwl, false, 0⟩]⟩]

/-- Rows of the DRC block, part 0. -/
def rowsDrc0 : List RRow := [
  ⟨0x7c0000, 1, 4, 1, 4, [⟨31, 1, .w1s, false, 0⟩, ⟨30, 1, .w1s, false, 0⟩, ⟨29, 1, .rw, false, 0⟩]⟩,
  ⟨0x7c0004, 1, 4, 1, 4, [⟨31, 1, .ro, false, 0⟩, ⟨30, 1, .ro, false, 0⟩, ⟨29, 1, .ro, false, 0⟩, ⟨28, 1, .w1c, false, 0⟩, ⟨27, 1, .w1c, false, 0⟩, ⟨26, 1, .w1c, false, 0⟩, ⟨0, 11, .ro, false, 0⟩]⟩,
  ⟨0x7c0008, 1, 4, 1, 4, [⟨8, 7, .rwl, false, 0⟩, ⟨0, 8, .rwl, false, 0⟩]⟩,
  ⟨0x7c000c, 1, 4, 1, 4, [⟨0, 17, .rwl, false, 0x1000⟩]⟩,
  ⟨0x7c0010, 1, 4, 1, 4, [⟨0, 20, .rw, false, 0x186a0⟩]⟩,
  ⟨0x7c0014, 1, 4, 1, 4, [⟨0, 24, .rw, false, 0x7a120⟩]⟩,
  ⟨0x7c0018, 1, 4, 1, 4, [⟨0, 10, .wo, false, 0⟩]⟩,
  ⟨0x7c001c, 1, 4, 1, 4, [⟨0, 32, .ro, true, 0⟩]⟩,
  ⟨0x7c0020, 1, 4, 1, 4, [⟨0, 32, .ro, true, 0⟩]⟩,
  ⟨0x7c0024, 1, 4, 1, 4, [⟨0, 32, .ro, false, 0⟩]⟩,
  ⟨0x7c0028, 1, 4, 1, 4, [⟨0, 30, .ro, false, 0⟩]⟩,
  ⟨0x7c0040, 1, 4, 1, 4, [⟨31, 1, .w1s, false, 0⟩, ⟨0, 10, .rw, false, 0⟩]⟩,
  ⟨0x7c0044, 1, 4, 1, 4, [⟨31, 1, .ro, false, 0⟩, ⟨30, 1, .ro, false, 0⟩, ⟨29, 1, .w1c, false, 0⟩, ⟨0, 10, .ro, false, 0⟩]⟩,
  ⟨0x7c0048, 2, 8, 1, 4, [⟨0, 30, .ro, false, 0⟩]⟩,
  ⟨0x7c004c, 2, 8, 1, 4, [⟨0, 30, .ro, false, 0⟩]⟩,
  ⟨0x7c0058, 1, 4, 1, 4, [⟨0, 30, .ro, false, 0⟩]⟩,
  ⟨0x7c0400, 256, 8, 1, 4, [⟨31, 1, .rwl, false, 0⟩, ⟨30, 1, .rwl, false, 0⟩, ⟨29, 1, .rw, false, 0⟩, ⟨0, 14, .rwl, false, 0⟩]⟩,
  ⟨0x7c0404, 256, 8, 1, 4, [⟨0, 32, .rw, false, 0⟩]⟩,
  ⟨0x7c0c00, 1024, 4, 1, 4, [⟨0, 32, .rw, false, 0xa0a0a0a⟩]⟩,
  ⟨0x7c2000, 32, 0x20, 1, 4, [⟨29, 3, .rw, false, 0⟩, ⟨28, 1, .rw, false, 0⟩, ⟨20, 8, .rw, false, 0⟩, ⟨0, 16, .rw, false, 0⟩]⟩,
  ⟨0x7c2004, 32, 0x20, 1, 4, [⟨0, 32, .rw, false, 0⟩]⟩,
  ⟨0x7c2008, 32, 0x20, 1, 4, [⟨0, 32, .rw, false, 0⟩]⟩,
  ⟨0x7c2400, 8, 8, 1, 4, [⟨0, 32, .rw, false, 0⟩]⟩,
  ⟨0x7c2404, 8, 8, 1, 4, [⟨31, 1, .rw, false, 0⟩, ⟨30, 1, .rw, false, 0⟩]⟩]

/-- Rows of the DRC block, part 1. -/
def rowsDrc1 : List RRow := [
  ⟨0x7c3000, 16, 0x10, 1, 4, [⟨31, 1, .rw, false, 0⟩, ⟨30, 1, .rw, false, 0⟩, ⟨22, 8, .rw, false, 0⟩, ⟨14, 8, .rw, false, 0⟩]⟩,
  ⟨0x7c3004, 16, 0x10, 1, 4, [⟨16, 16, .rw, false, 0⟩, ⟨0, 16, .rw, false, 0⟩]⟩,
  ⟨0x7c3008, 16, 0x10, 1, 4, [⟨11, 1, .rw, false, 0⟩, ⟨0, 11, .rw, false, 0⟩]⟩,
  ⟨0x7c300c, 16, 0x10, 1, 4, [⟨0, 32, .rw, false, 0⟩]⟩]

/-- Rows of the DRC block. -/
def rowsDrc : List RRow := rowsDrc0 ++ rowsDrc1

/-- Rows of the MEM block. -/
def rowsMem : List RRow := [
  ⟨0x800000, 1, 4, 1, 4, [⟨31, 1, .ro, false, 1⟩, ⟨30, 1, .w1c, false, 0⟩, ⟨29, 1, .w1c, false, 0⟩, ⟨28, 1, .w1c, false, 0⟩, ⟨27, 1, .w1c, false, 0⟩, ⟨26, 1, .ro, true, 0⟩]⟩,
  ⟨0x800004, 1, 4, 1, 4, [⟨0, 32, .rw, false, 0⟩]⟩,
  ⟨0x800008, 1, 4, 1, 4, [⟨0, 8, .rw, false, 0⟩]⟩,
  ⟨0x80000c, 1, 4, 1, 4, [⟨0, 32, .ro, false, 0xffffffff⟩]⟩,
  ⟨0x800010, 1, 4, 1, 4, [⟨0, 8, .ro, false, 0xff⟩]⟩,
  ⟨0x800020, 1, 4, 1, 4, [⟨0, 32, .ro, false, 0⟩]⟩,
  ⟨0x800024, 1, 4, 1, 4, [⟨0, 32, .ro, true, 0⟩]⟩,
  ⟨0x800028, 1, 4, 1, 4, [⟨0, 32, .ro, true, 0⟩]⟩,
  ⟨0x80002c, 1, 4, 1, 4, [⟨0, 32, .ro, true, 0⟩]⟩,
  ⟨0x800030, 1, 4, 1, 4, [⟨0, 32, .ro, true, 0⟩]⟩,
  ⟨0x800034, 1, 4, 1, 4, [⟨0, 9, .ro, true, 0⟩]⟩,
  ⟨0x800038, 1, 4, 1, 4, [⟨0, 32, .ro, false, 0⟩]⟩,
  ⟨0x800040, 16, 4, 1, 4, [⟨0, 4, .rwl, false, 8⟩]⟩,
  ⟨0x800080, 16, 4, 1, 4, [⟨0, 32, .ro, false, 0⟩]⟩,
  ⟨0x8000c0, 1, 4, 1, 4, [⟨0, 10, .rwl, false, 0xa0⟩]⟩,
  ⟨0x8000c4, 1, 4, 1, 4, [⟨0, 10, .rwl, false, 0xc8⟩]⟩,
  ⟨0x8000c8, 1, 4, 1, 4, [⟨0, 10, .rwl, false, 0xa0⟩]⟩,
  ⟨0x8000cc, 1, 4, 1, 4, [⟨0, 10, .rwl, false, 1⟩]⟩,
  ⟨0x8000d0, 1, 4, 1, 4, [⟨0, 10, .rwl, false, 0x20⟩]⟩,
  ⟨0x8000d4, 1, 4, 1, 4, [⟨0, 10, .rwl, false, 1⟩]⟩,
  ⟨0x8000e0, 1, 4, 1, 4, [⟨0, 10, .ro, false, 0xd6⟩]⟩,
  ⟨0x800100, 1, 4, 1, 4, [⟨28, 4, .rwl, false, 15⟩, ⟨24, 4, .rwl, false, 0⟩, ⟨0, 6, .rwl, false, 10⟩]⟩,
  ⟨0x800104, 1, 4, 1, 4, [⟨4, 1, .w1c, true, 0⟩, ⟨0, 4, .w1c, true, 0⟩]⟩]

/-- Rows of the AON block. -/
def rowsAon : List RRow := [
  ⟨0x840000, 1, 4, 1, 4, [⟨31, 1, .ro, true, 0⟩, ⟨30, 1, .ro, false, 0⟩, ⟨29, 1, .w1c, false, 0⟩, ⟨28, 1, .ro, false, 0⟩]⟩,
  ⟨0x840004, 1, 4, 1, 4, [⟨0, 32, .ro, true, 0⟩]⟩,
  ⟨0x840008, 1, 4, 1, 4, [⟨0, 16, .ro, true, 0⟩]⟩,
  ⟨0x84000c, 1, 4, 1, 4, [⟨0, 15, .ro, true, 0⟩]⟩,
  ⟨0x840010, 1, 4, 1, 4, [⟨0, 32, .wo, false, 0⟩]⟩,
  ⟨0x840014, 1, 4, 1, 4, [⟨0, 16, .wo, false, 0⟩]⟩,
  ⟨0x840018, 1, 4, 1, 4, [⟨0, 32, .ro, false, 0⟩]⟩,
  ⟨0x84001c, 1, 4, 1, 4, [⟨31, 1, .w1s, false, 0⟩]⟩,
  ⟨0x840020, 1, 4, 1, 4, [⟨0, 6, .ro, true, 0⟩]⟩,
  ⟨0x840400, 64, 0x20, 8, 4, [⟨0, 32, .ro, true, 0⟩]⟩]

/-- Rows of the INT block. -/
def rowsInt : List RRow := [
  ⟨0x880000, 1, 4, 1, 4, [⟨0, 1, .rw, false, 0⟩]⟩,
  ⟨0x880010, 8, 4, 1, 4, [⟨0, 32, .w1c, false, 0⟩]⟩,
  ⟨0x880030, 8, 4, 1, 4, [⟨0, 32, .rw, false, 0⟩]⟩,
  ⟨0x880050, 4, 4, 1, 4, [⟨31, 1, .ro, false, 0⟩, ⟨0, 8, .ro, false, 0⟩]⟩,
  ⟨0x880400, 256, 4, 1, 4, [⟨8, 8, .ro, false, 0⟩, ⟨5, 1, .rw, false, 1⟩, ⟨4, 1, .rw, false, 0⟩, ⟨2, 1, .rw, false, 0⟩, ⟨0, 2, .rw, false, 0⟩]⟩]

/-- The rows of the block that holds offset `o` (Table 17.9). -/
def rowsAt (o : Nat) : List RRow :=
  if o < 0x10000 then rowsSys
  else if o < 0x20000 then rowsCfc
  else if o < 0x100000 then rowsHcp
  else if o < 0x200000 then rowsRpu
  else if o < 0x300000 then rowsLph
  else if o < 0x340000 then rowsSpu
  else if o < 0x380000 then rowsTbu
  else if o < 0x400000 then rowsRdu
  else if o < 0x440000 then rowsMdu
  else if o < 0x480000 then rowsClu
  else if o < 0x500000 then rowsTds
  else if o < 0x600000 then rowsSe
  else if o < 0x640000 then rowsMsu
  else if o < 0x700000 then rowsApw
  else if o < 0x740000 then rowsSfi
  else if o < 0x780000 then rowsFco
  else if o < 0x7c0000 then rowsEvr
  else if o < 0x800000 then rowsDrc
  else if o < 0x840000 then rowsMem
  else if o < 0x880000 then rowsAon
  else if o < 0x8c0000 then rowsInt
  else []

/-- Whether offset `o` names a register of the row. -/
def RRow.hits (r : RRow) (o : Nat) : Bool :=
  decide (r.base ≤ o) &&
    (let d := o - r.base
     decide (d / r.s1 < r.c1) && decide (d % r.s1 / r.s2 < r.c2) && decide (d % r.s1 % r.s2 = 0))

/-- The row of the register at offset `o`, none where the offset names no register (R380). -/
def rowOf (o : Nat) : Option RRow := (rowsAt o).find? (fun r => r.hits o)

/-- A register's value after power-on reset: each field at its Reset value, reserved bits zero (R3). -/
def RRow.rstVal (r : RRow) : BitVec 32 :=
  r.fields.foldl (fun v f => v ||| (BitVec.ofNat 32 f.rst <<< f.lo)) 0

/-- Reset value of the register at offset `o`; zero where there is none. -/
def resetOf (o : Nat) : BitVec 32 :=
  match rowOf o with
  | some r => r.rstVal
  | none => 0

end Sys2Proof.Machine
end

