-- ==== Sys2Proof/Machine/Sparse.lean ====
section
/-! DEFINITION. Sparse maps: the plain-data form of every indexed family of the state (registers, memory bytes, engines,
ports, channels ...). A list of (index, value) pairs in one canonical form: indices strictly rising, and no entry equal
to what an unlisted index reads as. -/

namespace Sys2Proof.Machine

/-- A sparse family of values. -/
abbrev Sparse (α : Type) := List (Nat × α)

/-- The value at index `i`, `d` where it is not listed. -/
def spGet {α : Type} (d : α) : Sparse α → Nat → α
  | [], _ => d
  | (k, v) :: m, i => if i = k then v else spGet d m i

/-- Put `v` at index `i`, keeping the indices rising. -/
def spIns {α : Type} : Sparse α → Nat → α → Sparse α
  | [], i, v => [(i, v)]
  | (k, w) :: m, i, v =>
    if i = k then (i, v) :: m else if i < k then (i, v) :: (k, w) :: m else (k, w) :: spIns m i v

/-- Take index `i` out. -/
def spDel {α : Type} (m : Sparse α) (i : Nat) : Sparse α := m.filter (fun c => !decide (c.1 = i))

/-- Write `v` at index `i`; a value equal to the default `d` takes the entry out. -/
def spSet {α : Type} [DecidableEq α] (d : α) (m : Sparse α) (i : Nat) (v : α) : Sparse α :=
  if v = d then spDel m i else spIns m i v

/-- Apply `f` to every listed value. -/
def spMap {α : Type} [DecidableEq α] (d : α) (f : α → α) (m : Sparse α) : Sparse α :=
  (m.map (fun c => (c.1, f c.2))).filter (fun c => !decide (c.2 = d))

/-- Every index of the map is above `lo`, rising, and no entry equals its default. -/
def spWfFrom {α : Type} [DecidableEq α] (d : Nat → α) : Nat → Sparse α → Bool
  | _, [] => true
  | lo, (k, v) :: m => decide (lo ≤ k) && !decide (v = d k) && spWfFrom d (k + 1) m

/-- The canonical form. -/
def spWf {α : Type} [DecidableEq α] (d : Nat → α) (m : Sparse α) : Bool := spWfFrom d 0 m

end Sys2Proof.Machine
end

