-- ==== Sys2Proof/Machine/State.lean ====
section
/-! DEFINITION. The state of the BDG-4096: plain data. Registers stand in one sparse map from offset to word (a register
not listed holds its reset value); everything else stands in one structure per unit. A default value of a field is
its value at reset (log entries name the ones that the spec does not give). -/

namespace Sys2Proof.Machine

/-! ## Events, faults, recorders (chapters 13 and 14) -/

/-- An event record (Table 14.1) without its CRC and valid mark, which are computed when it is stored. -/
structure EvRec where
  time : Nat
  code : Nat
  src : Nat
  value : BitVec 32
  qual : BitVec 32
  seq : BitVec 32 := 0
  flags : BitVec 16 := 0xFF
deriving DecidableEq, Repr, Inhabited

/-- A record in the EVR buffer and the elapsed time at which it entered. -/
structure BufRec where
  ev : EvRec
  at' : Nat
deriving DecidableEq, Repr

/-- A token bucket (R313): tokens missing from BURST in nano-tokens, the elapsed time of the last refill, and the
suppressed records: their number, the time of the first, the time, source, code and flags of the last. -/
structure Bucket where
  debt : Nat := 0
  last : Nat := 0
  supp : Nat := 0
  firstT : Nat := 0
  lastT : Nat := 0
  lastSrc : Nat := 0
  lastCode : Nat := 0
  lastFlags : BitVec 16 := 0
deriving DecidableEq, Repr

/-- The EVR (chapter 14): records on their way in, ordering stage, volatile buffer, NV log (one 256-bit word per slot,
byte i at bits 8i+7..8i), rate-limiter buckets (index 1024 is the default bucket). -/
structure EvrSt where
  inbox : List EvRec := []
  order : List EvRec := []
  lastOut : Option EvRec := none
  buf : List BufRec := []
  lossPend : Nat := 0
  buckets : Sparse Bucket := []
  log : Sparse (BitVec 256) := []
  commitReq : Bool := false
  frostSince : Option Nat := none
  recovered : Bool := false
  /-- TBU count of the PFAIL fall, while the flush of R319 runs. -/
  pfail : Option Nat := none
  accepting : Bool := true
  /-- Elapsed time at which the latest records were written to the log, their first slot and their number (R315). -/
  cutAt : Nat := 0
  cutFrom : Nat := 0
  cutN : Nat := 0
deriving DecidableEq, Repr

/-- One fault kind of the FCO: elapsed time of its last message, its Thaw history, and whether its source unit is in its
degraded action (R302, R304, R305). -/
structure FcoKind where
  lastMsg : Option Nat := none
  thaws : List Nat := []
  degraded : Bool := false
deriving DecidableEq, Repr

/-- The FCO (chapter 13): kinds, messages sent by units and not yet arrived, the 64-entry record queue. -/
structure FcoSt where
  kinds : Sparse FcoKind := []
  inFlight : List (BitVec 64) := []
  recQ : List EvRec := []
deriving DecidableEq, Repr

/-- One cycle block in the DRC stream: byte offset, length, t_k, keyframe. -/
structure DrcBlk where
  ofs : Nat
  len : Nat
  tk : Nat
  key : Bool
deriving DecidableEq, Repr

/-- One analogue channel of an open record (R332): its samples
from T on (cycle, fp32 word; newest first). -/
structure MeasAcc where
  samples : List (Nat × BitVec 32) := []
deriving DecidableEq, Repr

/-- The open disturbance record (R331): directory entry, trigger time T and its cycle, planned end (TAI ns), end set by
a mask (TAI ns), t_k of its last cycle so far and the stream offset after it. -/
structure DrcOpen where
  entry : Nat
  t : Nat
  k : Nat
  endT : Nat
  maskEnd : Option Nat := none
  lastT : Nat := 0
  lastOfs : Nat := 0
deriving DecidableEq, Repr

/-- An event that a type 4 to 6 trigger unit may see: trigger type, argument, stamp. -/
structure DrcHit where
  ty : Nat
  arg : Nat
  stamp : Nat
deriving DecidableEq, Repr

/-- The DRC (chapter 14). `last` and `prev` hold, per channel, the last recorded sample and the sample of the cycle
before, `lastK` the cycle last sampled, `stamps` the stamp that last made a trigger unit of type 4 to 6 true. The directory, its NV copy and the stream stand in memory (`mem`). -/
structure DrcSt where
  armReq : Bool := false
  disarmReq : Bool := false
  last : Sparse (Option (BitVec 32)) := []
  prev : Sparse (Option (BitVec 32)) := []
  held : Sparse Nat := []
  prevCmb : BitVec 8 := 0
  stamps : Sparse Nat := []
  forceKey : Bool := false
  blocks : List DrcBlk := []
  open' : Option DrcOpen := none
  meas : Sparse MeasAcc := []
  hits : List DrcHit := []
  points : Sparse (BitVec 32) := []
  lastK : Option Nat := none
  /-- Whether the record-store wipe has ended, so that the DRC may start (R402). -/
  ready : Bool := false
  /-- The directory is still to come back from NV (R335). -/
  nvPend : Bool := true
deriving DecidableEq, Repr

/-! ## Memory unit, AON, host port, configuration controller (chapters 16 to 18) -/

/-- The lifetime store's contents (Table 17.15). -/
structure Lifetime where
  opSec : Nat := 0
  resets : Sparse Nat := []
  takeovers : Nat := 0
  releases : Nat := 0
  equinox : Nat := 0
  fencings : Nat := 0
  excursions : Sparse Nat := []
  tj : Sparse Nat := []
  thaw : Sparse Nat := []
  trans : Sparse Nat := []
  /-- Counts of replaced SMs, oldest first: serial, address, count. -/
  hist : List (BitVec 56 × Nat × Nat) := []
deriving DecidableEq, Repr

/-- One saved copy in NV: its SEQ and body. -/
structure LtCopy where
  seq : Nat
  body : Lifetime
  /-- The save that wrote it failed: its commit word is not valid. -/
  torn : Bool := false
deriving DecidableEq, Repr

/-- The always-on domain and the supervisor die's permanent state: calendar base, lifetime store and its copies, the
epoch cells of R282, the life-cycle state's fuses. -/
structure AonSt where
  lt : Lifetime := {}
  copy0 : Option LtCopy := none
  copy1 : Option LtCopy := none
  epochA : Option (BitVec 32) := none
  epochB : Option (BitVec 32) := none
  epochNext : Bool := false
  /-- Fuses (R385): hash of the image-signing key, hash of the safety key, K_DEV; none before provisioning. -/
  signerHash : Option (BitVec 384) := none
  safetyHash : Option (BitVec 384) := none
  kDev : Option (BitVec 256) := none
  /-- RSTBTN_N: a press is in progress; the button is ignored until high for 1 s. -/
  pressed : Bool := false
  stuck : Bool := false
  /-- RSTBTN_N has been low for 20 ms, and not high for 20 ms since. -/
  low : Bool := false
  /-- Elapsed time of the last whole second of the calendar. -/
  calAt : Nat := 0
  /-- Elapsed time of the last lifetime save. -/
  savedAt : Option Nat := none
deriving DecidableEq, Repr

/-- A wipe of Table 16.6 in progress. -/
inductive Wipe where
  | none | por | warm | tamper | lifeCycle | decommission
deriving DecidableEq, Repr

/-- The memory unit (chapter 16). Winter bits requested and not yet entered, memories waking, retired pages (page number
of the record store, in order of retirement), keys held wiped after a tamper. -/
structure MemSt where
  wipe : Wipe := .por
  winReqT : BitVec 32 := 0
  winReqC : BitVec 8 := 0
  inWinT : BitVec 32 := 0
  inWinC : BitVec 8 := 0
  wakingT : BitVec 32 := 0
  wakingC : BitVec 8 := 0
  retired : List Nat := []
  tileIso : BitVec 32 := 0
  cluIso : BitVec 8 := 0
  keysWiped : Bool := false
  privPend : Bool := false
deriving DecidableEq, Repr

/-- A long EXEC of Table 17.14 that runs: its code and argument. -/
structure LongExec where
  code : Nat
  arg : BitVec 64
  /-- CFC_ERR, or status, found while it runs. -/
  done : Bool := false
deriving DecidableEq, Repr

/-- The response that the host port last drove: status byte, data words, CRC-8 over both (R386). -/
structure HcpResp where
  status : BitVec 8 := 0
  words : List (BitVec 32) := []
  crc : BitVec 8 := 0
deriving DecidableEq, Repr

/-- The host command port. -/
structure HcpSt where
  long : Option LongExec := none
  resp : HcpResp := {}
  lastPriv : Nat := 0
  /-- Value that the last read with a side effect returned. -/
  readVal : BitVec 32 := 0
  /-- Elapsed time at which LOCKOUT was set. -/
  lockAt : Nat := 0
deriving DecidableEq, Repr

/-- What holds the unit in reset, and pins that only the supervisor die sees. -/
structure SysSt where
  porstLow : Bool := false
  thermal : Bool := false
  rails : List Rail := []
  /-- VSAF or VCORE absent. -/
  vsafLost : Bool := false
  vcoreLost : Bool := false
  /-- UID strap as last sampled (R6): true for unit B. -/
  uid : Bool := false
  /-- UID_CONF: for a refused claim (R282), for ENUM blocks (R9), for the straps (R8). -/
  uidConf : Bool := false
  uidEnum : Bool := false
  strapConf : Bool := false
  pfailLow : Bool := false
  /-- The warm reset or power-on reset ran and the boot steps have not ended. -/
  booting : Bool := true
  mgcNotes : List Nat := []
  /-- Elapsed time of the fall of PORST_N. -/
  porstAt : Nat := 0
  /-- The power-on reset of what now holds the die in reset has taken place. -/
  porDone : Bool := true
  /-- Rails (in the order of Table 18.6) whose drop caused a power-on reset that is still held. -/
  under : List Rail := []
deriving DecidableEq, Repr

/-! ## What the active image gives that no register holds (chapter 17) -/

/-- A SIGNAL entry (Table 17.10), without its NAME. -/
structure SigDef where
  ty : Nat := 0
  pkind : Nat := 0
  pid : Nat := 0
  phase : Nat := 0
  init : BitVec 32 := 0
deriving DecidableEq, Repr

/-- The mirror list of an image: signals, tile-word runs (engine, tile address, words), CLU slots. -/
structure MirList where
  sigs : List Nat := []
  tiles : List (Nat × Nat × Nat) := []
  slots : List Nat := []
deriving DecidableEq, Repr

/-- Maps and lists of the image in force: signal table, arm of each SM (255: unconfigured), SM type and serial, mirror
list and its identifier. -/
structure CfgSt where
  sigs : Sparse SigDef := []
  arm : Sparse Nat := []
  sm : Sparse (BitVec 64) := []
  mirror : MirList := {}
  mlistId : BitVec 16 := 0
  imageId : BitVec 64 := 0
  /-- CRC-32 of the image's recorder definitions (Table 14.7). -/
  recCrc : BitVec 32 := 0
deriving DecidableEq, Repr

/-! ## Lanes (chapter 3) -/

/-- One lane: block-lock hunting (candidate position, valid headers in a row), the running window of 64 headers, the run of
BLOCK blocks, elastic-buffer offset from centre in blocks, discarding up to the next SOF, inside a frame, descrambler
register (newest bit lowest), last level index received, elapsed time at which the WAKE run ends, receiver woken by
signal detect; arrival at the ball of the last SOF and TIME block in tenths of a ns (R63); the pattern checker's generator (R75),
newest bit lowest. -/
structure Lane where
  cand : Nat := 0
  good : Nat := 0
  winCnt : Nat := 0
  winBad : Nat := 0
  run : Nat := 0
  elastic : Int := 0
  discard : Bool := false
  inFrame : Bool := false
  rxScr : BitVec 58 := 0
  rxY : BitVec 2 := 0
  wakeEnd : Nat := 0
  rxWoken : Bool := false
  sofArr : Nat := 0
  timeArr : Nat := 0
  chk : BitVec 31 := 0
deriving DecidableEq, Repr

/-- The transmit side of a lane: scrambler register (newest bit lowest) and last level index (R51, R52), both running on from
block to block; elapsed time up to which its blocks are accounted for, WAKE blocks still to send (R68); departure of the last
block of each kind that is stamped or timed, in tenths of a ns: SOF and TIME block (R63), and the block whose instant R62 fixes;
elapsed time at which the last frame ends and the FFE setting that it is sent with (R72); blocks on their way round a near-end
loop (R74); the pattern generator (R75); line bits of what last left, earliest first. -/
structure LaneTx where
  scr : BitVec 58 := 0
  y : BitVec 2 := 0
  at' : Nat := 0
  wake : Nat := 0
  sof : Nat := 0
  time : Nat := 0
  timed : Nat := 0
  busy : Nat := 0
  taps : BitVec 32 := 0
  loop : List Blk := []
  gen : BitVec 31 := 0
  line : List (BitVec 66) := []
deriving DecidableEq, Repr

/-! ## Ring ports and the report table (chapters 4 and 5) -/

/-- A report as the report table holds it (Table 4.9), with the cycle number it was written for. -/
structure Report where
  cycle : Nat
  vcap : BitVec 16
  vmin : BitVec 16
  temp : BitVec 8
  status : BitVec 16
  swcount : BitVec 8
  linkq : BitVec 16
  xdata : BitVec 16
  /-- Written under R294 from a mirrored key: no report of the SM. -/
  supplied : Bool := false
deriving DecidableEq, Repr

/-- A key session of a ring (R120, R121): start cycle S, salt N_R, pseudo-random key; whether its keys have been wiped
to zero (R359). -/
structure Session where
  start : Nat
  salt : BitVec 128
  prk : BitVec 384
  wiped : Bool := false
deriving DecidableEq, Repr

/-- Running measurements at a position: of the hop into it from the A side and from the B side, the last 16 hop delays in
1/128 ns, newest first, and the rounds in a row with a jump of more than 1 ns; rounds in a row with a residence above 12 ns; path
delay D in 1/128 ns. -/
structure Hop where
  last : List Int := []
  jumps : Nat := 0
  lastB : List Int := []
  jumpsB : Nat := 0
  slows : Nat := 0
  dly : Option Int := none
deriving DecidableEq, Repr

/-- One ring port. Full cycle numbers throughout. -/
structure Port where
  lit : Bool := false
  /-- The next ENUM asks for an IDENT frame (REQ = 1); the cycle at whose start that frame is due. -/
  reqIdent : Bool := false
  identDue : Option Nat := none
  /-- Cycle of the last request for an IDENT frame (R118), and of the last TIME block (R114). -/
  identAt : Nat := 0
  timeAt : Option Nat := none
  /-- The pending identification is a join of unadmitted positions, not a new session. -/
  join : Bool := false
  /-- NSLOT that an ENUM with REQ = 1 from the far end asked for, for the next t_k. -/
  askedIdent : Option Nat := none
  nonces : Sparse (Option (BitVec 64)) := []
  sess : Option Session := none
  prev : Option Session := none
  next : Option Session := none
  /-- Positions to let in with a JOIN SESSION frame after the next down frame. -/
  joiners : List Nat := []
  /-- Cycles of the last valid tails, newest first. -/
  tails : List Nat := []
  /-- Last cycle with an ENUM block of the unit's own END (R9). -/
  ownEnd : Option Nat := none
  /-- Last cycle with an SM-originated collect frame and its OPOS; last cycle with a unit-originated one. -/
  smOrig : Option (Nat × Nat) := none
  unitOrig : Option Nat := none
  /-- The relay stopped with the loss of the partner link: the ring counts outside the quorum (R295). -/
  cut : Bool := false
  /-- The break has been declared under the lease in force (R127, R295). -/
  declared : Bool := false
  /-- CYCLE of the last lease record without a valid tail on the ring; one has shown a tail since link-up and service. -/
  noTail : Option Nat := none
  partnerTail : Bool := false
  /-- Start cycle of the running QWIN. -/
  win : Nat := 0
  hops : Sparse Hop := []
  /-- Ball stamps of TIME blocks by ROUND, modulo 2^24 in 1/64 ns: own departures, far arrivals. -/
  dep : Sparse Nat := []
  arr : Sparse Nat := []
  tdelayNext : Nat := 0
  /-- This port relays for the ring; CYCLE up to which relayed frames come too late, its relay having ended (R131); the first
  cycle whose collect frame it originates. -/
  relaying : Bool := false
  relayOver : Option Nat := none
  origin : Option Nat := none
  /-- Last frames that left the port: down or session (away from the down end), collect and ring-operation frames. -/
  txDown : List Blk := []
  txSession : List Blk := []
  txUp : List Blk := []
  txOp : List Blk := []
  /-- Last ENUM and TIME blocks that left. -/
  txEnum : Option Blk := none
  txTime : Option Blk := none
deriving DecidableEq, Repr

/-! ## Redundancy (chapter 12) -/

/-- A mirror that has arrived and waits for its P0 release: CYCLE, mirror, elapsed time of its arrival. -/
structure MirIn where
  cycle : Nat
  m : Mirror
deriving DecidableEq, Repr

/-- A TRANS or COND entry that waits for acknowledgement: CYCLE of the first mirror that carried it (none while it is
deferred), order in which the entries of both types arose, the entry. -/
structure Unacked (α : Type) where
  first : Option Nat
  born : Nat
  e : α
deriving DecidableEq, Repr

/-- The redundancy unit and the partner link. Cycle numbers are full numbers. -/
structure RduSt where
  /-- Last verified lease record of the partner; elapsed time at which the partner last showed ACTIVE, and of the last
  link-down (zero: reset). -/
  partner : Option LeaseRec := none
  lastActive : Nat := 0
  linkDownAt : Nat := 0
  /-- TBU count at which the lease last came or went. -/
  leaseAt : Nat := 0
  /-- Partner frames in a row that verified, and that did not. -/
  pOk : Nat := 0
  pBad : Nat := 0
  /-- Elapsed time at which the last one verified. -/
  pOkAt : Nat := 0
  /-- Elapsed time since which the partner has been READY in STANDBY. -/
  readySince : Option Nat := none
  /-- Mirrors in time in a row; SMs whose key has been applied since the link came up (R279). -/
  mirOk : Nat := 0
  swept : Sparse Bool := []
  /-- CYCLEs of verified frames that renew (R284), newest first. -/
  renewals : List Nat := []
  silent : Nat := 0
  /-- Control is given up at the next send point (R288); the unit returns to INIT there (R9). -/
  giveUp : Bool := false
  backToInit : Bool := false
  /-- First cycle start at which this unit sends down frames as holder. -/
  sendFrom : Nat := 0
  /-- The first computation after a cold takeover commands RUN = 0 (R286). -/
  coldStop : Bool := false
  /-- Computations left under R294. -/
  extLeft : Nat := 0
  mirIn : List MirIn := []
  /-- Mirrored keys by SM address (VCAP units), CYCLE of the last mirror applied. -/
  keys : Sparse (Option (BitVec 16)) := []
  mirAck : BitVec 32 := 0
  outTrans : List (Unacked TransRec) := []
  outCond : List (Unacked CondRec) := []
  bornNext : Nat := 0
  /-- TRANS entries of the last mirror applied (an entry that a later mirror repeats is applied once). -/
  mirTrans : List TransRec := []
  /-- Position of the next KEYS record in the sweep of configured addresses. -/
  keyPos : Nat := 0
  /-- Rings that the partner relays for this holder, in order of admission; CYCLE of the last lease record with a direct tail. -/
  relays : List Nat := []
  direct : Sparse (Option Nat) := []
  /-- FENCE reports: cycle, one bit per ring. -/
  fenceCyc : Nat := 0
  fenceRings : BitVec 64 := 0
  /-- N of the accepted Equinox request. -/
  eqxN : Option Nat := none
  /-- Last partner frame sent: lease record, mirror, and the blocks that carry them (R281). -/
  txFrame : Option (LeaseRec × Option Mirror) := none
  txBlocks : List Blk := []
  /-- Relayed down frames handed to the partner link at the last send: ring, blocks. Frames that arrived at relayed
  ports since then, for the lease holder, with the port's stamps of the round that a TSTAMP frame measures (departure, arrival). -/
  txRelay : List (Nat × List Blk) := []
  txFwd : List (Nat × List Blk × Option (Nat × Nat)) := []
  /-- The last cycle judged (R100). -/
  judged : Option Nat := none
deriving DecidableEq, Repr

/-! ## Safety (chapter 11) -/

/-- A monitored channel before and during SAFE STOP (R266): words as (elapsed time, |x| x 2^149), I0 in the same unit,
elapsed time since which |x| is within TOL. -/
structure Mon where
  words : List (Nat × Nat) := []
  i0 : Nat := 0
  inTol : Option Nat := none
deriving DecidableEq, Repr

/-- The safety interface: SCP, HBL and their shared output stage. -/
structure SfiSt where
  /-- Filtered channels, active = true. -/
  aAct : BitVec 8 := 0
  bAct : BitVec 8 := 0
  disc : BitVec 8 := 0
  /-- Elapsed time since which the channels of a pair differ. -/
  differ : Sparse (Option Nat) := []
  /-- Elapsed time of the SAFE STOP order. -/
  stopAt : Nat := 0
  mons : Sparse Mon := []
  /-- Orders for the partner, sent with the next partner frame (R271). -/
  sendStop : Bool := false
  sendBlock : Bool := false
  /-- The safety section of the active image has verified (R259). -/
  verified : Bool := false
  /-- SFI_SINp_CFG as the HBL last loaded it since VSAF rose; the HBL's own. -/
  hblPar : Sparse (BitVec 32) := []
  /-- T_stop_max in us as the HBL last loaded it; the HBL orders SAFE BLOCK (R256); elapsed time at which its own T_stop_max timer
  started (R264). -/
  hblTstop : Nat := 200000
  hblOrder : Bool := false
  hblStop : Option Nat := none
  /-- Elapsed time of the last change of a filtered channel, pair x 2 + channel (R260). -/
  sinAt : Sparse (Option Nat) := []
  d9Lost : Bool := false
  d3Lost : Bool := false
  hblIdle : Bool := false
  linkDown64 : Bool := false
  /-- The SCP restarts after a live update of the safety section (Table 17.6). -/
  scpRestart : Bool := false
deriving DecidableEq, Repr

/-! ## Control cycle (chapter 2) -/

/-- The computation of the sample of t_k: its scheduled P0 release, the actual one once P0 is released, the phases released
and completed so far (phase n is released when n < `rel`, complete when n < `done`), whether P7 completed in time. -/
structure Comp where
  k : Nat
  p0 : Nat
  p0At : Option Nat := none
  rel : Nat := 0
  done : Nat := 0
  /-- Phase-late events recorded for phases below this number. -/
  late : Nat := 0
  /-- The send point of the computation has passed; it was an overrun. -/
  sent : Bool := false
  ovr : Bool := false
  /-- A descriptor was discarded for masking: treated as an overrun (R206). -/
  masked : Bool := false
  /-- The arms' model has been booked for it (R41, R292). -/
  booked : Bool := false
  /-- TBU count of the last completion of a phase (R413). -/
  doneAt : Nat := 0
deriving DecidableEq, Repr

/-- Cycle timing: last cycle started, computations in flight (oldest first), the down frame decided at the last send
point (cycle whose edges it carries, overrun), command slots last committed by SM address; the period in force in steps of 8 ns,
which TDS_CYC_TC shows from an image on (R32); first cycle after a change of Tc whose frame does not command BLOCK (R32), first
instant at which cycles run again after such a change. -/
structure CycSt where
  started : Nat := 0
  comps : List Comp := []
  frame : Option (Nat × Bool) := none
  slots : Sparse (BitVec 64) := []
  tcSteps : Nat := 0xFA
  blockTill : Nat := 0
  resume : Nat := 0
  /-- Instant of the last image switch: P0 is released there whatever P0_OFS the new image gives (R377). -/
  switchAt : Option Nat := none
deriving DecidableEq, Repr

/-! ## MDU (chapter 6) -/

/-- One SM in the MDU's model: state code, cause of Table 6.1 (1 at reset), frozen, eligible; ns since its last transition
at the end of the last commanded cycle (saturating); tokens; whether its last bypass state was BYPASS (R154); key
(fp32 volts); STATUS and cycle of its last VALID report; consecutive stale cycles; consecutive clean reports (R139); the
commanded cycle in which it last left BLOCK; the SM-map entry that held when cause 6 was found; a restatement of R159 that
waits; transitions commanded, by cycle, newest first, whether the cycle restated it and the LATE_OK_EN it was commanded with; the cause and FROZEN flag that the
mirror gave. -/
structure SmRec where
  st : Nat := 0
  cause : Nat := 1
  frozen : Bool := false
  elig : Bool := false
  since : Nat := 131071
  tokens : Nat := 0
  alt : Bool := false
  key : BitVec 32 := 0
  status : Option (BitVec 16) := none
  repK : Nat := 0
  stale : Nat := 0
  clean : Nat := 0
  unblock : Nat := 0
  bypSm : BitVec 64 := 0
  restate : Bool := false
  hist : List (Nat × Nat × Bool × Bool) := []
  mirCause : Nat := 0
  mirFrozen : Bool := false
deriving DecidableEq, Repr

/-- One arm: u0 (fp32), A (binary64), n0, whether σ is -1, RUN in the last committed computation, last committed arm edge
(ns from t_j of the last commanded cycle, direction), committed order of the ranker, EMPTY at the last P0 release, ranker
done in the running computation. -/
structure ArmSt where
  u0 : BitVec 32 := 0
  acc : BitVec 64 := 0
  n0 : Int := 0
  neg : Bool := false
  run : Bool := false
  edge : Option (Int × Int) := none
  order : List Nat := []
  wasEmpty : Bool := false
  rankDone : Bool := false
deriving DecidableEq, Repr

/-- Parameters of an arm as the computation took them at its P0 release (R137). -/
structure ArmPar where
  run : Bool := false
  neg : Bool := false
  alt : Bool := false
  lateOk : Bool := false
  oosBlock : Bool := false
  swapMax : Nat := 0
  isig : Nat := 0
  idb : Nat := 0
  dwell : Nat := 0
  pulse : Nat := 0
  cap : Nat := 0
  refill : Nat := 0
  swapT : Nat := 0
  hyst : BitVec 32 := 0
  accLim : BitVec 32 := 0
deriving DecidableEq, Repr

/-- What a computation does with an arm: nothing commanded, arm stopped, arm started, arm running, no SM left (R165), mean
key zero (R165). -/
inductive ArmMode where
  | off | stop | start | run | empty | zero
deriving DecidableEq, Repr

/-- An SM while a computation works on it: full-bridge, record, state at the start of the commanded cycle, instant of its
transition of this cycle, instant of a restatement (R159). -/
structure Work where
  a : Nat
  fb : Bool
  r : SmRec
  st0 : Nat
  mv : Option Nat := none
  re : Option Nat := none
deriving DecidableEq, Repr

/-- The plan of an arm in the running computation: parameters (P0), then mode, u0 and u1, mean key, σ, edges (P5), then SMs,
order, last arm edge (P6). -/
structure ArmPlan where
  par : ArmPar := {}
  mode : ArmMode := .off
  u0 : BitVec 32 := 0
  u1 : BitVec 32 := 0
  vbar : BitVec 64 := 0
  neg : Bool := false
  clip : Bool := false
  edges : List (Nat × Int) := []
  startL : Int := 0
  work : List Work := []
  order : List Nat := []
  edge : Option (Int × Int) := none
deriving DecidableEq, Repr

/-- An entry of the auxiliary queue (R160): address, CMDX, commanded cycle of the first frame that carried a BYPASS_SW. -/
structure AuxEnt where
  a : Nat
  cmdx : Nat
  first : Option Nat := none
deriving DecidableEq, Repr

/-- The MDU. -/
structure MduSt where
  sms : Sparse SmRec := []
  arms : Sparse ArmSt := []
  plans : Sparse ArmPlan := []
  aux : List AuxEnt := []
  /-- STALE_LIM and SWCHK_EN as the computation took them. -/
  staleLim : Nat := 4
  swchk : Bool := true
deriving DecidableEq, Repr

/-! ## CLU (chapter 7) -/

/-- The active copy of a slot's class C words (Table 7.5); the registers hold the shadow copy. -/
structure CluDesc where
  ctl : BitVec 32 := 0x880
  sel : BitVec 32 := 0
  sel2 : BitVec 32 := 0
  rup : BitVec 32 := 0x7F800000
  rdn : BitVec 32 := 0x7F800000
  kp : BitVec 32 := 0
  ki : BitVec 32 := 0
  kd : BitVec 32 := 0
  tf : BitVec 32 := 0
  kb : BitVec 32 := 0
  kff : BitVec 32 := 0
  omin : BitVec 32 := 0xFF800000
  omax : BitVec 32 := 0x7F800000
  nf0 : BitVec 32 := 0
  ndepth : BitVec 32 := 0x3F800000
  nbw : BitVec 32 := 0
  feThr : BitVec 32 := 0x7F800000
deriving DecidableEq, Repr

/-- One slot beside its registers: active descriptor, MODE fields and class N words in effect, states that no register
shows (r, I, e1, y, w stand in CLU_SLOTs_R, _I, _E, _Y, _W), whether FOLLOW_ERR detection is armed, pending host actions:
a commit, a write of SP, a preset, a scheduled step (cycle, late). -/
structure CluSlot where
  d : CluDesc := {}
  man : Bool := true
  manTrack : Bool := true
  spTrack : Bool := false
  sp : BitVec 32 := 0
  manOut : BitVec 32 := 0
  d1 : BitVec 32 := 0
  v1 : BitVec 32 := 0
  q1 : BitVec 32 := 0
  q2 : BitVec 32 := 0
  qn1 : BitVec 32 := 0
  qn2 : BitVec 32 := 0
  feArmed : Bool := true
  commit : Bool := false
  spPend : Bool := false
  preset : Bool := false
  sch : Option (Nat × Bool) := none
deriving DecidableEq, Repr

/-- The CLU: slots; whether the override of R265 is in force. -/
structure CluSt where
  slots : Sparse CluSlot := []
  override : Bool := false
deriving DecidableEq, Repr

/-! ## Signal engines and dispatch (chapter 8) -/

/-- An instruction of Table 8.2 in the fields of Table 8.1; the immediate or offset sign-extended. -/
structure SeIns where
  p : Bool := false
  op : Nat
  d : Nat := 0
  a : Nat := 0
  b : Nat := 0
  c : Nat := 0
  imm : BitVec 32 := 0
deriving DecidableEq, Repr

/-- An instruction on its way through an engine: what the memory that it reaches shows (R349). -/
structure SeCmd where
  i : SeIns
  err : EccErr := .ok
deriving DecidableEq, Repr

/-- What an outstanding operation is (R193). -/
inductive OutKind where
  | lds | sts | ldc | stc
deriving DecidableEq, Repr

/-- An outstanding operation: signal-map index or byte offset in the cluster bank, physical destination registers, value
stored. -/
structure Outst where
  kind : OutKind
  addr : Nat
  dst : List Nat := []
  val : BitVec 64 := 0
  err : EccErr := .ok
deriving DecidableEq, Repr

/-- A running task: descriptor, elapsed time of its start, whether its BOUND excess is recorded. -/
structure Run where
  desc : BitVec 64
  at' : Nat
  exc : Bool := false
deriving DecidableEq, Repr

/-- A signal engine: physical registers, LC, ROT, DLX, index of the next instruction, instructions that wait (for
outstanding operations, or the first of a pair for the second), outstanding operations (oldest first), the running
task, whether it has ended or failed, prefetch slots, ns of tasks run in this computation. -/
structure Eng where
  v : Sparse (BitVec 32) := []
  lc : BitVec 32 := 0
  rot : Nat := 0
  dlx : BitVec 32 := 0
  pc : Nat := 0
  waiting : List SeCmd := []
  out : List Outst := []
  run : Option Run := none
  ended : Bool := false
  failed : Bool := false
  pre : List (BitVec 64) := []
  busy : Nat := 0
deriving DecidableEq, Repr

/-- Engines and the TDS: program slots (word at engine x 16,384 + slot x 8,192 + index), task table and shadow entries (an
entry not listed is the active one), ready queues (in order of arrival), entries spawned in this computation, cycle of the
computation, no further dispatch in it after an overrun, host mask in force, clusters to unmask at the next P0 release,
pending swaps (cycle, late). -/
structure TdsSt where
  eng : Sparse Eng := []
  prog : Sparse (BitVec 32) := []
  tt : Sparse (BitVec 192) := []
  shadow : Sparse (Option (BitVec 192)) := []
  queue : List (BitVec 64) := []
  spawned : List Nat := []
  k : Nat := 0
  closed : Bool := false
  hostMask : BitVec 32 := 0
  admitted : BitVec 8 := 0
  swap : Sparse (Option (Nat × Bool)) := []
  /-- Position that the arbiter of a cluster granted last, by cluster x 16 + sub-bank (R14, R352). -/
  rr : Sparse Nat := []
deriving DecidableEq, Repr

/-! ## MSU (chapter 9) -/

/-- A result: word of Table 9.3, elapsed time of its completion, its stamp (for a SAR the sampling instant). -/
structure MsuRes where
  word : BitVec 32
  at' : Nat
  stamp : Nat
deriving DecidableEq, Repr

/-- A delta-sigma filter: configuration word in force, instant at which a change of it was written, SETTLING words left, loss of
the pin and words since without a long run, latest results (newest first), elapsed time of its last word instant, whether its external
clock in force is D4/4. -/
structure DsCh where
  eff : BitVec 32 := 0
  chg : Option Nat := none
  settle : Nat := 0
  lost : Bool := false
  good : Nat := 0
  res : List MsuRes := []
  last : Option Nat := none
  div4 : Bool := false
deriving DecidableEq, Repr

/-- A conversion in progress: input, start (elapsed time and stamp), position in the sequence (none: urgent), whether the host
asked for the urgent one, whether a trigger started it at an idle SAR. -/
structure SarConv where
  input : Nat
  at' : Nat
  stamp : Nat
  pos : Option Nat
  host : Bool := false
  idle : Bool := false
deriving DecidableEq, Repr

/-- A SAR: conversion in progress, whether a sequence starts after it. -/
structure SarSt where
  conv : Option SarConv := none
  start : Bool := false
deriving DecidableEq, Repr

/-- A sample of a stream: elapsed time of its arrival, its time (R223), values with their validity (R226). -/
structure SvSample where
  at' : Nat
  time : Nat
  vals : List (BitVec 32 × Bool)
deriving DecidableEq, Repr

/-- A sampled-value stream: last smpCnt, PTP second of its last wrap, elapsed time of the last sample or of its start, latest
samples (newest first). -/
structure SvSt where
  cnt : Option Nat := none
  sec : Nat := 0
  since : Nat := 0
  samples : List SvSample := []
deriving DecidableEq, Repr

/-- The MSU: filters (0 to 11 on-chip, 12 to 19 external), SARs, latest SAR results by channel, streams, edges of the pulse
inputs (elapsed time, rising; newest first), start of a self-calibration with the outputs that it measures and the on-chip channels that
it has done, channel and start of a recalibration. -/
structure MsuSt where
  ds : Sparse DsCh := []
  sar : Sparse SarSt := []
  sarRes : Sparse (List MsuRes) := []
  sv : Sparse SvSt := []
  psi : Sparse (List (Nat × Bool)) := []
  cal : Option Nat := none
  calRaws : List (Int × Int) := []
  calDone : Nat := 0
  recal : Option (Nat × Nat) := none
deriving DecidableEq, Repr

/-! ## TBU (chapter 10) -/

/-- Qualification of a time source: consecutive offsets (up to 4), elapsed time of the last. -/
structure TimeSrc where
  n : Nat := 0
  last : Nat := 0
deriving DecidableEq, Repr

/-- A queued action of a timed output: instant, level, executed late. -/
structure TsoAct where
  at' : Nat
  level : Bool
  late : Bool
deriving DecidableEq, Repr

/-- A timed output: queue (oldest first), level that the last action or edge drove, grid of PERIODIC mode (START, PERIOD,
HIGH). -/
structure TsoSt where
  queue : List TsoAct := []
  level : Option Bool := none
  grid : Option (Nat × Nat × Nat) := none
deriving DecidableEq, Repr

/-- The TBU: source in use (codes of ACT_SRC) and qualification of each, rate reached at elapsed time `rateAt` and the rate it
moves toward (2^-40 units), integrator (sum of offsets, 1/16 ns), consecutive offsets within LOCK_THR, step that waits for
the next cycle start (1/16 ns), last offset from the partner, last edge of PPS_IN and whether its absence has been reported,
level and start of the PPS_OUT pulse, stamps of the TSI inputs (oldest first; stamp, falling), timed outputs. -/
structure TbuSt where
  sel : Nat := 0
  src : Sparse TimeSrc := []
  rate : Int := 0
  rateAt : Nat := 0
  target : Int := 0
  acc : Int := 0
  lockN : Nat := 0
  step : Option Int := none
  lastPartner : Option Int := none
  lastPps : Nat := 0
  ppsMissing : Bool := false
  ppsOut : Option Nat := none
  tsi : Sparse (List (Nat × Bool)) := []
  tso : Sparse TsoSt := []
deriving DecidableEq, Repr

/-! ## SPU (chapter 10) -/

/-- An entry of a duplicate table: source address, sequence number, elapsed time of its frame. -/
structure DupEnt where
  sa : BitVec 48
  seq : BitVec 16
  at' : Nat
deriving DecidableEq, Repr

/-- What a port transmitter sends: the head of a transmit ring, or a frame being forwarded. -/
inductive TxSrc where
  | ring (q : Nat) | fwd
deriving DecidableEq, Repr

/-- A frame that left a port: buffer bytes or forwarded bytes, inserted tag (VID, PCP), sequence number and LAN identifier of
its PRP trailer or HSR tag, LSDU size in that trailer, time that one-step operation wrote into it. -/
structure StTx where
  bytes : List Byte
  tag : Option (BitVec 12 × BitVec 3) := none
  red : Option (BitVec 16 × BitVec 4) := none
  lsdu : Option Nat := none
  oneStep : Option Nat := none
  forwarded : Bool := false
deriving DecidableEq, Repr

/-- A station port: frame in transmission, HSR frames to forward with the elapsed time of their arrival, last frame sent, elapsed time
of the last frame received. -/
structure StPort where
  cur : Option TxSrc := none
  fwd : List (StFrame × Nat) := []
  last : Option StTx := none
  rx : Nat := 0
deriving DecidableEq, Repr

/-- A transmit ring: running (not stopped by a descriptor with OWN = 0), sequence number given to its head descriptor, times
at which that frame left port 2p and port 2p + 1. -/
structure TxRing where
  active : Bool := false
  seq : Option (BitVec 16) := none
  tsA : Option Nat := none
  tsB : Option Nat := none
deriving DecidableEq, Repr

/-- The SPU: duplicate tables (oldest first), next sequence numbers, ports, transmit rings (pair x 4 + ring), receive rings
running (pair x 4 + ring). -/
structure SpuSt where
  dup : Sparse (List DupEnt) := []
  seq : Sparse (BitVec 16) := []
  ports : Sparse StPort := []
  tx : Sparse TxRing := []
  rx : Sparse Bool := []
deriving DecidableEq, Repr

/-! ## APW (chapter 15) -/

/-- An APW channel beside its registers. Instants count elapsed time: in ns for the running period (its beginning and length)
and the first boundary after EN, in quarter ns for pin edges. `high`: demanded high time of the running period in quarter
ns. Elapsed time of the write of EN, of staged writes that wait, and of the last clear of UPDLK; a PHASE that came too late for the
boundary at which PERIOD went over. Force in effect and force that waits for a boundary (codes of R347). Pair that the pins are to
reach, the last falling edges, and the instants from which the pair drives a pin high. -/
structure ApwCh where
  run : Option (Nat × Nat) := none
  first : Option Nat := none
  enAt : Nat := 0
  phase : Nat := 0
  high : Nat := 0
  wPeriod : Option Nat := none
  wPhase : Option Nat := none
  wDuty : Option Nat := none
  unlock : Option Nat := none
  phaseDue : Bool := false
  force : Nat := 0
  wait : Option Nat := none
  wantH : Bool := false
  wantL : Bool := false
  hFall : Nat := 0
  lFall : Nat := 0
  hRise : Nat := 0
  lRise : Nat := 0
deriving DecidableEq, Repr

/-- The APW: channels, filtered levels of the trip inputs and elapsed time of the last change of each, level of APW_FLT_N low, lease as
of the last cycle boundary. -/
structure ApwSt where
  ch : Sparse ApwCh := []
  trip : BitVec 8 := 0xFF
  tripAt : Sparse (Option Nat) := []
  fltLow : Bool := false
  lease : Bool := false
deriving DecidableEq, Repr

/-! ## CFC (chapter 17) -/

/-- The configuration controller beside its registers: accepted switch that waits for its instant (cycle, late), final status
of a switch whose activation word is still to be written, whether a partial image waits for the next P0 release, whether
the unit's bring-up after a life-cycle change is still to come. -/
structure CfcSt where
  pend : Option (Nat × Bool) := none
  act : Option (BitVec 8) := none
  live : Bool := false
deriving DecidableEq, Repr

/-! ## The whole machine -/

/-- The state of the unit. -/
structure State where
  /-- Commands that wait, first in, first out. -/
  pending : List Instr := []
  /-- Count of the time base: TAI ns (R242). -/
  now : Nat := 0
  /-- Elapsed time in ns since the model's reset: what timers count; a time step does not change it. -/
  mono : Nat := 0
  /-- Next free value (the model's own field; log entry 4). -/
  freeCtr : Nat := 0
  regs : Sparse (BitVec 32) := []
  /-- Bytes of the 40-bit address space other than registers, signal map and report table. -/
  mem : List Host.Cell := []
  evr : EvrSt := {}
  fco : FcoSt := {}
  drc : DrcSt := {}
  aon : AonSt := {}
  memu : MemSt := {}
  hcp : HcpSt := {}
  sys : SysSt := {}
  lanes : Sparse Lane := []
  ltx : Sparse LaneTx := []
  ports : Sparse Port := []
  /-- Report table: bank x 4,096 + SM address (R34). -/
  reports : Sparse (Option Report) := []
  rdu : RduSt := {}
  cyc : CycSt := {}
  /-- Signal map: values that consumers see; values written in the running phase (R22). -/
  sig : Sparse (BitVec 32) := []
  sigNext : Sparse (Option (BitVec 32)) := []
  /-- Host writes to the map that wait for the next P0 barrier (Table 1.5). -/
  sigHost : Sparse (Option (BitVec 32)) := []
  /-- Entries whose word in the DPRAM is uncorrectable (R349). -/
  sigUnc : Sparse Bool := []
  mdu : MduSt := {}
  cfg : CfgSt := {}
  clu : CluSt := {}
  tds : TdsSt := {}
  msu : MsuSt := {}
  sfi : SfiSt := {}
  tbu : TbuSt := {}
  spu : SpuSt := {}
  apw : ApwSt := {}
  cfc : CfcSt := {}
deriving DecidableEq, Repr

/-- The machine right after a power-on reset: every memory as wiped or erased, and every register at its reset value but for what an
invalid calendar leaves at the start (R244): CAL_INV, and source 252 pending. -/
def State.reset : State :=
  { regs := [(R.TBU_STAT, 0x88000000), (R.INT_PEND 7, 0x10000000), (R.INT_SRC_CFG 252, 0x120)] }

/-- No command ends in a fault: the spec describes every error of the unit as an effect on its state. -/
inductive Fault where
deriving DecidableEq, Repr

/-- Why a command has no meaning. -/
inductive Refusal where
  /-- Raised by the dispatch for a row that has no meaning yet: safe, it only stops the run. -/
  | notModelled (mnemonic : String)
deriving DecidableEq, Repr

end Sys2Proof.Machine
end

