-- ==== Sys2Proof/Machine/Ops.lean ====
section
/-! DEFINITION. The named operations on the state that every unit shares: time, registers and their fields, memory
bytes and words, free values, source events (R24), fault messages on their way to the FCO, AON events, privilege. -/

namespace Sys2Proof.Machine

/-! ## Time -/

/-- The state when the time base reads `t`: timers advance by the difference, never backward (log entry 2). -/
def State.tick (s : State) (t : Nat) : State := { s with mono := s.mono + (t - s.now), now := t }

/-! ## Registers -/

/-- The register at offset `a` from 0x03_0000_0000. -/
def State.rd (s : State) (a : Nat) : BitVec 32 := spGet (resetOf a) s.regs a

/-- Give the register at offset `a` the value `v`, whatever its access type. -/
def State.wr (s : State) (a : Nat) (v : BitVec 32) : State := { s with regs := spSet (resetOf a) s.regs a v }

/-- The bits of field `f` in word `v`. -/
def RF.get (f : RF) (v : BitVec 32) : Nat := v.toNat / 2 ^ f.lo % 2 ^ f.w

/-- Word `v` with field `f` replaced by the low bits of `x`. -/
def RF.put (f : RF) (v : BitVec 32) (x : Nat) : BitVec 32 :=
  let mask : BitVec 32 := BitVec.ofNat 32 ((2 ^ f.w - 1) * 2 ^ f.lo)
  (v &&& ~~~mask) ||| (BitVec.ofNat 32 (x % 2 ^ f.w) <<< f.lo)

/-- A field's value. -/
def State.fld (s : State) (f : RF) : Nat := f.get (s.rd f.addr)

/-- A one-bit field, or whether a field is nonzero. -/
def State.bit (s : State) (f : RF) : Bool := s.fld f != 0

/-- Set a field to the low bits of `x`. -/
def State.setFld (s : State) (f : RF) (x : Nat) : State := s.wr f.addr (f.put (s.rd f.addr) x)

/-- Set a one-bit field. -/
def State.setBit (s : State) (f : RF) (b : Bool) : State := s.setFld f (if b then 1 else 0)

/-- Add to a saturating counter field. -/
def State.addFld (s : State) (f : RF) (n : Nat) : State := s.setFld f (min (s.fld f + n) (2 ^ f.w - 1))

/-- Increment a saturating counter field. -/
def State.inc (s : State) (f : RF) : State := s.addFld f 1

/-- Bit `b` of a field that holds one bit for each of several things. -/
def State.fbit (s : State) (f : RF) (b : Nat) : Bool := (s.fld f).testBit b

/-- Set or clear bit `b` of such a field. -/
def State.setFbit (s : State) (f : RF) (b : Nat) (v : Bool) : State :=
  let x := s.fld f
  s.setFld f (if v then x ||| 2 ^ b else if x.testBit b then x - 2 ^ b else x)

/-- A 64-bit value held in a pair of registers, low word first. -/
def State.fld64 (s : State) (lo hi : RF) : Nat := s.fld lo + s.fld hi * 2 ^ 32

def State.setFld64 (s : State) (lo hi : RF) (x : Nat) : State := (s.setFld lo (x % 2 ^ 32)).setFld hi (x / 2 ^ 32)

/-! ## Free values -/

/-- The next free 32-bit value, and the state after it is taken. -/
def State.free32 (s : State) : BitVec 32 × State := (Config.free32 s.freeCtr, { s with freeCtr := s.freeCtr + 1 })

def State.free64 (s : State) : BitVec 64 × State := (Config.free64 s.freeCtr, { s with freeCtr := s.freeCtr + 1 })

def State.freeNat (s : State) : Nat × State := (Config.freeNat s.freeCtr, { s with freeCtr := s.freeCtr + 1 })

def State.freeBool (s : State) : Bool × State := (Config.freeBool s.freeCtr, { s with freeCtr := s.freeCtr + 1 })

/-! ## Memory (Tables 16.1 and 17.8) -/

/-- Base of the registers in the 40-bit address space. -/
def regBase : Nat := 0x0300000000
def tileBase (t : Nat) : Nat := 0x0200000000 + t * 0x40000
def bankBase (c : Nat) : Nat := 0x0201000000 + c * 0x200000
def dpramBase : Nat := 0x0202000000
def secBase : Nat := 0x0203000000
def nvBase : Nat := 0x0204000000
def nvEnd : Nat := 0x0206000000
/-- Configuration slot `i` in NV (Table 16.5) and its activation word (R373). -/
def slotBase (i : Nat) : Nat := nvBase + i * 0xC00000
def actWord (i : Nat) : Nat := slotBase i + 0xC00000 - 0x1000
/-- The image staging buffer in the record store. -/
def stagingBase : Nat := 0x01FF000000

/-- What a byte of memory that nothing has written reads as: zero after a wipe (R364), 0xFF in erased NV. -/
def memDefault (a : Nat) : Byte := if nvBase ≤ a ∧ a < nvEnd then 0xFF else 0

/-- The byte at address `a`. -/
def State.mb (s : State) (a : Nat) : Byte := spGet (memDefault a) s.mem a

/-- Write one byte. -/
def State.setMb (s : State) (a : Nat) (v : Byte) : State := { s with mem := spSet (memDefault a) s.mem a v }

/-- The `n` bytes from address `a`, as a little-endian number. -/
def State.mleFrom (s : State) : Nat → Nat → Nat
  | _, 0 => 0
  | a, n + 1 => (s.mb a).toNat + 256 * s.mleFrom (a + 1) n

/-- Write the `n` low bytes of `v` from address `a`, little-endian. -/
def State.setMle (s : State) : Nat → Nat → Nat → State
  | _, 0, _ => s
  | a, n + 1, v => (s.setMb a (BitVec.ofNat 8 v)).setMle (a + 1) n (v / 256)

/-- The 32-bit word at address `a`. -/
def State.mw (s : State) (a : Nat) : BitVec 32 := BitVec.ofNat 32 (s.mleFrom a 4)

def State.setMw (s : State) (a : Nat) (v : BitVec 32) : State := s.setMle a 4 v.toNat

def State.md (s : State) (a : Nat) : BitVec 64 := BitVec.ofNat 64 (s.mleFrom a 8)

def State.setMd (s : State) (a : Nat) (v : BitVec 64) : State := s.setMle a 8 v.toNat

/-- The `n` bytes from address `a` in address order. -/
def State.mbytes (s : State) (a : Nat) : Nat → List Byte
  | 0 => []
  | n + 1 => s.mb a :: s.mbytes (a + 1) n

/-- The listed cells of the bytes `bs` from address `a`: those that differ from what an unlisted address reads as. -/
def cellsOf (a : Nat) : List Byte → List Host.Cell
  | [] => []
  | b :: bs => if b = memDefault a then cellsOf (a + 1) bs else (a, b) :: cellsOf (a + 1) bs

/-- Write a list of bytes from address `a`, in one pass over memory. -/
def State.setMbytes (s : State) (a : Nat) (bs : List Byte) : State :=
  { s with mem := s.mem.filter (fun c => decide (c.1 < a)) ++ cellsOf a bs ++ s.mem.filter (fun c => decide (a + bs.length ≤ c.1)) }

/-- Erase or wipe the addresses from `lo` up to but not including `hi`: every byte reads its default. -/
def State.memWipe (s : State) (lo hi : Nat) : State :=
  { s with mem := s.mem.filter (fun c => decide (c.1 < lo) || decide (hi ≤ c.1)) }

/-! ## Source events (R24) -/

/-- Sources that never become pending, and whose configuration takes no write (R26, R228, R255, R308, R336, R348, R365, and the text
behind Table 7.8). -/
def neverPending (n : Nat) : Bool :=
  n == 71 || n == 118 || n == 119 || (145 ≤ n && n ≤ 147) || (160 ≤ n && n ≤ 163) || (171 ≤ n && n ≤ 175) || n == 199 || n == 203 ||
    (216 ≤ n && n ≤ 223) || n == 238 || n == 239 || n == 254 || n == 255

/-- The unit is ACTIVE: it holds the lease (RDU_STAT.ROLE). -/
def State.leaseHeld (s : State) : Bool := s.fld F.RDU_STAT_ROLE == 2

/-- The unit held the lease at the count `t`. -/
def State.leaseAtTime (s : State) (t : Nat) : Bool := s.leaseHeld != decide (t < s.rdu.leaseAt)

/-- Flags word of a record of the unit (Table 14.2): UNIT, LEASE and the position key. -/
def State.evFlags (s : State) (poskey : Nat) : BitVec 16 :=
  BitVec.ofNat 16 ((if s.sys.uid then 0x800 else 0) + (if s.leaseHeld then 0x400 else 0) + poskey % 256)

/-- Put a record on its way to the EVR. -/
def State.evRecord (s : State) (r : EvRec) : State := { s with evr := { s.evr with inbox := s.evr.inbox ++ [r] } }

/-- An event from source `n` with the value, qualifier and position key of its record: the pending bit sets, CNT counts,
TO_EVR sends a record, TO_MGC notifies the MGC (R24, Table 1.11). -/
def State.raiseWith (s : State) (n : Nat) (v q : BitVec 32) (poskey : Nat) : State :=
  if neverPending n then s else
  let s := (s.setFbit (F.INT_PEND_PEND (n / 32)) (n % 32) true).inc (F.INT_SRC_CFG_CNT n)
  let s := if s.bit (F.INT_SRC_CFG_TO_MGC n) then { s with sys := { s.sys with mgcNotes := s.sys.mgcNotes ++ [n] } } else s
  if s.bit (F.INT_SRC_CFG_TO_EVR n) then
    s.evRecord { time := s.now, code := n, src := n, value := v, qual := q, flags := s.evFlags poskey }
  else s

/-- An event from source `n` at a place (Table 14.2), of whose record the spec lays down neither value nor qualifier: they are free
values. -/
def State.raiseKey (s : State) (n poskey : Nat) : State :=
  let (v, s) := s.free32
  let (q, s) := s.free32
  s.raiseWith n v q poskey

/-- An event that is not bound to a position. -/
def State.raise (s : State) (n : Nat) : State := s.raiseKey n 0xFF

/-- Record `r` as of the time `t` (R134): LEASE is that of the time (Table 14.2). -/
def State.atTime (s : State) (t : Nat) (r : EvRec) : EvRec :=
  { r with time := t, flags := (r.flags &&& 0xFBFF) ||| (if s.leaseAtTime t then 0x400 else 0) }

/-- Run `f` for an observation made at `t`: the records that it sends carry that time (R134). -/
def State.observed (s : State) (t : Nat) (f : State → State) : State :=
  let s' := f s
  let n := s.evr.inbox.length
  { s' with evr := { s'.evr with inbox := s'.evr.inbox.take n ++ (s'.evr.inbox.drop n).map (s'.atTime t) } }

/-- A value that EVR_FROST_TMO takes (Table 14.9). -/
def frostTmoOk (v : BitVec 32) : Bool := let n := F.EVR_FROST_TMO_V.get v; decide (1 ≤ n) && decide (n ≤ 60)

/-- Place of this unit's ring ports: A end or B end (Table 14.2). -/
def State.portKey (s : State) : Nat := if s.sys.uid then 0x41 else 0

/-- Raise where the condition holds. -/
def State.raiseIf (s : State) (c : Bool) (n : Nat) : State := if c then s.raise n else s

/-! ## Fault messages (Table 13.1) -/

/-- A message of the form of Table 13.1. -/
def fmsg (region inst unit kind sev level qual : Nat) : BitVec 64 :=
  BitVec.ofNat 64 (region % 4 * 2 ^ 62 + inst % 64 * 2 ^ 56 + unit % 16 * 2 ^ 52 + kind % 256 * 2 ^ 44 +
    sev % 4 * 2 ^ 42 + level % 4 * 2 ^ 40 + qual % 2 ^ 40)

/-- KIND of a message. -/
def msgKind (m : BitVec 64) : Nat := m.toNat / 2 ^ 44 % 256

/-- QUAL of a message. -/
def msgQual (m : BitVec 64) : Nat := m.toNat % 2 ^ 40

/-- A value that the spec gives, or the next free value. -/
def State.orFree (s : State) : Option Nat → Nat × State
  | some x => (x, s)
  | none => s.freeNat

/-- Send a message to the FCO; it arrives with a later FCO_MESSAGE command (R300). SEV, LEVEL and QUAL are free values where the unit's
chapter gives none. -/
def State.sendMsg (s : State) (region inst unit kind : Nat) (sev level qual : Option Nat) : State :=
  let (sev, s) := s.orFree sev
  let (level, s) := s.orFree level
  let (qual, s) := s.orFree qual
  { s with fco := { s.fco with inFlight := s.fco.inFlight ++ [fmsg region inst unit kind sev level qual] } }

/-- A message whose SEV the spec does not give. -/
def State.sendFco (s : State) (region inst unit kind : Nat) (level qual : Option Nat) : State :=
  s.sendMsg region inst unit kind none level qual

/-- Instance of engine `n`: its cluster and its tile (Table 13.2). -/
def seInst (n : Nat) : Nat := n / 4 * 8 + n % 4

/-! ## Privilege (R389) and reset state -/

/-- A register access by `m` is privileged. -/
def State.priv (s : State) (m : Acc) : Bool := m == Acc.host && s.bit F.SYS_PRIV_OPEN

/-- A privileged access renews the timeout. -/
def State.touchPriv (s : State) : State := { s with hcp := { s.hcp with lastPriv := s.mono } }

/-- The controller die is held in reset: PORST_N is low, a thermal trip or a supply holds it (R397 to R399). -/
def State.held (s : State) : Bool := s.sys.porstLow || s.sys.thermal || !s.sys.rails.isEmpty || s.sys.vsafLost || s.sys.vcoreLost

/-- Run a command's effect at time `t`; a controller die held in reset does nothing. -/
def State.onDie (s : State) (t : Nat) (f : State → State) : State :=
  let s := s.tick t
  if s.held then s else f s

/-- Apply `f` where the condition holds. -/
def State.when (s : State) (c : Bool) (f : State → State) : State := if c then f s else s

/-! ## Plain registers (R3, R5) -/

/-- RWL fields are locked: an image is committed. -/
def State.locked (s : State) : Bool := !s.bit F.CFC_STAT_NOIMG

/-- Word `old` after a write of `v` to a register whose row is `r`. -/
def RRow.write (r : RRow) (locked : Bool) (old v : BitVec 32) : BitVec 32 :=
  r.fields.foldl (fun w f =>
    let m : BitVec 32 := BitVec.ofNat 32 (2 ^ f.w - 1) <<< f.lo
    match f.ty with
    | .rw => (w &&& ~~~m) ||| (v &&& m)
    | .rwl => if locked then w else (w &&& ~~~m) ||| (v &&& m)
    | .w1c => w &&& ~~~(v &&& m)
    | _ => w) old

/-- A write of the plain fields: RW, RWL before an image, W1C. -/
def State.plain (s : State) (a : Nat) (v : BitVec 32) : State :=
  match rowOf a with
  | some r => s.wr a (r.write s.locked (s.rd a) v)
  | none => s

/-- The word of a register as it reads, WO fields zero. -/
def State.plainRead (s : State) (a : Nat) : BitVec 32 :=
  match rowOf a with
  | some r => s.rd a &&& r.fields.foldl (fun w f => if f.ty = .wo then w &&& ~~~(BitVec.ofNat 32 (2 ^ f.w - 1) <<< f.lo : BitVec 32) else w) 0xFFFFFFFF
  | none => 0

end Sys2Proof.Machine
end

