-- ==== Sys2Proof/Machine/Codec.lean ====
section
/-! DEFINITION. Bit and byte codecs that several units share: the CRCs of the spec, byte order. -/

namespace Sys2Proof.Machine

/-- One message bit into a `w`-bit CRC register, most significant bit first. -/
def crcBit (w poly crc : Nat) (b : Bool) : Nat :=
  let c := crc * 2 % 2 ^ w
  if crc.testBit (w - 1) != b then c ^^^ poly else c

/-- One message byte, most significant bit first. -/
def crcByte (w poly crc : Nat) (b : Byte) : Nat :=
  [7, 6, 5, 4, 3, 2, 1, 0].foldl (fun c i => crcBit w poly c (b.getLsbD i)) crc

def crcBytes (w poly init : Nat) (bs : List Byte) : Nat := bs.foldl (crcByte w poly) init

/-- CRC-8 of the host port: polynomial 0x07, initial value 0 (R386). -/
def crc8 (bs : List Byte) : BitVec 8 := BitVec.ofNat 8 (crcBytes 8 0x07 0 bs)

/-- CRC-16 of an event record: polynomial 0x1021, initial value 0xFFFF (R309). -/
def crc16 (bs : List Byte) : BitVec 16 := BitVec.ofNat 16 (crcBytes 16 0x1021 0xFFFF bs)

/-- CRC-32: polynomial 0x04C11DB7, initial value and final exclusive-or 0xFFFF_FFFF, most significant bit first (R96). -/
def crc32 (bs : List Byte) : BitVec 32 := BitVec.ofNat 32 (crcBytes 32 0x04C11DB7 0xFFFFFFFF bs ^^^ 0xFFFFFFFF)

/-- The `n` bytes of `v`, least significant first. -/
def leBytes : Nat → Nat → List Byte
  | 0, _ => []
  | n + 1, v => BitVec.ofNat 8 v :: leBytes n (v / 256)

/-- The `n` bytes of `v`, most significant first. -/
def beBytes (n v : Nat) : List Byte := (leBytes n v).reverse

/-- The number that a byte list spells, least significant byte first. -/
def leNat : List Byte → Nat
  | [] => 0
  | b :: bs => b.toNat + 256 * leNat bs

/-- The number that a byte list spells, most significant byte first. -/
def beNat (bs : List Byte) : Nat := bs.foldl (fun n b => n * 256 + b.toNat) 0

end Sys2Proof.Machine
end

