-- ==== Sys2Proof/Machine/Evr.lean ====
section
/-! DEFINITION. The event recorder (14_recorders.md, R309 to R324): records, rate limiter, ordering stage, buffer, NV log,
reserve, Frost, clear and recovery. -/

namespace Sys2Proof.Machine

/-- The period in force in ns, in steps of 8 ns; TDS_CYC_TC takes effect through an image (R31, R32). -/
def State.tc (s : State) : Nat := s.cyc.tcSteps * 8

/-! ## Records and slots -/

/-- Bytes 0 to 25 of a record (Table 14.1). -/
def EvRec.body (r : EvRec) : List Byte :=
  leBytes 8 r.time ++ leBytes 2 r.code ++ leBytes 2 r.src ++ leBytes 4 r.value.toNat ++ leBytes 4 r.qual.toNat ++
    leBytes 4 r.seq.toNat ++ leBytes 2 r.flags.toNat

/-- The whole record with CRC-16 and valid mark. -/
def EvRec.word (r : EvRec) : BitVec 256 :=
  BitVec.ofNat 256 (leNat (r.body ++ leBytes 2 (crc16 r.body).toNat ++ leBytes 4 (~~~r.seq).toNat))

/-- An erased slot: 0xFF in bytes 0 to 27, zero in bytes 28 to 31 (R310). -/
def logErased : BitVec 256 := BitVec.ofNat 256 (2 ^ 224 - 1)

/-- Sequence word of a slot. -/
def slotSeq (w : BitVec 256) : BitVec 32 := w.extractLsb' 160 32

/-- A slot holds a valid record (R310). -/
def slotValid (w : BitVec 256) : Bool :=
  slotSeq w != 0xFFFFFFFF && w.extractLsb' 224 32 == ~~~(slotSeq w) &&
    w.extractLsb' 208 16 == crc16 (leBytes 26 w.toNat)

def State.slot (s : State) (i : Nat) : BitVec 256 := spGet logErased s.evr.log i

def State.setSlot (s : State) (i : Nat) (w : BitVec 256) : State :=
  { s with evr := { s.evr with log := spSet logErased s.evr.log i w } }

/-- Slot kept for LOG_FULL (R316). -/
def lastSlot : Nat := 131071

/-- The ordering key of R312, most significant first. -/
def EvRec.key (r : EvRec) : List Nat :=
  let ring := decide (r.src < 64)
  [r.time, if ring then 0 else 1, r.src, if ring then r.flags.toNat % 256 else 0, r.code, r.qual.toNat]

def keyLt : List Nat → List Nat → Bool
  | [], [] => false
  | [], _ :: _ => true
  | _ :: _, [] => false
  | a :: as, b :: bs => if a < b then true else if b < a then false else keyLt as bs

/-- Insert a record in ascending key order, after equal keys. -/
def insRec (r : EvRec) : List EvRec → List EvRec
  | [] => [r]
  | x :: xs => if keyLt r.key x.key then r :: x :: xs else x :: insRec r xs

/-! ## Buffer (R314, R318) -/

def State.setBuf (s : State) (b : List BufRec) : State :=
  ({ s with evr := { s.evr with buf := b } } : State).setFld F.EVR_STAT_BUF_DEPTH b.length

def State.reqCommit (s : State) : State := { s with evr := { s.evr with commitReq := true } }

/-- CLASS of kind `k`; the entries of reserved kinds are ignored (R301). -/
def kindDefined (k : Nat) : Bool :=
  [0x01, 0x02, 0x03, 0x04, 0x05, 0x20, 0x21, 0x22, 0x23, 0x24, 0x26, 0x27, 0x40, 0x41, 0x42, 0x60, 0xE0, 0xE1].contains k

def State.fcoClass (s : State) (k : Nat) : Nat := if kindDefined k then s.fld (F.FCO_RT_CLASS k) else 0

/-- CLASS of the fault-message record `r`, none for other records. -/
def State.recClass (s : State) (r : EvRec) : Option Nat :=
  if 0x1000 ≤ r.code ∧ r.code ≤ 0x10FF then some (s.fcoClass (r.code - 0x1000)) else none

/-- A record that finds room; during a power-failure flush every record asks for a commit (R319). -/
def State.bufPut (s : State) (r : EvRec) : State :=
  let s := s.setBuf (s.evr.buf ++ [⟨r, s.mono⟩])
  let c := match s.recClass r with
    | some c => decide (1 ≤ c)
    | none => false
  if c || 1024 ≤ s.evr.buf.length || s.evr.pfail.isSome then s.reqCommit else s

/-- A record leaves the ordering stage for the buffer. In DEGRADED the buffer is a ring (R318); elsewhere a record that
finds 2,048 records is lost, and BUF_LOSS goes ahead of the next one (R314). -/
def State.toBuf (s : State) (r : EvRec) : State :=
  if s.bit F.EVR_STAT_DEGRADED then
    if 2048 ≤ s.evr.buf.length then
      (((s.setBuf (s.evr.buf.drop 1 ++ [⟨r, s.mono⟩])).inc F.EVR_DEG_LOST_CNT_V).setBit F.EVR_STAT_LOSS true).raise 202
    else s.setBuf (s.evr.buf ++ [⟨r, s.mono⟩])
  else
    let s := if s.evr.lossPend != 0 && decide (s.evr.buf.length < 2048) then
        let n := s.evr.lossPend
        ({ s with evr := { s.evr with lossPend := 0 } } : State).bufPut
          { time := s.now, code := 0xF002, src := 202, value := BitVec.ofNat 32 n, qual := 0, flags := s.evFlags 0xFF }
      else s
    if 2048 ≤ s.evr.buf.length then
      (({ s with evr := { s.evr with lossPend := s.evr.lossPend + 1 } } : State).inc F.EVR_BUF_LOST_CNT_V
        |>.setBit F.EVR_STAT_LOSS true).raise 202
    else s.bufPut r

/-! ## Ordering stage (R312) -/

/-- H = 2.5 Tc + 10 us, in ns. -/
def State.evrH (s : State) : Nat := s.tc * 5 / 2 + 10000

/-- Release the smallest record of the stage to the buffer. -/
def State.orderPop (s : State) : State :=
  match s.evr.order with
  | [] => s
  | r :: rs => ({ s with evr := { s.evr with order := rs, lastOut := some r } } : State).toBuf r

/-- A record enters the ordering stage. -/
def State.toOrder (s : State) (r : EvRec) : State :=
  let late := match s.evr.lastOut with
    | some x => keyLt r.key x.key
    | none => false
  if late then s.toBuf { r with flags := r.flags ||| 0x2000 }
  else
    let full := decide (256 ≤ s.evr.order.length)
    let s : State := { s with evr := { s.evr with order := insRec r s.evr.order } }
    if full then (s.inc F.EVR_EARLY_CNT_V).orderPop else s

/-- Release every record whose Time is at least H before the present time. -/
def State.orderDue (s : State) : Nat → State
  | 0 => s
  | n + 1 =>
    match s.evr.order with
    | [] => s
    | r :: _ => if r.time + s.evrH ≤ s.now then (s.orderPop).orderDue n else s

/-- Release the whole stage (R319). -/
def State.orderAll (s : State) : Nat → State
  | 0 => s
  | n + 1 => (s.orderPop).orderAll n

/-! ## Rate limiter (R313) -/

/-- Offset of EVR_RL entry `i`; entry 1,024 stands for the default bucket. -/
def rlAddr (i : Nat) : Nat := if i = 1024 then R.EVR_RL_DEF else R.EVR_RL i
def rlEn (i : Nat) : RF := if i = 1024 then F.EVR_RL_DEF_EN else F.EVR_RL_EN i
def rlBurst (i : Nat) : RF := if i = 1024 then F.EVR_RL_DEF_BURST else F.EVR_RL_BURST i
def rlRate (i : Nat) : RF := if i = 1024 then F.EVR_RL_DEF_RATE_RATE else F.EVR_RL_RATE_RATE i

/-- The bucket of a record with this Code: the first enabled entry whose CODE equals it, else the default bucket. An entry
that holds its reset value is not enabled, so only listed registers need be looked at. -/
def State.bucketOf (s : State) (code : Nat) : Nat :=
  match s.regs.find? (fun c => decide (R.EVR_RL 0 ≤ c.1) && decide (c.1 < R.EVR_RL 1024) &&
      (c.1 - R.EVR_RL 0) % 8 == 0 && c.2.getLsbD 31 && c.2.toNat % 65536 == code) with
  | some c => (c.1 - R.EVR_RL 0) / 8
  | none => 1024

def State.bucket (s : State) (i : Nat) : Bucket := spGet {} s.evr.buckets i

def State.setBucket (s : State) (i : Nat) (b : Bucket) : State :=
  { s with evr := { s.evr with buckets := spSet {} s.evr.buckets i b } }

/-- Bucket `i` with the tokens it has gained up to the present time. -/
def State.bucketNow (s : State) (i : Nat) : Bucket :=
  let b := s.bucket i
  { b with debt := b.debt - s.fld (rlRate i) * (s.mono - b.last), last := s.mono }

/-- The summary record of bucket `i` (R313): UNIT and LEASE are those of the last suppressed record, whose time it bears. -/
def Bucket.summary (i : Nat) (b : Bucket) : EvRec :=
  { time := b.lastT, code := if i = 1024 then 0xF004 else b.lastCode, src := b.lastSrc,
    value := BitVec.ofNat 32 b.supp, qual := BitVec.ofNat 32 b.firstT, flags := 0x80FF ||| (b.lastFlags &&& 0xC00) }

/-- End suppression of bucket `i`, writing its summary, if it suppresses. -/
def State.endSupp (s : State) (i : Nat) (b : Bucket) : State :=
  if b.supp = 0 then s.setBucket i b
  else (s.setBucket i { b with supp := 0 }).toOrder (b.summary i)

/-- Records that bypass the limiter. -/
def State.bypass (s : State) (r : EvRec) : Bool :=
  (176 ≤ r.src && r.src ≤ 183) || (0xF001 ≤ r.code && r.code ≤ 0xF009) ||
    (match s.recClass r with
     | some c => decide (3 ≤ c)
     | none => false)

/-- A record through the limiter. -/
def State.limit (s : State) (r : EvRec) : State :=
  let i := s.bucketOf r.code
  if i = 1024 && !s.bit F.EVR_RL_DEF_EN then s.toOrder r
  else
    let b := s.bucketNow i
    if b.debt + 10 ^ 9 ≤ s.fld (rlBurst i) * 10 ^ 9 then
      (s.endSupp i { b with debt := b.debt + 10 ^ 9 }).toOrder r
    else
      (s.setBucket i { b with supp := b.supp + 1, firstT := if b.supp = 0 then r.time else b.firstT,
                              lastT := r.time, lastSrc := r.src, lastCode := r.code, lastFlags := r.flags }).inc F.EVR_SUPP_CNT_V

/-- A record arrives at the EVR: trigger units of type 4 see it before the limiter (Table 14.6). -/
def State.evrArrive (s : State) (r : EvRec) : State :=
  let s : State := { s with drc := { s.drc with hits := s.drc.hits ++ [⟨4, r.code, r.time⟩] } }
  if s.bypass r then s.toOrder r else s.limit r

/-- The oldest record on its way: from the units, or from the FCO's record queue. -/
def State.evrNext (s : State) : Option (EvRec × State) :=
  let unit : Option (EvRec × State) := match s.evr.inbox with
    | r :: rs => some (r, { s with evr := { s.evr with inbox := rs } })
    | [] => none
  match s.fco.recQ with
  | [] => unit
  | f :: fs =>
    let viaFco : EvRec × State := (f, { s with fco := { s.fco with recQ := fs } })
    match s.evr.inbox with
    | r :: _ => if f.time < r.time then some viaFco else unit
    | [] => some viaFco

/-! ## Reserve (R317, R324) -/

/-- Write an entry to the 16-entry reserve, counting one that finds it full. -/
def State.reservePut (s : State) (code : Nat) (v q : BitVec 32) : State :=
  let n := s.fld F.EVR_RSV_STAT_COUNT
  if 16 ≤ n then s.inc F.EVR_RSV_STAT_RSV_LOST
  else
    let r : EvRec := { time := s.now, code := code, src := 200, value := v, qual := q,
                       seq := s.rd R.EVR_SEQ_NEXT, flags := s.evFlags 0xFF }
    let s := (List.range 8).foldl (fun s w => s.wr (R.EVR_RSV_W n w) (r.word.extractLsb' (32 * w) 32)) s
    (s.setFld F.EVR_RSV_STAT_COUNT (n + 1)).raise 207

/-- A failed read-back of slot `i`, sequence `q` (R317). -/
def State.logMedia (s : State) (i : Nat) (q : BitVec 32) : State :=
  (((s.reservePut 0xF003 (BitVec.ofNat 32 i) q).sendFco 2 0 4 0x40 none (some i)).setBit F.EVR_STAT_DEGRADED true).raise 200

/-! ## Commit (R315, R316) -/

/-- The sequence after `q`: 0xFFFF_FFFF is never assigned. -/
def nextSeq (q : BitVec 32) : BitVec 32 := if q = 0xFFFFFFFE then 0 else q + 1

/-- Store a record at the write pointer under the next sequence number. -/
def State.logPut (s : State) (r : EvRec) : State :=
  let i := s.fld F.EVR_WPTR_V
  let q := s.rd R.EVR_SEQ_NEXT
  let e := s.evr
  let more := e.cutAt == s.mono && e.cutFrom + e.cutN == i
  let s : State := { s with evr := { e with cutAt := s.mono, cutFrom := if more then e.cutFrom else i, cutN := if more then e.cutN + 1 else 1 } }
  ((s.setSlot i ({ r with seq := q } : EvRec).word).wr R.EVR_SEQ_NEXT (nextSeq q)).setFld F.EVR_WPTR_V (i + 1)

/-- The write of record `r` fails its read-back: what the slot holds is a free value, and the record stays in the buffer with the
records `rest` behind it (R317). -/
def State.mediaFail (s : State) (r : EvRec) (rest : List BufRec) : State :=
  let i := s.fld F.EVR_WPTR_V
  let q := s.rd R.EVR_SEQ_NEXT
  let s : State := (s.setSlot i (Config.free128 s.freeCtr ++ Config.free128 (s.freeCtr + 1))).wr R.EVR_SEQ_NEXT (nextSeq q)
  (({ s with freeCtr := s.freeCtr + 2 } : State).setBuf (⟨r, s.mono⟩ :: rest)).logMedia i q

/-- The pointer has reached the slot kept for LOG_FULL (R316). -/
def State.fullDue (s : State) : Bool := s.fld F.EVR_WPTR_V == lastSlot && !s.bit F.EVR_STAT_FULL

def State.fullRec (s : State) : EvRec :=
  { time := s.now, code := 0xF001, src := 201, value := BitVec.ofNat 32 lastSlot, qual := 0, flags := s.evFlags 0xFF }

/-- Write LOG_FULL where it is due. -/
def State.logFullCheck (s : State) : State :=
  if s.fullDue then ((s.logPut s.fullRec).setBit F.EVR_STAT_FULL true).raise 201 else s

/-- A record taken while FULL is discarded and counted. -/
def State.fullLost (s : State) : State := (s.inc F.EVR_FULL_LOST_CNT_V).setBit F.EVR_STAT_LOSS true

/-- PFAIL on a record that the power-fail flush commits. -/
def State.flushed (s : State) (r : EvRec) : EvRec := if s.evr.pfail.isSome then { r with flags := r.flags ||| 0x1000 } else r

/-- Commit the records in order, LOG_FULL where it falls due. The `bad`-th write, counted from 0, fails its read-back: its record and the
rest stay. -/
def State.commitList (s : State) : List BufRec → Option Nat → State
  | [], bad => if s.fullDue && bad == some 0 then s.mediaFail s.fullRec [] else s.logFullCheck.setBuf []
  | r :: rs, bad =>
    if s.fullDue && bad == some 0 then s.mediaFail s.fullRec (r :: rs)
    else
      let bad := if s.fullDue then bad.map (· - 1) else bad
      let s := s.logFullCheck
      if s.bit F.EVR_STAT_FULL then s.fullLost.commitList rs bad
      else if bad == some 0 then s.mediaFail r.ev rs
      else (s.logPut (s.flushed r.ev)).commitList rs (bad.map (· - 1))

/-- A record that the EVR writes itself: to the log, or in DEGRADED to the buffer. -/
def State.evrOwn (s : State) (r : EvRec) (bad : Bool) : State :=
  if s.bit F.EVR_STAT_DEGRADED then s.toBuf r
  else
    let s := s.logFullCheck
    if s.bit F.EVR_STAT_FULL then s.fullLost
    else if bad then s.mediaFail r s.evr.buf
    else (s.logPut r).logFullCheck

/-- Commits may run: after recovery, not in Frost, a clear or DEGRADED. -/
def State.mayCommit (s : State) : Bool :=
  s.evr.recovered && !s.bit F.EVR_STAT_FROZEN && !s.bit F.EVR_STAT_CLEARING && !s.bit F.EVR_STAT_DEGRADED

/-- A commit takes every record present when it starts. -/
def State.commit (s : State) (bad : Option Nat) : State :=
  if s.mayCommit then
    ({ s with evr := { s.evr with commitReq := false } } : State).commitList s.evr.buf bad
  else s

/-! ## Frost (R322) -/

def State.frostOff (s : State) : State :=
  ({ s with evr := { s.evr with frostSince := none } } : State).setBit F.EVR_CTL_FROST false |>.setBit F.EVR_STAT_FROZEN false

def State.frostOn (s : State) : State :=
  if s.evr.frostSince.isSome then s
  else (({ s with evr := { s.evr with frostSince := some s.mono } } : State).setBit F.EVR_CTL_FROST true).setBit F.EVR_STAT_FROZEN true

def State.frostWrite0 (s : State) : State :=
  if s.evr.frostSince.isSome then
    let s := s.frostOff
    if 1024 ≤ s.evr.buf.length then s.reqCommit else s
  else s

/-- Frost has lasted FROST_TMO seconds. -/
def State.frostTimeout (s : State) : State :=
  match s.evr.frostSince with
  | none => s
  | some t0 =>
    if s.mono < t0 + s.fld F.EVR_FROST_TMO_V * 10 ^ 9 then s
    else
      (s.frostOff.evRecord { time := s.now, code := 0xF009, src := 204, value := BitVec.ofNat 32 ((s.mono - t0) / 10 ^ 6),
                             qual := 0, flags := s.evFlags 0xFF }).raise 204

/-! ## Recovery and clear (R320, R323) -/

/-- Index of the first slot from `i` on that is not valid. -/
def State.logScan (s : State) : Nat → Nat → Nat
  | 0, i => i
  | n + 1, i => if slotValid (s.slot i) then s.logScan n (i + 1) else i

/-- A LOG_MEDIA entry stands in the reserve. -/
def State.rsvMedia (s : State) : Bool :=
  (List.range (s.fld F.EVR_RSV_STAT_COUNT)).any (fun e => (s.rd (R.EVR_RSV_W e 2)).toNat % 65536 == 0xF003)

/-- Erase the slots from `lo` to `hi`; an erase that fails its verify at slot `bad` stops, the higher slots erased. -/
def State.logErase (s : State) (lo hi : Nat) (bad : Option Nat) : State :=
  let lo' := match bad with
    | some b => max lo (b + 1)
    | none => lo
  { s with evr := { s.evr with log := s.evr.log.filter (fun c => decide (c.1 < lo') || decide (hi < c.1)) } }

/-- Slots from `lo` to `hi` that are not erased. -/
def State.logUsed (s : State) (lo hi : Nat) : Nat :=
  (s.evr.log.filter (fun c => decide (lo ≤ c.1) && decide (c.1 ≤ hi))).length

/-- Slot `b` fails its erase: only a slot that the erase touches can. -/
def State.badIn (s : State) (lo hi : Nat) : Option Nat → Option Nat
  | some b => if lo ≤ b ∧ b ≤ hi ∧ s.slot b ≠ logErased then some b else none
  | none => none

/-- A reset or a loss of power cuts off what the EVR is writing (R315, R319, R323): how far a clear has erased, how many of the records
have been written whole and how many of the seven words of the next are free values. -/
def State.evrCut (s : State) : State :=
  let s : State := if s.bit F.EVR_STAT_CLEARING then let (m, s) := s.freeNat; s.logErase (m % (lastSlot + 2)) lastSlot none else s
  let e := s.evr
  if s.mono < e.cutAt + 160 * e.cutN then
    let (m, s) := s.freeNat
    let (j, s) := s.freeNat
    if e.cutN ≤ m then s
    else
      let i := e.cutFrom + m
      let w := s.slot i
      let mask : BitVec 256 := BitVec.ofNat 256 (2 ^ (32 * (j % 8)) - 1)
      let s := (s.logErase i (e.cutFrom + e.cutN - 1) none).setSlot i ((w &&& mask) ||| (logErased &&& ~~~mask))
      ({ s with evr := { s.evr with cutN := 0 } } : State).wr R.EVR_SEQ_NEXT (nextSeq (slotSeq w))
  else s

/-- The start scan (R320), which writes START at its end. -/
def State.logRecover (s : State) (fault : LogFault) : State :=
  let s := if s.rsvMedia then (s.setBit F.EVR_STAT_DEGRADED true).raise 200 else s
  let w := s.logScan (s.evr.log.length + 1) 0
  let s := (s.setFld F.EVR_WPTR_V w).setBit F.EVR_STAT_FULL (decide (lastSlot < w))
  let lastSeq : Nat := if w = 0 then 0 else (slotSeq (s.slot (w - 1))).toNat + 1
  let deg := s.bit F.EVR_STAT_DEGRADED
  let bad := if deg then none else s.badIn w (lastSlot - 1) fault.slot
  let badSeq : BitVec 32 := match bad with
    | some b => slotSeq (s.slot b)
    | none => 0
  let n0 := s.logUsed w (lastSlot - 1)
  let s := if deg then s else s.logErase w (lastSlot - 1) bad
  let n := n0 - s.logUsed w (lastSlot - 1)
  let s := s.addFld F.EVR_TORN_CNT_V n
  let s := match bad with
    | some b => s.logMedia b badSeq
    | none => s
  let q := max (s.fld F.EVR_SEQ_NEXT_V) lastSeq
  let s := s.setFld F.EVR_SEQ_NEXT_V (if q % 2 ^ 32 = 0xFFFFFFFF then 0 else q)
  let s : State := { s with evr := { s.evr with recovered := true } }
  let s := s.evrOwn { time := s.now, code := 0xF007, src := 205, value := BitVec.ofNat 32 n,
                      qual := BitVec.ofNat 32 (s.fld F.SYS_RST_CAUSE_V), flags := s.evFlags 0xFF } fault.mark
  if n = 0 then s else s.raise 205

/-- End of a clear (R323), which erases and verifies every slot: true where every write has verified, CLEARED too. -/
def State.logClearEnd (s : State) (fault : LogFault) : Bool × State :=
  let w := s.fld F.EVR_WPTR_V
  let n := s.logUsed 0 lastSlot
  let s' := (s.logErase 0 lastSlot fault.slot).setBit F.EVR_STAT_CLEARING false
  match fault.slot with
  | some b => (false, s'.logMedia b (slotSeq (s.slot b)))
  | none =>
    let s := ((s'.setFld F.EVR_WPTR_V 0).setBit F.EVR_STAT_DEGRADED false).setBit F.EVR_STAT_FULL false
    let s := s.evrOwn { time := s.now, code := 0xF008, src := 206, value := BitVec.ofNat 32 n,
                        qual := BitVec.ofNat 32 w, flags := s.evFlags 0xFF } fault.mark
    if fault.mark then (false, s) else (true, s.raise 206)

/-! ## Power failure (R319) -/

/-- The EVR's part of the flush, which begins when PFAIL_N has been low for 2 us: PFAIL record stamped at the fall, ordering stage released whole, Frost ended, buffer committed. -/
def State.evrFlush (s : State) (bad : Option Nat) : State :=
  let fall := s.now - 2000
  let s : State := { s with evr := { s.evr with pfail := some fall } }
  let r : EvRec := { time := fall, code := 0xF005, src := 248, value := 0, qual := 0, flags := s.evFlags 0xFF }
  let s := s.evrArrive r
  let s := s.orderAll s.evr.order.length
  let s := s.frostOff
  if s.bit F.EVR_STAT_DEGRADED then s.reservePut 0xF006 (BitVec.ofNat 32 s.evr.buf.length) 0
  else s.reqCommit.commit bad

/-! ## The read window (R321) -/

/-- The record that SEL and CUR select. -/
def State.rdSel (s : State) : BitVec 256 :=
  let c := s.fld F.EVR_RD_CTL_CUR
  match s.fld F.EVR_RD_CTL_SEL with
  | 0 => if c ≤ lastSlot then s.slot c else logErased
  | 1 =>
    match s.evr.buf[c]? with
    | some r => ({ r.ev with seq := Config.bufSeq c } : EvRec).word
    | none => logErased
  | _ => logErased

/-- EVR_RDW word `n`. -/
def State.rdw (s : State) (n : Nat) : BitVec 32 := s.rdSel.extractLsb' (32 * n) 32

/-- EVR_RD_STAT. -/
def State.rdStat (s : State) : BitVec 32 :=
  let c := s.fld F.EVR_RD_CTL_CUR
  let sel := s.fld F.EVR_RD_CTL_SEL
  let w := s.rdSel
  let valid := if sel = 1 then decide (c < s.evr.buf.length) else slotValid w
  let ended := if sel = 0 then decide (s.fld F.EVR_WPTR_V ≤ c) else if sel = 1 then decide (s.evr.buf.length ≤ c) else false
  BitVec.ofNat 32 ((if valid then 2 ^ 31 else 0) + (if ended then 2 ^ 30 else 0) + (if w == logErased then 2 ^ 29 else 0))

/-! ## Commands -/

/-- LOG_RECOVERY (R320). -/
def execLogRecovery (t : Nat) (bad : LogFault) (s : State) : Host.Outcome State Fault Refusal :=
  .next (s.onDie t fun s => if s.evr.recovered then s else s.logRecover bad)

/-- A record is still taken: during a power failure those stamped up to PFAIL + 0.8 ms, whenever they arrive (R319). -/
def State.taken (s : State) (r : EvRec) : Bool :=
  s.evr.accepting || (match s.evr.pfail with
    | some t0 => decide (r.time ≤ t0 + 800000)
    | none => true)

/-- EVENT_RECORD_ARRIVAL (R312, R313): the oldest record on its way arrives. -/
def execEventArrival (t : Nat) (s : State) : Host.Outcome State Fault Refusal :=
  .next (s.onDie t fun s =>
    match s.evrNext with
    | none => s
    | some (r, s) => if s.taken r then s.evrArrive r else s)

/-- BUCKET_REFILL (R313): bucket `i`, refilled to BURST, ends its suppression. -/
def execBucketRefill (t : Nat) (i : Fin 1025) (s : State) : Host.Outcome State Fault Refusal :=
  .next (s.onDie t fun s =>
    let b := s.bucketNow i.val
    if b.debt = 0 then s.endSupp i.val b else s)

/-- ORDERING_RELEASE (R312). -/
def execOrderingRelease (t : Nat) (s : State) : Host.Outcome State Fault Refusal :=
  .next (s.onDie t fun s => s.orderDue s.evr.order.length)

/-- COMMIT_TIMEOUT (R314): the oldest buffered record has waited 1 s. -/
def execCommitTimeout (t : Nat) (s : State) : Host.Outcome State Fault Refusal :=
  .next (s.onDie t fun s =>
    match s.evr.buf with
    | [] => s
    | r :: _ => if r.at' + 10 ^ 9 ≤ s.mono then s.reqCommit else s)

/-- EVR_COMMIT (R314, R315): a commit that a trigger has asked for. -/
def execEvrCommit (t : Nat) (bad : Option Nat) (s : State) : Host.Outcome State Fault Refusal :=
  .next (s.onDie t fun s => if s.evr.commitReq then s.commit bad else s)

/-- FROST_START (R322). -/
def execFrostStart (t : Nat) (s : State) : Host.Outcome State Fault Refusal := .next (s.onDie t State.frostOn)

/-- FROST_END (R322). -/
def execFrostEnd (t : Nat) (s : State) : Host.Outcome State Fault Refusal := .next (s.onDie t State.frostWrite0)

/-- FROST_TMO (R322). -/
def execFrostTmo (t : Nat) (s : State) : Host.Outcome State Fault Refusal := .next (s.onDie t State.frostTimeout)

/-- Empty the reserve, for a privileged write (R324). -/
def State.rsvEmpty (s : State) (m : Acc) : State :=
  if s.priv m then
    let s := (List.range 128).foldl (fun s i => s.wr (R.EVR_RSV_W (i / 8) (i % 8)) 0) s.touchPriv
    s.setFld F.EVR_RSV_STAT_COUNT 0
  else s

/-- RSV_CLR (R324). -/
def execRsvClr (t : Nat) (by' : Acc) (s : State) : Host.Outcome State Fault Refusal := .next (s.onDie t (·.rsvEmpty by'))

/-- A read of EVR_RDW7: its word, and CUR advances with AUTO_INC (R321). -/
def State.readRdw7 (s : State) : BitVec 32 × State :=
  (s.rdw 7, if s.bit F.EVR_RD_CTL_AUTO_INC then s.setFld F.EVR_RD_CTL_CUR (s.fld F.EVR_RD_CTL_CUR + 1) else s)

/-- The state after a read with a side effect, its value kept as the last value read. -/
def State.didRead (p : BitVec 32 × State) : State := { p.2 with hcp := { p.2.hcp with readVal := p.1 } }

/-- RDW7_READ (R321). -/
def execRdw7Read (t : Nat) (s : State) : Host.Outcome State Fault Refusal :=
  .next (s.onDie t fun s => State.didRead s.readRdw7)

end Sys2Proof.Machine
end

