-- ==== Sys2Proof/Machine/Lanes.lean ====
section
/-! DEFINITION. Lane signalling (03_ring_lanes.md): block coding, block lock, rate matching, the BLOCK ordered set, sleep
and wake, quads, equaliser, eye monitor, loops and patterns. -/

namespace Sys2Proof

/-! ## Control blocks (Table 3.2) -/

def ctFill : Nat := 0x1E
def ctSof : Nat := 0x2D
def ctTime : Nat := 0x33
def ctEof : Nat := 0x4B
def ctBlock : Nat := 0x55
def ctWake : Nat := 0x66
def ctEnum : Nat := 0x78
def ctRelay : Nat := 0x87

/-- Type code of a control block. -/
def Blk.ct (b : Blk) : Nat := b.pl.toNat / 2 ^ 56
/-- Content [55:0] of a control block. -/
def Blk.content (b : Blk) : Nat := b.pl.toNat % 2 ^ 56
def Blk.isData (b : Blk) : Bool := b.hdr == 1
def Blk.isCtl (b : Blk) : Bool := b.hdr == 2
/-- An invalid header: the block is errored (R57). -/
def Blk.errored (b : Blk) : Bool := b.hdr == 0 || b.hdr == 3
/-- A control block of the given type and content. -/
def ctlBlk (ct content : Nat) : Blk := ⟨2, BitVec.ofNat 64 (ct * 2 ^ 56 + content % 2 ^ 56)⟩
def dataBlk (v : Nat) : Blk := ⟨1, BitVec.ofNat 64 v⟩
/-- A BLOCK block as the ordered set has it (R64). -/
def Blk.isBlockSet (b : Blk) : Bool := b.isCtl && b.ct == ctBlock && b.content == 0xA5A5A5A5A5A5A5
def knownCt (c : Nat) : Bool := [ctFill, ctSof, ctTime, ctEof, ctBlock, ctWake, ctEnum, ctRelay].contains c

end Sys2Proof

namespace Sys2Proof.Machine

/-! ## Scrambler and line coding (R50 to R52) -/

/-- Scramble the low `n` bits of `pl`, most significant first, with x^58 + x^39 + 1; the register's newest bit is bit 0. -/
def scramble : Nat → BitVec 58 → BitVec 64 → BitVec 64 → BitVec 64 × BitVec 58
  | 0, r, _, out => (out, r)
  | n + 1, r, pl, out =>
    let b := (pl.getLsbD n).xor ((r.getLsbD 38).xor (r.getLsbD 57))
    scramble n ((r <<< 1) ||| (if b then 1 else 0)) pl ((out <<< 1) ||| (if b then 1 else 0))

/-- The receiver's inverse of `scramble`. -/
def descramble : Nat → BitVec 58 → BitVec 64 → BitVec 64 → BitVec 64 × BitVec 58
  | 0, r, _, out => (out, r)
  | n + 1, r, pl, out =>
    let s := pl.getLsbD n
    let b := s.xor ((r.getLsbD 38).xor (r.getLsbD 57))
    descramble n ((r <<< 1) ||| (if s then 1 else 0)) pl ((out <<< 1) ||| (if b then 1 else 0))

/-- Gray index of a pair (b1 b0). -/
def grayIdx (p : BitVec 2) : BitVec 2 := if p = 2 then 3 else if p = 3 then 2 else p

/-- Level indices of `n` pairs, most significant pair first: y = x - y' mod 4 with precoding. -/
def precode : Nat → Bool → BitVec 2 → BitVec 66 → BitVec 66 → BitVec 66 × BitVec 2
  | 0, _, y, _, out => (out, y)
  | n + 1, pc, y, v, out =>
    let x := grayIdx (v.extractLsb' (2 * n) 2)
    let y' := if pc then x - y else x
    precode n pc y' v ((out <<< 2) ||| y'.setWidth 66)

/-- The receiver's inverse of `precode`. -/
def unprecode : Nat → Bool → BitVec 2 → BitVec 66 → BitVec 66 → BitVec 66 × BitVec 2
  | 0, _, y, _, out => (out, y)
  | n + 1, pc, y, v, out =>
    let y' := v.extractLsb' (2 * n) 2
    let x := if pc then y' + y else y'
    unprecode n pc y' v ((out <<< 2) ||| (grayIdx x).setWidth 66)

/-- The 66 line bits of a block from scrambler register `r` (R50, R51). -/
def lineBits (r : BitVec 58) (b : Blk) : BitVec 66 × BitVec 58 :=
  let (p, r) := scramble 64 r b.pl 0
  (b.hdr ++ p, r)

/-- What a ring lane sends for a block: 33 level indices (R52). -/
def ringLine (pc : Bool) (r : BitVec 58) (y : BitVec 2) (b : Blk) : BitVec 66 × BitVec 58 × BitVec 2 :=
  let (v, r) := lineBits r b
  let (l, y) := precode 33 pc y v 0
  (l, r, y)

/-! ## Lane state -/

def State.lane (s : State) (l : Nat) : Lane := spGet {} s.lanes l
def State.setLane (s : State) (l : Nat) (x : Lane) : State := { s with lanes := spSet {} s.lanes l x }

/-- The lane carries GimenLink blocks: ring lanes and partner lanes (Table 3.1). -/
def isGimen (l : Nat) : Bool := l < 64 || 68 ≤ l

/-- The lane is in use, so that sleep, loops and patterns are refused (R67, R74). -/
def State.laneInUse (s : State) (l : Nat) : Bool :=
  if l < 64 then s.bit (F.RPU_PORT_CTL_EN l)
  else if l < 68 then s.bit (F.SPU_PAIR_CTL_EN ((l - 64) / 2))
  else s.bit F.PL_CTL_EN

/-- A near-end loop is selected; injection goes before it (R65, R74). -/
def State.nearLoop (s : State) (l : Nat) : Bool :=
  (s.fld (F.LPH_LANE_TEST_LOOP l) == 1 || s.fld (F.LPH_LANE_TEST_LOOP l) == 2) && !s.bit (F.LPH_LANE_STAT_INJECT l)

/-- The transmitter is in electrical idle: forced by the HBL, asleep, its quad powered down, or in a near-end loop. -/
def State.txIdle (s : State) (l : Nat) : Bool :=
  s.bit (F.LPH_LANE_STAT_HBL_IDLE l) || s.fld F.SYS_LC_STATE == 3 || s.bit (F.LPH_LANE_PWR_TX_SLEEP l) || s.bit (F.LPH_QUAD_CTL_PD (l / 4)) ||
    s.nearLoop l

/-! ## The transmit stream (R50 to R52, R62 to R65, R68, R71, R72, R74, R75) -/

def State.txOf (s : State) (l : Nat) : LaneTx := spGet {} s.ltx l
def State.setTx (s : State) (l : Nat) (x : LaneTx) : State := { s with ltx := spSet {} s.ltx l x }

/-- What leaves lane `l` for one block: scrambled, on ring lanes as level indices with the lane's precoding, with the lane's
polarity. -/
def State.txLine (s : State) (l : Nat) (x : LaneTx) (b : Blk) : BitVec 66 × LaneTx :=
  let (v, r) := lineBits x.scr b
  let (v, y) := if l < 64 then precode 33 (s.bit (F.LPH_LANE_CTL_PRECODE l)) x.y v 0 else (v, x.y)
  (if s.bit (F.LPH_LANE_CTL_TX_INV l) then ~~~v else v, { x with scr := r, y := y })

/-- The stream of lane `l` over the blocks `bs`: their line bits, and the lane after them. -/
def State.txLines (s : State) (l : Nat) : LaneTx → List Blk → List (BitVec 66) × LaneTx
  | x, [] => ([], x)
  | x, b :: bs =>
    let (v, x) := s.txLine l x b
    let (vs, x) := s.txLines l x bs
    (v :: vs, x)

/-- The stream of lane `l` over `n` blocks `b`. -/
def State.txRun (s : State) (l : Nat) (b : Blk) : Nat → LaneTx → LaneTx
  | 0, x => x
  | n + 1, x => s.txRun l b n (s.txLine l x b).2

def fillBlk : Blk := ctlBlk ctFill 0
def wakeBlk : Blk := ctlBlk ctWake 0
def blockBlk : Blk := ctlBlk ctBlock 0xA5A5A5A5A5A5A5

/-- Bring the stream of lane `l` up to the present: WAKE blocks that are due, then BLOCK blocks while they are injected and FILL
blocks otherwise (R65, R68). D1 drifts against the time base, so whether one block more or less has left is a free value. -/
def State.txUpTo (s : State) (l : Nat) : State :=
  let x := s.txOf l
  let (f, s) := s.freeNat
  let n := 10 * (s.mono - x.at') / 64 + f % 2
  let w := min n x.wake
  let idle := if s.bit (F.LPH_LANE_STAT_INJECT l) then blockBlk else fillBlk
  s.setTx l { s.txRun l idle (n - w) (s.txRun l wakeBlk w x) with at' := s.mono, wake := x.wake - w }

/-- The RPU's or RDU's blocks reach the ball: the transmitter sends, its WAKE run is over, and neither injection, a pattern nor a
far-end loop stands before them (R65, R68, R74, R75). -/
def State.txOpen (s : State) (l : Nat) : Bool :=
  s.bit (F.LPH_LANE_STAT_TX_ACTIVE l) && decide ((s.lane l).wakeEnd ≤ s.mono) && !s.bit (F.LPH_LANE_STAT_INJECT l) &&
    s.fld (F.LPH_LANE_TEST_GEN l) == 0 && s.fld (F.LPH_LANE_TEST_LOOP l) != 3

/-- The FFE setting that lane `l` sends with: a frame keeps the one that it began with, so that a written setting acts from the
first FILL block behind it (R72). -/
def State.txTaps (s : State) (l : Nat) : BitVec 32 := if s.mono < (s.txOf l).busy then (s.txOf l).taps else s.rd (R.LPH_LANE_TXEQ l)

/-- Blocks `bs` leave lane `l`, or go round its near-end loop. `sof` and `time`: departure at the ball of a SOF and of a TIME block
among them, `timed` that of the block whose instant R62 fixes, in tenths of a ns. -/
def State.txSend (s : State) (l : Nat) (bs : List Blk) (sof time timed : Option Nat) : State :=
  if bs.isEmpty then s
  else if s.nearLoop l then s.setTx l { s.txOf l with loop := (s.txOf l).loop ++ bs }
  else if !s.txOpen l then s
  else
    let taps := s.txTaps l
    let s := s.txUpTo l
    let (v, x) := s.txLines l (s.txOf l) bs
    let e := s.mono + (64 * bs.length + 9) / 10
    s.setTx l { x with line := v, at' := e, busy := if sof.isSome then e else x.busy, taps := taps,
                       sof := sof.getD x.sof, time := time.getD x.time, timed := timed.getD x.timed }

/-- A transmitter leaves electrical idle: 1,600 WAKE blocks of 6.4 ns go first (R68); y = 0 before the first symbol (R52). While
SAFE BLOCK is in force a ring lane then sends BLOCK blocks (R65, R257; DEDUCED, log entry 102). -/
def State.txWake (s : State) (l : Nat) : State :=
  if s.bit (F.LPH_LANE_STAT_TX_ACTIVE l) then s
  else
    let s := s.setLane l { s.lane l with wakeEnd := s.mono + 10240 }
    let s := s.setTx l { s.txOf l with y := 0, at' := s.mono, wake := 1600 }
    (s.setBit (F.LPH_LANE_STAT_INJECT l) (decide (l < 64) && s.bit F.SFI_STAT_INJ)).setBit (F.LPH_LANE_STAT_TX_ACTIVE l) true

/-- A transmitter goes to electrical idle. -/
def State.txStop (s : State) (l : Nat) : State :=
  (s.setBit (F.LPH_LANE_STAT_TX_ACTIVE l) false).setBit (F.LPH_LANE_STAT_INJECT l) false

/-- Lock and receive status drop: the receiver stops. -/
def State.rxStop (s : State) (l : Nat) : State :=
  let s := (s.setLane l { s.lane l with good := 0, winCnt := 0, winBad := 0, run := 0, inFrame := false, rxWoken := false })
  let s := ((s.setBit (F.LPH_LANE_STAT_BLOCK_LOCK l) false).setBit (F.LPH_LANE_STAT_CDR_LOCK l) false).setBit (F.LPH_LANE_STAT_BLOCK_RX l) false
  if 68 ≤ l then s.setFbit F.PL_STAT_LANE_LOCK (l - 68) false else s

/-- The receiver runs: it is not asleep, or signal detect has woken it, and its quad has power. -/
def State.rxRuns (s : State) (l : Nat) : Bool :=
  (!s.bit (F.LPH_LANE_PWR_RX_SLEEP l) || (s.lane l).rxWoken) && !s.bit (F.LPH_QUAD_CTL_PD (l / 4))

/-! ## BLOCK injection and forced idle (R65, R66) -/

/-- Start or end BLOCK injection on a ring lane, unless it is in electrical idle; a near-end loop that was selected meanwhile
takes effect at the end. -/
def State.injectLane (s : State) (on : Bool) (l : Nat) : State :=
  if s.bit (F.LPH_LANE_STAT_TX_ACTIVE l) && s.bit (F.LPH_LANE_STAT_INJECT l) != on then
    let s := (s.txUpTo l).setBit (F.LPH_LANE_STAT_INJECT l) on
    if s.txIdle l then s.txStop l else s
  else s

/-- Start or end BLOCK injection on every ring lane that is not in electrical idle. -/
def State.injectAll (s : State) (on : Bool) : State := (List.range 64).foldl (fun s l => s.injectLane on l) s

/-- Ring and partner transmitters go to electrical idle and set HBL_IDLE, until power-on reset. -/
def State.hblIdleAll (s : State) : State :=
  let s : State := { s with sfi := { s.sfi with hblIdle := true } }
  ((List.range 72).filter isGimen).foldl (fun s l =>
    (s.setBit (F.LPH_LANE_STAT_HBL_IDLE l) true).txStop l) s

/-! ## Reception (R54 to R57, R61, R64) -/

/-- The block that the line bits of a lane carry, and the lane after it. -/
def State.lineDecode (s : State) (l : Nat) (x : Lane) (line : BitVec 66) : Blk × Lane :=
  let inv := s.bit (F.LPH_LANE_CTL_RX_INV l)
  let line := if inv then ~~~line else line
  let (v, y) := if l < 64 then unprecode 33 (s.bit (F.LPH_LANE_CTL_PRECODE l)) x.rxY line 0 else (line, x.rxY)
  let (p, r) := descramble 64 x.rxScr (v.setWidth 64) 0
  (⟨v.extractLsb' 64 2, p⟩, { x with rxY := y, rxScr := r })

/-- An unlocked receiver tests the header at its candidate (R55). -/
def Lane.hunt (x : Lane) (l : Nat) (valid : Bool) : Lane :=
  if valid then { x with good := x.good + 1 }
  else { x with good := 0, cand := (x.cand + 1) % (if l < 64 then 33 else 66) }

/-- Header count of a locked receiver; a window of 64 headers that stays below 24 invalid ones starts anew (R56). -/
def Lane.window (x : Lane) (valid : Bool) : Lane :=
  let bad := x.winBad + (if valid then 0 else 1)
  if x.winCnt + 1 = 64 && bad < 24 then { x with winCnt := 0, winBad := 0 }
  else { x with winCnt := x.winCnt + 1, winBad := bad }

/-- Delivery of a block by a locked receiver: frame boundaries, the BLOCK stream, unknown types, elastic-buffer overflow.
The block is delivered unless the lane discards up to the next SOF. A block of type 0x55 with another content than that of the set
ends the BLOCK stream (DESIGN CHOICE, log entry 105). -/
def State.deliver (s : State) (l : Nat) (b : Blk) (off : Int) : Option Blk × State :=
  let x := { s.lane l with elastic := off }
  let ovf := decide (2 ≤ off.natAbs)
  let x := if ovf then { x with discard := true, elastic := 0 } else x
  let s := if ovf then s.setBit (F.LPH_LANE_STAT_RM_OVF l) true else s
  let sof := b.isCtl && b.ct == ctSof
  let x := if sof && !ovf then { x with discard := false } else x
  let x := { x with run := if b.isBlockSet then x.run + 1 else 0 }
  let x := if sof then { x with inFrame := true } else if b.isCtl && b.ct == ctEof then { x with inFrame := false } else x
  let s := s.setLane l x
  let s := if b.isBlockSet then s else s.setBit (F.LPH_LANE_STAT_BLOCK_RX l) false
  let s := if b.errored then s.inc (F.LPH_LANE_HDR_ERR_V l) else s
  let unk := b.isCtl && !knownCt b.ct
  let s := if unk then s.inc (F.LPH_LANE_UNK_CNT_V l) else s
  (if x.discard then none else if unk then some (ctlBlk ctFill 0) else some b, s)

/-! ## Patterns (R75). PRESUMED: the polynomials are those of IEEE 802.3; the spec names the patterns (log entry 103). -/

/-- The next bit of PRBS31 (x^31 + x^28 + 1) or, on a ring lane, PRBS13Q's sequence (x^13 + x^12 + x^2 + x + 1); the generator's
newest bit is bit 0. -/
def prbsBit (code : Nat) (r : BitVec 31) : Bool :=
  if code = 2 then (r.getLsbD 12).xor ((r.getLsbD 11).xor ((r.getLsbD 1).xor (r.getLsbD 0))) else (r.getLsbD 30).xor (r.getLsbD 27)

/-- The next `n` bits of a pattern, the first one highest, and the generator after them; code 3 is the square wave of period 4 UI. -/
def prbsBits (code : Nat) : Nat → BitVec 31 → BitVec 66 → BitVec 66 × BitVec 31
  | 0, r, out => (out, r)
  | n + 1, r, out =>
    let b := if code = 3 then decide (r.toNat % 4 < 2) else prbsBit code r
    prbsBits code n (if code = 3 then r + 1 else (r <<< 1) ||| (if b then 1 else 0)) ((out <<< 1) ||| (if b then 1 else 0))

/-- 66 line bits of a pattern of lane `l`: on a ring lane each symbol takes two bits of a PRBS in Gray code, or is one of the outer
levels for the square wave. -/
def patternLine (l code : Nat) (r : BitVec 31) : BitVec 66 × BitVec 31 :=
  if l < 64 then
    if code = 3 then
      let (v, r) := prbsBits 3 33 r 0
      ((List.range 33).foldl (fun w i => if v.getLsbD i then w ||| (3#66 <<< (2 * i)) else w) 0, r)
    else
      let (v, r) := prbsBits code 66 r 0
      ((precode 33 false 0 v 0).1, r)
  else prbsBits code 66 r 0

/-- Number of ones. -/
def ones66 (v : BitVec 66) : Nat := ((List.range 66).filter (fun i => v.getLsbD i)).length

/-- The checker of lane `l` sees 66 line bits: it synchronises on them, or counts the bits that differ from its own generator. -/
def State.checkLine (s : State) (l : Nat) (line : BitVec 66) : State :=
  let code := s.fld (F.LPH_LANE_TEST_CHK l)
  if code = 0 then s
  else
    let x := s.lane l
    let bits : BitVec 66 := if l < 64 then (unprecode 33 false 0 line 0).1 else line
    if s.bit (F.LPH_LANE_TEST_CHK_LOCK l) then
      let (v, r) := prbsBits code 66 x.chk 0
      (s.setLane l { x with chk := r }).addFld (F.LPH_LANE_PRBS_ERR_V l) (ones66 (v ^^^ bits))
    else
      let (f, s) := s.freeNat
      (s.setLane l { x with chk := bits.setWidth 31 }).setBit (F.LPH_LANE_TEST_CHK_LOCK l) (Config.prbsLock l f)

/-- An unlocked 10GBASE-R receiver on a station lane, and a locked one: 64 valid headers in a row lock it, 16 invalid ones of 64
unlock it (R70; PRESUMED: IEEE 802.3 clause 49, log entry 104). The headers are those of GimenLink blocks read in transmission order. -/
def Lane.pcs (x : Lane) (lock valid : Bool) : Lane :=
  if lock then
    let bad := x.winBad + (if valid then 0 else 1)
    if x.winCnt + 1 = 64 && bad < 16 then { x with winCnt := 0, winBad := 0 } else { x with winCnt := x.winCnt + 1, winBad := bad }
  else if valid then { x with good := x.good + 1 }
  else { x with good := 0, cand := (x.cand + 1) % 66 }

/-- The receiver of station lane `l` gains block lock, or loses it: by its headers, or because it stops. -/
def State.pcsChange (s : State) (l : Nat) (locked : Bool) : Bool :=
  if locked then s.rxRuns l && decide (64 ≤ (s.lane l).good) else !s.rxRuns l || decide (16 ≤ (s.lane l).winBad)

/-- The payload bits of a 10GBASE-R block travel least significant first, scrambled with x^58 + x^39 + 1 (PRESUMED: IEEE 802.3
clause 49, log entry 104). -/
def pcsDecode (r : BitVec 58) (line : BitVec 66) : BitVec 2 × BitVec 64 × BitVec 58 :=
  let (p, r) := descramble 64 r (line.setWidth 64) 0
  (line.extractLsb' 64 2, p.reverse, r)

/-- What leaves a station lane for a 10GBASE-R block of the given header and payload. -/
def pcsEncode (r : BitVec 58) (hdr : BitVec 2) (p : BitVec 64) : BitVec 66 × BitVec 58 :=
  let (v, r) := scramble 64 r p.reverse 0
  (hdr ++ v, r)

/-- Line bits reach a running receiver: hunting, or delivery. -/
def State.rxLine (s : State) (l : Nat) (line : BitVec 66) (off : Int) : Option Blk × State :=
  let s := ((s.setBit (F.LPH_LANE_STAT_SIG_DET l) true).setBit (F.LPH_LANE_STAT_CDR_LOCK l) true).checkLine l line
  if isGimen l then
    let (b, x) := s.lineDecode l (s.lane l) line
    if s.bit (F.LPH_LANE_STAT_BLOCK_LOCK l) then
      (s.setLane l (x.window (!b.errored))).deliver l b off
    else (none, s.setLane l (x.hunt l (!b.errored)))
  else
    let (h, _, r) := pcsDecode (s.lane l).rxScr line
    (none, s.setLane l { (s.lane l).pcs (s.bit (F.LPH_LANE_STAT_BLOCK_LOCK l)) (h == 1 || h == 2) with rxScr := r })

/-- The next block of the lane's own stream in a near-end loop: the oldest one handed over, else FILL. -/
def State.loopNext (s : State) (l : Nat) : Blk × State :=
  let x := s.txOf l
  (x.loop.headD fillBlk, s.setTx l { x with loop := x.loop.drop 1 })

/-- One block time at the receiver of lane `l`, `line` at the ball. In a near-end loop the ball is ignored and the lane's own
stream comes back, through the line coding (serial) or as blocks (parallel); in a far-end loop what is received is sent out again
(Table 3.5). -/
def State.laneReceive (s : State) (l : Nat) (line : BitVec 66) (off : Int) : Option Blk × State :=
  if !s.rxRuns l then (none, s)
  else if s.nearLoop l && !isGimen l then (none, s)
  else if s.nearLoop l then
    let (b, s) := s.loopNext l
    if s.fld (F.LPH_LANE_TEST_LOOP l) = 1 then
      let (v, x) := s.txLine l (s.txOf l) b
      (s.setTx l x).rxLine l v 0
    else s.deliver l b 0
  else
    let (b, s) := s.rxLine l line off
    match b with
    | some b =>
      if s.fld (F.LPH_LANE_TEST_LOOP l) = 3 ∧ s.bit (F.LPH_LANE_STAT_TX_ACTIVE l) = true ∧ s.bit (F.LPH_LANE_STAT_INJECT l) = false then
        let (v, x) := s.txLine l (s.txOf l) b
        (some b, s.setTx l { x with line := [v], at' := s.mono })
      else (some b, s)
    | none => (none, s)

/-- Arrival stamps of a SOF or TIME block at the ball (R63). -/
def State.rxStamp (s : State) (l tenths : Nat) (b : Blk) : State :=
  if b.isCtl && b.ct == ctSof then s.setLane l { s.lane l with sofArr := tenths }
  else if b.isCtl && b.ct == ctTime then s.setLane l { s.lane l with timeArr := tenths }
  else s

/-- BLOCK_LOCK_ACQUIRED (R55). -/
def execBlockLockAcquired (t : Nat) (lane : Fin 72) (s : State) : Host.Outcome State Fault Refusal :=
  .next (s.onDie t fun s =>
    if isGimen lane && !s.bit (F.LPH_LANE_STAT_BLOCK_LOCK lane) && decide (64 ≤ (s.lane lane).good) then
      let s := (s.setLane lane { s.lane lane with winCnt := 0, winBad := 0 }).setBit (F.LPH_LANE_STAT_BLOCK_LOCK lane) true
      if 68 ≤ lane.val then s.setFbit F.PL_STAT_LANE_LOCK (lane - 68) true else s
    else s)

/-- Block lock ends after 24 invalid headers in the window (R56). -/
def State.blockLockLost (s : State) (lane : Nat) : State :=
    if isGimen lane && s.bit (F.LPH_LANE_STAT_BLOCK_LOCK lane) && decide (24 ≤ (s.lane lane).winBad) then
      let s := s.setLane lane { s.lane lane with good := 0, winCnt := 0, winBad := 0, run := 0, inFrame := false }
      let s := ((s.setBit (F.LPH_LANE_STAT_BLOCK_LOCK lane) false).setBit (F.LPH_LANE_STAT_LOCK_LOST lane) true).inc (F.LPH_LANE_LOCK_CNT_V lane)
      let s := s.setBit (F.LPH_LANE_STAT_BLOCK_RX lane) false
      if 68 ≤ lane then s.setFbit F.PL_STAT_LANE_LOCK (lane - 68) false else s
    else s

/-- RATE_MATCH (R59, R60): one FILL block between frames, or one BLOCK block of a running stream. RM_CNT counts both (DESIGN CHOICE for
BLOCK blocks, of which the spec says neither; log entry 106). -/
def execRateMatch (t : Nat) (lane : Fin 72) (s : State) : Host.Outcome State Fault Refusal :=
  .next (s.onDie t fun s =>
    let x := s.lane lane
    if isGimen lane && (!x.inFrame || decide (0 < x.run)) then
      if 1 ≤ x.elastic then (s.setLane lane { x with elastic := x.elastic - 1 }).inc (F.LPH_LANE_RM_CNT_DEL lane)
      else if x.elastic ≤ -1 then (s.setLane lane { x with elastic := x.elastic + 1 }).inc (F.LPH_LANE_RM_CNT_INS lane)
      else s
    else s)

/-- BLOCK_SET_RECEIVED (R64): four BLOCK blocks in a row. -/
def execBlockSetReceived (t : Nat) (lane : Fin 72) (s : State) : Host.Outcome State Fault Refusal :=
  .next (s.onDie t fun s =>
    if 4 ≤ (s.lane lane).run then s.setBit (F.LPH_LANE_STAT_BLOCK_RX lane) true else s)

/-! ## Sleep, quads (R67 to R69) -/

/-- A write to LPH_LANEl_PWR: each direction on its own; a refused sleep request is ignored. A receiver that signal detect has woken
keeps RX_SLEEP = 1, and a further write of 1 leaves it awake (DESIGN CHOICE, log entry 107). -/
def State.pwrWrite (s : State) (l : Nat) (v : BitVec 32) : State :=
  let use := s.laneInUse l
  let old := s.rd (R.LPH_LANE_PWR l)
  let tx := v.getLsbD 1
  let rx := v.getLsbD 0
  let refused := use && (tx || rx)
  let tx' := if use then false else tx
  let rx' := if use then false else rx
  let s := s.setBit (F.LPH_LANE_PWR_RX_AUTO_WAKE l) (v.getLsbD 2)
  let s := if refused then s.setBit (F.LPH_LANE_STAT_SLEEP_REFUSED l) true else s
  let s := (s.setBit (F.LPH_LANE_PWR_TX_SLEEP l) (if use && tx then old.getLsbD 1 else tx')).setBit
    (F.LPH_LANE_PWR_RX_SLEEP l) (if use && rx then old.getLsbD 0 else rx')
  let s := if s.txIdle l then s.txStop l else if old.getLsbD 1 then s.txWake l else s
  if s.bit (F.LPH_LANE_PWR_RX_SLEEP l) && !old.getLsbD 0 then s.rxStop l
  else if !s.bit (F.LPH_LANE_PWR_RX_SLEEP l) then s.setLane l { s.lane l with rxWoken := false } else s

/-- SIGNAL_DETECT_RISE (R68). -/
def execSignalDetectRise (t : Nat) (lane : Fin 72) (s : State) : Host.Outcome State Fault Refusal :=
  .next (s.onDie t fun s =>
    let s := s.setBit (F.LPH_LANE_STAT_SIG_DET lane) true
    if s.bit (F.LPH_LANE_PWR_RX_SLEEP lane) && s.bit (F.LPH_LANE_PWR_RX_AUTO_WAKE lane) then
      s.setLane lane { s.lane lane with rxWoken := true }
    else s)

/-- A write of PD to LPH_QUADq_CTL: refused where a lane of the quad is refused sleep. Powering up keeps the PLL unlocked
until QUAD_PLL_LOCKED. -/
def State.quadWrite (s : State) (q : Nat) (pd : Bool) : State :=
  let ls := [4 * q, 4 * q + 1, 4 * q + 2, 4 * q + 3]
  if pd then
    if ls.any s.laneInUse then s.setBit (F.LPH_QUAD_CTL_Q_REFUSED q) true
    else
      let s := (s.setBit (F.LPH_QUAD_CTL_PD q) true).setBit (F.LPH_QUAD_CTL_PLL_LOCK q) false
      ls.foldl (fun s l => ((s.txStop l).rxStop l).setBit (F.LPH_LANE_STAT_SIG_DET l) false) s
  else s.setBit (F.LPH_QUAD_CTL_PD q) false

/-- A lane in use leaves electrical idle, unless something holds it there; WAKE blocks go first on GimenLink lanes (R68). -/
def State.laneUp (s : State) (l : Nat) : State :=
  if !s.laneInUse l || s.txIdle l || s.fld F.SYS_LC_STATE != 2 then s
  else if isGimen l then s.txWake l else s.setBit (F.LPH_LANE_STAT_TX_ACTIVE l) true

/-- QUAD_PLL_LOCKED (R69, Table 3.4): transmitters of lanes that came into use meanwhile start. -/
def execQuadPllLocked (t : Nat) (q : Fin 18) (s : State) : Host.Outcome State Fault Refusal :=
  .next (s.onDie t fun s =>
    if s.bit (F.LPH_QUAD_CTL_PD q) then s
    else [4 * q.val, 4 * q.val + 1, 4 * q.val + 2, 4 * q.val + 3].foldl (fun s l => s.laneUp l) (s.setBit (F.LPH_QUAD_CTL_PLL_LOCK q) true))

/-! ## Equaliser, eye monitor, loops (R72 to R75) -/

/-- A write to LPH_LANEl_TXEQ: rejected where PRE + MAIN + POST exceeds 63. -/
def State.txeq (s : State) (l : Nat) (v : BitVec 32) : State :=
  let pre := (F.LPH_LANE_TXEQ_PRE l).get v
  let main := (F.LPH_LANE_TXEQ_MAIN l).get v
  let post := (F.LPH_LANE_TXEQ_POST l).get v
  if 63 < pre + main + post then s.setBit (F.LPH_LANE_STAT_TXEQ_ERR l) true
  else ((s.setFld (F.LPH_LANE_TXEQ_PRE l) pre).setFld (F.LPH_LANE_TXEQ_MAIN l) main).setFld (F.LPH_LANE_TXEQ_POST l) post

/-- TXEQ_WRITE (R72). -/
def execTxeqWrite (t : Nat) (lane : Fin 72) (v : BitVec 32) (s : State) : Host.Outcome State Fault Refusal :=
  .next (s.onDie t (·.txeq lane v))

/-- Adaptation re-runs from reset values: the adapted codes are free values; block lock is kept. With ADAPT_FREEZE the
coefficients hold. -/
def State.adapt (s : State) (l : Nat) : State :=
  if s.bit (F.LPH_LANE_RXEQ_ADAPT_FREEZE l) then s
  else
    let (a, s) := s.freeNat
    let (b, s) := s.freeNat
    let (c, s) := s.freeNat
    ((s.setFld (F.LPH_LANE_RXEQ_CTLE_CODE l) a).setFld (F.LPH_LANE_RXEQ_DFE1 l) b).setFld (F.LPH_LANE_RXEQ_VGA l) c

/-- ADAPT_RESTART (R72). -/
def execAdaptRestart (t : Nat) (lane : Fin 72) (s : State) : Host.Outcome State Fault Refusal :=
  .next (s.onDie t (·.adapt lane))

/-- A write to LPH_LANEl_EYE: EYE_SEL, and RUN starts a scan and clears DONE. -/
def State.eyeWrite (s : State) (l : Nat) (v : BitVec 32) : State :=
  let s := s.setFld (F.LPH_LANE_EYE_EYE_SEL l) ((F.LPH_LANE_EYE_EYE_SEL l).get v)
  if v.getLsbD 31 then (s.setBit (F.LPH_LANE_EYE_RUN l) true).setBit (F.LPH_LANE_EYE_DONE l) false else s

/-- EYE_SCAN_RUN (R73). -/
def execEyeScanRun (t : Nat) (lane : Fin 72) (v : BitVec 32) (s : State) : Host.Outcome State Fault Refusal :=
  .next (s.onDie t (·.eyeWrite lane v))

/-- EYE_SCAN_DONE (R73): a running scan ends with the margins found. -/
def execEyeScanDone (t : Nat) (lane : Fin 72) (h v : BitVec 8) (s : State) : Host.Outcome State Fault Refusal :=
  .next (s.onDie t fun s =>
    if s.bit (F.LPH_LANE_EYE_RUN lane) then
      (((s.setBit (F.LPH_LANE_EYE_RUN lane) false).setBit (F.LPH_LANE_EYE_DONE lane) true).setFld
        (F.LPH_LANE_EYE_HMARGIN lane) h.toNat).setFld (F.LPH_LANE_EYE_VMARGIN lane) v.toNat
    else s)

/-- The pattern of generator code `gen` replaces the transmit stream; its start state is a free value. -/
def State.genStart (s : State) (l gen : Nat) : State :=
  if gen = 0 then s
  else
    let (f, s) := s.freeNat
    let (v, r) := patternLine l gen (Config.prbsSeed f)
    s.setTx l { s.txOf l with gen := r, line := [v] }

/-- A write to LPH_LANEl_TEST: ignored where it asks for a loop or a generator on a lane in use; a generator or checker code that
the lane's mode does not have (PRBS13Q off ring lanes, checker code 0b11) is ignored by itself. -/
def State.testWrite (s : State) (l : Nat) (v : BitVec 32) : State :=
  let loop := (F.LPH_LANE_TEST_LOOP l).get v
  let gen := (F.LPH_LANE_TEST_GEN l).get v
  let chk := (F.LPH_LANE_TEST_CHK l).get v
  let badGen := decide (64 ≤ l) && gen == 2
  let badChk := (decide (64 ≤ l) && chk == 2) || chk == 3
  let active := loop == 1 || loop == 2 || loop == 3 || (gen != 0 && !badGen)
  if s.laneInUse l && active then s.setBit (F.LPH_LANE_STAT_LOOP_REFUSED l) true
  else
    let s := if badGen || badChk then s.setBit (F.LPH_LANE_STAT_LOOP_REFUSED l) true else s
    let gen := if badGen then s.fld (F.LPH_LANE_TEST_GEN l) else gen
    let chk := if badChk then s.fld (F.LPH_LANE_TEST_CHK l) else chk
    let s := if chk == s.fld (F.LPH_LANE_TEST_CHK l) then s
      else (s.setFld (F.LPH_LANE_PRBS_ERR_V l) 0).setBit (F.LPH_LANE_TEST_CHK_LOCK l) false
    let s := if s.bit (F.LPH_LANE_STAT_TX_ACTIVE l) then s.txUpTo l else s
    let s := ((s.setFld (F.LPH_LANE_TEST_LOOP l) loop).setFld (F.LPH_LANE_TEST_GEN l) gen).setFld (F.LPH_LANE_TEST_CHK l) chk
    let s := if s.txIdle l then s.txStop l else if gen != 0 || loop == 3 then s.txWake l else s
    s.genStart l gen

/-- LOOP_PATTERN_WRITE (R74, R75). -/
def execLoopPatternWrite (t : Nat) (lane : Fin 72) (v : BitVec 32) (s : State) : Host.Outcome State Fault Refusal :=
  .next (s.onDie t (·.testWrite lane v))

end Sys2Proof.Machine
end

