-- ==== Sys2Proof/Machine/ApwPins.lean ====
section
/-! DEFINITION. The pins of the APW (15_aux_pwm.md, R341, R346), which the safety state moves: precedence, dead time, the levels of a pair
over time. Times of pin edges are in quarter ns. -/

namespace Sys2Proof.Machine

/-! ## Safety states (Table 11.8) -/

def stRun : Nat := 0
def stStop : Nat := 1
def stBlock : Nat := 2

def State.sfiState (s : State) : Nat := s.fld F.SFI_STAT_STATE

/-! ## Channels -/

def State.apwCh (s : State) (c : Nat) : ApwCh := spGet {} s.apw.ch c
def State.setApwCh (s : State) (c : Nat) (x : ApwCh) : State := { s with apw := { s.apw with ch := spSet {} s.apw.ch c x } }

/-- DT in quarter ns. -/
def State.apwDt (s : State) (c : Nat) : Nat := s.fld (F.APW_CH_DT_DT c) * 8

/-! ## Pins (R341, R346) -/

/-- The row of Table 15.2 that applies. -/
def State.apwRow (s : State) (c : Nat) : Nat :=
  if s.bit F.APW_STAT_FLT || s.apw.fltLow then 1
  else if s.bit (F.APW_CH_STAT_TRIPPED c) then 2
  else if (s.bit (F.APW_CH_CTL_SAFE_OFF c) && s.sfiState == stBlock) || (s.bit (F.APW_CH_CTL_LEASE_ONLY c) && !s.apw.lease) ||
      !s.bit (F.APW_CH_CTL_EN c) then 3
  else if s.fbit F.APW_FORCE_MASK_V c && (s.apwCh c).force != 0 then 4
  else 5

/-- The pair that the row gives, where the PWM demands `h`; both low before the first boundary. -/
def State.apwPair (s : State) (c : Nat) (h : Bool) : Bool × Bool :=
  let x := s.apwCh c
  match s.apwRow c with
  | 4 => (x.force == 1, x.force == 2)
  | 5 => if x.run.isSome then (h, !h) else (false, false)
  | _ => (false, false)

/-- The high level that the running period demands at `q`. -/
def ApwCh.demand (x : ApwCh) (q : Nat) : Bool :=
  match x.run with
  | some (b, _) => decide (q < b * 4 + x.high)
  | none => false

/-- Levels driven at `q`. -/
def ApwCh.driven (x : ApwCh) (q : Nat) : Bool × Bool := (x.wantH && decide (x.hRise ≤ q), x.wantL && decide (x.lRise ≤ q))

/-- From `q` on the pins are to reach the pair `w`: a rising edge waits DT after the other pin's fall, with the DT of the demand
(DESIGN CHOICE: R341 does not say which DT holds where it changes meanwhile; log entry 120). -/
def ApwCh.aim (x : ApwCh) (dt q : Nat) (w : Bool × Bool) : ApwCh :=
  if x.wantH == w.1 && x.wantL == w.2 then x
  else
    let (h, l) := x.driven q
    let hFall := if h && !w.1 then q else x.hFall
    let lFall := if l && !w.2 then q else x.lFall
    { x with wantH := w.1, wantL := w.2, hFall := hFall, lFall := lFall,
             hRise := if w.1 && !x.wantH then max q (lFall + dt) else x.hRise,
             lRise := if w.2 && !x.wantL then max q (hFall + dt) else x.lRise }

/-- Bring a channel's pins to `q`, over the edge within the running period where it has passed. -/
def State.apwTo (s : State) (c q : Nat) : State :=
  let x := s.apwCh c
  let dt := s.apwDt c
  let x := match x.run with
    | some (b, len) =>
      if s.apwRow c == 5 && x.wantH && decide (b * 4 + x.high ≤ q ∧ x.high < len * 4) then x.aim dt (b * 4 + x.high) (false, true) else x
    | none => x
  s.setApwCh c (x.aim dt q (s.apwPair c (x.demand q)))

def State.apwNow (s : State) (c : Nat) : State := s.apwTo c (s.mono * 4)

/-- Every channel's pins, with the lease of the cycle that starts. -/
def State.apwAll (s : State) : State := (List.range 12).foldl (fun s c => s.apwNow c) s

/-- APW_FLT_N, a trip, EN = 0 and a force each clear the carry (R342). -/
def State.apwCarry (s : State) (c : Nat) : State :=
  if s.bit F.APW_STAT_FLT || s.apw.fltLow || s.bit (F.APW_CH_STAT_TRIPPED c) || !s.bit (F.APW_CH_CTL_EN c) ||
      (s.fbit F.APW_FORCE_MASK_V c && (s.apwCh c).force != 0) then s.setFld (F.APW_CH_CARRY_V c) 0
  else s

end Sys2Proof.Machine
end

