-- ==== Sys2Proof/Machine/Float.lean ====
section
/-! DEFINITION. IEEE 754 binary arithmetic, round to nearest even, with subnormals, computed exactly and rounded once:
binary32 for the engines, the CLU and the MSU (R195, R166, R212), binary64 for the MDU and the notch (R415, R177). -/

namespace Sys2Proof.Machine

/-- A binary format: precision (with the hidden bit) and exponent width. -/
structure Fmt where
  p : Nat
  eb : Nat
deriving DecidableEq, Repr

def fmt32 : Fmt := ⟨24, 8⟩
def fmt64 : Fmt := ⟨53, 11⟩

def Fmt.bias (f : Fmt) : Nat := 2 ^ (f.eb - 1) - 1
def Fmt.emaxB (f : Fmt) : Nat := 2 ^ f.eb - 1
def Fmt.width (f : Fmt) : Nat := f.p + f.eb
/-- Canonical quiet NaN: 0x7FC0_0000 in binary32 (R195). -/
def Fmt.nan (f : Fmt) : Nat := f.emaxB * 2 ^ (f.p - 1) + 2 ^ (f.p - 2)
def Fmt.inf (f : Fmt) (neg : Bool) : Nat :=
  f.emaxB * 2 ^ (f.p - 1) + (if neg then 2 ^ (f.width - 1) else 0)
def Fmt.zero (f : Fmt) (neg : Bool) : Nat := if neg then 2 ^ (f.width - 1) else 0

/-- A decoded value: NaN (signalling or not), infinity, or (−1)^neg · m · 2^e. -/
inductive FVal where
  | nan (signalling : Bool)
  | inf (neg : Bool)
  | fin (neg : Bool) (m : Nat) (e : Int)
deriving DecidableEq, Repr

/-- Decode the bits of a value. -/
def fDecode (f : Fmt) (b : Nat) : FVal :=
  let fr := b % 2 ^ (f.p - 1)
  let ex := b / 2 ^ (f.p - 1) % 2 ^ f.eb
  let neg := decide (b / 2 ^ (f.width - 1) % 2 = 1)
  if ex = f.emaxB then
    (if fr = 0 then .inf neg else .nan (decide (fr < 2 ^ (f.p - 2))))
  else if ex = 0 then .fin neg fr (1 - (f.bias : Int) - ((f.p : Int) - 1))
  else .fin neg (fr + 2 ^ (f.p - 1)) ((ex : Int) - f.bias - ((f.p : Int) - 1))

/-- Result of an operation: bits and the flags INV, OVF, UNF of SE_STAT (Table 8.7). -/
structure FRes where
  bits : Nat
  inv : Bool := false
  ovf : Bool := false
  unf : Bool := false
deriving DecidableEq, Repr

/-- Round-to-nearest-even quotient m / 2^sh, `st` telling of a non-zero part below m; and whether inexact. -/
def rneShift (m sh : Nat) (st : Bool) : Nat × Bool :=
  let q := m / 2 ^ sh
  let r := m % 2 ^ sh
  let half := 2 ^ sh / 2
  let up := if sh = 0 then false
    else decide (half < r) || (decide (r = half) && (st || decide (q % 2 = 1)))
  (if up then q + 1 else q, decide (r ≠ 0) || st)

/-- Round (−1)^neg · (m + tail) · 2^e to the format, `st` telling of a non-zero tail below one unit of m.
With st, m must hold at least p + 2 bits. -/
def fRound (f : Fmt) (neg : Bool) (m : Nat) (e : Int) (st : Bool) : FRes :=
  if m = 0 then ⟨f.zero neg, false, false, false⟩
  else
    let top : Int := e + (Nat.log2 m : Int)
    let emin : Int := 1 - (f.bias : Int)
    let tgt : Int := (if top < emin then emin else top) - ((f.p : Int) - 1)
    let sh : Int := tgt - e
    let qi := if sh ≤ 0 then (m * 2 ^ (-sh).toNat, st) else rneShift m sh.toNat st
    let sgn := f.zero neg
    let pos := if top < emin then qi.1
      else (top + f.bias).toNat * 2 ^ (f.p - 1) + qi.1 - 2 ^ (f.p - 1)
    let shN : Int := top - ((f.p : Int) - 1) - e
    let qn := if shN ≤ 0 then (m * 2 ^ (-shN).toNat) else (rneShift m shN.toNat st).1
    let tiny := decide (top < emin) &&
      (if Config.tinyAfter then !(decide (top = emin - 1) && decide (qn = 2 ^ f.p)) else true)
    if f.emaxB * 2 ^ (f.p - 1) ≤ pos then ⟨f.inf neg, false, true, false⟩
    else ⟨sgn + pos, false, false, qi.2 && tiny⟩

def fNan (f : Fmt) (inv : Bool) : FRes := ⟨f.nan, inv, false, false⟩
def fInf (f : Fmt) (neg : Bool) : FRes := ⟨f.inf neg, false, false, false⟩

def FVal.isNan : FVal → Bool
  | .nan _ => true
  | _ => false
def FVal.isSnan : FVal → Bool
  | .nan s => s
  | _ => false

/-- Signed integer value of a finite operand scaled to exponent `e0 ≤ e`. -/
def fScaled (neg : Bool) (m : Nat) (e e0 : Int) : Int :=
  let v : Int := (m * 2 ^ (e - e0).toNat : Nat)
  if neg then -v else v

/-- Exact sum of two finite values, rounded once; the sign of an exact zero is + unless both are −. -/
def fAddFin (f : Fmt) (n1 : Bool) (m1 : Nat) (e1 : Int) (n2 : Bool) (m2 : Nat) (e2 : Int) : FRes :=
  let e0 := if e1 ≤ e2 then e1 else e2
  let s := fScaled n1 m1 e1 e0 + fScaled n2 m2 e2 e0
  if s = 0 then ⟨f.zero (n1 && n2), false, false, false⟩
  else fRound f (decide (s < 0)) s.natAbs e0 false

def fAddV (f : Fmt) (a b : FVal) : FRes :=
  match a, b with
  | .nan s, y => fNan f (s || y.isSnan)
  | x, .nan s => fNan f (s || x.isSnan)
  | .inf n1, .inf n2 => if n1 = n2 then fInf f n1 else fNan f true
  | .inf n1, .fin _ _ _ => fInf f n1
  | .fin _ _ _, .inf n2 => fInf f n2
  | .fin n1 m1 e1, .fin n2 m2 e2 => fAddFin f n1 m1 e1 n2 m2 e2

def FVal.neg : FVal → FVal
  | .nan s => .nan s
  | .inf n => .inf (!n)
  | .fin n m e => .fin (!n) m e

/-- Exact product as a decoded value, with the invalid flag of 0 × Inf. -/
def fMulExact (a b : FVal) : FVal × Bool :=
  match a, b with
  | .nan s, y => (.nan false, s || y.isSnan)
  | x, .nan s => (.nan false, s || x.isSnan)
  | .inf n1, .inf n2 => (.inf (n1 != n2), false)
  | .inf n1, .fin n2 m2 _ => if m2 = 0 then (.nan false, true) else (.inf (n1 != n2), false)
  | .fin n1 m1 _, .inf n2 => if m1 = 0 then (.nan false, true) else (.inf (n1 != n2), false)
  | .fin n1 m1 e1, .fin n2 m2 e2 => (.fin (n1 != n2) (m1 * m2) (e1 + e2), false)

/-- Round a decoded value to the format. -/
def fPack (f : Fmt) (v : FVal) : FRes :=
  match v with
  | .nan s => fNan f s
  | .inf n => fInf f n
  | .fin n m e => fRound f n m e false

def fAdd (f : Fmt) (a b : Nat) : FRes := fAddV f (fDecode f a) (fDecode f b)
def fSub (f : Fmt) (a b : Nat) : FRes := fAddV f (fDecode f a) (fDecode f b).neg
def fMul (f : Fmt) (a b : Nat) : FRes :=
  let r := fMulExact (fDecode f a) (fDecode f b)
  let q := fPack f r.1
  ⟨q.bits, q.inv || r.2, q.ovf, q.unf⟩
/-- a × b + c with one rounding. -/
def fFmaV (f : Fmt) (a b c : FVal) : FRes :=
  let r := fMulExact a b
  let q := fAddV f r.1 c
  ⟨q.bits, q.inv || r.2, q.ovf, q.unf⟩
def fFma (f : Fmt) (a b c : Nat) : FRes := fFmaV f (fDecode f a) (fDecode f b) (fDecode f c)
/-- c − a × b with one rounding. -/
def fFms (f : Fmt) (a b c : Nat) : FRes := fFmaV f (fDecode f a).neg (fDecode f b) (fDecode f c)

/-- a / b rounded once. -/
def fDiv (f : Fmt) (a b : Nat) : FRes :=
  match fDecode f a, fDecode f b with
  | .nan s, y => fNan f (s || y.isSnan)
  | x, .nan s => fNan f (s || x.isSnan)
  | .inf _, .inf _ => fNan f true
  | .inf n1, .fin n2 _ _ => fInf f (n1 != n2)
  | .fin n1 _ _, .inf n2 => ⟨f.zero (n1 != n2), false, false, false⟩
  | .fin n1 m1 e1, .fin n2 m2 e2 =>
    if m2 = 0 then (if m1 = 0 then fNan f true else fInf f (n1 != n2))
    else
      let k := 2 * f.p + 4 + Nat.log2 m2
      let num := m1 * 2 ^ k
      fRound f (n1 != n2) (num / m2) (e1 - e2 - k) (decide (num % m2 ≠ 0))

/-- Integer square root, bit by bit from bit `k`. -/
def isqrtFrom : Nat → Nat → Nat → Nat
  | 0, n, r => if (r + 1) * (r + 1) ≤ n then r + 1 else r
  | k + 1, n, r =>
    let t := r + 2 ^ (k + 1)
    isqrtFrom k n (if t * t ≤ n then t else r)
def isqrt (n : Nat) : Nat := isqrtFrom (Nat.log2 n / 2 + 1) n 0

/-- Square root rounded once. -/
def fSqrt (f : Fmt) (a : Nat) : FRes :=
  match fDecode f a with
  | .nan s => fNan f s
  | .inf n => if n then fNan f true else fInf f false
  | .fin n m e =>
    if m = 0 then ⟨f.zero n, false, false, false⟩
    else if n then fNan f true
    else
      let k := 2 * f.p + 4
      let odd := decide (e % 2 ≠ 0)
      let m' := (if odd then m * 2 else m) * 2 ^ (2 * k)
      let e' := (if odd then e - 1 else e) - 2 * k
      let r := isqrt m'
      fRound f false r (e' / 2) (decide (r * r ≠ m'))

/-- Order of two values: none when unordered. −0 and +0 are equal. -/
def fCmp (f : Fmt) (a b : Nat) : Option Ordering :=
  match fDecode f a, fDecode f b with
  | .nan _, _ => none
  | _, .nan _ => none
  | .inf n1, .inf n2 => some (if n1 = n2 then .eq else if n1 then .lt else .gt)
  | .inf n1, .fin _ _ _ => some (if n1 then .lt else .gt)
  | .fin _ _ _, .inf n2 => some (if n2 then .gt else .lt)
  | .fin n1 m1 e1, .fin n2 m2 e2 =>
    let e0 := if e1 ≤ e2 then e1 else e2
    some (compare (fScaled n1 m1 e1 e0) (fScaled n2 m2 e2 e0))

def fLt (f : Fmt) (a b : Nat) : Bool := fCmp f a b == some .lt
def fLe (f : Fmt) (a b : Nat) : Bool := fCmp f a b == some .lt || fCmp f a b == some .eq
def fIsNan (f : Fmt) (a : Nat) : Bool := (fDecode f a).isNan
/-- NaN or ±Inf. -/
def fBad (f : Fmt) (a : Nat) : Bool :=
  match fDecode f a with
  | .fin _ _ _ => false
  | _ => true
def fNegate (f : Fmt) (a : Nat) : Nat :=
  if fIsNan f a then f.nan else (a + 2 ^ (f.width - 1)) % 2 ^ f.width
def fAbsB (f : Fmt) (a : Nat) : Nat := if fIsNan f a then f.nan else a % 2 ^ (f.width - 1)

/-- Both zeros, of whatever sign. -/
def fBothZero (f : Fmt) (a b : Nat) : Bool :=
  decide (a % 2 ^ (f.width - 1) = 0) && decide (b % 2 ^ (f.width - 1) = 0)

/-- Smaller and larger of two values; the other operand when exactly one is NaN (R195). -/
def fMin (f : Fmt) (a b : Nat) : FRes :=
  let inv := (fDecode f a).isSnan || (fDecode f b).isSnan
  if fIsNan f a then ⟨if fIsNan f b then f.nan else b, inv, false, false⟩
  else if fIsNan f b then ⟨a, inv, false, false⟩
  else if fBothZero f a b then ⟨if Config.zeroFirst then a else b, false, false, false⟩
  else ⟨if fLt f b a then b else a, false, false, false⟩
def fMax (f : Fmt) (a b : Nat) : FRes :=
  let inv := (fDecode f a).isSnan || (fDecode f b).isSnan
  if fIsNan f a then ⟨if fIsNan f b then f.nan else b, inv, false, false⟩
  else if fIsNan f b then ⟨a, inv, false, false⟩
  else if fBothZero f a b then ⟨if Config.zeroFirst then a else b, false, false, false⟩
  else ⟨if fLt f a b then b else a, false, false, false⟩

/-- clamp(x, lo, hi) for the CLU: x below lo gives lo, above hi gives hi. -/
def fClamp (f : Fmt) (x lo hi : Nat) : Nat :=
  if fLt f x lo then lo else if fLt f hi x then hi else x

/-- Convert between formats, rounded once. -/
def fConv (src dst : Fmt) (a : Nat) : FRes := fPack dst (fDecode src a)
/-- An integer as a value of the format. -/
def fOfInt (f : Fmt) (i : Int) : Nat := (fRound f (decide (i < 0)) i.natAbs 0 false).bits
/-- A quotient of integers, rounded once (den > 0). -/
def fOfRat (f : Fmt) (num : Int) (den : Nat) : Nat :=
  let k := 2 * f.p + 4 + Nat.log2 den
  let n := num.natAbs * 2 ^ k
  (fRound f (decide (num < 0)) (n / den) (-(k : Int)) (decide (n % den ≠ 0))).bits

/-- Round a finite value to the nearest integer, ties to even; none for NaN and infinities. -/
def fRoundInt (f : Fmt) (a : Nat) : Option Int :=
  match fDecode f a with
  | .fin n m e =>
    let q : Int := if 0 ≤ e then ((m * 2 ^ e.toNat : Nat) : Int) else ((rneShift m (-e).toNat false).1 : Int)
    some (if n then -q else q)
  | _ => none
/-- Floor of a finite value. -/
def fFloor (f : Fmt) (a : Nat) : Option Int :=
  match fDecode f a with
  | .fin n m e => some (Int.fdiv (fScaled n m e (if e ≤ 0 then e else 0)) ((2 ^ (if e ≤ 0 then (-e).toNat else 0) : Nat) : Int))
  | _ => none

/-- F2I: int32, nearest even, saturating; NaN gives 0. Result and SAT. -/
def f2i32 (a : BitVec 32) : BitVec 32 × Bool :=
  match fDecode fmt32 a.toNat with
  | .nan _ => (0, false)
  | .inf n => (if n then 0x80000000#32 else 0x7FFFFFFF#32, true)
  | .fin _ _ _ =>
    match fRoundInt fmt32 a.toNat with
    | none => (0, false)
    | some i =>
      if i < -2147483648 then (0x80000000#32, true)
      else if 2147483647 < i then (0x7FFFFFFF#32, true)
      else (BitVec.ofInt 32 i, false)

/-! Binary32 operations on words. -/
def w32 (r : FRes) : BitVec 32 := BitVec.ofNat 32 r.bits
def fadd32 (a b : BitVec 32) : BitVec 32 := w32 (fAdd fmt32 a.toNat b.toNat)
def fsub32 (a b : BitVec 32) : BitVec 32 := w32 (fSub fmt32 a.toNat b.toNat)
def fmul32 (a b : BitVec 32) : BitVec 32 := w32 (fMul fmt32 a.toNat b.toNat)
def fdiv32 (a b : BitVec 32) : BitVec 32 := w32 (fDiv fmt32 a.toNat b.toNat)
def ffma32 (a b c : BitVec 32) : BitVec 32 := w32 (fFma fmt32 a.toNat b.toNat c.toNat)
def fneg32 (a : BitVec 32) : BitVec 32 := BitVec.ofNat 32 (fNegate fmt32 a.toNat)
def fabs32 (a : BitVec 32) : BitVec 32 := BitVec.ofNat 32 (fAbsB fmt32 a.toNat)
def fclamp32 (x lo hi : BitVec 32) : BitVec 32 := BitVec.ofNat 32 (fClamp fmt32 x.toNat lo.toNat hi.toNat)
def flt32 (a b : BitVec 32) : Bool := fLt fmt32 a.toNat b.toNat
def fle32 (a b : BitVec 32) : Bool := fLe fmt32 a.toNat b.toNat
def fbad32 (a : BitVec 32) : Bool := fBad fmt32 a.toNat
def fnan32 (a : BitVec 32) : Bool := fIsNan fmt32 a.toNat
def fint32 (i : Int) : BitVec 32 := BitVec.ofNat 32 (fOfInt fmt32 i)
def frat32 (n : Int) (d : Nat) : BitVec 32 := BitVec.ofNat 32 (fOfRat fmt32 n d)

/-! Binary64 operations on 64-bit patterns. -/
def w64 (r : FRes) : BitVec 64 := BitVec.ofNat 64 r.bits
def fadd64 (a b : BitVec 64) : BitVec 64 := w64 (fAdd fmt64 a.toNat b.toNat)
def fsub64 (a b : BitVec 64) : BitVec 64 := w64 (fSub fmt64 a.toNat b.toNat)
def fmul64 (a b : BitVec 64) : BitVec 64 := w64 (fMul fmt64 a.toNat b.toNat)
def fdiv64 (a b : BitVec 64) : BitVec 64 := w64 (fDiv fmt64 a.toNat b.toNat)
def fneg64 (a : BitVec 64) : BitVec 64 := BitVec.ofNat 64 (fNegate fmt64 a.toNat)
def flt64 (a b : BitVec 64) : Bool := fLt fmt64 a.toNat b.toNat
def fint64 (i : Int) : BitVec 64 := BitVec.ofNat 64 (fOfInt fmt64 i)
def fto64 (a : BitVec 32) : BitVec 64 := w64 (fConv fmt32 fmt64 a.toNat)
def fto32 (a : BitVec 64) : BitVec 32 := w32 (fConv fmt64 fmt32 a.toNat)

/-- Relative error of an estimate `e` of 1/x at most 2^-12: |e·x − 1| ≤ 2^-12, exactly. -/
def rcpOk (e x : BitVec 32) : Bool :=
  match fDecode fmt32 e.toNat, fDecode fmt32 x.toNat with
  | .fin n1 m1 e1, .fin n2 m2 e2 =>
    let s := e1 + e2
    let num : Int := ((m1 * m2 * 2 ^ (s + 600).toNat : Nat) : Int)
    let one : Int := ((2 ^ 600 : Nat) : Int)
    (n1 == n2) && decide ((num - one).natAbs * 4096 ≤ one.natAbs)
  | _, _ => false

/-- Relative error of an estimate `e` of 1/√x at most 2^-12: (1 − 2^-12)² ≤ e²·x ≤ (1 + 2^-12)². -/
def rsqOk (e x : BitVec 32) : Bool :=
  match fDecode fmt32 e.toNat, fDecode fmt32 x.toNat with
  | .fin n1 m1 e1, .fin n2 m2 e2 =>
    let s := 2 * e1 + e2
    let num := m1 * m1 * m2 * 2 ^ (s + 600).toNat * 4096 * 4096
    let one := 2 ^ 600
    !n1 && !n2 && decide (4095 * 4095 * one ≤ num) && decide (num ≤ 4097 * 4097 * one)
  | _, _ => false

end Sys2Proof.Machine
end

