-- ==== Sys2Proof/Machine/Sfi.lean ====
section
/-! DEFINITION. Safe stop and safe block (11_safety.md): safety states, inputs, discrepancies, monitored ramp-down,
release, self-tests. The SCP and the HBL each evaluate the same inputs under the same rules, so their orders coincide
except where the spec separates them (controller die in reset, loss of D9). -/

namespace Sys2Proof.Machine

/-! ## Demands -/

/-- SFI_SIN_STAT.DEMAND: pair `p` demands its function (R261). -/
def State.demand (s : State) (p : Nat) : Bool :=
  let f := s.fld (F.SFI_SIN_CFG_FUNC p)
  (f == 1 || f == 2) && (s.sfi.aAct.getLsbD p || s.sfi.bAct.getLsbD p || s.sfi.disc.getLsbD p)

/-- SFI_SINp_CFG as the HBL has it: the word last loaded, or the reset value where none has been since VSAF rose (R399). -/
def State.hblWord (s : State) (p : Nat) : BitVec 32 := spGet (resetOf (R.SFI_SIN_CFG p)) s.sfi.hblPar p

/-- The parameters of pair `p` that hold: the HBL's own while the controller die is in reset (R268, R399). -/
def State.sinWord (s : State) (p : Nat) : BitVec 32 := if s.held then s.hblWord p else s.rd (R.SFI_SIN_CFG p)

/-- The HBL's demand for the function `func` on pair `p` under its last loaded parameters. -/
def State.hblDemands (s : State) (func p : Nat) : Bool :=
  (F.SFI_SIN_CFG_FUNC p).get (s.hblWord p) == func && (s.sfi.aAct.getLsbD p || s.sfi.bAct.getLsbD p || s.sfi.disc.getLsbD p)

/-- Its demand for SAFE BLOCK. -/
def State.hblWants (s : State) (p : Nat) : Bool := s.hblDemands 2 p

/-- Level of BLK_OUT_A and BLK_OUT_B: low without VSAF; high in BLOCK; with the controller die in reset, high while the HBL orders SAFE
BLOCK by itself; high for good after loss of D9 (R256 to R258, R268, R399, R409). -/
def State.blkOut (s : State) : Bool :=
  !s.sys.vsafLost && (s.sfi.d9Lost || s.sfi.hblOrder || (!s.held && s.sfiState == stBlock))

/-- The HBL orders SAFE BLOCK; its order stands until RELEASE (R256, R273). -/
def State.hblBlock (s : State) : State := { s with sfi := { s.sfi with hblOrder := true, hblStop := none } }

/-- The HBL's own T_stop_max timer starts, unless it runs (R264). -/
def State.hblTimer (s : State) : State :=
  if s.sfi.hblStop.isSome then s else { s with sfi := { s.sfi with hblStop := some s.mono } }

/-- The HBL takes up what pair `p` demands, with the controller die in reset. -/
def State.hblAct (s : State) (p : Nat) : State :=
  if s.hblDemands 2 p then s.hblBlock else if s.hblDemands 1 p then s.hblTimer else s

/-- Self-test 0 has failed: the SCP is held in reset and orders nothing (Table 11.4). -/
def State.scpDead (s : State) : Bool := s.fbit F.SFI_STAT_TEST_FAIL 0

/-- Level of SFS_OK: low without VSAF and while the controller die is in reset (R259, R268, Table 18.9). -/
def State.sfsPin (s : State) : Bool := !s.held && s.bit F.SFI_STAT_SFS_OK

/-! ## Orders -/

/-- |value| of an fp32 word in units of 2^-149; none for NaN and infinities. -/
def fx32 (w : BitVec 32) : Option Nat :=
  match fDecode fmt32 w.toNat with
  | .fin _ m e => some (m * 2 ^ (e + 149).toNat)
  | _ => none

/-- max(I0 - RATE·dt, 0) in units of 2^-149 ns·s: none for a NaN, some none where it is infinite. An infinite RATE over no time is taken
as zero (log entry 119). -/
def envRamp (i0 dt : Nat) (rate : BitVec 32) : Option (Option Nat) :=
  match fDecode fmt32 rate.toNat with
  | .nan _ => none
  | .inf n => some (if dt = 0 then some (i0 * 10 ^ 9) else if n then none else some 0)
  | .fin n m e =>
    let d := m * 2 ^ (e + 149).toNat * dt
    some (some (if n then i0 * 10 ^ 9 + d else i0 * 10 ^ 9 - d))

/-- x is at most the ramp plus TOL. -/
def envOk (x : Nat) (ramp : Option (Option Nat)) (tol : BitVec 32) : Bool :=
  match ramp, fDecode fmt32 tol.toNat with
  | none, _ => false
  | _, .nan _ => false
  | _, .inf n => !n
  | some none, _ => true
  | some (some b), .fin n m e =>
    let t := m * 2 ^ (e + 149).toNat * 10 ^ 9
    if n then decide (x * 10 ^ 9 + t ≤ b) else decide (x * 10 ^ 9 ≤ b + t)

def State.mon (s : State) (c : Nat) : Mon := spGet {} s.sfi.mons c
def State.setMon (s : State) (c : Nat) (m : Mon) : State := { s with sfi := { s.sfi with mons := spSet {} s.sfi.mons c m } }

/-- I0 of monitor `c` at the order (R266): the last word, or the largest of the PEAK_WIN ms before. -/
def State.monI0 (s : State) (c : Nat) : Nat :=
  let ws := (s.mon c).words
  if s.fld (F.SFI_MON_CFG_CLASS c) = 0 then (ws.headD (0, 0)).2
  else (ws.filter (fun w => decide (s.mono ≤ w.1 + s.fld (F.SFI_MON_CFG_PEAK_WIN c) * 10 ^ 6))).foldl (fun m w => max m w.2) 0

/-- A trigger unit of type 6 sees an entry to STOP (0) or BLOCK (1). -/
def State.safetyHit (s : State) (a : Nat) : State :=
  { s with drc := { s.drc with hits := s.drc.hits ++ [⟨6, a, s.now⟩] } }

/-- SAFE STOP is ordered with the given STOP_CAUSE (R264); in STOP and BLOCK the order has no effect here (R261). The HBL's timer starts
with it. An order with a cause other than a SIN demand goes to the partner (R271), but for one given in BLOCK. With the SCP in reset a SIN
demand starts the HBL's timer alone. -/
def State.safeStop (s : State) (cause : Nat) : State :=
  if s.scpDead then (if cause = 1 ∧ s.sfiState ≠ stBlock then s.hblTimer else s)
  else
  let s : State := if cause = 1 ∨ s.sfiState = stBlock then s else { s with sfi := { s.sfi with sendStop := true } }
  if s.sfiState = stRun then
    let s := ((s.setFld F.SFI_STAT_STATE stStop).setFld F.SFI_STAT_STOP_CAUSE cause).inc F.SFI_STOP_CNT_V
    let s : State := { s with sfi := { s.sfi with stopAt := s.mono } }.hblTimer
    let s := (List.range 8).foldl (fun s c => s.setMon c { s.mon c with i0 := s.monI0 c, inTol := none }) s
    (s.safetyHit 0).raise 176
  else s

/-- RUN of every arm reads 0 (R257). -/
def State.armsOff (s : State) : State :=
  (List.range 12).foldl (fun s m => s.setBit (F.MDU_ARM_CTL_RUN m) false) s

/-- SAFE BLOCK is ordered with the given BLK_CAUSE (R256, R257): injection on every ring lane, arms stopped. In BLOCK
already, a further order starts injection if the BLOCK is that of reset, and records its cause. An order with a cause other than a SIN
demand goes to the partner (R271). -/
def State.blockNow (s : State) (cause : Nat) : State :=
  let s : State := { s with sfi := { s.sfi with hblStop := none, hblOrder := s.sfi.hblOrder || cause == 1 || cause == 3 } }
  let tell (s : State) : State := if cause = 1 then s else { s with sfi := { s.sfi with sendBlock := true } }
  if s.sfiState = stBlock then
    if s.bit F.SFI_STAT_INJ then tell s
    else (((tell s).setBit F.SFI_STAT_INJ true).setFld F.SFI_STAT_BLK_CAUSE cause).injectAll true
  else
    let s := (((((tell s).apwAll).setFld F.SFI_STAT_STATE stBlock).setFld F.SFI_STAT_BLK_CAUSE cause).setBit F.SFI_STAT_INJ true).inc F.SFI_BLOCK_CNT_V
    (((s.injectAll true).armsOff.safetyHit 1).raise 177).apwAll

/-- SAFE BLOCK is ordered by the SCP, and on a SIN demand and at T_stop_max by the HBL as well: the SCP gives no order while self-test 0
holds it in reset (Table 11.4). -/
def State.safeBlock (s : State) (cause : Nat) : State := if s.scpDead && cause != 1 && cause != 3 then s else s.blockNow cause

/-! ## Roles (Table 12.1) -/

def roleInit : Nat := 0
def roleStandby : Nat := 1
def roleActive : Nat := 2

def State.role (s : State) : Nat := s.fld F.RDU_STAT_ROLE

/-! ## READY (R279) -/

/-- Every configured SM has had its mirrored key since the link came up: a full sweep. -/
def State.keysSwept (s : State) : Bool := s.cfg.arm.all (fun e => spGet false s.rdu.swept e.1)

/-- R279. -/
def State.readyNow (s : State) : Bool :=
  s.role == roleStandby && s.bit F.SFI_STAT_SFS_OK && !s.bit F.RDU_STAT_REL_HOLD && s.bit F.RDU_STAT_PL_UP &&
    decide (16 ≤ s.rdu.mirOk) && s.keysSwept &&
    (match s.rdu.partner with
     | some l => l.mlist == s.cfg.mlistId
     | none => false)

def State.refreshReady (s : State) : State := s.setBit F.RDU_STAT_READY s.readyNow

/-! ## SFS_OK (R259, R270) -/

/-- R270: in RUN, with the own SFS_OK low and the partner's low or unknown for 64 cycles, SAFE STOP. -/
def State.singleTech (s : State) : State :=
  let partnerLow := match s.rdu.partner with
    | some l => !l.sfsOk
    | none => false
  if s.sfiState == stRun && !s.bit F.SFI_STAT_SFS_OK && (partnerLow || s.sfi.linkDown64) then s.safeStop 2 else s

/-- Drive SFS_OK by R259; a change raises source 181 and may change READY (R279). -/
def State.sfsRefresh (s : State) : State :=
  let v := s.sfi.verified && s.bit F.SFI_STAT_HBL_OK && s.bit F.SFI_STAT_SCP_OK && s.fld F.SFI_STAT_TEST_FAIL == 0 &&
    !s.sys.vsafLost && !s.sfi.d3Lost
  if v == s.bit F.SFI_STAT_SFS_OK then s
  else ((s.setBit F.SFI_STAT_SFS_OK v).refreshReady.raise 181).singleTech

/-! ## Safety inputs (R260 to R262) -/

def State.differSince (s : State) (p : Nat) : Option Nat := spGet none s.sfi.differ p
def State.setDiffer (s : State) (p : Nat) (x : Option Nat) : State :=
  { s with sfi := { s.sfi with differ := spSet none s.sfi.differ p x } }

/-- T_disc of pair `p` in ns. -/
def State.tDisc (s : State) (p : Nat) : Nat := (F.SFI_SIN_CFG_TDISC_Q p).get (s.sinWord p) * 100

/-- T_filt of pair `p` in ns. -/
def State.tFilt (s : State) (p : Nat) : Nat := (F.SFI_SIN_CFG_FILT_Q p).get (s.sinWord p) * 50

/-- Latch a discrepancy of pair `p`. -/
def State.latchDisc (s : State) (p : Nat) : State :=
  if s.sfi.disc.getLsbD p then s
  else ({ s with sfi := { s.sfi with disc := s.sfi.disc ||| (1#8 <<< p) } } : State).raise 178

/-- The channels agree again after `d` ns of difference: the table of R262. -/
def State.differEnd (s : State) (p d : Nat) (band : Bool) : State :=
  let td := s.tDisc p
  if s.sfi.disc.getLsbD p then s
  else if td + 1000 ≤ d || (td ≤ d + 1000 && band) then s.latchDisc p
  else if td ≤ 2 * d then (s.inc (F.SFI_DNEAR_CNT_V p)).raise 179
  else s

/-- The filter of channel A or B of pair `p` can have changed again: since its last change the pin can have held the other level for T_filt
(R260). -/
def State.filtered (s : State) (p : Nat) (chB active : Bool) : Bool :=
  (if chB then s.sfi.bAct.getLsbD p else s.sfi.aAct.getLsbD p) != active &&
    (match spGet none s.sfi.sinAt (2 * p + chB.toNat) with
     | some t0 => decide (t0 + s.tFilt p ≤ s.mono)
     | none => true)

/-- Give channel A or B of pair `p` a new filtered state. -/
def State.setSin (s : State) (p : Nat) (chB active : Bool) : State :=
  let put (v : BitVec 8) : BitVec 8 := (v &&& ~~~(1#8 <<< p)) ||| (if active then 1#8 <<< p else 0)
  let s : State := { s with sfi := { s.sfi with sinAt := spSet none s.sfi.sinAt (2 * p + chB.toNat) (some s.mono) } }
  if chB then { s with sfi := { s.sfi with bAct := put s.sfi.bAct } }
  else { s with sfi := { s.sfi with aAct := put s.sfi.aAct } }

/-- Measure the difference of the channels of pair `p` (R262). -/
def State.differTrack (s : State) (p : Nat) (band : Bool) : State :=
  let d := s.sfi.aAct.getLsbD p != s.sfi.bAct.getLsbD p
  match s.differSince p with
  | none => if d then s.setDiffer p (some s.mono) else s
  | some t0 => if d then s else (s.differEnd p (s.mono - t0) band).setDiffer p none

/-- A demand of pair `p` takes effect. -/
def State.actDemand (s : State) (p : Nat) : State :=
  if s.demand p then
    if s.fld (F.SFI_SIN_CFG_FUNC p) = 2 then s.safeBlock 1 else s.safeStop 1
  else s

/-- SIN_FILTERED_CHANGE (R260 to R262, R264, R256). With the controller die in reset only the HBL sees it. One filtered state stands for
the filters of both technologies, which watch one pin with one T_filt (log entry 91). -/
def execSinChange (t : Nat) (p : Fin 8) (chB active band : Bool) (s : State) : Host.Outcome State Fault Refusal :=
  .next (
    let s := s.tick t
    if s.sys.vsafLost || !s.filtered p chB active then s
    else
      let s := (s.setSin p chB active).differTrack p band
      if s.held then s.hblAct p else s.actDemand p)

/-- DISCREPANCY_LATCH (R262): the difference has reached T_disc, within the band of 1 us. -/
def execDiscrepancyLatch (t : Nat) (p : Fin 8) (s : State) : Host.Outcome State Fault Refusal :=
  .next (
    let s := s.tick t
    match s.differSince p with
    | none => s
    | some t0 => if s.tDisc p ≤ s.mono - t0 + 1000 ∧ s.sys.vsafLost = false then s.latchDisc p else s)

/-! ## Monitored ramp-down (R266, Table 11.2) -/

/-- A word fails the envelope, or a monitor falls silent: SAFE BLOCK at once. -/
def State.envExit (s : State) : State := ((s.setBit F.SFI_STAT_ENV_EXIT true).raise 180).safeBlock 2

/-- The envelope of R266 for monitor `c` and |x| in units of 2^-149. -/
def State.withinEnvelope (s : State) (c x : Nat) : Bool :=
  envOk x (envRamp (s.mon c).i0 (s.mono - s.sfi.stopAt) (s.rd (R.SFI_MON_RATE c))) (s.rd (R.SFI_MON_TOL c))

/-- Monitor `c` reads a result word: value in LSB, SETTLING, OVERRANGE. -/
def State.monWord (s : State) (c : Nat) (v : Int) (settling ovr : Bool) : State :=
  if settling || !s.bit (F.SFI_MON_CFG_EN c) || s.scpDead then s
  else
    let x : Option Nat := (fx32 (s.rd (R.SFI_MON_SCALE c))).map (v.natAbs * ·)
    if s.sfiState = stStop then
      match x with
      | none => s.envExit
      | some x =>
        if ovr || !s.withinEnvelope c x then s.envExit
        else
          let m := s.mon c
          s.setMon c { m with inTol := if envOk x (some (some 0)) (s.rd (R.SFI_MON_TOL c)) then (if m.inTol.isSome then m.inTol else some s.mono) else none }
    else
      match x with
      | none => s
      | some x =>
        let keep := (s.mon c).words.filter (fun w => decide (s.mono ≤ w.1 + s.fld (F.SFI_MON_CFG_PEAK_WIN c) * 10 ^ 6))
        s.setMon c { s.mon c with words := (s.mono, x) :: keep }

/-- Every monitor on MSU channel `ch` reads a word. -/
def State.monitors (s : State) (ch : Nat) (v : Int) (settling ovr : Bool) : State :=
  (List.range 8).foldl (fun s c => if s.fld (F.SFI_MON_CFG_CHAN c) = ch then s.monWord c v settling ovr else s) s

/-- STOP_COMPLETE (Table 11.2): every enabled monitor has been within TOL for 1 ms. -/
def execStopComplete (t : Nat) (s : State) : Host.Outcome State Fault Refusal :=
  .next (s.onDie t fun s =>
    let ok (c : Nat) : Bool := !s.bit (F.SFI_MON_CFG_EN c) ||
      (match (s.mon c).inTol with
       | some t0 => decide (t0 + 10 ^ 6 ≤ s.mono)
       | none => false)
    if s.sfiState == stStop && !s.scpDead && decide (s.sfi.stopAt + 10 ^ 6 ≤ s.mono) && (List.range 8).all ok then s.safeBlock 4 else s)

/-- The HBL's timer has run out: T_stop_max is its own copy while the controller die is in reset. -/
def State.hblExpired (s : State) : Bool :=
  match s.sfi.hblStop with
  | some t0 => decide (t0 + (if s.held then s.sfi.hblTstop else s.fld F.SFI_TSTOP_MAX_V) * 1000 ≤ s.mono)
  | none => false

/-- TSTOP_EXPIRY (Table 11.2): the SCP's timer, or the HBL's own, which runs on with the controller die in reset. -/
def execTstopExpiry (t : Nat) (s : State) : Host.Outcome State Fault Refusal :=
  .next (
    let s := s.tick t
    if s.held then (if s.hblExpired && !s.sys.vsafLost then s.hblBlock else s)
    else if (s.sfiState = stStop ∧ s.sfi.stopAt + s.fld F.SFI_TSTOP_MAX_V * 1000 ≤ s.mono) ∨ s.hblExpired = true then
      ((s.setBit F.SFI_STAT_TSTOP_EXP true).raise 180).safeBlock 3
    else s)

/-! ## Host requests (R263, R264, R273) -/

/-- A refused RELEASE or ACK. -/
def State.relRefuse (s : State) : State := (s.setBit F.SFI_STAT_REL_REF true).raise 183

/-- SFI_CTL.RELEASE (R273); without privilege the write has no effect. -/
def State.sfiRelease (s : State) (m : Acc) : State :=
  if s.priv m then
    let s := s.touchPriv
    if s.sfiState == stBlock && s.bit F.SFI_STAT_SFS_OK && s.sfi.disc == 0 && !(List.range 8).any s.demand then
      let s := (((s.apwAll.setFld F.SFI_STAT_STATE stRun).setFld F.SFI_STAT_BLK_CAUSE 0).setFld F.SFI_STAT_STOP_CAUSE 0).setBit F.SFI_STAT_INJ false
      (({ s with sfi := { s.sfi with hblOrder := false, hblStop := none } } : State).injectAll false).raise 177 |>.apwAll
    else s.relRefuse
  else s

/-- SFI_CTL.ACK of the pairs of `mask` (R263). -/
def State.sfiAck (s : State) (m : Acc) (mask : BitVec 8) : State :=
  if s.priv m then
    (List.range 8).foldl (fun s p =>
      if mask.getLsbD p then
        if s.sfi.disc.getLsbD p && !s.sfi.aAct.getLsbD p && !s.sfi.bAct.getLsbD p then
          { s with sfi := { s.sfi with disc := s.sfi.disc &&& ~~~(1#8 <<< p) } }
        else s.relRefuse
      else s) s.touchPriv
  else s

/-- SFI_CTL.STOP_REQ (R264). -/
def State.sfiStopReq (s : State) (m : Acc) : State := if s.priv m then s.touchPriv.safeStop 3 else s

/-- SFI_CTL.BLOCK_REQ (Table 11.7). -/
def State.sfiBlockReq (s : State) (m : Acc) : State := if s.priv m then s.touchPriv.safeBlock 6 else s

/-- RELEASE (R273). -/
def execRelease (t : Nat) (by' : Acc) (s : State) : Host.Outcome State Fault Refusal := .next (s.onDie t (·.sfiRelease by'))

/-- ACK (R263). -/
def execAck (t : Nat) (by' : Acc) (mask : BitVec 8) (s : State) : Host.Outcome State Fault Refusal :=
  .next (s.onDie t (·.sfiAck by' mask))

/-- STOP_REQ (R264). -/
def execStopReq (t : Nat) (by' : Acc) (s : State) : Host.Outcome State Fault Refusal := .next (s.onDie t (·.sfiStopReq by'))

/-- BLOCK_REQ (R256). -/
def execBlockReq (t : Nat) (by' : Acc) (s : State) : Host.Outcome State Fault Refusal := .next (s.onDie t (·.sfiBlockReq by'))

/-- SCP_RESTART_COMPLETE (R378): the SCP runs its program again after a live update, unless self-test 0 holds it in reset. -/
def execScpRestartComplete (t : Nat) (s : State) : Host.Outcome State Fault Refusal :=
  .next (s.onDie t fun s =>
    if s.sfi.scpRestart then
      (({ s with sfi := { s.sfi with scpRestart := false } } : State).setBit F.SFI_STAT_SCP_OK (!s.scpDead)).sfsRefresh
    else s)

end Sys2Proof.Machine
end

