-- ==== Sys2Proof/Machine/Rdu.lean ====
section
/-! DEFINITION. Roles, lease, epochs, fencing, giving up control, Equinox, breaks and relays (12_redundancy.md, R127 to R131):
the operations that the commands of several units share. -/

namespace Sys2Proof.Machine

/-! ## Cycle numbers -/

/-- Number of the cycle in progress (R29). -/
def State.cycNow (s : State) : Nat := s.now / s.tc

/-- The full number nearest to `ref` of a 32-bit cycle number (log entry 12). -/
def fullCycle (ref : Nat) (c : BitVec 32) : Nat :=
  let b := ref / 2 ^ 32 * 2 ^ 32 + c.toNat
  if b + 2 ^ 31 < ref then b + 2 ^ 32 else if ref + 2 ^ 31 < b ∧ 2 ^ 32 ≤ b then b - 2 ^ 32 else b

/-- Low 32 bits of a cycle number. -/
def cyc32 (k : Nat) : BitVec 32 := BitVec.ofNat 32 k

/-! ## Roles (Table 12.1) -/

def State.setRole (s : State) (r : Nat) : State :=
  let s : State := { s with rdu := { s.rdu with leaseAt := if s.leaseHeld == (r == roleActive) then s.rdu.leaseAt else s.now } }
  s.setFld F.RDU_STAT_ROLE r

/-- The unit's own END value (Table 5.2). -/
def State.ownEnd (s : State) : Nat := if s.sys.uid then 2 else 1

/-- An active image is in force. -/
def State.imageOn (s : State) : Bool := !s.bit F.CFC_STAT_NOIMG && !s.sys.booting

/-! ## Ports -/

def phOff : Nat := 0
def phLight : Nat := 1
def phIdent : Nat := 2
def phSession : Nat := 3
def phAlign : Nat := 4
def phService : Nat := 5
def phRelay : Nat := 6
def phDark : Nat := 7

def State.port (s : State) (n : Nat) : Port := spGet {} s.ports n
def State.setPort (s : State) (n : Nat) (p : Port) : State := { s with ports := spSet {} s.ports n p }
def State.phase (s : State) (n : Nat) : Nat := s.fld (F.RPU_PORT_STAT_PHASE n)

/-- A change of PHASE raises source n (Table 5.11 and the text after Table 5.14). -/
def State.setPhase (s : State) (n ph : Nat) : State :=
  if s.phase n = ph then s else (s.setFld (F.RPU_PORT_STAT_PHASE n) ph).raiseKey n s.portKey

/-- A change of BROKEN raises source n. -/
def State.setBroken (s : State) (n : Nat) (b : Bool) : State :=
  if s.bit (F.RPU_PORT_STAT_BROKEN n) == b then s else (s.setBit (F.RPU_PORT_STAT_BROKEN n) b).raiseKey n s.portKey

/-- The device sets a W1C flag of RPU_PORTn_STAT for what happened at the place `key`; source n is raised when it was clear (log
entry 13). -/
def State.portFlagAt (s : State) (n key : Nat) (f : Nat → RF) : State :=
  if s.bit (f n) then s else (s.setBit (f n) true).raiseKey n key

/-- The same for the port itself. -/
def State.portFlag (s : State) (n : Nat) (f : Nat → RF) : State := s.portFlagAt n s.portKey f

def State.enabled (s : State) (n : Nat) : Bool := s.bit (F.RPU_PORT_CTL_EN n)
/-- The enabled ring ports. -/
def State.rings (s : State) : List Nat := (List.range 64).filter s.enabled

/-- The port has entered service (PHASE in service, or relaying). -/
def State.inService (s : State) (n : Nat) : Bool := s.phase n == phService || s.phase n == phRelay

/-- A unit port becomes the origin end: ENUM and TIME from cycle c0, the first collect frame at t of c0 + 6 (R113). -/
def State.becomeOrigin (s : State) (n c0 : Nat) : State := s.setPort n { s.port n with origin := some (c0 + 6) }

/-- Enabled rings that this unit does not relay; a ring whose relay stopped with the partner link stays outside (R284,
R295). -/
def State.quorumRings (s : State) : List Nat := s.rings.filter (fun n => !(s.port n).relaying && !(s.port n).cut)

/-- The number of rings that makes a quorum of `n`: TQ, or a majority where TQ is 0 (R284). -/
def State.quorum (s : State) (n : Nat) : Nat :=
  let tq := s.fld F.RDU_LEASE_TQ
  if tq = 0 then n / 2 + 1 else tq

/-- A valid tail of cycle `j` has arrived at port `n`. -/
def State.tailOf (s : State) (j n : Nat) : Bool := (s.port n).tails.contains j

/-! ## Epochs (R282) -/

/-- Note an epoch seen or used: a new highest one goes to the lifetime store at once, into its two cells in turn. -/
def State.noteEpoch (s : State) (e : BitVec 32) : State :=
  if s.rd R.RDU_EPOCH_MAX < e then
    let s := s.wr R.RDU_EPOCH_MAX e
    let a := s.aon
    { s with aon := if a.epochNext then { a with epochB := some e, epochNext := false } else { a with epochA := some e, epochNext := true } }
  else s

/-- The smallest value above the highest epoch known with this unit's parity; none where it would need 0xFFFF_FFFF or
more. -/
def State.newEpoch (s : State) : Option (BitVec 32) :=
  let m := (s.rd R.RDU_EPOCH_MAX).toNat
  let par := if s.sys.uid then 0 else 1
  let e := if (m + 1) % 2 = par then m + 1 else m + 2
  if 0xFFFFFFFF ≤ e then none else some (BitVec.ofNat 32 e)

/-- UID_CONF of a claim that is refused (R282). -/
def State.setUidConf (s : State) : State := { s with sys := { s.sys with uidConf := true } }.setBit F.RDU_STAT_UID_CONF true

/-! ## Lifetime store counters (Table 17.15) -/

def State.setLt (s : State) (f : Lifetime → Lifetime) : State := { s with aon := { s.aon with lt := f s.aon.lt } }

/-! ## Taking the lease -/

/-- The unit may enter ACTIVE (R278, R8, R9). -/
def State.mayHold (s : State) : Bool := s.bit F.SFI_STAT_SFS_OK && !s.bit F.RDU_STAT_UID_CONF && s.imageOn

/-- Every relay ends: relaying ports stop sending down frames (R295). -/
def State.endRelays (s : State) : State :=
  let s := (List.range 64).foldl (fun s n =>
    if (s.port n).relaying then (s.setPort n { s.port n with relaying := false }).setPhase n phService else s) s
  { s with rdu := { s.rdu with relays := [], direct := [] } }

/-- Ports of a new holder: no origin end; a ring with no session in force is brought up from step 1 (R118). -/
def State.holderPorts (s : State) : State :=
  s.rings.foldl (fun s n =>
    let p := s.port n
    let s := s.setPort n { p with origin := none, smOrig := none, unitOrig := none, declared := false, noTail := none, partnerTail := false, cut := false }
    if s.phase n = phService ∧ p.sess.isSome then s else s.setPhase n phLight) s

/-- Take the lease (R282): new epoch, ACTIVE, source 184, down frames from the next cycle start, supplied reports for 16
computations (R294); the MDU's stale counts and clean reports start from zero (R292). A claim that would need 0xFFFF_FFFF is refused; a unit that may not hold stays as it is (R278). -/
def State.takeLease (s : State) : State :=
  if !s.mayHold then s
  else
    match s.newEpoch with
    | none => s.setUidConf.raise 191
    | some e =>
      let s := ((s.noteEpoch e).wr R.RDU_EPOCH e).setRole roleActive
      let s := (s.setBit F.RDU_STAT_READY false).setFld F.RDU_STAT_SILENT 0
      let s : State := { s with rdu := { s.rdu with sendFrom := s.cycNow + 1, extLeft := 16, silent := 0, giveUp := false, outTrans := [], outCond := [] } }
      let s : State := { s with mdu := { s.mdu with sms := spMap {} (fun r => { r with stale := 0, clean := 0 }) s.mdu.sms } }
      (s.endRelays.holderPorts).raise 184

/-- Leave ACTIVE: the ports in service become origin ends from the next cycle (R295); a ring whose bring-up had not ended
lights again. The conditions of its SMs stand until a mirror changes them (R292). -/
def State.dropLease (s : State) (role : Nat) : State :=
  let s := s.endRelays.setRole role
  let s : State := { s with rdu := { s.rdu with giveUp := false, backToInit := false, eqxN := none, mirOk := 0, mirIn := [], silent := 0 } }
  let sms := spMap {} (fun (r : SmRec) => { r with mirCause := if r.cause = 7 then 0 else r.cause, mirFrozen := r.frozen }) s.mdu.sms
  let s : State := { s with mdu := { s.mdu with sms := sms } }
  let s := s.setBit F.RDU_EQX_CTL_GO false
  s.rings.foldl (fun s n =>
    if s.inService n then s.becomeOrigin n (s.cycNow + 1)
    else if phLight < s.phase n ∧ s.phase n < phService then s.setPhase n phLight else s) s

/-! ## Fencing and giving up (R287 to R289) -/

/-- The holder is fenced. -/
def State.fence (s : State) : State :=
  if s.role = roleActive then
    let s := ((s.dropLease roleStandby).setBit F.RDU_STAT_REL_HOLD true).setBit F.RDU_STAT_FENCED true
    let s := (s.inc F.RDU_FENCE_CNT_V).setLt (fun l => { l with fencings := l.fencings + 1 })
    (s.raise 190).sendFco 0 0 4 0x04 none none
  else s

/-- The partner's last lease record shows READY and the link is up. -/
def State.partnerReady (s : State) : Bool := s.bit F.RDU_STAT_P_READY && s.bit F.RDU_STAT_PL_UP

/-- An ACTIVE unit gives up control at its next send point, or orders SAFE STOP where the partner is not READY (R288). -/
def State.giveUpControl (s : State) : State :=
  if s.role = roleActive then
    if s.partnerReady then { s with rdu := { s.rdu with giveUp := true } } else s.safeStop 2
  else s

/-- The FCO reaction RELEASE (Table 13.4). -/
def State.fcoRelease (s : State) : State :=
  if s.role = roleActive then s.giveUpControl else (s.setBit F.RDU_STAT_REL_HOLD true).refreshReady

/-! ## The first claim (R283) -/

/-- This unit is the preferred one. -/
def State.isPref (s : State) : Bool := s.bit F.RDU_RET_PREF == s.sys.uid

/-- The conditions of R283 on the unit itself. -/
def State.mayLeaveInit (s : State) : Bool :=
  s.role == roleInit && s.bit F.RDU_CTL_CLAIM_EN && s.imageOn && s.bit F.SFI_STAT_SFS_OK &&
    s.fld F.SYS_LC_STATE == 2

/-- The partner's last lease record shows ACTIVE. -/
def State.partnerActive (s : State) : Bool :=
  match s.rdu.partner with
  | some l => l.role == roleActive
  | none => false

/-- Claim by the timer cases of R283. -/
def State.claimDue (s : State) : Bool :=
  let w := s.fld F.RDU_CLAIM_WAIT_V * 10 ^ 6
  if s.bit F.RDU_STAT_PL_UP then s.isPref || decide (s.rdu.lastActive + w ≤ s.mono)
  else decide (s.rdu.linkDownAt + w ≤ s.mono)

/-- INIT unit: enter STANDBY where a holder shows, claim where R283 lets it. -/
def State.tryClaim (s : State) : State :=
  if s.mayLeaveInit then
    if s.bit F.RDU_STAT_PL_UP && s.partnerActive then s.setRole roleStandby
    else if s.claimDue && !s.bit F.RDU_STAT_UID_CONF then s.takeLease else s
  else s

/-- An INIT unit that sees valid tails of cycle `j` on a quorum of rings enters STANDBY (R283). -/
def State.tailsSeen (s : State) (j : Nat) : State :=
  let rs := s.quorumRings
  if s.mayLeaveInit && decide (s.quorum rs.length ≤ (rs.filter (s.tailOf j)).length) then s.setRole roleStandby else s

/-! ## Equinox (R290, R291) -/

def State.eqSt (s : State) (c : Nat) : State := s.setFld F.RDU_EQX_CTL_EQ_ST c

/-- Judge a request for cycle N. -/
def State.eqxRequest (s : State) (n : Nat) (lateOk : Bool) : State :=
  let accept (s : State) (n : Nat) : State := { s with rdu := { s.rdu with eqxN := some n } }.setBit F.RDU_EQX_CTL_GO true
  if s.role ≠ roleActive then (s.eqSt 6).raise 189
  else if !s.partnerReady then (s.eqSt 4).raise 189
  else if n * s.tc < s.now + 2 * s.tc then
    if lateOk then
      let n' := (s.now + 3 * s.tc - 1) / s.tc
      accept ((s.wr R.RDU_EQX_CYC (cyc32 n')).eqSt 3) n'
    else (s.eqSt 2).raise 189
  else accept s n

/-- EQX_GO (R290): privileged. -/
def execEqxGo (t : Nat) (by' : Acc) (lateOk : Bool) (s : State) : Host.Outcome State Fault Refusal :=
  .next (s.onDie t fun s =>
    if s.priv by' then
      (s.touchPriv.setBit F.RDU_EQX_CTL_LATE_OK lateOk).eqxRequest (fullCycle s.cycNow (s.rd R.RDU_EQX_CYC)) lateOk
    else s.setBit F.RDU_EQX_CTL_LATE_OK lateOk)

/-- RECLAIM_SETTLE (R296): the holder schedules an Equinox 1,024 cycles ahead. -/
def execReclaimSettle (t : Nat) (s : State) : Host.Outcome State Fault Refusal :=
  .next (s.onDie t fun s =>
    let settled := match s.rdu.readySince with
      | some t0 => decide (t0 + s.fld F.RDU_RET_SETTLE * 10 ^ 9 ≤ s.mono)
      | none => false
    if s.role == roleActive && s.bit F.RDU_RET_MODE && !s.isPref && s.partnerReady && settled && s.rdu.eqxN.isNone then
      (s.wr R.RDU_EQX_CYC (cyc32 (s.cycNow + 1024))).eqxRequest (s.cycNow + 1024) false
    else s)

/-- At the send point before t_N (R291): the holder's side. -/
def State.eqxHolder (s : State) : State :=
  if s.partnerReady then
    let s := (s.dropLease roleStandby).eqSt 1
    let s := (s.inc F.RDU_EQX_CNT_V).setLt (fun l => { l with equinox := l.equinox + 1 })
    (s.raise 185).raise 189
  else
    let s : State := { s with rdu := { s.rdu with eqxN := none } }
    ((s.setBit F.RDU_EQX_CTL_GO false).eqSt 5).raise 189

/-- At the send point before t_N (R291): the READY standby's side. -/
def State.eqxStandby (s : State) : State :=
  let s := s.takeLease
  if s.role = roleActive then
    ((((s.eqSt 1).inc F.RDU_EQX_CNT_V).setLt (fun l => { l with equinox := l.equinox + 1 }))).raise 189
  else s

/-! ## Host commands (R288, R289) -/

/-- RELEASE_REQ (R288): privileged. -/
def execReleaseReq (t : Nat) (by' : Acc) (s : State) : Host.Outcome State Fault Refusal :=
  .next (s.onDie t fun s => if s.priv by' then s.touchPriv.giveUpControl else s)

/-- Clear REL_HOLD by privileged write (R289). -/
def State.relClear (s : State) (m : Acc) : State :=
  if s.priv m then (s.touchPriv.setBit F.RDU_STAT_REL_HOLD false).refreshReady else s

/-- REL_CLR (R289). -/
def execRelClr (t : Nat) (by' : Acc) (s : State) : Host.Outcome State Fault Refusal := .next (s.onDie t (·.relClear by'))

/-- CLAIM_WAIT_EXPIRY (R283). -/
def execClaimWaitExpiry (t : Nat) (s : State) : Host.Outcome State Fault Refusal := .next (s.onDie t State.tryClaim)

/-! ## Breaks and relays (R127 to R131) -/

def State.ncfg (s : State) (n : Nat) : Nat := s.fld (F.RPU_PORT_GEOM_NCFG n)

/-- SMs in the far segment of broken ring `n` (R129). -/
def State.farSegment (s : State) (n : Nat) : Nat :=
  if s.bit (F.RPU_PORT_STAT_BRK_UNK n) then s.ncfg n
  else if s.sys.uid then s.fld (F.RPU_PORT_STAT_BRK_POS n) else s.ncfg n - 1 - s.fld (F.RPU_PORT_STAT_BRK_POS n)

/-- Lead at the partner's end of ring `n`. -/
def State.leadFar (s : State) (n : Nat) : Nat :=
  if s.sys.uid then s.fld (F.RPU_PORT_GEOM_LEAD_A n) else s.fld (F.RPU_PORT_GEOM_LEAD_B n)

/-- 110 ns + 5 ns/m x fibre + 1.6 ns per block, in tenths of a ns (R128). -/
def State.linkDelay (s : State) (blocks : Nat) : Nat := 1100 + 50 * s.fld F.PL_CTL_FIBRE_M + 16 * blocks

def State.p0Ofs (s : State) : Nat := s.fld F.TDS_CYC_P0_P0_Q * 4

/-- First condition of R129 for a relay of ring `n` behind the relays `ahead`. -/
def State.relayDownFits (s : State) (ahead : List Nat) (n : Nat) : Bool :=
  let b := (ahead.map (fun r => s.ncfg r + 8)).foldl (· + ·) 0
  decide (s.linkDelay b + 10 * (s.leadFar n + 20 * s.farSegment n) + 64 * (s.ncfg n + 3) + 1000 ≤ 10 * s.tc)

/-- Second condition of R129 for a relay of ring `n` beside the other relays. -/
def State.relayUpFits (s : State) (others : List Nat) (n : Nat) : Bool :=
  let u := (others.map (fun r => 2 * s.ncfg r + 3)).foldl (· + ·) 0
  decide (10 * (s.leadFar n + 20 * s.farSegment n) + 64 * (2 * s.ncfg n + 3) + s.linkDelay u ≤
    min (15 * s.tc) (10 * (s.tc + s.p0Ofs) - 600))

/-- R129: the new relay takes the last place in the stream. -/
def State.relayAdmits (s : State) (n : Nat) : Bool :=
  let rs := s.rdu.relays
  decide (rs.length < s.fld F.RDU_MIR_CFG_RELAY_CH) && s.relayDownFits rs n && s.relayUpFits rs n &&
    rs.all (fun r => s.relayUpFits (n :: rs.filter (· != r)) r)

/-- Declare ring `n` broken in cycle `k` (R127, R130). BROKEN may stand from an earlier lease: this holder still declares the break,
so that the ring is relayed again from its side (R295). -/
def State.declareBreak (s : State) (n k : Nat) : State :=
  if s.bit (F.RPU_PORT_STAT_BROKEN n) && (s.port n).declared then s
  else
    let s := match (s.port n).smOrig with
      | some (c, pos) =>
        if k ≤ c + 1 then (s.setFld (F.RPU_PORT_STAT_BRK_POS n) pos).setBit (F.RPU_PORT_STAT_BRK_UNK n) false
        else (s.setFld (F.RPU_PORT_STAT_BRK_POS n) 0).setBit (F.RPU_PORT_STAT_BRK_UNK n) true
      | none => (s.setFld (F.RPU_PORT_STAT_BRK_POS n) 0).setBit (F.RPU_PORT_STAT_BRK_UNK n) true
    let s := (s.setPort n { s.port n with declared := true }).setBroken n true
    if s.farSegment n = 0 then s
    else if s.bit (F.RPU_PORT_CTL_RELAY_EN n) && s.relayAdmits n then
      { s with rdu := { s.rdu with relays := s.rdu.relays ++ [n], direct := spSet none s.rdu.direct n none } }
    else (s.portFlag n F.RPU_PORT_STAT_OVER_CAP).sendFco 0 n 0 0x02 none none

/-- A relaying port stops and becomes the origin end from the next cycle (R131). -/
def State.endRelay (s : State) (n : Nat) : State :=
  let s := s.setPort n { s.port n with relaying := false }
  (s.setPhase n phService).becomeOrigin n (s.cycNow + 1)

end Sys2Proof.Machine
end

