-- ==== Sys2Proof/Machine/Fco.lean ====
section
/-! DEFINITION. The fault collector (13_faults.md): messages, reactions, fault state, Thaw, acknowledgement, injection; the
degraded action of RS_UNCORR (R350); the self-test failures of R274, whose reaction gives up control. -/

namespace Sys2Proof.Machine

/-! ## Kinds -/

def State.kind (s : State) (k : Nat) : FcoKind := spGet {} s.fco.kinds k
def State.setKind (s : State) (k : Nat) (x : FcoKind) : State := { s with fco := { s.fco with kinds := spSet {} s.fco.kinds k x } }

/-- FCO_RTk as the FCO applies it: a reserved kind's entry is ignored, so it reacts as a zero entry (R301). -/
def State.rt (s : State) (k : Nat) (f : Nat → RF) : Nat := if kindDefined k then s.fld (f k) else 0

/-- 1 ms, 10 ms, 100 ms or 1 s in ns. -/
def timeUnit (u : Nat) : Nat := 10 ^ (6 + u)

/-- Fallow period of kind `k` in ns; 0 where the count is 0. -/
def State.fallow (s : State) (k : Nat) : Nat := s.rt k F.FCO_RT_F_CNT * timeUnit (s.rt k F.FCO_RT_F_UNIT)
/-- W of kind `k` in ns. -/
def State.thawW (s : State) (k : Nat) : Nat := s.rt k F.FCO_RT_W_CNT * timeUnit (s.rt k F.FCO_RT_W_UNIT)

def State.kindAct (s : State) (k : Nat) : Bool := s.bit (F.FCO_KCNT_ACT k)
def State.kindLat (s : State) (k : Nat) : Bool := s.bit (F.FCO_KCNT_LAT k)

/-- Fault state and latch of a kind, in FCO_ACTw, FCO_LATw, FCO_KCNTk and ANY_LAT. -/
def State.setActLat (s : State) (k : Nat) (act lat : Bool) : State :=
  let s := (s.setBit (F.FCO_KCNT_ACT k) act).setBit (F.FCO_KCNT_LAT k) lat
  let s := (s.setFbit (F.FCO_ACT_V (k / 32)) (k % 32) act).setFbit (F.FCO_LAT_V (k / 32)) (k % 32) lat
  s.setBit F.FCO_STAT_ANY_LAT ((List.range 8).any (fun w => s.fld (F.FCO_LAT_V w) != 0))

/-! ## Degraded action of RS_UNCORR (R350) -/

/-- Page of the record store that holds an address. -/
def rsPage (a : Nat) : Nat := a / 4096

/-- Retire the page of a failing 64-bit word: the word reads zero, the rest is copied, the page is counted; with all 256
spares used RETIRE_FULL is set, and no further page is retired. -/
def State.retirePage (s : State) (a : Nat) : State :=
  if 256 ≤ s.memu.retired.length then s
  else
    let s : State := { s with memu := { s.memu with retired := s.memu.retired ++ [rsPage a] } }
    let s := ((s.setMd (a / 8 * 8) 0).inc F.MEM_RS_RETIRED_V).raise 231
    if 256 ≤ s.memu.retired.length then s.setBit F.MEM_STAT_RETIRE_FULL true else s

/-- The source unit's degraded action on entry to the fault state: the EVR's DEGRADED state (LOG_MEDIA), which the EVR has mostly entered by
itself (R317), a page retired (RS_UNCORR). Tiles, clusters and the others have theirs done or none. -/
def State.degrade (s : State) (k : Nat) (m : BitVec 64) : State :=
  let s := s.setKind k { s.kind k with degraded := true }
  if k = 0x41 then s.retirePage (msgQual m)
  else if k = 0x40 ∧ s.bit F.EVR_STAT_DEGRADED = false then (s.setBit F.EVR_STAT_DEGRADED true).raise 200
  else s

/-! ## Messages (R300 to R305) -/

/-- The event record of a message: the 64-entry queue, or the count of lost records (R303). -/
def State.fcoRecord (s : State) (k : Nat) (m : BitVec 64) (injected : Bool) : State :=
  if s.fco.recQ.length < 64 then
    let fl := s.evFlags 0xFF ||| (if injected then 0x4000 else 0)
    let r : EvRec := { time := s.now, code := 0x1000 + k, src := 192, value := m.extractLsb' 32 32, qual := m.extractLsb' 0 32, flags := fl }
    { s with fco := { s.fco with recQ := s.fco.recQ ++ [r] } }
  else ((s.inc F.FCO_DROP_CNT_V).setBit F.FCO_STAT_QOVF true).raise 195

/-- Entry to the fault state with the actions of classes INTERRUPT and DEGRADE; FALLOW count 0 latches at once. -/
def State.fcoEnter (s : State) (k : Nat) (m : BitVec 64) : State :=
  if s.kindAct k then s
  else
    let c := s.fcoClass k
    let s := s.setActLat k true (s.kindLat k)
    let s := s.raiseIf (decide (1 ≤ c)) 192
    let s := if 2 ≤ c then s.degrade k m else s
    if s.fallow k = 0 ∧ s.kindLat k = false then (s.setActLat k true true).raise 194 else s

/-- The actions of classes RELEASE, SAFE_STOP and SAFE_BLOCK, taken at every message (R302, R303). -/
def State.fcoOrders (s : State) (k : Nat) : State :=
  let c := s.fcoClass k
  if c < 3 then s
  else
    let s := s.fcoRelease
    let s := if 4 ≤ c then s.safeStop 2 else s
    let s := if 5 ≤ c then s.safeBlock 5 else s
    s.raise 197

/-- One message. -/
def State.fcoOne (s : State) (m : BitVec 64) (injected : Bool) : State :=
  let k := msgKind m
  let s := (s.inc F.FCO_MSG_CNT_V).inc (F.FCO_KCNT_MSGS k)
  let s := (s.setFld64 F.FCO_LAST_LO_V F.FCO_LAST_HI_V m.toNat).setFld64 F.FCO_LAST_TSL_V F.FCO_LAST_TSH_V s.now
  let s := (s.setFld F.FCO_STAT_LAST_KIND k).fcoRecord k m injected
  let s := s.setKind k { s.kind k with lastMsg := some s.mono }
  (s.fcoEnter k m).fcoOrders k

/-- Order of R300 on coincident messages: bits [63:52], then KIND. -/
def fcoKey (m : BitVec 64) : Nat := m.toNat / 2 ^ 52 * 256 + msgKind m

def insMsg (m : BitVec 64) : List (BitVec 64) → List (BitVec 64)
  | [] => [m]
  | x :: xs => if fcoKey m < fcoKey x then m :: x :: xs else x :: insMsg m xs

/-- FCO_MESSAGE (R300 to R304): the messages of one D3 cycle. -/
def execFcoMessage (t : Nat) (ms : List (BitVec 64)) (s : State) : Host.Outcome State Fault Refusal :=
  .next (s.onDie t fun s =>
    (ms.foldl (fun l m => insMsg m l) []).foldl (fun (s : State) m =>
      ({ s with fco := { s.fco with inFlight := s.fco.inFlight.erase m } } : State).fcoOne m false) s)

/-- A message of kind `k` that arrives at `t` waits behind the command in hand: of coincident events the message comes first (Table 13.5). -/
def State.msgDue (s : State) (t k : Nat) : Bool :=
  s.pending.any (fun c => match c with
    | .fcoMessage u ms => u == t && ms.any (fun m => msgKind m == k)
    | _ => false)

/-- The quiet timer of kind `k` has reached its Fallow period: Thaw, or latch at the K-th Thaw within W (R304, R305). -/
def State.fcoThaw (s : State) (k : Nat) : State :=
  let x := s.kind k
  let quiet := match x.lastMsg with
    | some t0 => decide (t0 + s.fallow k ≤ s.mono)
    | none => false
  if s.kindAct k && !s.kindLat k && decide (s.fallow k ≠ 0) && quiet then
    let kk := s.rt k F.FCO_RT_K
    let recent := x.thaws.filter (fun t => decide (s.mono ≤ t + s.thawW k))
    if 1 ≤ kk ∧ kk ≤ recent.length + 1 then (s.setActLat k true true).raise 194
    else
      let s := (s.setActLat k false false).setKind k { x with thaws := s.mono :: recent, degraded := false }
      let s := (s.inc (F.FCO_KCNT_THAWS k)).inc F.FCO_THAW_CNT_V
      (s.setLt (fun l => { l with thaw := spSet 0 l.thaw k (spGet 0 l.thaw k + 1) })).raise 193
  else s

/-- THAW (R304, R305): none where a message of the kind arrives in the same instant. -/
def execThaw (t : Nat) (kind : Fin 256) (s : State) : Host.Outcome State Fault Refusal := .next (s.onDie t fun s => if s.msgDue t kind then s else s.fcoThaw kind)

/-! ## Host (R306, R307) -/

/-- A write of kind `k` to FCO_ACK. -/
def State.ackKind (s : State) (m : Acc) (k : Nat) : State :=
  let x := s.kind k
  let due := s.msgDue s.now k
  let period := if s.fallow k = 0 then 10 ^ 6 else s.fallow k
  let quiet := match x.lastMsg with
    | some t0 => decide (t0 + period ≤ s.mono)
    | none => true
  let allowed := decide (s.fcoClass k < 3) || s.priv m
  let s := if s.priv m then s.touchPriv else s
  if quiet && allowed && !due then
    (s.setActLat k false false).setKind k { x with thaws := [], degraded := false }
  else (s.setBit F.FCO_STAT_ACK_REF true).raise 196

/-- FCO_ACK (R306). -/
def execFcoAck (t : Nat) (by' : Acc) (kind : Fin 256) (s : State) : Host.Outcome State Fault Refusal :=
  .next (s.onDie t (·.ackKind by' kind))

/-- A write to FCO_INJ_HI (R307). -/
def State.inject (s : State) (hi : BitVec 32) : State :=
  let s := s.wr R.FCO_INJ_HI hi
  if s.fld F.SYS_LC_STATE = 0 then (s.fcoOne (hi ++ s.rd R.FCO_INJ_LO) true).raise 198
  else s.setBit F.FCO_STAT_INJ_REF true

/-- FCO_INJ (R307). -/
def execFcoInj (t : Nat) (hi : BitVec 32) (s : State) : Host.Outcome State Fault Refusal := .next (s.onDie t (·.inject hi))

/-! ## Self-tests (R274, Table 11.4) -/

/-- A periodic self-test fails: TEST_FAIL, SFS_OK, source 181, FCO message, RELEASE of the lease. Bit 0 holds the SCP in reset;
a failing technology loses its OK bit. -/
def State.selfTest (s : State) (i : Nat) : State :=
  let s := s.setFbit F.SFI_STAT_TEST_FAIL i true
  let s := if i = 0 then s.setBit F.SFI_STAT_SCP_OK false else if 2 ≤ i then s.setBit F.SFI_STAT_HBL_OK false else s
  let ok := s.bit F.SFI_STAT_SFS_OK
  let s := (s.setBit F.SFI_STAT_SFS_OK false).refreshReady.raise 181
  let scp := decide (i ≤ 1)
  let s := s.sendFco 3 0 (if scp then 0 else 1) (if i = 0 then 0xE1 else 0xE0) none none
  let s := s.giveUpControl
  if ok then s.singleTech else s

/-- SELF_TEST_FAILURE (R259, R270, R274). -/
def execSelfTestFailure (t : Nat) (test : Fin 8) (s : State) : Host.Outcome State Fault Refusal :=
  .next (s.onDie t (·.selfTest test))

end Sys2Proof.Machine
end

