-- ==== Sys2Proof/Machine/Operands.lean ====
section
/-! DEFINITION. Operand forms of the signal engines: the formats of Table 8.1, the operands that each opcode of Table 8.2
uses, registers under rotation (R186, R188), register pairs. -/

namespace Sys2Proof.Machine

/-! ## Formats (Table 8.1) -/

/-- Which operands an opcode uses: registers D, A, B, C of format Q; D, A with an immediate (I); D with an immediate (U); A
with an offset, or an offset alone (J). -/
inductive Shape where
  | none | da | dab | dabc | a | ab | dai | ai | du | aj | j
deriving DecidableEq, Repr

/-- Table 8.2; none for a reserved opcode. -/
def seShape (op : Nat) : Option Shape :=
  if op = 0x00 ∨ op = 0x30 ∨ op = 0x3F then some .none
  else if op = 0x04 ∨ op = 0x05 ∨ op = 0x0A ∨ op = 0x22 then some .dabc
  else if op = 0x08 ∨ op = 0x09 ∨ (0x0D ≤ op ∧ op ≤ 0x10) then some .da
  else if op = 0x15 ∨ op = 0x20 ∨ (0x25 ≤ op ∧ op ≤ 0x2F) then some .dai
  else if op = 0x23 ∨ op = 0x24 then some .du
  else if op = 0x38 ∨ op = 0x39 then some .aj
  else if op = 0x3A ∨ op = 0x3B then some .j
  else if op = 0x3C then some .ai
  else if op = 0x3D then some .a
  else if op = 0x3E then some .ab
  else if op = 0x17 ∨ (0x31 ≤ op ∧ op ≤ 0x37) then Option.none
  else if op < 0x40 then some .dab
  else Option.none

/-- Sign-extended fields. -/
def imm13 (v : BitVec 13) : BitVec 32 := v.signExtend 32
def imm16 (v : BitVec 16) : BitVec 32 := v.signExtend 32
def ofs19 (v : BitVec 19) : BitVec 32 := v.signExtend 32

/-- The word of an instruction; fields that its opcode does not use are zero. -/
def SeIns.word (i : SeIns) : BitVec 32 :=
  let base := (if i.p then 2 ^ 31 else 0) + i.op % 64 * 2 ^ 25
  let f (x sh : Nat) : Nat := x % 64 * 2 ^ sh
  BitVec.ofNat 32 (base + match seShape i.op with
    | some .da => f i.d 19 + f i.a 13
    | some .dab => f i.d 19 + f i.a 13 + f i.b 7
    | some .dabc => f i.d 19 + f i.a 13 + f i.b 7 + f i.c 1
    | some .a => f i.a 13
    | some .ab => f i.a 13 + f i.b 7
    | some .dai => f i.d 19 + f i.a 13 + i.imm.toNat % 2 ^ 13
    | some .ai => f i.a 13 + i.imm.toNat % 2 ^ 13
    | some .du => f i.d 19 + i.imm.toNat % 2 ^ 16
    | some .aj => f i.a 19 + i.imm.toNat % 2 ^ 19
    | some .j => i.imm.toNat % 2 ^ 19
    | _ => 0)

/-- The instruction that a word holds, none for a reserved opcode; fields that its opcode does not use read zero. -/
def seOfWord (w : BitVec 32) : Option SeIns :=
  let v := w.toNat
  let op := v / 2 ^ 25 % 64
  let d := v / 2 ^ 19 % 64
  let a := v / 2 ^ 13 % 64
  let b := v / 2 ^ 7 % 64
  let c := v / 2 % 64
  let i : SeIns := { p := decide (2 ^ 31 ≤ v), op := op }
  match seShape op with
  | Option.none => Option.none
  | some .none => some i
  | some .da => some { i with d := d, a := a }
  | some .dab => some { i with d := d, a := a, b := b }
  | some .dabc => some { i with d := d, a := a, b := b, c := c }
  | some .a => some { i with a := a }
  | some .ab => some { i with a := a, b := b }
  | some .dai => some { i with d := d, a := a, imm := imm13 (BitVec.ofNat 13 v) }
  | some .ai => some { i with a := a, imm := imm13 (BitVec.ofNat 13 v) }
  | some .du => some { i with d := d, imm := imm16 (BitVec.ofNat 16 v) }
  | some .aj => some { i with a := d, imm := ofs19 (BitVec.ofNat 19 v) }
  | some .j => some { i with imm := ofs19 (BitVec.ofNat 19 v) }

/-- Class of an opcode: 0 M, 1 L, 2 C. -/
def seClass (op : Nat) : Nat := if op < 0x18 then 0 else if op < 0x38 then 1 else 2

/-- Class orders in which a pair may execute (R189): M then L, M then C, C then L. -/
def pairOrder (x y : Nat) : Bool := (x == 0 && y == 1) || (x == 0 && y == 2) || (x == 2 && y == 1)

/-! ## Registers that an instruction reads and writes -/

/-- Opcodes whose D is a pair, and whose A is one (R189). -/
def pairD (op : Nat) : Bool := [0x12, 0x13, 0x14, 0x29, 0x2A, 0x2E, 0x2F].contains op
def pairA (op : Nat) : Bool := op == 0x15

/-- An odd register where a pair register is required. -/
def SeIns.odd (i : SeIns) : Bool := (pairD i.op && i.d % 2 == 1) || (pairA i.op && i.a % 2 == 1)

def SeIns.reads (i : SeIns) : List Nat :=
  let d := if [0x11, 0x24, 0x26, 0x28, 0x2D].contains i.op then [i.d]
    else if [0x12, 0x13, 0x2A, 0x2F].contains i.op then [i.d, i.d + 1] else []
  d ++ match seShape i.op with
    | some .da => [i.a]
    | some .dab => [i.a, i.b]
    | some .dabc => [i.a, i.b, i.c]
    | some .a => [i.a]
    | some .ab => [i.a, i.b]
    | some .dai => if pairA i.op then [i.a, i.a + 1] else [i.a]
    | some .ai => [i.a]
    | some .aj => [i.a]
    | _ => []

def SeIns.writes (i : SeIns) : List Nat :=
  if i.op = 0x11 then [i.d, i.a, i.b]
  else if i.op = 0x26 ∨ i.op = 0x2A ∨ i.op = 0x2D ∨ i.op = 0x2F then []
  else if i.op = 0x27 ∨ i.op = 0x2C then [i.d, i.a]
  else if i.op = 0x28 then [i.a]
  else if pairD i.op then [i.d, i.d + 1]
  else match seShape i.op with
    | some .da => [i.d]
    | some .dab => [i.d]
    | some .dabc => [i.d]
    | some .dai => [i.d]
    | some .du => [i.d]
    | _ => []

/-! ## The engines' registers -/

def State.eng (s : State) (n : Nat) : Eng := spGet {} s.tds.eng n
def State.setEng (s : State) (n : Nat) (x : Eng) : State := { s with tds := { s.tds with eng := spSet {} s.tds.eng n x } }

/-- Physical register of vi (R188). -/
def Eng.phys (x : Eng) (i : Nat) : Nat := if i < 32 then i else 32 + (i - 32 + x.rot) % 32

/-- vi; v0 reads 0 (R186). -/
def Eng.get (x : Eng) (i : Nat) : BitVec 32 := if x.phys i = 0 then 0 else spGet 0 x.v (x.phys i)

/-- Write a physical register; a write to v0 has no effect. -/
def Eng.putPhys (x : Eng) (r : Nat) (v : BitVec 32) : Eng := if r = 0 then x else { x with v := spSet 0 x.v r v }

def Eng.put (x : Eng) (i : Nat) (v : BitVec 32) : Eng := x.putPhys (x.phys i) v

/-- A pair, low word in the even register. -/
def Eng.pair (x : Eng) (i : Nat) : BitVec 64 := x.get (i + 1) ++ x.get i

end Sys2Proof.Machine
end

