-- ==== Sys2Proof/Machine/Signal.lean ====
section
/-! DEFINITION. The signal map (Table 1.6, R21, R22): a value written in a phase is seen from the next phase on. -/

namespace Sys2Proof.Machine

/-- Reserved entries read 0 and take no write (R21, R383). -/
def sigReserved (i : Nat) : Bool :=
  (0x114C ≤ i && i ≤ 0x114F) || (0x115C ≤ i && i ≤ 0x115F) || (0x1167 ≤ i && i ≤ 0x117F) || 0x4000 ≤ i

/-- Type of a signal-map entry (R382, R412): 1 fp32, 2 int32, 3 bit field, 0 untyped. -/
def State.sigType (s : State) (i : Nat) : Nat :=
  if i < 0x10F8 then 1 else if i < 0x1100 then 3 else if i < 0x1140 then 1
  else if 0x1150 ≤ i ∧ i < 0x115C then 2 else if i = 0x1164 then 3 else if 0x1160 ≤ i ∧ i < 0x1180 then 2
  else (spGet {} s.cfg.sigs i).ty

/-- The word of entry `i` has been found uncorrectable; it stays so until its producer writes it (R349). -/
def State.sigBreak (s : State) (i : Nat) : State := { s with sigUnc := spSet false s.sigUnc i true }

/-- What a consumer in the running phase sees; an uncorrectable word reads as Table 16.2 says. -/
def State.sigGet (s : State) (i : Nat) : BitVec 32 :=
  if sigReserved i then 0 else if spGet false s.sigUnc i then (if s.sigType i = 1 then 0x7FC00000 else 0) else spGet 0 s.sig i

/-- What the memory holds: the host's view. -/
def State.sigNow (s : State) (i : Nat) : BitVec 32 :=
  if sigReserved i then 0 else (spGet none s.sigHost i).getD ((spGet none s.sigNext i).getD (spGet 0 s.sig i))

/-- A producer writes in the running phase. -/
def State.sigPut (s : State) (i : Nat) (v : BitVec 32) : State :=
  if sigReserved i then s else { s with sigNext := spSet none s.sigNext i (some v), sigHost := spSet none s.sigHost i none }

/-- A write that consumers see at once: at P0 release, at an image switch. -/
def State.sigSet (s : State) (i : Nat) (v : BitVec 32) : State :=
  if sigReserved i then s else { s with sig := spSet 0 s.sig i v, sigUnc := spSet false s.sigUnc i false, sigNext := spSet none s.sigNext i none, sigHost := spSet none s.sigHost i none }

/-- A host write: consumers see it from the next P0 barrier on (Table 1.5). -/
def State.sigHostPut (s : State) (i : Nat) (v : BitVec 32) : State :=
  if sigReserved i then s else { s with sigHost := spSet none s.sigHost i (some v) }

/-- Put every value written in the last phase into the map that consumers see. -/
def sigMerge (m : Sparse (BitVec 32)) : Sparse (Option (BitVec 32)) → Sparse (BitVec 32)
  | [] => m
  | (i, some v) :: l => sigMerge (spSet 0 m i v) l
  | (_, none) :: l => sigMerge m l

/-- Entries that stay uncorrectable: those that are not written. -/
def sigHeal (u : Sparse Bool) (w : Sparse (Option (BitVec 32))) : Sparse Bool := u.filter (fun e => (spGet none w e.1).isNone)

/-- The next phase is released: what the last phase wrote is seen. -/
def State.sigFlush (s : State) : State :=
  { s with sig := sigMerge s.sig s.sigNext, sigUnc := sigHeal s.sigUnc s.sigNext, sigNext := [] }

/-- The P0 barrier takes what the host has written. -/
def State.sigHostIn (s : State) : State :=
  { s with sig := sigMerge s.sig s.sigHost, sigUnc := sigHeal s.sigUnc s.sigHost, sigHost := [] }

/-- An int32 word. -/
def toI32 (i : Int) : BitVec 32 := BitVec.ofInt 32 i

end Sys2Proof.Machine
end

