-- ==== Sys2Proof/Machine/Ecc.lean ====
section
/-! DEFINITION. Memory errors that several units find (R349, Table 16.2): corrections, isolated tiles and clusters, uncorrectable
words of the staging DPRAM. -/

namespace Sys2Proof.Machine

/-- ECC_CORRECTION in an SRAM: count, and source 227 at a multiple of 256. -/
def State.sramCorr (s : State) : State :=
  let c := s.fld F.MEM_SRAM_CORR_CNT_V
  (s.inc F.MEM_SRAM_CORR_CNT_V).raiseIf (decide (c + 1 < 2 ^ 32) && (c + 1) % 256 == 0) 227

/-- The engines of the clusters named by a mask. -/
def clusterEngines (m : BitVec 8) : BitVec 32 :=
  (List.range 8).foldl (fun v c => if m.getLsbD c then v ||| (0xF#32 <<< (4 * c)) else v) 0

/-- TDS_ENG_MASK (R206): host masking in force, isolated tiles, isolated clusters, clusters under re-admission. -/
def State.engMask (s : State) : BitVec 32 :=
  let adm : BitVec 8 := (List.range 8).foldl (fun v c => if s.bit (F.TDS_CL_CTL_ADMIT c) then v ||| (1 <<< c) else v) 0
  s.tds.hostMask ||| s.memu.tileIso ||| clusterEngines s.memu.cluIso ||| clusterEngines adm

/-- PRIO and EMASK of a descriptor (Table 8.3). -/
def dPrio (d : BitVec 64) : Nat := d.toNat / 2 ^ 61
def dEmask (d : BitVec 64) : BitVec 32 := BitVec.ofNat 32 (d.toNat / 2 ^ 26)

/-- Depth and peak of every ready queue (Table 8.12). -/
def State.qSync (s : State) : State :=
  (List.range 8).foldl (fun s p =>
    let n := (s.tds.queue.filter (fun d => dPrio d == p)).length
    let s := s.setFld (F.TDS_Q_STAT_DEPTH p) n
    if s.fld (F.TDS_Q_STAT_PEAK p) < n then s.setFld (F.TDS_Q_STAT_PEAK p) n else s) s

/-- Engines have become masked: descriptors in their prefetch slots that other engines may run go back to the ready queue (R16). One bound
to masked engines stays and is its engine's next descriptor (R197; log entry 116). -/
def State.maskSync (s : State) : State :=
  let m := s.engMask
  let away (d : BitVec 64) : Bool := dEmask d &&& ~~~m != 0
  ((List.range 32).foldl (fun s n =>
    let x := s.eng n
    if m.getLsbD n && x.pre.any away then
      let s : State := { s with tds := { s.tds with queue := x.pre.filter away ++ s.tds.queue } }
      s.setEng n { x with pre := x.pre.filter (fun d => !away d) }
    else s) s).qSync

/-- TILE_ISOLATION (R15): the tile of engine `n` is isolated at cluster level, and a message goes to the FCO. -/
def State.tileUnc (s : State) (n : Nat) : State :=
  let s : State := { s with memu := { s.memu with tileIso := s.memu.tileIso ||| (1 <<< n) } }
  (s.maskSync.setFbit (F.TDS_CL_CTL_ISOL (n / 4)) (n % 4) true).sendFco 1 (seInst n) 0 0x20 (some 1) none

/-- CLUSTER_ISOLATION (R16): an uncorrectable error of bank `c` isolates the cluster. -/
def State.bankUnc (s : State) (c : Nat) : State :=
  let s : State := { s with memu := { s.memu with cluIso := s.memu.cluIso ||| (1 <<< c) } }
  (s.maskSync.raise 226).sendFco 2 (c * 8) 0 0x21 (some 2) none

/-- DPRAM_UNCORRECTABLE: counted; the reader gets `dpValue`. -/
def State.dpUnc (s : State) : State := ((s.inc F.MEM_DP_UNC_CNT_V).setBit F.MEM_STAT_DP_UNC true).raise 225

/-- What a reader receives for an uncorrectable word: a NaN for an entry typed fp32, else zero. -/
def dpValue (fp : Bool) : BitVec 32 := if fp then 0x7FC00000 else 0

end Sys2Proof.Machine
end

