-- ==== Sys2Proof/Machine/Clu.lean ====
section
/-! DEFINITION. The control law unit (07_control_law.md): the slots' descriptors and states, the actions at P0 release (R184),
the evaluation in P3 (Table 7.2), the rule of R379 for scheduled actions. -/

namespace Sys2Proof.Machine

def State.clus (s : State) (i : Nat) : CluSlot := spGet {} s.clu.slots i
def State.setClus (s : State) (i : Nat) (x : CluSlot) : State := { s with clu := { s.clu with slots := spSet {} s.clu.slots i x } }

/-! ## Descriptor words -/

def CluDesc.en (d : CluDesc) : Bool := (F.CLU_SLOT_CTL_EN 0).get d.ctl != 0
def CluDesc.spSrc (d : CluDesc) : Nat := (F.CLU_SLOT_CTL_SP_SRC 0).get d.ctl
def CluDesc.aw (d : CluDesc) : Bool := (F.CLU_SLOT_CTL_AW 0).get d.ctl != 0
def CluDesc.dOnPv (d : CluDesc) : Bool := (F.CLU_SLOT_CTL_D_ON_PV 0).get d.ctl != 0
def CluDesc.notchEn (d : CluDesc) : Bool := (F.CLU_SLOT_CTL_NOTCH_EN 0).get d.ctl != 0
def CluDesc.ffEn (d : CluDesc) : Bool := (F.CLU_SLOT_CTL_FF_EN 0).get d.ctl != 0
def CluDesc.out2En (d : CluDesc) : Bool := (F.CLU_SLOT_CTL_OUT2_EN 0).get d.ctl != 0
def CluDesc.bumpless (d : CluDesc) : Bool := (F.CLU_SLOT_CTL_BUMPLESS 0).get d.ctl != 0
def CluDesc.pvIdx (d : CluDesc) : Nat := (F.CLU_SLOT_SEL_PV_IDX 0).get d.sel
def CluDesc.spIdx (d : CluDesc) : Nat := (F.CLU_SLOT_SEL_SP_IDX 0).get d.sel
def CluDesc.ffIdx (d : CluDesc) : Nat := (F.CLU_SLOT_SEL2_FF_IDX 0).get d.sel2
def CluDesc.out2Idx (d : CluDesc) : Nat := (F.CLU_SLOT_SEL2_OUT2_IDX 0).get d.sel2

/-- The shadow descriptor that the registers of slot `i` hold. -/
def State.cluShadow (s : State) (i : Nat) : CluDesc :=
  { ctl := s.rd (R.CLU_SLOT_CTL i), sel := s.rd (R.CLU_SLOT_SEL i), sel2 := s.rd (R.CLU_SLOT_SEL2 i),
    rup := s.rd (R.CLU_SLOT_RUP i), rdn := s.rd (R.CLU_SLOT_RDN i), kp := s.rd (R.CLU_SLOT_KP i),
    ki := s.rd (R.CLU_SLOT_KI i), kd := s.rd (R.CLU_SLOT_KD i), tf := s.rd (R.CLU_SLOT_TF i),
    kb := s.rd (R.CLU_SLOT_KB i), kff := s.rd (R.CLU_SLOT_KFF i), omin := s.rd (R.CLU_SLOT_OMIN i),
    omax := s.rd (R.CLU_SLOT_OMAX i), nf0 := s.rd (R.CLU_SLOT_N_F0 i), ndepth := s.rd (R.CLU_SLOT_N_DEPTH i),
    nbw := s.rd (R.CLU_SLOT_N_BW i), feThr := s.rd (R.CLU_SLOT_FE_THR i) }

/-- Tc in seconds, binary32. -/
def State.tSec (s : State) : BitVec 32 := frat32 s.tc (10 ^ 9)

/-! ## Notch (R177) -/

/-- Whether fp32 `a` is below the rational num / den (den > 0), exactly. -/
def fltRat (a : BitVec 32) (num : Int) (den : Nat) : Bool :=
  match fDecode fmt32 a.toNat with
  | .nan _ => false
  | .inf n => n
  | .fin n m e =>
    let v : Int := if n then -(m : Int) else m
    if 0 ≤ e then decide (v * 2 ^ e.toNat * den < num) else decide (v * den < num * 2 ^ (-e).toNat)

/-- 0 < N_F0 < 0.45/T, 0 ≤ N_DEPTH ≤ 1, 0 < N_BW ≤ 4 N_F0. -/
def State.notchValid (s : State) (d : CluDesc) : Bool :=
  flt32 0 d.nf0 && fltRat d.nf0 450000000 s.tc && fle32 0 d.ndepth && fle32 d.ndepth 0x3F800000 &&
  flt32 0 d.nbw && fLe fmt64 (fto64 d.nbw).toNat (fmul64 (fint64 4) (fto64 d.nf0)).toNat

/-- π in units of 2^-512. -/
def piFix : Nat :=
  0x3243F6A8885A308D313198A2E03707344A4093822299F31D0082EFA98EC4E6C89452821E638D01377BE5466CF34E90C6CC0AC29B7C97C50DD3F84D5B5B5470917

/-- Sum of `n` terms of an alternating series: each term is the last one times x² over `d` (d + 1), `x2` being x² in units of
2^-512. -/
def altSeries : Nat → Nat → Int → Nat → Int
  | 0, _, _, _ => 0
  | n + 1, x2, t, d => t + altSeries n x2 (-(t * x2 / 2 ^ 512 / (d * (d + 1) : Nat))) (d + 2)

/-- c = 1 / tan(π N_F0 T) for a period of `tc` ns, rounded once to binary64 from cos / sin (DESIGN CHOICE: the spec does not say
how tan and π are rounded; log entry 8). -/
def notchC (f0 : BitVec 32) (tc : Nat) : BitVec 64 :=
  match fDecode fmt32 f0.toNat with
  | .fin _ m e =>
    let v := piFix * m * tc
    let x : Int := if 0 ≤ e then Int.ofNat (v * 2 ^ e.toNat / 10 ^ 9) else Int.ofNat (v / (10 ^ 9 * 2 ^ (-e).toNat))
    let x2 := (x * x / 2 ^ 512).toNat
    let sin := (altSeries 100 x2 x 2).toNat
    let cos := (altSeries 100 x2 (2 ^ 512) 1).toNat
    BitVec.ofNat 64 (fRound fmt64 false (cos * 2 ^ 192 / max sin 1) (-192) (decide (cos * 2 ^ 192 % max sin 1 ≠ 0))).bits
  | _ => 0

/-- NB0, NB1, NB2, NA1, NA2, in binary64 and rounded to binary32 at the end; zero where the values are not valid. -/
def State.notchCoef (s : State) (d : CluDesc) : List (BitVec 32) :=
  if !s.notchValid d then [0, 0, 0, 0, 0] else
  let one := fint64 1
  let two := fint64 2
  let c := notchC d.nf0 s.tc
  let c2 := fmul64 c c
  let zp := fdiv64 (fto64 d.nbw) (fmul64 two (fto64 d.nf0))
  let zz := fmul64 (fto64 d.ndepth) zp
  let tp := fmul64 (fmul64 two zp) c
  let tz := fmul64 (fmul64 two zz) c
  let a0 := fadd64 (fadd64 c2 tp) one
  let b1 := fdiv64 (fmul64 two (fsub64 one c2)) a0
  [fto32 (fdiv64 (fadd64 (fadd64 c2 tz) one) a0), fto32 b1, fto32 (fdiv64 (fadd64 (fsub64 c2 tz) one) a0), fto32 b1,
   fto32 (fdiv64 (fadd64 (fsub64 c2 tp) one) a0)]

/-- The coefficients that a slot holds. -/
def State.cluCoef (s : State) (i : Nat) : List (BitVec 32) := (List.range 5).map (fun j => s.rd (R.CLU_SLOT_NC i j))

def State.setCoef (s : State) (i : Nat) (c : List (BitVec 32)) : State :=
  (List.range 5).foldl (fun s j => s.wr (R.CLU_SLOT_NC i j) (c.getD j 0)) s

/-! ## Scheduled actions (R379) -/

/-- Judge a request for cycle `n` when it is taken: the cycle in which it executes and whether it was late; none: LATE. -/
def State.judge (s : State) (n : Nat) (lateOk : Bool) : Option (Nat × Bool) :=
  if n * s.tc < s.now + 2 * s.tc then (if lateOk then some (s.cycNow + 1, true) else none) else some (n, false)

/-! ## Commit (R182, R183, R178) -/

/-- The entry's bound producer is an engine task of P3. -/
def State.sigP3 (s : State) (i : Nat) : Bool :=
  let d := spGet {} s.cfg.sigs i
  d.pkind == 1 && d.phase == 3

/-- Signal-map entries that a descriptor's selectors name, FF_IDX where `ff` asks for it; none for a channel or PSI number that does not
exist. SP_IDX is ignored where SP_SRC takes the register (Table 7.1). -/
def CluDesc.sels (d : CluDesc) (ff : Bool) : List (Option Nat) :=
  [some d.pvIdx] ++
  (if d.spSrc = 1 then [some d.spIdx]
   else if d.spSrc = 2 then [if d.spIdx < 256 then some (0x1000 + d.spIdx) else none]
   else if d.spSrc = 3 then [if d.spIdx < 4 then some (0x1024 + d.spIdx) else none] else []) ++
  (if ff then [some d.ffIdx] else [])

/-- A CLU output. -/
def isCluOut (i : Nat) : Bool := 0x1100 ≤ i && i < 0x1140

/-- Negative or NaN. -/
def negOrNan (x : BitVec 32) : Bool := fnan32 x || flt32 x 0

/-- CERR of a commit of descriptor `d` to slot `i`; 0: valid. Items 1 and 2 of R182 speak of every index, OUT2_IDX among them. -/
def State.cerr (s : State) (i : Nat) (d : CluDesc) : Nat :=
  let idx := d.sels true ++ [some d.out2Idx]
  if idx.any (fun o => match o with
      | none => true
      | some x => !isCluOut x && (s.sigType x != 1 || s.sigP3 x)) then 1
  else if idx.any (fun o => match o with
      | none => false
      | some x => isCluOut x && (decide (0x1100 + i ≤ x) || !(s.clus (x - 0x1100)).d.en)) then 2
  else if d.notchEn && !s.notchValid d then 3
  else if fnan32 d.omin || fnan32 d.omax || fle32 d.omax d.omin then 4
  else if [d.rup, d.rdn, d.tf, d.kb, d.feThr].any negOrNan then 5 else 0

/-- The stop rate of a slot that the override of R265 names while it is in force. -/
def State.stopNamed (s : State) (i : Nat) : Option (BitVec 32) :=
  if !s.clu.override then none
  else
    let m (lo hi : RF) : Bool := (s.fld64 lo hi).testBit i
    if m F.SFI_STOP_DC_LO_V F.SFI_STOP_DC_HI_V then some (s.rd R.SFI_RATE_DC)
    else if m F.SFI_STOP_AC_LO_V F.SFI_STOP_AC_HI_V then some (s.rd R.SFI_RATE_AC) else none

/-- AUTO in effect: by MODE, or under the override. -/
def State.cluAuto (s : State) (i : Nat) : Bool := !(s.clus i).man || (s.stopNamed i).isSome

/-- Number of slots with EN = 1. -/
def State.setNen (s : State) : State :=
  s.setFld F.CLU_STAT_NEN ((List.range 64).filter (fun i => (s.clus i).d.en)).length

/-- CLU_COMMIT_APPLY for slot `i`. -/
def State.cluCommit (s : State) (i : Nat) : State :=
  let new := s.cluShadow i
  let x := s.clus i
  let s := s.setClus i { x with commit := false }
  let x := s.clus i
  let e := s.cerr i new
  if e ≠ 0 then
    ((((s.setBit F.CLU_STAT_COMMIT_ERR true).setFld F.CLU_STAT_ERR_SLOT i).setBit (F.CLU_SLOT_STAT_COMMIT_ERR i) true).setFld
      (F.CLU_SLOT_STAT_CERR i) e).raise 116
  else
    let old := x.d
    let auto := s.cluAuto i
    let coef := s.notchCoef new
    let int := s.rd (R.CLU_SLOT_I i)
    let (x, int) := if auto && coef != s.cluCoef i then
        ({ x with q1 := x.qn1, q2 := x.qn1, qn1 := x.qn1, qn2 := x.qn1 }, fadd32 int (fsub32 x.qn1 x.q1)) else (x, int)
    let (x, int) := if auto && new.bumpless && (new.kp != old.kp || new.kd != old.kd) then
        let dn := if fle32 old.kd 0 && fle32 0 old.kd then 0 else fdiv32 (fmul32 x.d1 new.kd) old.kd
        let e1 := s.rd (R.CLU_SLOT_E i)
        ({ x with d1 := dn }, fadd32 int (fsub32 (fadd32 (fmul32 (fsub32 old.kp new.kp) e1) x.d1) dn)) else (x, int)
    (((s.setClus i { x with d := new }).wr (R.CLU_SLOT_I i) int).setCoef i coef).setNen

/-! ## P0 release (R184) -/

/-- Items 2 to 5 of R184 for slot `i`, `cyc` the cycle in which the P0 release falls. -/
def State.cluP0Slot (s : State) (cyc i : Nat) : State :=
  let x := s.clus i
  let x := { x with man := s.bit (F.CLU_SLOT_MODE_MANUAL i), manTrack := s.bit (F.CLU_SLOT_MODE_MAN_TRACK i),
                    spTrack := s.bit (F.CLU_SLOT_MODE_SP_TRACK i) }
  let s := if x.preset then s.wr (R.CLU_SLOT_I i) (fclamp32 (s.rd (R.CLU_SLOT_I_PRESET i)) x.d.omin x.d.omax) else s
  let x := { x with preset := false }
  let due := match x.sch with
    | some (n, late) => if n ≤ cyc then some late else none
    | none => none
  let (x, s) := match due with
    | some late =>
      let v := s.rd (R.CLU_SLOT_SCH_SP i)
      let s := if x.spPend then s else s.wr (R.CLU_SLOT_SP i) v
      ({ x with sp := v, sch := none },
       (((s.setBit (F.CLU_SLOT_SCH_CTL_ARM i) false).setFld (F.CLU_SLOT_SCH_CTL_SCH_ST i) (if late then 3 else 1)).raise 117))
    | none => (x, s)
  let x := { x with sp := if x.spPend then s.rd (R.CLU_SLOT_SP i) else x.sp, spPend := false, manOut := s.rd (R.CLU_SLOT_MAN_OUT i) }
  s.setClus i x

/-- The CLU at P0 release: commits in slot order, then the other host actions. -/
def State.cluP0 (s : State) (cyc : Nat) : State :=
  let s : State := { s with clu := { s.clu with override := s.sfiState == stStop } }
  let s := (List.range 64).foldl (fun s i => if (s.clus i).commit then s.cluCommit i else s) s
  let s := s.setBit F.CLU_STAT_COMMIT_PEND false
  (List.range 64).foldl (fun s i => s.cluP0Slot cyc i) s

/-! ## Evaluation (R166 to R176, R179, R180) -/

/-- The device sets a W1C flag of CLU_SLOTs_STAT: source `n` when it changes from 0 to 1. -/
def State.cluFlag (s : State) (f : RF) (n : Nat) : State := if s.bit f then s else (s.setBit f true).raise n

/-- A selector's value at P3 release: a chain takes the result of this evaluation (R167). -/
def State.cluRead (s : State) (i idx : Nat) : BitVec 32 :=
  if 0x1100 ≤ idx ∧ idx < 0x1100 + i ∧ (s.clus (idx - 0x1100)).d.en then s.rd (R.CLU_SLOT_Y (idx - 0x1100)) else s.sigGet idx

/-- Uncorrectable words among the entries `l` that a unit reads: each is counted (R349). -/
def State.dpSeen (s : State) (l : List Nat) : State := l.foldl (fun s i => if spGet false s.sigUnc i then s.dpUnc else s) s

/-- Quality bit of MSU channel `c` in the snapshot (R213). -/
def State.chanValid (s : State) (c : Nat) : Bool := (s.sigGet (0x10F8 + c / 32)).getLsbD (c % 32)

/-- The target and whether it is valid (Table 7.1). -/
def State.cluTarget (s : State) (i : Nat) (x : CluSlot) : BitVec 32 × Bool :=
  let chan (c : Nat) : BitVec 32 × Bool := let v := s.sigGet (0x1000 + c); (v, !fbad32 v && s.chanValid c)
  if x.d.spSrc = 0 then (x.sp, !fbad32 x.sp)
  else if x.d.spSrc = 1 then let v := s.cluRead i x.d.spIdx; (v, !fbad32 v)
  else if x.d.spSrc = 2 then (if x.d.spIdx < 256 then chan x.d.spIdx else (0, false))
  else (if x.d.spIdx < 4 then (s.sigGet (0x1024 + x.d.spIdx), s.chanValid (36 + x.d.spIdx)) else (0, false))

/-- Results of the steps of an evaluation that leave no NaN or infinity. -/
structure CluRes where
  r : BitVec 32
  i : BitVec 32
  y : BitVec 32
  u : BitVec 32
  q : BitVec 32
  qn : BitVec 32

/-- Steps 7 to 11 of Table 7.2. -/
def cluAutoLaw (d : CluDesc) (x : CluSlot) (coef : List (BitVec 32)) (t int p dd ff e : BitVec 32) : CluRes :=
  let q := fadd32 (fadd32 p int) dd
  let c (n : Nat) : BitVec 32 := coef.getD n 0
  let qn := if d.notchEn then
      fsub32 (fsub32 (fadd32 (fadd32 (fmul32 (c 0) q) (fmul32 (c 1) x.q1)) (fmul32 (c 2) x.q2)) (fmul32 (c 3) x.qn1)) (fmul32 (c 4) x.qn2)
    else q
  let u := fadd32 qn (fmul32 d.kff ff)
  let y := fclamp32 u d.omin d.omax
  let full := fmul32 (fmul32 d.ki t) e
  let same (a b : BitVec 32) : Bool := (flt32 0 a && flt32 0 b) || (flt32 a 0 && flt32 b 0)
  let di := if d.aw then fadd32 full (fmul32 (fmul32 d.kb t) (fsub32 y u))
    else if (flt32 y u || flt32 u y) && same (fmul32 d.ki e) (fsub32 u y) then 0 else full
  ⟨0, fclamp32 (fadd32 int di) d.omin d.omax, y, u, q, qn⟩

/-- R179. -/
def cluManLaw (d : CluDesc) (x : CluSlot) (p dd ff : BitVec 32) : CluRes :=
  let y := fclamp32 x.manOut d.omin d.omax
  let i := fclamp32 (fsub32 (fsub32 (fsub32 y (fmul32 d.kff ff)) p) dd) d.omin d.omax
  let q := fadd32 (fadd32 p i) dd
  ⟨0, i, y, y, q, q⟩

/-- FOLLOW_ERR (R173). -/
def State.cluFollow (s : State) (i : Nat) (w r : BitVec 32) : State :=
  let x := s.clus i
  if x.d.spSrc = 0 then s
  else if flt32 x.d.feThr (fabs32 (fsub32 w r)) then
    (if x.feArmed then ((s.setClus i { x with feArmed := false }).setBit (F.CLU_SLOT_STAT_FOLLOW_ERR i) true).raise 112 else s)
  else s.setClus i { x with feArmed := true }

/-- R180: y goes into MAN_OUT. -/
def State.cluTrack (s : State) (i : Nat) : State :=
  let x := s.clus i
  if x.manTrack then
    let y := s.rd (R.CLU_SLOT_Y i)
    (s.setClus i { x with manOut := y }).wr (R.CLU_SLOT_MAN_OUT i) y
  else s

/-- One evaluation of slot `i`, before its output is written. -/
def State.cluEval (s : State) (i : Nat) : State :=
  let x := s.clus i
  let d := x.d
  let t := s.tSec
  let auto := s.cluAuto i
  let ovr := s.stopNamed i
  let (w, ok) : BitVec 32 × Bool := match ovr with
    | some _ => (0, true)
    | none => s.cluTarget i x
  let s := s.dpSeen ((d.sels d.ffEn).filterMap (fun x => x))
  let s := if ok then s else s.cluFlag (F.CLU_SLOT_STAT_SP_INV i) 115
  let w := if ok then w else s.rd (R.CLU_SLOT_W i)
  let rup := ovr.getD d.rup
  let rdn := ovr.getD d.rdn
  let r0 := s.rd (R.CLU_SLOT_R i)
  let r := fadd32 r0 (fclamp32 (fsub32 w r0) (fneg32 (fmul32 rdn t)) (fmul32 rup t))
  let xv := s.cluRead i d.pvIdx
  let ff := if d.ffEn then s.cluRead i d.ffIdx else 0
  let e := fsub32 r xv
  let p := fmul32 d.kp e
  let v := if d.dOnPv then fneg32 xv else e
  let dd := fdiv32 (fadd32 (fmul32 d.tf x.d1) (fmul32 d.kd (fsub32 v x.v1))) (fadd32 d.tf t)
  let res := if auto then cluAutoLaw d x (s.cluCoef i) t (s.rd (R.CLU_SLOT_I i)) p dd ff e else cluManLaw d x p dd ff
  let lim := auto && (flt32 res.y res.u || flt32 res.u res.y)
  if [xv, ff, e, p, v, dd, fmul32 d.kff ff, res.q, res.qn, res.u, res.y].any fbad32 || (!auto && fbad32 res.i) then
    let s := s.cluFlag (F.CLU_SLOT_STAT_NAN i) 114
    if auto then s.cluTrack i else s
  else
    let s := if lim then s.cluFlag (F.CLU_SLOT_STAT_LIMIT i) 113 else s
    let x := { x with d1 := dd, v1 := v, q1 := res.q, qn1 := res.qn, q2 := if auto then x.q1 else res.q, qn2 := if auto then x.qn1 else res.q }
    let rr := if !auto && x.spTrack then xv else r
    let s := ((((((s.setClus i x).wr (R.CLU_SLOT_R i) rr).wr (R.CLU_SLOT_W i) w).wr (R.CLU_SLOT_E i) e).wr (R.CLU_SLOT_I i) res.i).wr
      (R.CLU_SLOT_Y i) res.y)
    let s := (s.setBit (F.CLU_SLOT_STAT_IN_LIMIT i) lim).setBit (F.CLU_SLOT_STAT_MAN_ACT i) (!auto)
    if auto then (s.cluFollow i w r).cluTrack i else s

/-- CLU_EVALUATION in P3: every enabled slot in ascending order. -/
def State.cluP3 (s : State) : State :=
  (List.range 64).foldl (fun s i =>
    if (s.clus i).d.en then let s := s.cluEval i; s.sigPut (0x1100 + i) (s.rd (R.CLU_SLOT_Y i)) else s) s

/-- OUT2_WRITE at P4 release. -/
def State.cluP4 (s : State) : State :=
  (List.range 64).foldl (fun s i =>
    let d := (s.clus i).d
    if d.en && d.out2En then s.sigPut d.out2Idx (s.rd (R.CLU_SLOT_Y i)) else s) s

/-! ## Image, mirror -/

/-- An image comes into force: active descriptors, class N words and coefficients from the registers (R177, R373, R377). -/
def State.cluLoad (s : State) : State :=
  (List.range 64).foldl (fun s i =>
    let x := s.clus i
    let d := s.cluShadow i
    (s.setClus i { x with d := d, sp := s.rd (R.CLU_SLOT_SP i), spPend := false }).setCoef i (s.notchCoef d)) s |>.setNen

/-- Pending scheduled steps end with status LATE (R377, R248). -/
def State.cluCancel (s : State) : State :=
  (List.range 64).foldl (fun s i =>
    let x := s.clus i
    if x.sch.isSome then
      ((((s.setClus i { x with sch := none }).setBit (F.CLU_SLOT_SCH_CTL_ARM i) false).setFld (F.CLU_SLOT_SCH_CTL_SCH_ST i) 2).raise 117)
    else s) s

/-- The mirror record of a slot (Table 12.4). -/
def State.cluRec (s : State) (i : Nat) : CluRec :=
  let x := s.clus i
  { slot := i, r := s.rd (R.CLU_SLOT_R i), i := s.rd (R.CLU_SLOT_I i), d1 := x.d1, v1 := x.v1, e1 := s.rd (R.CLU_SLOT_E i),
    q1 := x.q1, q2 := x.q2, qn1 := x.qn1, qn2 := x.qn2, y := s.rd (R.CLU_SLOT_Y i),
    mode := (if x.man then 1 else 0) + (if x.manTrack then 2 else 0) + (if x.spTrack then 4 else 0) }

/-- Load a mirrored record; a MODE write of the own host that waits stays. -/
def State.cluApply (s : State) (m : CluRec) : State :=
  let i := m.slot
  let x := s.clus i
  let wait := s.bit (F.CLU_SLOT_MODE_MANUAL i) != x.man || s.bit (F.CLU_SLOT_MODE_MAN_TRACK i) != x.manTrack ||
    s.bit (F.CLU_SLOT_MODE_SP_TRACK i) != x.spTrack
  let x := { x with d1 := m.d1, v1 := m.v1, q1 := m.q1, q2 := m.q2, qn1 := m.qn1, qn2 := m.qn2,
                    man := m.mode.testBit 0, manTrack := m.mode.testBit 1, spTrack := m.mode.testBit 2 }
  let s := if wait then s else s.wr (R.CLU_SLOT_MODE i) (BitVec.ofNat 32 (m.mode % 8))
  (((((s.setClus i x).wr (R.CLU_SLOT_R i) m.r).wr (R.CLU_SLOT_I i) m.i).wr (R.CLU_SLOT_E i) m.e1).wr (R.CLU_SLOT_Y i) m.y)

/-! ## Host writes -/

/-- A write to CLU_COMMIT_LO or HI. -/
def State.cluCommitReq (s : State) (hi : Bool) (mask : BitVec 32) : State :=
  let s := (List.range 32).foldl (fun s b =>
    if mask.getLsbD b then let i := b + (if hi then 32 else 0); s.setClus i { s.clus i with commit := true } else s) s
  s.when (mask != 0) (·.setBit F.CLU_STAT_COMMIT_PEND true)

/-- CLU_COMMIT (R182). -/
def execCluCommit (t : Nat) (hi : Bool) (mask : BitVec 32) (s : State) : Host.Outcome State Fault Refusal :=
  .next (s.onDie t (·.cluCommitReq hi mask))

def State.cluPresetReq (s : State) (i : Nat) : State := s.setClus i { s.clus i with preset := true }

/-- PRESET (R181). -/
def execPreset (t : Nat) (slot : Fin 64) (s : State) : Host.Outcome State Fault Refusal :=
  .next (s.onDie t (·.cluPresetReq slot))

/-- A write of CLU_SLOTs_MODE. -/
def State.cluModeWrite (s : State) (i : Nat) (v : BitVec 32) : State :=
  (s.wr (R.CLU_SLOT_MODE i) (v &&& 7)).when (v.getLsbD 3) (·.cluPresetReq i)

/-- A write of CLU_SLOTs_SP. -/
def State.cluSpWrite (s : State) (i : Nat) (v : BitVec 32) : State :=
  (s.setClus i { s.clus i with spPend := true }).wr (R.CLU_SLOT_SP i) v

/-- ARM of a scheduled step (R185, R379). -/
def State.schArm (s : State) (i : Nat) (lateOk : Bool) : State :=
  let x := s.clus i
  match s.judge (fullCycle s.cycNow (s.rd (R.CLU_SLOT_SCH_CYC i))) lateOk with
  | none => (s.setFld (F.CLU_SLOT_SCH_CTL_SCH_ST i) 2).raise 117
  | some (n, late) =>
    let s := if x.sch.isSome then s.setBit (F.CLU_SLOT_SCH_CTL_REPL i) true else s
    let s := (s.setClus i { x with sch := some (n, late) }).setBit (F.CLU_SLOT_SCH_CTL_ARM i) true
    if late then s.setFld (F.CLU_SLOT_SCH_CTL_SCH_ST i) 3 else s

/-- A write of CLU_SLOTs_SCH_CTL: LATE_OK, REPL (W1C), ARM. -/
def State.schCtlWrite (s : State) (i : Nat) (v : BitVec 32) : State :=
  let s := s.setBit (F.CLU_SLOT_SCH_CTL_LATE_OK i) (v.getLsbD 30)
  let s := s.when (v.getLsbD 27) (·.setBit (F.CLU_SLOT_SCH_CTL_REPL i) false)
  s.when (v.getLsbD 31) (·.schArm i (v.getLsbD 30))

/-- SCH_ARM (R185). -/
def execSchArm (t : Nat) (slot : Fin 64) (lateOk : Bool) (s : State) : Host.Outcome State Fault Refusal :=
  .next (s.onDie t fun s => (s.setBit (F.CLU_SLOT_SCH_CTL_LATE_OK slot) lateOk).schArm slot lateOk)

/-- CLU_FLAG_LO, HI: slots with a W1C flag set. -/
def State.cluFlagView (s : State) (hi : Bool) : BitVec 32 :=
  (List.range 32).foldl (fun v b =>
    if (s.rd (R.CLU_SLOT_STAT (b + (if hi then 32 else 0)))) &&& 0xF8000000 != 0 then v ||| (1 <<< b) else v) 0

end Sys2Proof.Machine
end

