-- ==== Sys2Proof/Machine/Crypto.lean ====
section
/-! DEFINITION. The algorithms that the spec takes from their standards by name (R94, R97, R121, R367, R369, R371, R389): AES-256-GCM
with 96-bit IVs (NIST SP 800-38D), SHA-384, HMAC and HKDF over it, ECDSA P-384. PRESUMED: written from the standards, which the
spec does not repeat (log entry 3). -/

namespace Sys2Proof.Machine

/-! ## AES-256 -/

/-- The S-box, entry 0 in the top byte. -/
def aesTable : Nat :=
  0x637C777BF26B6FC53001672BFED7AB76CA82C97DFA5947F0ADD4A2AF9CA472C0B7FD9326363FF7CC34A5E5F171D8311504C723C31896059A071280E2EB27B27509832C1A1B6E5AA0523BD6B329E32F8453D100ED20FCB15B6ACBBE394A4C58CFD0EFAAFB434D338545F9027F503C9FA851A3408F929D38F5BCB6DA2110FFF3D2CD0C13EC5F974417C4A77E3D645D197360814FDC222A908846EEB814DE5E0BDBE0323A0A4906245CC2D3AC629195E479E7C8376D8DD54EA96C56F4EA657AAE08BA78252E1CA6B4C6E8DD741F4BBD8B8A703EB5664803F60E613557B986C11D9EE1F8981169D98E949B1E87E9CE5528DF8CA1890DBFE6426841992D0FB054BB16

def aesSub (b : Byte) : Byte := BitVec.ofNat 8 (aesTable / 2 ^ (8 * (255 - b.toNat)))

/-- Multiplication by x in the AES field. -/
def aesX (b : Byte) : Byte := if b.getLsbD 7 then (b <<< 1) ^^^ 0x1B else b <<< 1

/-- SubWord. -/
def aesSubWord (w : BitVec 32) : BitVec 32 :=
  aesSub (w.extractLsb' 24 8) ++ aesSub (w.extractLsb' 16 8) ++ aesSub (w.extractLsb' 8 8) ++ aesSub (w.extractLsb' 0 8)

/-- The next `n` words of the key schedule; `ws` holds the words so far, newest first, `i` their number, `rc` the next round
constant. -/
def aesExpand : Nat → Nat → Byte → List (BitVec 32) → List (BitVec 32)
  | 0, _, _, ws => ws
  | n + 1, i, rc, ws =>
    let p := ws.headD 0
    let q := ws.getD 7 0
    let t := if i % 8 = 0 then aesSubWord (p.rotateLeft 8) ^^^ (rc ++ (0 : BitVec 24)) else if i % 8 = 4 then aesSubWord p else p
    aesExpand n (i + 1) (if i % 8 = 0 then aesX rc else rc) ((q ^^^ t) :: ws)

/-- Round keys 0 to 14, 16 bytes each. -/
def aesKeys (key : BitVec 256) : List (List Byte) :=
  let w0 := [7, 6, 5, 4, 3, 2, 1, 0].map (fun i => key.extractLsb' (32 * i) 32)
  let bs := (aesExpand 52 8 1 w0.reverse).reverse.flatMap (fun w => beBytes 4 w.toNat)
  (List.range 15).map (fun r => (bs.drop (16 * r)).take 16)

def xorBytes (a b : List Byte) : List Byte := List.zipWith (· ^^^ ·) a b

/-- SubBytes and ShiftRows; the state in column order. -/
def aesShift (s : List Byte) : List Byte :=
  (List.range 16).map (fun i => aesSub (s.getD (i % 4 + 4 * ((i / 4 + i % 4) % 4)) 0))

/-- MixColumns. -/
def aesMix (s : List Byte) : List Byte :=
  (List.range 16).map (fun i =>
    let c := i / 4 * 4
    let a (j : Nat) : Byte := s.getD (c + (i + j) % 4) 0
    aesX (a 0) ^^^ (aesX (a 1) ^^^ a 1) ^^^ a 2 ^^^ a 3)

/-- One block. -/
def aesBlock (ks : List (List Byte)) (b : List Byte) : List Byte :=
  let s := ((ks.drop 1).take 13).foldl (fun s k => xorBytes (aesMix (aesShift s)) k) (xorBytes b (ks.headD []))
  xorBytes (aesShift s) (ks.getD 14 [])

/-! ## GCM -/

/-- Product in GCM's field; bit 127 is the first bit. -/
def gcmMulFrom : Nat → BitVec 128 → BitVec 128 → BitVec 128 → BitVec 128
  | 0, _, _, z => z
  | n + 1, x, v, z =>
    gcmMulFrom n x (if v.getLsbD 0 then (v >>> 1) ^^^ (0xE1#128 <<< 120) else v >>> 1) (if x.getLsbD n then z ^^^ v else z)

def gcmMul (x y : BitVec 128) : BitVec 128 := gcmMulFrom 128 x y 0

/-- Blocks of 16 bytes, the last one padded with zeros. -/
def gcmBlocks : Nat → List Byte → List (BitVec 128)
  | 0, _ => []
  | n + 1, bs =>
    if bs.isEmpty then [] else BitVec.ofNat 128 (beNat (bs.take 16 ++ List.replicate (16 - bs.length) 0)) :: gcmBlocks n (bs.drop 16)

/-- The blocks that GHASH covers: additional data, ciphertext, their lengths in bits. -/
def gcmInput (aad ct : List Byte) : List (BitVec 128) :=
  gcmBlocks aad.length aad ++ gcmBlocks ct.length ct ++ [BitVec.ofNat 128 (8 * aad.length * 2 ^ 64 + 8 * ct.length)]

/-- Counter block `i` of a 96-bit IV, encrypted. -/
def gcmStream (ks : List (List Byte)) (iv : List Byte) (i : Nat) : List Byte := aesBlock ks (iv.take 12 ++ beBytes 4 i)

/-- AES-256-GCM tag of a ciphertext and additional data. -/
def gcmTag (key : BitVec 256) (iv aad ct : List Byte) : BitVec 128 :=
  let ks := aesKeys key
  let h := BitVec.ofNat 128 (beNat (aesBlock ks (List.replicate 16 0)))
  (gcmInput aad ct).foldl (fun x b => gcmMul (x ^^^ b) h) 0 ^^^ BitVec.ofNat 128 (beNat (gcmStream ks iv 1))

/-- Blocks of the stream over a text, from counter `i` on. -/
def gcmCrypt (ks : List (List Byte)) (iv : List Byte) : Nat → Nat → List Byte → List Byte
  | 0, _, _ => []
  | n + 1, i, bs => if bs.isEmpty then [] else xorBytes (bs.take 16) (gcmStream ks iv i) ++ gcmCrypt ks iv n (i + 1) (bs.drop 16)

/-- AES-256-GCM decryption without the check of the tag. -/
def gcmDecrypt (key : BitVec 256) (iv ct : List Byte) : List Byte := gcmCrypt (aesKeys key) iv ct.length 2 ct

/-! ## SHA-384, HMAC, HKDF -/

/-- The 80 round constants, constant 0 in the top 64 bits. -/
def shaTable : Nat :=
  0x428A2F98D728AE227137449123EF65CDB5C0FBCFEC4D3B2FE9B5DBA58189DBBC3956C25BF348B53859F111F1B605D019923F82A4AF194F9BAB1C5ED5DA6D8118D807AA98A303024212835B0145706FBE243185BE4EE4B28C550C7DC3D5FFB4E272BE5D74F27B896F80DEB1FE3B1696B19BDC06A725C71235C19BF174CF692694E49B69C19EF14AD2EFBE4786384F25E30FC19DC68B8CD5B5240CA1CC77AC9C652DE92C6F592B02754A7484AA6EA6E4835CB0A9DCBD41FBD476F988DA831153B5983E5152EE66DFABA831C66D2DB43210B00327C898FB213FBF597FC7BEEF0EE4C6E00BF33DA88FC2D5A79147930AA72506CA6351E003826F142929670A0E6E7027B70A8546D22FFC2E1B21385C26C9264D2C6DFC5AC42AED53380D139D95B3DF650A73548BAF63DE766A0ABB3C77B2A881C2C92E47EDAEE692722C851482353BA2BFE8A14CF10364A81A664BBC423001C24B8B70D0F89791C76C51A30654BE30D192E819D6EF5218D69906245565A910F40E35855771202A106AA07032BBD1B819A4C116B8D2D0C81E376C085141AB532748774CDF8EEB9934B0BCB5E19B48A8391C0CB3C5C95A634ED8AA4AE3418ACB5B9CCA4F7763E373682E6FF3D6B2B8A3748F82EE5DEFB2FC78A5636F43172F6084C87814A1F0AB728CC702081A6439EC90BEFFFA23631E28A4506CEBDE82BDE9BEF9A3F7B2C67915C67178F2E372532BCA273ECEEA26619CD186B8C721C0C207EADA7DD6CDE0EB1EF57D4F7FEE6ED17806F067AA72176FBA0A637DC5A2C898A6113F9804BEF90DAE1B710B35131C471B28DB77F523047D8432CAAB7B40C724933C9EBE0A15C9BEBC431D67C49C100D4C4CC5D4BECB3E42B6597F299CFC657E2A5FCB6FAB3AD6FAEC6C44198C4A475817

def shaK (i : Nat) : BitVec 64 := BitVec.ofNat 64 (shaTable / 2 ^ (64 * (79 - i)))

def shaInit : List (BitVec 64) :=
  [0xCBBB9D5DC1059ED8, 0x629A292A367CD507, 0x9159015A3070DD17, 0x152FECD8F70E5939, 0x67332667FFC00B31, 0x8EB44A8768581511, 0xDB0C2E0D64F98FA7, 0x47B5481DBEFA4FA4]

/-- The next `n` words of the message schedule; newest first. -/
def shaExpand : Nat → List (BitVec 64) → List (BitVec 64)
  | 0, ws => ws
  | n + 1, ws =>
    let w (i : Nat) : BitVec 64 := ws.getD i 0
    let s0 := (w 14).rotateRight 1 ^^^ (w 14).rotateRight 8 ^^^ (w 14 >>> 7)
    let s1 := (w 1).rotateRight 19 ^^^ (w 1).rotateRight 61 ^^^ (w 1 >>> 6)
    shaExpand n ((w 15 + s0 + w 6 + s1) :: ws)

/-- One round: the working variables a to h. -/
def shaRound (v : List (BitVec 64)) (kw : BitVec 64) : List (BitVec 64) :=
  match v with
  | [a, b, c, d, e, f, g, h] =>
    let s1 := e.rotateRight 14 ^^^ e.rotateRight 18 ^^^ e.rotateRight 41
    let t1 := h + s1 + ((e &&& f) ^^^ (~~~e &&& g)) + kw
    let s0 := a.rotateRight 28 ^^^ a.rotateRight 34 ^^^ a.rotateRight 39
    [t1 + s0 + ((a &&& b) ^^^ (a &&& c) ^^^ (b &&& c)), a, b, c, d + t1, e, f, g]
  | _ => v

/-- One block of 128 bytes. -/
def shaBlock (h : List (BitVec 64)) (b : List Byte) : List (BitVec 64) :=
  let w0 := (List.range 16).map (fun i => BitVec.ofNat 64 (beNat ((b.drop (8 * i)).take 8)))
  let ws := (shaExpand 64 w0.reverse).reverse
  let v := ((List.range 80).zip ws).foldl (fun v (x : Nat × BitVec 64) => shaRound v (shaK x.1 + x.2)) h
  List.zipWith (· + ·) h v

def shaBlocks : Nat → List (BitVec 64) → List Byte → List (BitVec 64)
  | 0, h, _ => h
  | n + 1, h, bs => if bs.isEmpty then h else shaBlocks n (shaBlock h (bs.take 128)) (bs.drop 128)

/-- SHA-384 of a message. -/
def sha384 (m : List Byte) : BitVec 384 :=
  let bs := m ++ 0x80 :: List.replicate ((239 - m.length % 128) % 128) 0 ++ beBytes 16 (8 * m.length)
  BitVec.ofNat 384 (beNat (((shaBlocks bs.length shaInit bs).take 6).flatMap (fun w => beBytes 8 w.toNat)))

/-- HMAC-SHA-384. -/
def hmacSha384 (key m : List Byte) : BitVec 384 :=
  let k := if 128 < key.length then beBytes 48 (sha384 key).toNat else key
  let k := k ++ List.replicate (128 - k.length) 0
  sha384 (k.map (· ^^^ 0x5C) ++ beBytes 48 (sha384 (k.map (· ^^^ 0x36) ++ m)).toNat)

/-- HKDF-SHA-384 Extract: salt, IKM. An empty salt acts as 48 zero bytes, which the padding of HMAC gives. -/
def hkdfExtract (salt ikm : List Byte) : BitVec 384 := hmacSha384 salt ikm

/-- HKDF-SHA-384 Expand to 32 bytes: PRK, info. -/
def hkdfExpand (prk : BitVec 384) (info : List Byte) : BitVec 256 :=
  (hmacSha384 (beBytes 48 prk.toNat) (info ++ [1])).extractLsb' 128 256

/-! ## ECDSA P-384 -/

def p384 : Nat := 2 ^ 384 - 2 ^ 128 - 2 ^ 96 + 2 ^ 32 - 1
def p384n : Nat := 0xFFFFFFFFFFFFFFFFFFFFFFFFFFFFFFFFFFFFFFFFFFFFFFFFC7634D81F4372DDF581A0DB248B0A77AECEC196ACCC52973
def p384b : Nat := 0xB3312FA7E23EE7E4988E056BE3F82D19181D9C6EFE8141120314088F5013875AC656398D8A2ED19D2A85C8EDD3EC2AEF
def p384g : Nat × Nat :=
  (0xAA87CA22BE8B05378EB1C71EF320AD746E1D3B628BA79B9859F741E082542A385502F25DBF55296C3A545E3872760AB7,
   0x3617DE4A96262C6F5D9E98BF9292DC29F8F41DBD289A147CE9DA3113B5F0B8C00A60B1CE1D7E819D7A431D7C90EA0E5F)

/-- b^e modulo m, from the `n` low bits of e. -/
def powMod (m : Nat) : Nat → Nat → Nat → Nat
  | 0, _, _ => 1 % m
  | n + 1, b, e => (if e % 2 = 1 then b else 1) * powMod m n (b * b % m) (e / 2) % m

/-- Inverse modulo a prime. -/
def invMod (m a : Nat) : Nat := powMod m 384 (a % m) (m - 2)

/-- Sum of two points of the curve; none is the point at infinity. -/
def ecAdd (a b : Option (Nat × Nat)) : Option (Nat × Nat) :=
  match a, b with
  | none, q => q
  | q, none => q
  | some (x1, y1), some (x2, y2) =>
    if x1 = x2 ∧ (y1 + y2) % p384 = 0 then none
    else
      let l := if x1 = x2 then (3 * x1 * x1 + p384 - 3) * invMod p384 (2 * y1) % p384
        else (y2 + p384 - y1) * invMod p384 (x2 + p384 - x1) % p384
      let x := (l * l + 2 * p384 - x1 - x2) % p384
      some (x, (l * (x1 + p384 - x) + p384 - y1) % p384)

/-- k times a point, from the `n` low bits of k. -/
def ecMul : Nat → Nat → Option (Nat × Nat) → Option (Nat × Nat)
  | 0, _, _ => none
  | n + 1, k, q => ecAdd (if k % 2 = 1 then q else none) (ecMul n (k / 2) (ecAdd q q))

/-- ECDSA P-384 verification (R367): public key x and y and signature r and s of 48 big-endian bytes each, digest. -/
def ecdsaVerify (key : List Byte) (digest : BitVec 384) (sig : List Byte) : Bool :=
  let x := beNat (key.take 48)
  let y := beNat ((key.drop 48).take 48)
  let r := beNat (sig.take 48)
  let s := beNat ((sig.drop 48).take 48)
  if x < p384 ∧ y < p384 ∧ (y * y) % p384 = (x * x * x + (p384 - 3) * x + p384b) % p384 ∧ 0 < r ∧ r < p384n ∧ 0 < s ∧ s < p384n then
    let w := invMod p384n s
    match ecAdd (ecMul 384 (digest.toNat * w % p384n) (some p384g)) (ecMul 384 (r * w % p384n) (some (x, y))) with
    | some (px, _) => px % p384n == r
    | none => false
  else false

end Sys2Proof.Machine
end

