-- ==== Sys2Proof/Machine/Frames.lean ====
section
/-! DEFINITION. GimenLink frames (04_ring_frames.md, 05_ring_operation.md): block layouts, keys, tags and CRC, and the frames
that a port sends. -/

namespace Sys2Proof

/-! ## Bits and bytes of blocks -/

/-- A block's payload as 8 bytes, bits [63:56] first. -/
def Blk.bytes (b : Blk) : List Byte := Machine.beBytes 8 b.pl.toNat
def blkBytes (bs : List Blk) : List Byte := (bs.map Blk.bytes).flatten

/-- Bits [hi:lo] of a number. -/
def bits (v hi lo : Nat) : Nat := v / 2 ^ lo % 2 ^ (hi - lo + 1)
def Blk.f (b : Blk) (hi lo : Nat) : Nat := bits b.pl.toNat hi lo

def Blk.isSof (b : Blk) : Bool := b.isCtl && b.ct == ctSof
def Blk.isEof (b : Blk) : Bool := b.isCtl && b.ct == ctEof

end Sys2Proof

namespace Sys2Proof.Machine

/-- Frame types (Tables 4.2 and 5.3). -/
def ftDown : Nat := 0x01
def ftCollect : Nat := 0x02
def ftIdent : Nat := 0x10
def ftSession : Nat := 0x11
def ftTstamp : Nat := 0x12
def ftPartner : Nat := 0x20

/-- SOF of Table 4.2. -/
def sofBlk (ftype ring origin opos nslot : Nat) : Blk :=
  ctlBlk ctSof (ftype * 2 ^ 48 + ring * 2 ^ 40 + origin * 2 ^ 32 + opos * 2 ^ 24 + nslot * 2 ^ 16)
/-- EOF of Table 4.2. -/
def eofBlk (ftype nblk : Nat) : Blk := ctlBlk ctEof (ftype * 2 ^ 48 + nblk * 2 ^ 32)

/-- Blocks of a frame between SOF and EOF, or up to its end where it was cut off. -/
def bodyOf : List Blk → List Blk
  | [] => []
  | _ :: bs => bs.takeWhile (fun b => !b.isEof)

/-- Two blocks of all ones. -/
def onesSlot : List Blk := [dataBlk (2 ^ 64 - 1), dataBlk (2 ^ 64 - 1)]

/-! ## Keys (R97, R120, R121) -/

def State.key256 (s : State) (a : Nat) : BitVec 256 := BitVec.ofNat 256 (beNat (s.mbytes a 32))
/-- Ring key of ring `r` (Table 17.5). -/
def State.ringKey (s : State) (r : Nat) : BitVec 256 := s.key256 (secBase + 32 * r)

/-- Key of generation g + 1 from that of generation g (R97). -/
def nextGen (k : BitVec 256) : BitVec 256 :=
  hkdfExpand (hkdfExtract [] (beBytes 32 k.toNat)) ("GimenLink-wrap".toList.map (fun c => BitVec.ofNat 8 c.toNat))

def genSteps : Nat → BitVec 256 → BitVec 256
  | 0, k => k
  | n + 1, k => genSteps n (nextGen k)

def ascii (t : String) : List Byte := t.toList.map (fun c => BitVec.ofNat 8 c.toNat)

/-- A session's key of the generation of cycle `c` (R97); a wiped key reads zero. -/
def Session.keyAt (x : Session) (info : List Byte) (c : Nat) : BitVec 256 :=
  if x.wiped then 0 else genSteps (c / 2 ^ 32 - x.start / 2 ^ 32) (hkdfExpand x.prk info)

/-- K_D for cycle `c` (R121). -/
def Session.kd (x : Session) (r c : Nat) : BitVec 256 :=
  x.keyAt (ascii "GimenLink-down" ++ beBytes 1 r ++ beBytes 8 x.start) c

/-- K_S of an SM, TYPE and SERIAL in 64 bits, for cycle `c` (R121). -/
def Session.ks (x : Session) (r c : Nat) (sm : BitVec 64) : BitVec 256 :=
  x.keyAt (ascii "GimenLink-report" ++ beBytes 1 r ++ beBytes 8 x.start ++ beBytes 8 sm.toNat) c

/-- SM map entry (TYPE and SERIAL) of an address; 0 where the address has none. -/
def State.smOf (s : State) (a : Nat) : BitVec 64 := spGet 0 s.cfg.sm a

/-- The session whose keys hold for cycle `c` on a port (R122). -/
def Port.sessFor (p : Port) (c : Nat) : Option Session :=
  let inForce := match p.sess with
    | some x => if x.start ≤ c then some x else p.prev
    | none => none
  match p.next with
  | some x => if x.start ≤ c then some x else inForce
  | none => inForce

/-! ## Tags and CRC (R94 to R96) -/

/-- The first 32 bits of an AES-256-GCM tag with empty plaintext. -/
def tag32 (key : BitVec 256) (iv aad : List Byte) : BitVec 32 := (gcmTag key iv aad []).extractLsb' 96 32

/-- IV of a down frame (Table 4.12). -/
def ivDown (r : Nat) (epoch cyc : BitVec 32) : List Byte :=
  [0xD0, BitVec.ofNat 8 r, 0xFF, 0] ++ beBytes 4 epoch.toNat ++ beBytes 4 cyc.toNat
/-- IV of a report (0xC0) or TSTAMP slot (0xC2). -/
def ivReport (b0 r p : Nat) (cyc : BitVec 32) : List Byte :=
  [BitVec.ofNat 8 b0, BitVec.ofNat 8 r, BitVec.ofNat 8 p, 0, 0, 0, 0, 0] ++ beBytes 4 cyc.toNat
/-- IV of a SESSION frame (R120). -/
def ivSession (r origin c : Nat) : List Byte := [0xE0, BitVec.ofNat 8 r, BitVec.ofNat 8 origin, 0] ++ beBytes 8 c

/-- The tag block: tag and CRC-32 over the blocks and the tag (R96). -/
def tagBlk (blocks : List Blk) (tag : BitVec 32) : Blk :=
  let c := crc32 (blkBytes blocks ++ beBytes 4 tag.toNat)
  dataBlk (tag.toNat * 2 ^ 32 + c.toNat)

/-! ## Unstated rounding -/

/-- A quotient whose rounding the spec does not state: one of the two neighbours (log entry 7). -/
def divFree (n : Int) (d : Nat) : Int :=
  if n % (d : Int) ≠ 0 ∧ Config.roundUp n d = true then n / (d : Int) + 1 else n / (d : Int)

/-! ## Frames that a port sends -/

/-- SM address of position `p` of ring `r`. -/
def smAddr (r p : Nat) : Nat := r * 64 + p

/-- A command slot that holds: STATE1 = HOLD, E2V = 0, CMDX = NONE (R45). -/
def holdSlot : BitVec 64 := BitVec.ofNat 64 (0xE * 2 ^ 60)

/-- The command slot of a position in the frame for cycle `j`: HOLD in an overrun frame, BLOCK for a quarantined position and in
the first three cycles of a new period (R32, R45, R133); CMDX stays (R156). An overrun in those three cycles sends HOLD, of which R32
and R45 each ask another (DESIGN CHOICE, log entry 108). -/
def State.slotFor (s : State) (r p j : Nat) (ovr : Bool) : BitVec 64 :=
  if ovr then holdSlot
  else
    let w := spGet 0 s.cyc.slots (smAddr r p)
    if s.bit (F.RPU_PORT_POS_QUAR r p) || decide (j - 1 < s.cyc.blockTill) then w &&& 0xF00000 else w

/-- BREL of ring `r` (R272). -/
def State.brel (s : State) (r : Nat) : Bool :=
  s.sfiState == stRun && s.bit F.SFI_STAT_SFS_OK && !s.bit (F.LPH_LANE_STAT_BLOCK_RX r)

/-- Positions of ring `r` that are admitted and have a path delay. -/
def State.delayed (s : State) (r : Nat) : List Nat :=
  (List.range (s.ncfg r)).filter (fun p => s.bit (F.RPU_PORT_POS_ADM r p) && (spGet {} (s.port r).hops p).dly.isSome)

/-- The side of position `p` that faces its reference end: 1 side A, 2 side B. Beyond a break the partner's end is the
reference, and no position is known to be on this side of it while BRK_UNK = 1 (R129). -/
def State.refSide (s : State) (r p : Nat) : Nat :=
  let own := s.ownEnd
  let far := s.rdu.relays.contains r && (s.bit (F.RPU_PORT_STAT_BRK_UNK r) ||
    (if s.sys.uid then decide (p < s.fld (F.RPU_PORT_STAT_BRK_POS r)) else decide (s.fld (F.RPU_PORT_STAT_BRK_POS r) < p)))
  if far then 3 - own else own

/-- BC1 of the next down frame: TDELAY to the next SM in round robin (R124), else BOP none, whose BPOS and BARG are sent as zeros
(DESIGN CHOICE: Table 4.7 gives them no value; log entry 109). -/
def State.nextBc1 (s : State) (r : Nat) : Blk × State :=
  let ps := s.delayed r
  let p := s.port r
  match (ps.filter (fun q => decide (p.tdelayNext ≤ q))).head?.orElse (fun _ => ps.head?) with
  | none => (dataBlk 0, s)
  | some q =>
    let d := divFree ((spGet {} p.hops q).dly.getD 0) 2
    (dataBlk (0x40 * 2 ^ 56 + q * 2 ^ 48 + s.refSide r q * 2 ^ 40 + (d % (2 ^ 24 : Int)).toNat),
     s.setPort r { p with tdelayNext := q + 1 })

/-- A tag under a session's key, or the next free value where the port holds no key for the cycle. -/
def State.tagOr (s : State) (k : Option (BitVec 256)) (iv aad : List Byte) : BitVec 32 × State :=
  match k with
  | some k => (tag32 k iv aad, s)
  | none => s.free32

/-- The down frame of ring `r` for cycle `j` (R76 to R80, R83, R87, R94 to R96). -/
def State.buildDown (s : State) (r j : Nat) (ovr : Bool) : List Blk × State :=
  let n := s.ncfg r
  let cyc := cyc32 j
  let epoch := s.rd R.RDU_EPOCH
  let flags := (if s.brel r then 0x8000 else 0) + (if ovr then 0x4000 else 0) + (if s.sfiState = stStop then 0x2000 else 0)
  let h0 := dataBlk (cyc.toNat * 2 ^ 32 + epoch.toNat)
  let h1 := dataBlk (r * 2 ^ 56 + ftDown * 2 ^ 48 + flags * 2 ^ 32 + s.tc * 2 ^ 16)
  let slots := (List.range n).map (fun p => (⟨1, s.slotFor r p j ovr⟩ : Blk))
  let bc0 := dataBlk (s.fld F.RDU_LEASE_RIDE_N * 2 ^ 56)
  let (bc1, s) := s.nextBc1 r
  let body := [h0, h1] ++ slots ++ [bc0, bc1]
  let (tag, s) := s.tagOr (((s.port r).sessFor j).map (fun x => x.kd r j)) (ivDown r epoch cyc) (blkBytes body)
  (sofBlk ftDown r s.ownEnd 0xFF n :: body ++ [tagBlk body tag, eofBlk ftDown (n + 7)], s)

/-- The SESSION frame of ring `r` sent in cycle `c` (Table 5.7): session, nonce of each position to let in. -/
def State.buildSession (s : State) (r c : Nat) (x : Session) (join : Bool) (ps : List Nat) : List Blk :=
  let n := s.ncfg r
  let slot (p : Nat) : Blk := match spGet none (s.port r).nonces p with
    | some v => if ps.contains p then ⟨1, v⟩ else dataBlk (2 ^ 64 - 1)
    | none => dataBlk (2 ^ 64 - 1)
  let body := [dataBlk c, dataBlk x.start, dataBlk ((s.rd R.RDU_EPOCH).toNat * 2 ^ 32 + (if join then 1 else 0)),
    dataBlk (x.salt.toNat / 2 ^ 64), dataBlk (x.salt.toNat % 2 ^ 64)] ++ (List.range n).map slot
  let tag := tag32 (s.ringKey r) (ivSession r s.ownEnd c) (blkBytes body)
  sofBlk ftSession r s.ownEnd 0xFF n :: body ++ [tagBlk body tag, eofBlk ftSession (n + 8)]

/-- A collect, IDENT or TSTAMP frame as its originator fills it: header and slots of all ones (R82, R93, R115, R117). -/
def State.buildUp (s : State) (r k ftype nslot : Nat) : List Blk :=
  let ch := dataBlk ((cyc32 k).toNat * 2 ^ 32 + r * 2 ^ 24 + ftype * 2 ^ 16)
  sofBlk ftype r s.ownEnd 0xFF nslot :: ch :: ((List.range nslot).map (fun _ => onesSlot)).flatten ++
    [eofBlk ftype (2 * nslot + 3)]

/-- Stamp of an instant in tenths of a ns on the port's scale: 1/64 ns modulo 2^24 (R63, Table 5.8; rounding log entry 7). -/
def stampOf (tenths : Nat) : Nat := Int.toNat (divFree (64 * Int.ofNat tenths) 10 % 16777216)

/-- The difference of two stamps modulo 2^24, as a signed number of 1/64 ns. -/
def stampDiff (a b : Nat) : Int :=
  let d : Nat := (a + 2 ^ 24 - b) % 2 ^ 24
  if d < 8388608 then Int.ofNat d else Int.ofNat d - 16777216

end Sys2Proof.Machine
end

