-- ==== Sys2Proof/Machine/Ring.lean ====
section
/-! DEFINITION. Ring operation (05_ring_operation.md, R99, R100): what a port does with the blocks and frames that reach it,
bring-up, sessions, time alignment, quarantine, and the commands of the port's registers. -/

namespace Sys2Proof.Machine

/-! ## Blocks (Table 5.2, R9, R63) -/

/-- UID conflict: UID_CONF, FCO message, source 191; a holder returns to INIT at its next send point (R9). -/
def State.uidConflict (s : State) : State :=
  if s.sys.uidEnum then s
  else
    let s : State := { s with sys := { s.sys with uidEnum := true } }
    let s := ((s.setBit F.RDU_STAT_UID_CONF true).sendFco 0 0 4 0x01 none none).raise 191
    if s.role = roleActive then { s with rdu := { s.rdu with backToInit := true } } else s

/-- A control block reaches ring port `n` at `tenths` tenths of a ns. -/
def State.ringBlock (s : State) (n : Nat) (tenths : Nat) (b : Blk) : State :=
  if !s.enabled n || !b.isCtl || b.f 55 48 != n then s
  else if b.ct = ctEnum then
    let p := s.port n
    let k := s.cycNow
    if b.f 47 40 = s.ownEnd then
      let again := match p.ownEnd with
        | some c => c + 1 == k
        | none => false
      let s := s.setPort n { p with ownEnd := some k }
      if again then s.uidConflict else s
    else if b.f 39 32 = 1 then s.setPort n { p with askedIdent := some (b.f 31 24) }
    else s
  else if b.ct = ctTime then
    s.setPort n { s.port n with arr := spSet 0 (s.port n).arr (b.f 39 32) (stampOf tenths) }
  else s

/-! ## TIME and ENUM (R113, R114, R118) -/

/-- Bring-up progress of a lit port whose lane holds block lock: the holder identifies, the other unit enters service as
origin end. -/
def State.lightDone (s : State) (n k : Nat) : State :=
  if s.phase n = phLight ∧ s.bit (F.LPH_LANE_STAT_BLOCK_LOCK n) = true then
    if s.role = roleActive then
      (s.setPort n { s.port n with reqIdent := true, join := false }).setPhase n phIdent
    else (s.setPhase n phService).becomeOrigin n k
  else s

/-- The port sends TIME, ENUM and frames: enabled, lit, its lane open to them or in a near-end loop (R65, R68, R74), no strap conflict
(R8, R114). -/
def State.sendsTime (s : State) (n : Nat) : Bool :=
  s.enabled n && s.phase n != phOff && s.phase n != phDark && (s.txOpen n || s.nearLoop n) && !s.sys.strapConf

/-- ISLOT of an IDENT request (Table 5.5). -/
def State.islot (s : State) (n : Nat) : Nat := min 64 (s.ncfg n + 2)

/-- Send the ENUM and TIME blocks of cycle `k`, the TIME block `early` 1/64 ns before the scheduled instant (R62, R63). -/
def State.sendTime (s : State) (n k early : Nat) : State :=
  let s := s.lightDone n k
  let p := s.port n
  let ask := p.reqIdent && s.role == roleActive
  let enum := ctlBlk ctEnum (n * 2 ^ 48 + s.ownEnd * 2 ^ 40 + (if ask then 2 ^ 32 else 0) + (if ask then s.islot n * 2 ^ 24 else 0))
  let time := ctlBlk ctTime (n * 2 ^ 48 + s.ownEnd * 2 ^ 40 + k % 256 * 2 ^ 32 + early * 2 ^ 16)
  let sched := 64 * ((k + 1) * s.tc - 64)
  let s := s.setPort n { p with
    reqIdent := p.reqIdent && !ask, identDue := if ask then some (k + 1) else p.identDue, identAt := if ask then k else p.identAt,
    timeAt := some k, txEnum := some enum, txTime := some time, dep := spSet 0 p.dep (k % 256) ((sched - early) % 2 ^ 24) }
  s.txSend n [enum, time] none (some ((sched - early) * 10 / 64)) none

/-- `t` is the nanosecond in which a block leaves `early` 1/64 ns before the instant t_k + Tc - 64 ns of the present cycle (R62, R114). -/
def State.timeSlot (s : State) (t early : Nat) : Bool := t == (64 * ((s.cycNow + 1) * s.tc - 64) - early) / 64

/-- TIME_BLOCK_SEND (R114, R113, R118): once per cycle. -/
def execTimeBlockSend (t : Nat) (port : Fin 64) (early : Fin 410) (s : State) : Host.Outcome State Fault Refusal :=
  .next (s.onDie t fun s =>
    if s.sendsTime port && s.timeSlot t early && (s.port port).timeAt != some s.cycNow then s.sendTime port s.cycNow early else s)

/-- A block leaves at the last transmit block boundary at or before an instant of `t` ns: less than 6.4 ns before it, by a free
value, D1 drifting against the time base (R62); in tenths of a ns. -/
def State.blockBefore (s : State) (t : Nat) : Nat × State :=
  let (f, s) := s.freeNat
  (10 * t - f % 64, s)

/-! ## Frames that leave at a cycle start (R33, R111, R113, R115) -/

/-- The port originates the collect frame of cycle `k`: in service, no down frames of its own, origin end since long
enough. -/
def State.originates (s : State) (n k : Nat) : Bool :=
  s.sendsTime n && s.role != roleActive && s.phase n == phService && !(s.port n).relaying &&
    (match (s.port n).origin with
     | some c => decide (c ≤ k)
     | none => false)

/-- Cycle `k` starts at port `n`: collect frame, then IDENT where one was asked for, else TSTAMP in every fourth cycle. -/
def State.sendUp (s : State) (n k : Nat) : State :=
  if s.originates n k then
    let p := s.port n
    let op := match p.askedIdent with
      | some m => s.buildUp n k ftIdent m
      | none => if k % 4 = 0 then s.buildUp n k ftTstamp (s.ncfg n) else []
    let up := s.buildUp n k ftCollect (s.ncfg n)
    let s := s.setPort n { p with txUp := up, txOp := op, askedIdent := none }
    let (d, s) := s.blockBefore (k * s.tc)
    s.txSend n (up ++ (if op.isEmpty then [] else fillBlk :: op)) (some d) none (some d)
  else s.setPort n { s.port n with txUp := [], txOp := [], askedIdent := none }

/-! ## Bring-up (R116 to R119, Table 5.6) -/

/-- The MATCH code of an IDENT entry found at position `pos` of ring `n`. `all` holds every entry found. -/
def State.matchCode (s : State) (n pos : Nat) (e : BitVec 64) (all : List (BitVec 64)) : Nat :=
  let ser (x : BitVec 64) : BitVec 56 := x.setWidth 56
  let mapped (q : Nat) : BitVec 64 := s.smOf (smAddr n q)
  if 2 ≤ (all.filter (fun x => ser x == ser e)).length then 4
  else if mapped pos = e then 1
  else if mapped pos ≠ 0 ∧ ser (mapped pos) = ser e then 5
  else if (List.range 64).any (fun q => mapped q != 0 && ser (mapped q) == ser e) then 2
  else 3

/-- Position of slot `i` of an IDENT frame of `found` SMs: slots count from the origin end, which faces this holder's own
end (R116). -/
def State.identPos (s : State) (found i : Nat) : Nat := if s.sys.uid then i else found - 1 - i

/-- Take in the entry of slot `i`: identity registers, nonce, MATCH. -/
def State.identEntry (s : State) (n found i : Nat) (hi : BitVec 64) (nonce : BitVec 64) (all : List (BitVec 64)) : State :=
  let pos := s.identPos found i
  let s := s.wr (R.RPU_PORT_ID n pos) (hi.setWidth 32)
  let s := (s.setFld (F.RPU_PORT_ID_HI_TYPE n pos) (bits hi.toNat 63 56)).setFld (F.RPU_PORT_ID_HI_SERIAL n pos) (bits hi.toNat 55 32)
  let s := s.setPort n { s.port n with nonces := spSet none (s.port n).nonces pos (some nonce) }
  s.setFld (F.RPU_PORT_POS_MATCH n pos) (s.matchCode n pos hi all)

/-- Match of a whole IDENT frame; the pairs of blocks of its slots in slot order. -/
def State.identTake (s : State) (n : Nat) (slots : List (Blk × Blk)) : State :=
  let es := (slots.filter (fun e => e.1.pl != BitVec.allOnes 64)).map (fun e => (e.1.pl, e.2.pl))
  let found := es.length
  let s := s.setPort n { s.port n with nonces := [] }
  let s := s.setFld (F.RPU_PORT_STAT_NFOUND n) found
  let s := (List.range 64).foldl (fun s p =>
    s.setFld (F.RPU_PORT_POS_MATCH n p) (if s.smOf (smAddr n p) ≠ 0 ∧ p < s.ncfg n then 6 else 0)) s
  let s := ((List.range found).zip es).foldl (fun s (x : Nat × BitVec 64 × BitVec 64) =>
    s.identEntry n found x.1 x.2.1 x.2.2 (es.map (·.1))) s
  if (List.range 64).any (fun p => decide (2 ≤ s.fld (F.RPU_PORT_POS_MATCH n p))) then s.portFlag n F.RPU_PORT_STAT_MAP_ERR
  else s

/-- Positions of ring `n` that meet row 1 of Table 5.6. -/
def State.matched (s : State) (n : Nat) : List Nat :=
  (List.range (s.ncfg n)).filter (fun p => s.fld (F.RPU_PORT_POS_MATCH n p) == 1)

/-- After the match: a join into the session in force, or a new session with S = c + 64, c being the next cycle, in which the
first SESSION frame leaves; no SM found leaves the ring identifying (R118, R119, R132). -/
def State.identDone (s : State) (n : Nat) : State :=
  let p := s.port n
  if p.join && p.sess.isSome then
    let js := (s.matched n).filter (fun q => !s.bit (F.RPU_PORT_POS_ADM n q))
    let s := js.foldl (fun s q => s.setBit (F.RPU_PORT_POS_ADM n q) true) s
    s.setPort n { s.port n with joiners := js, join := false }
  else if s.fld (F.RPU_PORT_STAT_NFOUND n) = 0 then s
  else
    let (a, s) := s.free64
    let (b, s) := s.free64
    let salt : BitVec 128 := a ++ b
    let x : Session := ⟨s.cycNow + 65, salt, hkdfExtract (beBytes 16 salt.toNat) (beBytes 32 (s.ringKey n).toNat), false⟩
    let ms := s.matched n
    let s := (List.range 64).foldl (fun s q => s.setBit (F.RPU_PORT_POS_ADM n q) (ms.contains q)) s
    (s.setPort n { s.port n with next := some x, join := false }).setPhase n phSession

/-- Pairs of successive blocks. -/
def pairUp : List Blk → List (Blk × Blk)
  | a :: b :: bs => (a, b) :: pairUp bs
  | _ => []

/-- A frame that a relaying port received goes to the lease holder, with the port's own stamps of the round that it measures (R128). -/
def State.forward (s : State) (n : Nat) (fs : List Blk) (stamps : Option (Nat × Nat)) : State :=
  if (s.port n).relaying then { s with rdu := { s.rdu with txFwd := s.rdu.txFwd ++ [(n, fs, stamps)] } } else s

/-- SOF of a frame. -/
def sofOf : List Blk → Blk
  | [] => ctlBlk ctFill 0
  | b :: _ => b

def nthBlk (bs : List Blk) (i : Nat) : Blk := (bs[i]?).getD (ctlBlk ctFill 0)

/-- IDENT_FRAME_RECEIVED (R117, R119, R132). -/
def execIdentFrame (t : Nat) (port : Fin 64) (fs : List Blk) (s : State) : Host.Outcome State Fault Refusal :=
  .next (s.onDie t fun s =>
    if s.role ≠ roleActive then s.forward port fs none
    else
      match (s.port port).identDue with
      | none => s
      | some k =>
        let body := bodyOf fs
        let s := s.setPort port { s.port port with identDue := none }
        if (nthBlk body 0).f 63 32 = (cyc32 k).toNat ∧ body.length = 2 * s.islot port + 1 then
          (s.identTake port (pairUp (body.drop 1))).identDone port
        else s.setPort port { s.port port with reqIdent := true })

/-- IDENTIFY_RETRY (R118): every 1,024 cycles on a ring that has found no SM. -/
def execIdentifyRetry (t : Nat) (port : Fin 64) (s : State) : Host.Outcome State Fault Refusal :=
  .next (s.onDie t fun s =>
    if s.role = roleActive ∧ s.phase port = phIdent ∧ s.fld (F.RPU_PORT_STAT_NFOUND port) = 0 ∧ (s.port port).identAt + 1024 ≤ s.cycNow then
      s.setPort port { s.port port with reqIdent := true }
    else s)

/-! ## Sessions (R122, R133) -/

/-- End quarantine of position `p`. Its TAG_BAD count of the running QWIN stands (DESIGN CHOICE, log entry 110). -/
def State.unquarantine (s : State) (n p : Nat) : State :=
  let s := if p < 32 then s.setFbit (F.RPU_PORT_QUAR_LO_V n) p false else s.setFbit (F.RPU_PORT_QUAR_HI_V n) (p - 32) false
  let h := spGet {} (s.port n).hops p
  (s.setPort n { s.port n with hops := spSet {} (s.port n).hops p { h with jumps := 0, jumpsB := 0 } }).setBit (F.RPU_PORT_POS_QUAR n p) false

/-- The pending session comes into force at its cycle S: previous keys kept, quarantine ends, the holder aligns. -/
def State.startSession (s : State) (n : Nat) : State :=
  match (s.port n).next with
  | none => s
  | some x =>
    if s.cycNow < x.start then s
    else
      let p := s.port n
      let s := s.setPort n { p with prev := p.sess, sess := some x, next := none }
      let s := (List.range 64).foldl (fun s q => s.unquarantine n q) s
      if s.role = roleActive ∧ s.phase n = phSession then s.setPhase n phAlign else s

/-- SESSION_START (R121, R122, R133). -/
def execSessionStart (t : Nat) (port : Fin 64) (s : State) : Host.Outcome State Fault Refusal :=
  .next (s.onDie t (·.startSession port))

/-! ## Quarantine (R133) -/

def State.quarantine (s : State) (n p : Nat) : State :=
  if s.bit (F.RPU_PORT_POS_QUAR n p) then s
  else
    let s := if p < 32 then s.setFbit (F.RPU_PORT_QUAR_LO_V n) p true else s.setFbit (F.RPU_PORT_QUAR_HI_V n) (p - 32) true
    let s := s.setBit (F.RPU_PORT_POS_QUAR n p) true
    (((s.setBit (F.RPU_PORT_STAT_QUAR_NEW n) true).raiseKey n (p + 1)).sendFco 0 n 0 0x03 none none)

/-- A TAG_BAD slot without line error at position `p` counts toward Q_THR in the current QWIN. -/
def State.tagBad (s : State) (n p : Nat) : State :=
  let s := s.inc (F.RPU_PORT_POS_TAGBAD n p)
  if s.fld (F.RPU_PORT_QCFG_Q_THR n) ≤ s.fld (F.RPU_PORT_POS_TAGBAD n p) then s.quarantine n p else s

/-- A new QWIN starts where the running one has ended. -/
def State.qwin (s : State) (n k : Nat) : State :=
  let p := s.port n
  if p.win + s.fld (F.RPU_PORT_QCFG_QWIN n) ≤ k then
    (List.range 64).foldl (fun s q => s.setFld (F.RPU_PORT_POS_TAGBAD n q) 0) (s.setPort n { p with win := k })
  else s

/-! ## Collect frames (R34, R89, R99, R127) -/

/-- A report slot as Table 4.9 lays it out. -/
def reportOf (k : Nat) (hi lo : BitVec 64) : Report :=
  { cycle := k, vcap := hi.extractLsb' 48 16, vmin := hi.extractLsb' 32 16, temp := hi.extractLsb' 24 8,
    status := hi.extractLsb' 8 16, swcount := hi.extractLsb' 0 8, linkq := lo.extractLsb' 48 16, xdata := lo.extractLsb' 32 16 }

/-- The tag of a report slot verifies under the K_S of the SM that the SM map has at the position (R94). -/
def State.slotOk (s : State) (b0 n p k : Nat) (hi lo : Blk) : Bool :=
  s.smOf (smAddr n p) != 0 &&
    (match (s.port n).sessFor k with
     | some x => tag32 (x.ks n k (s.smOf (smAddr n p))) (ivReport b0 n p (cyc32 k)) (hi.bytes ++ lo.bytes.take 4) == lo.pl.setWidth 32
     | none => false)

/-- P0 release of the computation of sample k (R37). -/
def State.p0Of (s : State) (k : Nat) : Nat := (k + 1) * s.tc + s.p0Ofs

/-- P0 has been released for sample `k` by the present instant: by the schedule, or at the switch instant of the image, which is
the P0 release of its cycle by the old image's P0_OFS (R34, R377). -/
def State.p0Past (s : State) (k : Nat) : Bool :=
  decide (s.p0Of k ≤ s.now) || (match s.cyc.switchAt with
    | some u => decide ((k + 1) * s.tc ≤ u)
    | none => false)

/-- A VALID report is written into bank k mod 2, unless it is late or its position is quarantined. -/
def State.reportIn (s : State) (n p k : Nat) (r : Report) : State :=
  if s.bit (F.RPU_PORT_POS_QUAR n p) then s
  else if s.p0Past k then s.inc (F.RPU_PORT_LATE_CNT_V n)
  else
    let s : State := { s with reports := spSet none s.reports (k % 2 * 4096 + smAddr n p) (some r) }
    if r.status.getLsbD 8 then
      let rs := if s.rdu.fenceCyc = k then s.rdu.fenceRings else 0
      { s with rdu := { s.rdu with fenceCyc := k, fenceRings := rs ||| (1#64 <<< n) } }
    else s

/-- One report slot: VALID (TIMEOK of the last VALID report shows, Table 5.14), EMPTY or TAG_BAD. -/
def State.collectSlot (s : State) (n k p : Nat) (hi lo : Blk) : State :=
  if s.slotOk 0xC0 n p k hi lo then 
    let r := reportOf k hi.pl lo.pl
    ((s.inc (F.RPU_PORT_VALID_CNT_V n)).setBit (F.RPU_PORT_POS_TIMEOK n p) (r.status.getLsbD 0)).reportIn n p k r
  else if hi.pl = BitVec.allOnes 64 ∧ lo.pl = BitVec.allOnes 64 then s.inc (F.RPU_PORT_EMPTY_CNT_V n)
  else
    let s := s.inc (F.RPU_PORT_TAGBAD_CNT_V n)
    if hi.errored || lo.errored then s else s.tagBad n p

/-- Arrival of the CH block of a frame of `len` blocks that has arrived whole by now: the blocks behind it took 6.4 ns each. -/
def State.chAt (s : State) (len : Nat) : Nat := (10 * s.now - 64 * (len - 1)) / 10

/-- The cycle k of the collect header `c` of a frame of `len` blocks: k mod 2^32 matches and t_k ≤ t < t_k + 2 Tc, t being the arrival
of the CH block (R99). -/
def State.collectCyc (s : State) (len c : Nat) : Option Nat :=
  let k := s.chAt len / s.tc
  if (cyc32 k).toNat = c then some k else if 1 ≤ k ∧ (cyc32 (k - 1)).toNat = c then some (k - 1) else none

/-- REIDENT: step 2 and a join for unadmitted positions; ignored in the unit without the lease (Table 5.12). -/
def State.reidentPort (s : State) (n : Nat) : State :=
  if s.role = roleActive then s.setPort n { s.port n with reqIdent := true, join := (s.port n).sess.isSome } else s

/-- A configured position of the ring that the SM map knows is not admitted. -/
def State.unadmitted (s : State) (n : Nat) : Bool :=
  (List.range (s.ncfg n)).any (fun p => !s.bit (F.RPU_PORT_POS_ADM n p) && s.smOf (smAddr n p) != 0)

/-- ORIGIN of a collect frame that arrived at the holder's own port (R127); on a healed ring the replacement of an SM joins
(R132). -/
def State.originSeen (s : State) (n k : Nat) (origin opos : Nat) : State :=
  let p := s.port n
  if origin = 3 then
    let s := (s.setBit (F.RPU_PORT_STAT_SM_ORIG n) true).inc (F.RPU_PORT_SMORIG_CNT_V n)
    let again := match p.smOrig with
      | some (c, _) => c + 1 == k
      | none => false
    let s := s.setPort n { p with smOrig := some (k, opos) }
    let s := if s.bit (F.RPU_PORT_STAT_BROKEN n) && s.bit (F.RPU_PORT_STAT_BRK_UNK n) then
      (s.setFld (F.RPU_PORT_STAT_BRK_POS n) opos).setBit (F.RPU_PORT_STAT_BRK_UNK n) false else s
    if again then s.declareBreak n k else s
  else if origin = 1 ∨ origin = 2 then
    let again := match p.unitOrig with
      | some c => c + 1 == k
      | none => false
    let s := (s.setPort n { p with unitOrig := some k }).setBit (F.RPU_PORT_STAT_SM_ORIG n) false
    if again && s.bit (F.RPU_PORT_STAT_BROKEN n) then
      ((s.setBroken n false).setBit (F.RPU_PORT_STAT_BRK_UNK n) false).when (s.unadmitted n) (·.reidentPort n)
    else s
  else s

/-- ALL_TIMEOK, and the step into service once every admitted SM reports TIMEOK (Table 5.5 step 6). A ring
with no admitted SM does not enter service (DESIGN CHOICE: the spec does not say whether none counts as every; log entry 111). -/
def State.timeokCheck (s : State) (n : Nat) : State :=
  let adm := (List.range 64).filter (fun p => s.bit (F.RPU_PORT_POS_ADM n p))
  let ok := !adm.isEmpty && adm.all (fun p => s.bit (F.RPU_PORT_POS_TIMEOK n p))
  let s := s.setBit (F.RPU_PORT_STAT_ALL_TIMEOK n) ok
  if ok && s.phase n == phAlign then
    (s.setPort n { s.port n with partnerTail := false, noTail := none }).setPhase n phService
  else s

/-- FENCE reports of cycle `k` on a quorum of rings fence the holder (R287). -/
def State.fenceCheck (s : State) (k : Nat) : State :=
  let cnt := ((List.range 64).filter (fun r => s.rdu.fenceRings.getLsbD r)).length
  if s.rdu.fenceCyc = k ∧ s.quorum s.rings.length ≤ cnt then s.fence else s

/-- A collect frame that passes R99 as the frame of cycle `k`: its slots, and at the lease holder what else the frame tells. What it
shows is recorded with the t_k of its sample (R134). -/
def State.collectTake (s : State) (n k : Nat) (via : Bool) (fs : List Blk) : State :=
  s.observed (k * s.tc) fun s =>
    let s := s.qwin n k
    let slots := pairUp ((bodyOf fs).drop 1)
    let s := ((List.range (s.ncfg n)).zip slots).foldl (fun s (x : Nat × Blk × Blk) => s.collectSlot n k x.1 x.2.1 x.2.2) s
    if s.role = roleActive then
      let s := if via then s else s.originSeen n k ((sofOf fs).f 39 32) ((sofOf fs).f 31 24)
      (s.timeokCheck n).fenceCheck k
    else s

/-- COLLECT_FRAME_RECEIVED (R34, R99, R118, R127 to R130, R133), when the last block has arrived. A frame at a relaying port goes to the
lease holder. -/
def execCollectFrame (t : Nat) (port : Fin 64) (via : Bool) (fs : List Blk) (s : State) : Host.Outcome State Fault Refusal :=
  .next (s.onDie t fun s =>
    if !s.enabled port then s
    else if (s.port port).relaying then s.forward port fs none
    else
      let sof := sofOf fs
      let ch := nthBlk (bodyOf fs) 0
      match s.collectCyc fs.length (ch.f 63 32) with
      | some k =>
        if sof.isSof && sof.f 55 48 == ftCollect && sof.f 47 40 == port.val && ch.f 31 24 == port.val then
          s.collectTake port k via fs
        else s.inc (F.RPU_PORT_FDISC_CNT_V port)
      | none => s.inc (F.RPU_PORT_FDISC_CNT_V port))

/-! ## Down frames and SESSION frames at the far end (R100, R101, R122) -/

/-- Cycle and epoch of a down frame that passes structure without the EOF, RING, CRC and tag (R78, R100, R101). -/
def State.downCheck (s : State) (n : Nat) (fs : List Blk) : Option (Nat × BitVec 32) :=
  let sof := sofOf fs
  let body := bodyOf fs
  let ns := sof.f 23 16
  let core := body.take (ns + 4)
  let tb := nthBlk body (ns + 4)
  let h0 := nthBlk body 0
  let h1 := nthBlk body 1
  let j := fullCycle s.cycNow (h0.pl.extractLsb' 32 32)
  let ep : BitVec 32 := h0.pl.extractLsb' 0 32
  if sof.isSof && sof.f 55 48 == ftDown && sof.f 47 40 == n && decide (ns + 5 ≤ body.length) &&
      (body.take (ns + 5)).all (·.isData) &&
      h1.f 63 56 == n && h1.f 55 48 == ftDown &&
      (crc32 (blkBytes core ++ beBytes 4 (tb.f 63 32))).toNat == tb.f 31 0 then
    match (s.port n).sessFor j with
    | some x => if (tag32 (x.kd n j) (ivDown n ep (cyc32 j)) (blkBytes core)).toNat = tb.f 63 32 then some (j, ep) else none
    | none => none
  else none

/-- A SESSION frame that passes the far end gives this unit the session's keys and admitted positions (log entry 14). -/
def State.adoptSession (s : State) (n : Nat) (fs : List Blk) : State :=
  let sof := sofOf fs
  let body := bodyOf fs
  let ns := sof.f 23 16
  let core := body.take (ns + 5)
  let tb := nthBlk body (ns + 5)
  let c := (nthBlk body 0).pl.toNat
  let st := (nthBlk body 1).pl.toNat
  let salt : BitVec 128 := (nthBlk body 3).pl ++ (nthBlk body 4).pl
  if sof.isSof && sof.f 47 40 == n && body.length == ns + 6 && body.all (·.isData) &&
      (crc32 (blkBytes core ++ beBytes 4 (tb.f 63 32))).toNat == tb.f 31 0 &&
      (tag32 (s.ringKey n) (ivSession n (sof.f 39 32) c) (blkBytes core)).toNat == tb.f 63 32 then
    let ps := (List.range ns).filter (fun p => (nthBlk body (5 + p)).pl != BitVec.allOnes 64)
    let join := (nthBlk body 2).pl.getLsbD 0
    if join then ps.foldl (fun s p => s.setBit (F.RPU_PORT_POS_ADM n p) true) s
    else
      let known := match (s.port n).next, (s.port n).sess with
        | some x, _ => x.start == st
        | none, some x => x.start == st
        | none, none => false
      if known then s
      else
        let x : Session := ⟨st, salt, hkdfExtract (beBytes 16 salt.toNat) (beBytes 32 (s.ringKey n).toNat), false⟩
        let s := (List.range 64).foldl (fun s q => s.setBit (F.RPU_PORT_POS_ADM n q) (ps.contains q)) s
        s.setPort n { s.port n with next := some x }
  else s

/-- d_j, by which a tail of cycle `j` counts (R100, R284). -/
def State.judgeAt (s : State) (j : Nat) : Nat := j * s.tc + s.tc / 2

/-- DOWN_FRAME_RECEIVED (R100, R283, R287), when the checks of the tag block are complete. -/
def execDownFrame (t : Nat) (port : Fin 64) (fs : List Blk) (s : State) : Host.Outcome State Fault Refusal :=
  .next (s.onDie t fun s =>
    if !s.enabled port then s
    else if (sofOf fs).f 55 48 = ftSession then (if s.role = roleActive then s else s.adoptSession port fs)
    else
      match s.downCheck port fs with
      | none => s
      | some (j, ep) =>
        if s.role = roleActive then
          let s' := s.noteEpoch ep
          if s.rd R.RDU_EPOCH < ep then s'.fence else s'
        else if ep < s.rd R.RDU_EPOCH_MAX then s
        else
          let s := s.noteEpoch ep
          let p := s.port port
          if s.now ≤ s.judgeAt j then
            (s.setPort port { p with tails := (j :: p.tails.filter (· != j)).take 8, cut := false }).tailsSeen j
          else s)

/-! ## TSTAMP frames (R123, R124, R133) -/

/-- The four stamps of a TSTAMP slot (Table 5.8). -/
structure Stamps where
  aRef : Nat
  dFar : Nat
  aFar : Nat
  dRef : Nat
deriving DecidableEq, Repr

def stampsOf (hi lo : BitVec 64) : Stamps :=
  ⟨bits hi.toNat 63 40, bits hi.toNat 39 16, bits hi.toNat 15 0 * 2 ^ 8 + bits lo.toNat 63 56, bits lo.toNat 55 32⟩

/-- The delays of the last rounds of the hop into a position from the A side, or from the B side. -/
def Hop.rounds (x : Hop) (fromB : Bool) : List Int := if fromB then x.lastB else x.last

/-- Put the delay `h` of a round before the earlier ones; `jump`: it moved by more than 1 ns from their average. -/
def Hop.put (x : Hop) (fromB : Bool) (h : Int) (jump : Bool) : Hop :=
  if fromB then { x with lastB := (h :: x.lastB).take 16, jumpsB := if jump then x.jumpsB + 1 else 0 }
  else { x with last := (h :: x.last).take 16, jumps := if jump then x.jumps + 1 else 0 }

/-- The hop into position `p` measures `h` (1/128 ns); a move of more than 1 ns from the average in 4 rounds in a row
quarantines the position. Before 16 rounds have been measured the average is that of the rounds at hand (DESIGN CHOICE, log
entry 112). -/
def State.hopIn (s : State) (n p : Nat) (fromB : Bool) (h : Int) : State :=
  let x := spGet {} (s.port n).hops p
  let l := x.rounds fromB
  let sum := l.foldl (· + ·) 0
  let cnt : Int := l.length
  let jump := !l.isEmpty && decide (128 * cnt < (h * cnt - sum).natAbs)
  let x := x.put fromB h jump
  let s := s.setPort n { s.port n with hops := spSet {} (s.port n).hops p x }
  if 4 ≤ (if fromB then x.jumpsB else x.jumps) then s.quarantine n p else s

/-- Average of the last 16 rounds of the hop into `p`, in 1/128 ns (rounding log entry 7). -/
def State.hopAvg (s : State) (n p : Nat) (fromB : Bool) : Int :=
  let l := (spGet {} (s.port n).hops p).rounds fromB
  divFree (l.foldl (· + ·) 0) (max 1 l.length)

/-- Residence of position `p` (1/64 ns): above 12 ns in 4 rounds in a row sets SLOW. -/
def State.residence (s : State) (n p : Nat) (r : Int) : State :=
  let x := spGet {} (s.port n).hops p
  let slow := decide (768 < r)
  let x := { x with slows := if slow then x.slows + 1 else 0 }
  let s := s.setPort n { s.port n with hops := spSet {} (s.port n).hops p x }
  if 4 ≤ x.slows then (s.setBit (F.RPU_PORT_POS_SLOW n p) true).portFlagAt n (p + 1) F.RPU_PORT_STAT_SLOW
  else s.setBit (F.RPU_PORT_POS_SLOW n p) false

/-- Walk the hops from the reference end: node u's D_FAR and A_FAR, path delay through u (1/128 ns), the positions left. -/
def State.walk (s : State) (n : Nat) (fromB : Bool) (slotAt : Nat → Option Stamps) : Nat → Nat → Int → List Nat → State
  | _, _, _, [] => s
  | dFar, aFar, d, p :: ps =>
    match slotAt p with
    | none => s
    | some v =>
      let h := stampDiff v.aRef dFar + stampDiff aFar v.dRef
      let s := s.hopIn n p fromB h
      let dv := d + s.hopAvg n p fromB
      let r := stampDiff v.dFar v.aRef
      let x := spGet {} (s.port n).hops p
      let s := s.setPort n { s.port n with hops := spSet {} (s.port n).hops p { x with dly := some dv } }
      let s := s.setFld (F.RPU_PORT_POS_DELAY n p) (Int.toNat (divFree dv 8))
      (s.residence n p r).walk n fromB slotAt v.dFar v.aFar (dv + 2 * r) ps

/-- A TSTAMP frame of cycle `k`, measured from the reference end whose stamps of that round are given. -/
def State.tstampTake (s : State) (n k : Nat) (far : Bool) (dep arr : Nat) (fs : List Blk) : State :=
  let slots := pairUp ((bodyOf fs).drop 1)
  let slotAt (p : Nat) : Option Stamps :=
    match slots[p]? with
    | some (hi, lo) => if s.slotOk 0xC2 n p k hi lo then some (stampsOf hi.pl lo.pl) else none
    | none => none
  let up := List.range (s.ncfg n)
  let fromB := s.sys.uid != far
  s.observed (k * s.tc) fun s => s.walk n fromB slotAt dep arr 0 (if fromB then up.reverse else up)

/-- TSTAMP_FRAME_RECEIVED (R123, R124, R133). -/
def execTstampFrame (t : Nat) (port : Fin 64) (refStamps : Option (Nat × Nat)) (fs : List Blk) (s : State) :
    Host.Outcome State Fault Refusal :=
  .next (s.onDie t fun s =>
    let ch := nthBlk (bodyOf fs) 0
    let round := (ch.f 63 32 + 254) % 256
    if s.role ≠ roleActive then s.forward port fs (some (spGet 0 (s.port port).dep round, spGet 0 (s.port port).arr round))
    else
      let sof := sofOf fs
      match s.collectCyc fs.length (ch.f 63 32) with
      | none => s
      | some k =>
        if sof.isSof && sof.f 55 48 == ftTstamp && sof.f 47 40 == port.val && ch.f 31 24 == port.val && k % 4 == 0 then
          match refStamps with
          | some (d, a) => s.tstampTake port k true d a fs
          | none => s.tstampTake port k false (spGet 0 (s.port port).dep round) (spGet 0 (s.port port).arr round) fs
        else s)

/-! ## Relayed frames (R128) -/

/-- The relayed frame of cycle `j` comes after the relay of the port has ended (R131). -/
def State.relayLate (s : State) (n j : Nat) : Bool := match (s.port n).relayOver with
  | some c => decide (j ≤ c)
  | none => false

/-- RELAY_FRAME_RECEIVED: the partner's port sends the frame out unchanged behind one RELAY block, where its lane is open to it. -/
def execRelayFrame (t : Nat) (port : Fin 64) (fs : List Blk) (s : State) : Host.Outcome State Fault Refusal :=
  .next (s.onDie t fun s =>
    let j := fullCycle s.cycNow (BitVec.ofNat 32 ((nthBlk (bodyOf fs) 0).f 63 32))
    if s.enabled port && s.role != roleActive && s.bit F.RDU_STAT_PL_UP && !s.sys.strapConf && !s.relayLate port j then
      let relay := ctlBlk ctRelay (port.val * 2 ^ 48 + s.ownEnd * 2 ^ 40)
      let out := if s.txOpen port then relay :: fs else []
      let s := s.setPort port { s.port port with relaying := true, relayOver := none, origin := none, txDown := out, tails := if (s.port port).relaying then (s.port port).tails else [] }
      let s := s.txSend port out (some (10 * t + 64)) none none
      (s.setPhase port phRelay).inc (F.RPU_PORT_RELAY_CNT_V port)
    else s)

/-! ## Host commands of a port -/

/-- RESESSION: steps 2 to 5 with a new session (Table 5.12). -/
def State.resessionPort (s : State) (n : Nat) : State :=
  if s.role = roleActive ∧ s.enabled n = true then
    (s.setPort n { s.port n with reqIdent := true, join := false }).setPhase n phIdent
  else s

/-- REIDENT. -/
def execReident (t : Nat) (port : Fin 64) (s : State) : Host.Outcome State Fault Refusal := .next (s.onDie t (·.reidentPort port))

/-- RESESSION. -/
def execResession (t : Nat) (port : Fin 64) (s : State) : Host.Outcome State Fault Refusal :=
  .next (s.onDie t (·.resessionPort port))

/-- A write of 1 to QUAR bits ends those quarantines (R133). -/
def State.quarClear (s : State) (n : Nat) (hi : Bool) (v : BitVec 32) : State :=
  (List.range 32).foldl (fun s b => if v.getLsbD b then s.unquarantine n (b + (if hi then 32 else 0)) else s) s

/-- QUAR_CLEAR (R133). -/
def execQuarClear (t : Nat) (port : Fin 64) (hi : Bool) (v : BitVec 32) (s : State) : Host.Outcome State Fault Refusal :=
  .next (s.onDie t (·.quarClear port hi v))

end Sys2Proof.Machine
end

