-- ==== Sys2Proof/Machine/Mdu.lean ====
section
/-! DEFINITION. Arm modulation and capacitor balancing (06_modulation.md): conditions of the SMs at P0, edge placement in P5,
selection and swaps in P6, packing and commit in P7, the auxiliary queue. -/

namespace Sys2Proof.Machine

/-! ## State codes (Table 4.6) -/

def smBlock : Nat := 0
def smBypass : Nat := 1
def smInsert : Nat := 2
def smInsertNeg : Nat := 3
def smBypassAlt : Nat := 4

def isByp (st : Nat) : Bool := st == smBypass || st == smBypassAlt
/-- Contribution of an SM in state `st` to the arm level. -/
def lev (st : Nat) : Int := if st = smInsert then 1 else if st = smInsertNeg then -1 else 0

/-! ## Access -/

def State.smr (s : State) (a : Nat) : SmRec := spGet {} s.mdu.sms a
def State.setSmr (s : State) (a : Nat) (r : SmRec) : State := { s with mdu := { s.mdu with sms := spSet {} s.mdu.sms a r } }
def State.armSt (s : State) (m : Nat) : ArmSt := spGet {} s.mdu.arms m
def State.setArm (s : State) (m : Nat) (x : ArmSt) : State := { s with mdu := { s.mdu with arms := spSet {} s.mdu.arms m x } }
def State.plan (s : State) (m : Nat) : ArmPlan := spGet {} s.mdu.plans m
def State.setPlan (s : State) (m : Nat) (x : ArmPlan) : State := { s with mdu := { s.mdu with plans := spSet {} s.mdu.plans m x } }

/-- Full-bridge by the SM map (TYPE 0x02). -/
def State.isFb (s : State) (a : Nat) : Bool := bits (s.smOf a).toNat 63 56 == 2

/-- SM addresses of arm `m`, ascending (R28). -/
def State.members (s : State) (m : Nat) : List Nat := (s.cfg.arm.filter (fun c => c.2 == m)).map (·.1)

/-- The device sets a W1C flag of MDU_ARMm_STAT: source 120 + m when it becomes set (R164). -/
def State.armFlag (s : State) (m : Nat) (f : Nat → RF) : State :=
  if s.bit (f m) then s else (s.setBit (f m) true).raise (120 + m)

def State.armFlagIf (s : State) (c : Bool) (m : Nat) (f : Nat → RF) : State := if c then s.armFlag m f else s

/-! ## P0: parameters and conditions (R137 to R140, Table 6.1) -/

/-- Parameters of arm `m` as they stand at P0 release. -/
def State.armPar (s : State) (m : Nat) : ArmPar :=
  { run := s.bit (F.MDU_ARM_CTL_RUN m) && s.bit (F.MDU_ARM_CTL_EN m), neg := s.bit (F.MDU_ARM_CTL_NEG_EN m),
    alt := s.bit (F.MDU_ARM_CTL_ALT_BYP m), lateOk := s.bit (F.MDU_ARM_CTL_LATE_OK_EN m),
    oosBlock := s.bit (F.MDU_ARM_CTL_OOS_STATE m), swapMax := s.fld (F.MDU_ARM_CTL_SWAP_MAX m),
    isig := s.fld (F.MDU_ARM_ISIG_ISIG m), idb := s.fld (F.MDU_ARM_ISIG_IDB m), dwell := s.fld (F.MDU_ARM_DWELL_DWELL m),
    pulse := s.fld (F.MDU_ARM_PULSE_MIN_PULSE m), cap := s.fld (F.MDU_ARM_BUDGET_BUD_CAP m),
    refill := s.fld (F.MDU_ARM_BUDGET_BUD_REFILL m), swapT := s.fld (F.MDU_ARM_SWAP_SWAP_T m),
    hyst := s.rd (R.MDU_ARM_HYST m), accLim := s.rd (R.MDU_ARM_ACCLIM m) }

/-- The report of SM `a` for cycle `k`; none makes it stale (R34). -/
def State.report (s : State) (k a : Nat) : Option Report :=
  match spGet none s.reports (k % 2 * 4096 + a) with
  | some r => if r.cycle = k then some r else none
  | none => none

/-- VCAP in volts, fp32 (Table 4.9). -/
def vcapVolts (v : BitVec 16) : BitVec 32 := frat32 v.toNat 20

/-- Cause 5 of Table 6.1 on the last VALID report. BLOCKED is held against the model state at the report's t_k (log entry
16). -/
def SmRec.bad5 (r : SmRec) : Bool :=
  match r.status with
  | some st => st.getLsbD 7 || st.getLsbD 6 || st.getLsbD 11 || (st.getLsbD 12 && r.st != smBlock && decide (r.unblock < r.repK))
  | none => false

/-- Cause 4. -/
def SmRec.bad4 (r : SmRec) (lim : Nat) : Bool :=
  decide (lim < r.stale) || (match r.status with
    | some st => !st.getLsbD 0
    | none => false)

/-- Take in the report of cycle `k`: key, STATUS, stale count, restatement of R159 by the LATE_OK_EN with which cycle k - 1 was
commanded. -/
def SmRec.take (r : SmRec) (k : Nat) (rep : Option Report) (lateOk : Bool) (sm : BitVec 64) : SmRec :=
  match rep with
  | none => { r with stale := r.stale + 1 }
  | some x =>
    let st := x.status
    let lateOk := match r.hist.find? (fun h => h.1 + 1 == k) with
      | some (_, _, _, l) => l
      | none => lateOk
    { r with key := vcapVolts x.vcap, status := some st, repK := k, stale := 0,
             bypSm := if st.getLsbD 5 then sm else r.bypSm,
             restate := r.restate || st.getLsbD 13 || (st.getLsbD 15 && !lateOk) }

/-- R161: the SWCOUNT of a report of cycle `k` differs from the transitions commanded for cycle k - 1, which are none where nothing
was commanded. -/
def SmRec.swMis (r : SmRec) (k : Nat) (rep : Option Report) : Bool :=
  match rep with
  | none => false
  | some x =>
    if x.supplied || x.status.getLsbD 13 || x.status.getLsbD 15 || x.status.getLsbD 3 then false
    else match r.hist.find? (fun h => h.1 + 1 == k) with
      | some (_, n, re, _) => !re && x.swcount.toNat != min n 255
      | none => x.swcount != 0

/-- Cause code by the first matching row of Table 6.1, with the clean reports of R139, and the record after it. -/
def State.condition (s : State) (a : Nat) (r : SmRec) (fresh supplied : Bool) : SmRec :=
  let ring := a / 64
  let pos := a % 64
  let removed := (s.fbit (F.MDU_OOS_V (a / 32)) (a % 32))
  let b5 := r.bad5
  let b4 := r.bad4 s.mdu.staleLim
  let c := if !s.bit (F.RPU_PORT_POS_ADM ring pos) then 2
    else if s.bit (F.RPU_PORT_POS_QUAR ring pos) then 3
    else if r.bypSm ≠ 0 ∧ r.bypSm = s.smOf a then 6
    else if removed then 7
    else if b5 then 5 else if b4 then 4 else 0
  let held := r.cause = 4 ∨ r.cause = 5
  let clean := if held then
      (if supplied then r.clean else if fresh && !(if r.cause = 5 then b5 else b4) then r.clean + 1 else 0)
    else 0
  let (c, clean) := if held ∧ c = 0 ∧ clean < 16 then (r.cause, clean) else if c = r.cause then (c, clean) else (c, 0)
  { r with cause := c, clean := clean, frozen := c == 0 && decide (0 < r.stale), elig := c == 0 && r.stale == 0 }

/-- In STANDBY the causes 1 to 6 come from COND entries; cause 7 is the unit's own (R292). -/
def State.conditionMir (s : State) (a : Nat) (r : SmRec) : SmRec :=
  let removed := (s.fbit (F.MDU_OOS_V (a / 32)) (a % 32))
  let c := if removed ∧ (r.mirCause = 0 ∨ r.mirCause = 4 ∨ r.mirCause = 5) then 7 else r.mirCause
  { r with cause := c, frozen := c == 0 && r.mirFrozen, elig := c == 0 && !r.mirFrozen }

/-- A change of an SM's condition goes into the mirrors (R292, COND). -/
def State.condNote (s : State) (a cause : Nat) (frozen : Bool) : State :=
  { s with rdu := { s.rdu with outCond := s.rdu.outCond ++ [⟨none, s.rdu.bornNext, ⟨a, cause, frozen⟩⟩], bornNext := s.rdu.bornNext + 1 } }

/-- A commanded transition goes into the mirrors (R292, TRANS) and into the SM's lifetime count (R162). -/
def State.transNote (s : State) (x : TransRec) : State :=
  let s := s.setLt (fun l => { l with trans := spSet 0 l.trans x.addr (spGet 0 l.trans x.addr + 1) })
  { s with rdu := { s.rdu with outTrans := s.rdu.outTrans ++ [⟨none, s.rdu.bornNext, x⟩], bornNext := s.rdu.bornNext + 1 } }

/-- P0 for one SM of arm `m`: the state, whether its condition changed, whether SWCOUNT differs. -/
def State.smP0 (s : State) (k a : Nat) (p : ArmPar) : State × Bool × Bool :=
  let r0 := s.smr a
  let r0 := if p.refill ≠ 0 ∧ p.cap < r0.tokens then { r0 with tokens := p.cap } else r0
  if s.role = roleActive then
    let rep := s.report k a
    let mis := s.mdu.swchk && r0.swMis k rep
    let supplied := match rep with
      | some x => x.supplied
      | none => false
    let r := s.condition a (r0.take k rep p.lateOk (s.smOf a)) rep.isSome supplied
    let s := match rep with
      | some _ => s.sigSet a r.key
      | none => s
    let chg := r.cause != r0.cause || r.frozen != r0.frozen
    let s := if chg then s.condNote a (if r.cause = 7 then 0 else r.cause) r.frozen else s
    (s.setSmr a r, chg, mis)
  else
    let r := s.conditionMir a r0
    (s.setSmr a r, r.cause != r0.cause || r.frozen != r0.frozen, false)

/-- P0 for arm `m` (R138, R161, R164). -/
def State.armP0 (s : State) (k m : Nat) : State :=
  let p := s.armPar m
  let as := s.members m
  let (s, chg, mis) := as.foldl (fun (x : State × Bool × Nat) a =>
    let (s, c, w) := x.1.smP0 k a p
    (s, x.2.1 || c, x.2.2 + (if w then 1 else 0))) (s, false, 0)
  let s := s.armFlagIf chg m F.MDU_ARM_STAT_OOS_CHG
  let s := if mis = 0 then s else (s.addFld (F.MDU_ARM_SWMIS_CNT_V m) mis).armFlag m F.MDU_ARM_STAT_SWMIS
  let empty := p.run && !as.any (fun a => (s.smr a).elig)
  let x := s.armSt m
  let s := if empty then
      let s := s.armFlag m F.MDU_ARM_STAT_EMPTY
      if x.wasEmpty then s else s.sendFco 1 m 3 0x27 none none
    else s
  let el := as.filter (fun a => (s.smr a).elig || (s.smr a).frozen)
  let s := (s.setFld (F.MDU_ARM_LEVEL_NELIG m) el.length).setFld (F.MDU_ARM_NFB_V m) (el.filter s.isFb).length
  (s.setArm m { x with wasEmpty := empty, rankDone := false }).setPlan m { par := p }

/-- SMs that the MDU knows and that the image in force assigns to no arm. -/
def State.unassigned (s : State) : List Nat :=
  (s.mdu.sms.filter (fun c => decide (12 ≤ spGet 255 s.cfg.arm c.1))).map (·.1)

/-- The first row of Table 6.1: an SM that is assigned to no arm is out of service with cause 1. -/
def State.unassignP0 (s : State) : State :=
  s.unassigned.foldl (fun s a =>
    let r := s.smr a
    let s := s.setSmr a { r with cause := 1, frozen := false, elig := false }
    if r.cause ≠ 1 ∧ s.role = roleActive then s.condNote a 1 false else s) s

/-- The MDU at P0 release of sample `k`. -/
def State.mduP0 (s : State) (k : Nat) : State :=
  let s : State := { s with mdu := { s.mdu with staleLim := s.fld F.MDU_CTL_STALE_LIM, swchk := s.bit F.MDU_CTL_SWCHK_EN } }
  (List.range 12).foldl (fun s m => s.armP0 k m) s.unassignP0

/-! ## Exact helpers on binary64 -/

/-- floor(x + 1/2) of a finite value, exactly. -/
def floorHalf (x : BitVec 64) : Int :=
  match fDecode fmt64 x.toNat with
  | .fin n m e =>
    let v : Int := if n then -(m : Int) else m
    if 0 ≤ e then v * 2 ^ e.toNat
    else Int.fdiv (2 * v + 2 ^ (-e).toNat) (2 * 2 ^ (-e).toNat)
  | _ => 0

/-- b + 1/2 as binary64. -/
def halfAbove (b : Int) : BitVec 64 := fdiv64 (fint64 (2 * b + 1)) (fint64 2)

def clampI (x lo hi : Int) : Int := if x < lo then lo else if hi < x then hi else x

/-! ## P5: edges (R135, R142 to R144, R415) -/

/-- The integers from `lo` for `n` steps. -/
def intsFrom : Nat → Int → List Int
  | 0, _ => []
  | n + 1, lo => lo :: intsFrom n (lo + 1)

/-- Level edges of R143 between s(0) and s(Tc). -/
def levelEdges (tc : Nat) (s0 s1 : BitVec 64) (n0 lo hi : Int) : List (Nat × Int) :=
  let l0 := clampI (floorHalf s0) lo hi
  let first : List (Nat × Int) := (List.range (l0 - n0).natAbs).map (fun _ => (0, if n0 < l0 then 1 else -1))
  let up := flt64 s0 s1
  let bs := (intsFrom (hi - lo).toNat lo).filter (fun b =>
    if up then flt64 s0 (halfAbove b) && flt64 (halfAbove b) s1 else flt64 s1 (halfAbove b) && flt64 (halfAbove b) s0)
  let bs := if up then bs else bs.reverse
  first ++ bs.map (fun b =>
    let t := floorHalf (fdiv64 (fmul64 (fint64 tc) (fsub64 (halfAbove b) s0)) (fsub64 s1 s0))
    (min t.toNat (tc - 1), if up then 1 else -1))

/-- Pass 1 of R144 on a list in time order; `kept` is reversed. Also the number removed. -/
def pulsePass1 (mp : Nat) : List (Nat × Int) → List (Nat × Int) → Nat → List (Nat × Int) × Nat
  | [], kept, c => (kept.reverse, c)
  | e :: es, kept, c =>
    match kept with
    | x :: xs => if x.2 ≠ e.2 ∧ e.1 < x.1 + mp then pulsePass1 mp es xs (c + 2) else pulsePass1 mp es (e :: kept) c
    | [] => pulsePass1 mp es [e] c

/-- Pass 2 of R144: `last` is the last arm edge, relative to t_j. Also the number dropped. -/
def pulsePass2 (mp tc : Nat) : List (Nat × Int) → Option (Int × Int) → List (Nat × Int) × Nat
  | [], _ => ([], 0)
  | (t, d) :: es, last =>
    match last with
    | none => let (l, c) := pulsePass2 mp tc es (some (t, d)); ((t, d) :: l, c)
    | some (lt, ld) =>
      if d ≠ ld ∧ (t : Int) < lt + mp then
        if lt + mp < tc then
          let t' := (lt + mp).toNat
          let (l, c) := pulsePass2 mp tc es (some (t', d))
          ((t', d) :: l, c)
        else
          let (l, c) := pulsePass2 mp tc es last
          (l, c + 1)
      else
        let t' := if d = ld ∧ (t : Int) < lt then lt.toNat else t
        let (l, c) := pulsePass2 mp tc es (some (t', d))
        ((t', d) :: l, c)

/-- The last arm edge relative to the t_j of the cycle being commanded. -/
def ArmSt.lastEdge (x : ArmSt) (tc : Nat) : Option (Int × Int) := x.edge.map (fun e => (e.1 - tc, e.2))

/-- CLIP: floor(s(t) + 0.5) leaves [lo, hi] at an instant of [0, Tc) (R142). -/
def clipped (s0 s1 : BitVec 64) (lo hi : Int) : Bool :=
  decide (floorHalf s0 < lo) || decide (hi < floorHalf s0) || flt64 (halfAbove hi) s1 || decide (floorHalf s1 < lo)

/-- Mean key of SMs, one binary64 addition after the other in address order (log entry 17). -/
def meanKey (keys : List (BitVec 32)) : BitVec 64 :=
  fdiv64 (keys.foldl (fun a k => fadd64 a (fto64 k)) 0) (fint64 keys.length)

/-- Current direction (R150): true for σ = -1. -/
def State.sigmaNext (s : State) (p : ArmPar) (neg : Bool) : Bool :=
  let i := s.sigGet p.isig
  if flt32 (fint32 p.idb) i then false else if flt32 i (fint32 (-(p.idb : Int))) then true else neg

/-- P5 for arm `m`. -/
def State.armP5 (s : State) (m : Nat) : State :=
  let pl := s.plan m
  let p := pl.par
  let x := s.armSt m
  let neg := s.sigmaNext p x.neg
  if !p.run then s.setPlan m { pl with mode := if x.run then .stop else .off, neg := neg, u0 := x.u0, u1 := x.u0 }
  else
    let raw := s.sigGet (0x1140 + m)
    let s := s.dpSeen [0x1140 + m, p.isig]
    let bad := fbad32 raw
    let s := s.armFlagIf bad m F.MDU_ARM_STAT_REF_INV
    let u1 := if bad then x.u0 else raw
    let start := !x.run
    let u0 := if start then u1 else x.u0
    let n0 := if start then 0 else x.n0
    let el := (s.members m).filter (fun a => (s.smr a).elig || (s.smr a).frozen)
    let pl := { pl with u0 := u0, u1 := u1, neg := neg, edges := [], startL := 0 }
    if el.isEmpty then s.setPlan m { pl with mode := .empty }
    else
      let vbar := meanKey (el.map (fun a => (s.smr a).key))
      let s := s.wr (R.MDU_ARM_VBAR m) (fto32 vbar)
      if !flt64 0 vbar then s.setPlan m { pl with mode := .zero, vbar := vbar, clip := true }
      else
        let tc := s.tc
        let hi : Int := el.length
        let lo : Int := if p.neg then -((el.filter s.isFb).length : Int) else 0
        let carry := fdiv64 x.acc (fint64 tc)
        let s0 := fdiv64 (fadd64 (fto64 u0) carry) vbar
        let s1 := fdiv64 (fadd64 (fto64 u1) carry) vbar
        let s := s.armFlagIf (clipped s0 s1 lo hi) m F.MDU_ARM_STAT_CLIP
        if start then s.setPlan m { pl with mode := .start, vbar := vbar, startL := clampI (floorHalf s0) lo hi }
        else
          let (es, c1) := pulsePass1 p.pulse (levelEdges tc s0 s1 n0 lo hi) [] 0
          let (es, c2) := pulsePass2 p.pulse tc es (x.lastEdge tc)
          (s.addFld (F.MDU_ARM_CARRY_CNT_V m) (c1 + c2)).setPlan m { pl with mode := .run, vbar := vbar, edges := es }

/-- MDU_EDGE_PLACEMENT at P5 release (R143). -/
def State.mduP5 (s : State) : State := (List.range 12).foldl (fun s m => s.armP5 m) s

/-! ## P6: selection (R141, R146 to R155, R414) -/

/-- Earliest instant from `t` on at which the dwell allows a transition (R149). -/
def Work.readyAt (w : Work) (p : ArmPar) (t : Nat) : Nat := if w.r.st = smBlock then t else max t (p.dwell - w.r.since)

/-- Candidate of R151 but for the dwell. -/
def Work.cand (w : Work) (p : ArmPar) (want : Nat → Bool) (fbOnly : Bool) : Bool :=
  w.r.elig && w.mv.isNone && w.re.isNone && want w.r.st && (w.fb || !fbOnly) && (p.refill == 0 || decide (1 ≤ w.r.tokens))

/-- Bypass state of the next transition of an SM into bypass (R154). -/
def Work.bypTo (w : Work) (p : ArmPar) : Nat := if w.fb && p.alt && w.r.alt then smBypassAlt else smBypass

/-- The SM makes its transition to `new` at `t`, BYPASS standing for the bypass state that R154 gives; `free` ones need no token
(R141, R414). -/
def Work.go (w : Work) (p : ArmPar) (new t : Nat) (free : Bool) : Work :=
  let new := if new = smBypass then w.bypTo p else new
  let charged := p.refill != 0 && !free && w.r.st != smBlock && new != smBlock
  { w with mv := some t, r := { w.r with st := new, tokens := if charged then w.r.tokens - 1 else w.r.tokens,
                                         alt := if w.fb && isByp new then new == smBypass else w.r.alt } }

/-- Selection in progress: SMs in address order, ranking, edges counted toward the cap, CARRY_CNT, EDGE_OVF, previous assigned
edge, last arm edge. -/
structure Sel where
  ws : List Work
  order : List Nat
  cnt : Nat := 0
  carry : Nat := 0
  ovf : Bool := false
  floor : Nat := 0
  last : Option (Int × Int) := none
deriving DecidableEq, Repr

def Sel.level (x : Sel) : Int := x.ws.foldl (fun n w => n + lev w.r.st) 0
def Sel.moveTo (x : Sel) (p : ArmPar) (a new t : Nat) (free : Bool) : Sel :=
  { x with ws := x.ws.map (fun w => if w.a = a then w.go p new t free else w) }
/-- SMs in rank order, ascending or descending. -/
def Sel.ranked (x : Sel) (low : Bool) : List Work :=
  (if low then x.order else x.order.reverse).filterMap (fun a => x.ws.find? (fun w => w.a == a))

/-- The candidate that is ready first at or after `t`; among equals the first in the list. -/
def pickFirst (p : ArmPar) (t : Nat) : List Work → Option (Work × Nat) → Option (Work × Nat)
  | [], b => b
  | w :: ws, b =>
    let r := w.readyAt p t
    match b with
    | some (_, rb) => pickFirst p t ws (if r < rb then some (w, r) else b)
    | none => pickFirst p t ws (some (w, r))

/-- What Table 6.2 asks for an edge in direction `d` at level `n`: required state, full-bridge only, new state (none: bypass),
lowest key first, state that no SM of the arm may hold (R154). -/
def tableSel (n d : Int) (neg : Bool) (p : ArmPar) : Option ((Nat → Bool) × Bool × Option Nat × Bool × Option Nat) :=
  if 0 < d ∧ 0 ≤ n then some (isByp, false, some smInsert, !neg, some smInsertNeg)
  else if d < 0 ∧ 0 < n then some ((· == smInsert), false, none, neg, none)
  else if d < 0 ∧ p.neg = true then some (isByp, true, some smInsertNeg, neg, some smInsert)
  else if 0 < d then some ((· == smInsertNeg), false, none, !neg, none)
  else none

/-- One edge: select an SM, move the edge, or drop it (R151, R152). -/
def Sel.edge (x : Sel) (p : ArmPar) (tc : Nat) (neg : Bool) (t : Nat) (d : Int) (counted : Bool) : Sel :=
  if counted && decide (64 ≤ x.cnt) then { x with carry := x.carry + 1, ovf := true }
  else
    let dropped := { x with carry := x.carry + 1 }
    match tableSel x.level d neg p with
    | none => dropped
    | some (want, fbOnly, new, low, clash) =>
      let clashes := match clash with
        | some c => x.ws.any (fun w => w.r.st == c)
        | none => false
      if clashes then dropped
      else
        match pickFirst p (max t x.floor) ((x.ranked low).filter (fun w => w.cand p want fbOnly)) none with
        | none => dropped
        | some (w, r) =>
          if r < tc then
            let x := x.moveTo p w.a (new.getD smBypass) r false
            { x with floor := r, cnt := x.cnt + (if counted then 1 else 0), last := if counted then some ((r : Int), d) else x.last }
          else dropped

/-- An event of P6 in time order: a level edge, a removal of R141 with its target, a replacement edge. -/
inductive ArmEv where
  | level (d : Int)
  | remove (a tgt : Nat)
  | replace (d : Int)
deriving DecidableEq, Repr

/-- Put an event behind those of the same instant. -/
def insEv (t : Nat) (e : ArmEv) : List (Nat × ArmEv) → List (Nat × ArmEv)
  | [] => [(t, e)]
  | (u, f) :: l => if t < u then (t, e) :: (u, f) :: l else (u, f) :: insEv t e l

/-- Target of an SM out of service (Table 6.1). -/
def oosTarget (p : ArmPar) (cause : Nat) : Nat :=
  if cause = 1 ∨ cause = 2 ∨ cause = 3 ∨ cause = 6 ∨ p.oosBlock = true then smBlock else smBypass

/-- Removal of an SM out of service in this cycle, and the replacement edge that goes with it (R141). -/
def Work.removal (w : Work) (p : ArmPar) (tc : Nat) : List (Nat × ArmEv) :=
  if w.r.cause = 0 then []
  else
    let tgt := oosTarget p w.r.cause
    if w.r.st = tgt ∨ (tgt = smBypass ∧ isByp w.r.st = true) then []
    else
      let t := if tgt = smBlock then 0 else w.readyAt p 0
      if t < tc then
        (t, .remove w.a tgt) :: (if lev w.r.st ≠ 0 then [(t, .replace (lev w.r.st))] else [])
      else []

def Sel.event (x : Sel) (p : ArmPar) (tc : Nat) (neg : Bool) (e : Nat × ArmEv) : Sel :=
  match e.2 with
  | .level d => x.edge p tc neg e.1 d true
  | .remove a tgt => x.moveTo p a tgt e.1 true
  | .replace d => x.edge p tc neg e.1 d false

/-- State of an SM at instant `t` of the cycle. -/
def Work.stateAt (w : Work) (t : Nat) : Nat :=
  match w.mv with
  | some u => if u ≤ t then w.r.st else w.st0
  | none => w.r.st

/-- Level at instant `t`. -/
def Sel.levelAt (x : Sel) (t : Nat) : Int := x.ws.foldl (fun n w => n + lev (w.stateAt t)) 0

/-- The first of at most 8 SMs of a walk that is a candidate at `t`, and the walk behind it. -/
def walkPick (p : ArmPar) (want : Nat → Bool) (fbOnly : Bool) (t : Nat) : Nat → List Work → Option (Work × List Work)
  | 0, _ => none
  | _, [] => none
  | n + 1, w :: ws => if w.cand p want fbOnly && w.readyAt p t == t then some (w, ws) else walkPick p want fbOnly t n ws

/-- key(a) - key(b) > HYST. -/
def keyGap (hyst : BitVec 32) (a b : Work) : Bool := flt64 (fto64 hyst) (fsub64 (fto64 a.r.key) (fto64 b.r.key))

/-- Swaps along both walks; `chi` tells that the inserted state charges. -/
def Sel.swapLoop (p : ArmPar) (ins : Nat) (chi : Bool) : Nat → List Work → List Work → Sel → Sel
  | 0, _, _, x => x
  | n + 1, is, bs, x =>
    match walkPick p (· == ins) false p.swapT 8 is, walkPick p isByp (ins == smInsertNeg) p.swapT 8 bs with
    | some (i, is'), some (b, bs') =>
      if !(if chi then keyGap p.hyst i b else keyGap p.hyst b i) then x
      else if 64 < x.cnt + 2 then { x with carry := x.carry + 2, ovf := true }
      else
        let x := (x.moveTo p i.a smBypass p.swapT false).moveTo p b.a ins p.swapT false
        Sel.swapLoop p ins chi n is' bs' { x with cnt := x.cnt + 2 }
    | _, _ => x

/-- Balancing swaps (R155). -/
def Sel.swaps (x : Sel) (p : ArmPar) (tc : Nat) (neg : Bool) : Sel :=
  let ts := 0 :: x.ws.filterMap (·.mv)
  let pos := ts.all (fun t => decide (0 < x.levelAt t))
  let negv := ts.all (fun t => decide (x.levelAt t < 0))
  if p.swapMax = 0 ∨ tc ≤ p.swapT ∨ (pos || negv) = false then x
  else
    let ins := if pos then smInsert else smInsertNeg
    let chi := pos != neg
    let asc := x.ranked true
    let is := asc.filter (fun w => w.stateAt p.swapT == ins)
    let bs := asc.filter (fun w => isByp (w.stateAt p.swapT) && (pos || w.fb))
    let is := if chi then is.reverse else is
    let bs := if chi then bs else bs.reverse
    match is, bs with
    | i :: _, b :: _ =>
      if (if chi then keyGap p.hyst i b else keyGap p.hyst b i) then Sel.swapLoop p ins chi p.swapMax is bs x else x
    | _, _ => x

/-- The start of an arm (R157): |L(0)| eligible SMs ranked first go to INSERT or INSERT_NEG, every other eligible SM to BYPASS,
all at EDGE1 = 0. -/
def Sel.startUp (x : Sel) (p : ArmPar) (neg : Bool) (l : Int) : Sel :=
  let up := decide (0 ≤ l)
  let pref := (x.ranked (if up then !neg else neg)).filter (fun w => w.r.elig && (up || w.fb))
  let chosen := (pref.take l.natAbs).map (·.a)
  let ws := x.ws.map (fun w =>
    if !w.r.elig then w
    else
      let tgt := if chosen.contains w.a then (if up then smInsert else smInsertNeg) else smBypass
      if w.r.st = tgt ∨ (tgt = smBypass ∧ isByp w.r.st = true) then w else w.go p tgt 0 false)
  { x with ws := ws, last := if l = 0 then none else some (0, if up then 1 else -1) }

/-- Ranking of R146: eligible SMs by key, equal keys by lower address. -/
def insRank (w : Work) : List Work → List Work
  | [] => [w]
  | x :: xs =>
    if w.r.key.toNat < x.r.key.toNat ∨ (w.r.key = x.r.key ∧ w.a < x.a) then w :: x :: xs else x :: insRank w xs
def rankOf (ws : List Work) : List Nat := ((ws.filter (·.r.elig)).foldl (fun l w => insRank w l) []).map (·.a)

/-- One token more for every SM of the arm below BUD_CAP where j mod BUD_REFILL = 0 (R153). -/
def refillTok (p : ArmPar) (j : Nat) (r : SmRec) : SmRec :=
  if p.refill ≠ 0 ∧ j % p.refill = 0 ∧ r.tokens < p.cap then { r with tokens := r.tokens + 1 } else r

/-- R159: restate an SM that waits for it, at the earliest instant of the cycle that R149 allows; it then makes no other transition in
the cycle. `due`: a transition of R141, R157 or R414 is due, which states the SM's state itself, as the slot of an SM out of service
in BLOCK does (R156). A frozen SM waits (R140). -/
def Work.restateIn (w : Work) (p : ArmPar) (tc : Nat) (due : Bool) : Work :=
  if !w.r.restate || w.r.frozen then w
  else if due || (w.r.cause != 0 && w.r.st == smBlock) then { w with r := { w.r with restate := false } }
  else
    let t := w.readyAt p 0
    if t < tc then
      { w with re := some t, r := { w.r with restate := false, tokens := if p.refill ≠ 0 ∧ w.r.st ≠ smBlock then w.r.tokens - 1 else w.r.tokens } }
    else w

/-- P6 for arm `m` in the computation that commands cycle `j`. -/
def State.armP6 (s : State) (m j : Nat) : State :=
  let pl := s.plan m
  let p := pl.par
  let tc := s.tc
  let ws := (s.members m).map (fun a => let r := refillTok p j (s.smr a); (⟨a, s.isFb a, r, r.st, none, none⟩ : Work))
  let x := s.armSt m
  let late := !x.rankDone
  let order := if late then x.order.filter (fun a => (s.smr a).elig) else rankOf ws
  let s := if late && p.run then (s.armFlag m F.MDU_ARM_STAT_RANK_OLD).setFbit F.MDU_STAT_RANK_OLD m true else s
  let due (w : Work) : Bool := match pl.mode with
    | .off => false
    | .stop => true
    | _ => (w.r.elig && w.r.st == smBlock) || !(w.removal p tc).isEmpty
  let sel : Sel := { ws := ws.map (fun w => w.restateIn p tc (due w)), order := order }
  let run (sel : Sel) (edges : List (Nat × Int)) : Sel :=
    let evs := (sel.ws.map (fun w => w.removal p tc)).flatten.foldl (fun l e => insEv e.1 e.2 l) (edges.map (fun e => (e.1, ArmEv.level e.2)))
    evs.foldl (fun x e => x.event p tc pl.neg e) sel
  let enter (sel : Sel) : Sel :=
    { sel with ws := sel.ws.map (fun w => if w.r.elig && w.r.st == smBlock then w.go p smBypass 0 true else w) }
  let sel : Sel := match pl.mode with
    | .off => sel
    | .stop => { sel with ws := sel.ws.map (fun w => w.go p smBlock 0 true) }
    | .start => run (sel.startUp p pl.neg pl.startL) []
    | .empty => run sel []
    | .zero => run (enter sel) []
    | .run => (run (enter sel) pl.edges).swaps p tc pl.neg
  let s := (s.addFld (F.MDU_ARM_CARRY_CNT_V m) sel.carry).armFlagIf sel.ovf m F.MDU_ARM_STAT_EDGE_OVF
  s.setPlan m { pl with work := sel.ws, order := order, edge := sel.last }

/-- MDU_SELECTION at P6 release (R151). -/
def State.mduP6 (s : State) (j : Nat) : State := (List.range 12).foldl (fun s m => s.armP6 m j) s

/-! ## P7: packing and commit (R145, R156, R160, R162, R163) -/

/-- A command slot of Table 4.5 with one edge. -/
def slotWord (st edge : Nat) (lateOk : Bool) : BitVec 64 :=
  BitVec.ofNat 64 (st * 2 ^ 60 + edge * 2 ^ 45 + (if lateOk then 2 ^ 24 else 0))

/-- The slot of an SM (R156). -/
def Work.slot (w : Work) (p : ArmPar) : BitVec 64 :=
  match w.mv, w.re with
  | some t, _ => slotWord w.r.st t p.lateOk
  | none, some t => slotWord w.r.st t p.lateOk
  | none, none => if w.r.cause ≠ 0 ∧ w.r.st = smBlock then 0 else holdSlot

/-- ns in INSERT minus ns in INSERT_NEG within the cycle. -/
def Work.insertNs (w : Work) (tc : Nat) : Int :=
  match w.mv with
  | some t => lev w.st0 * t + lev w.r.st * ((tc : Int) - t)
  | none => lev w.r.st * tc

/-- A := A + (u0 + u1)/2 · Tc - Σ v_x, and whether it was limited (R145, R415). -/
def accUpdate (pl : ArmPlan) (tc : Nat) (acc : BitVec 64) : BitVec 64 × Bool :=
  let t := fint64 tc
  let mean := fdiv64 (fadd64 (fto64 pl.u0) (fto64 pl.u1)) (fint64 2)
  let sum := pl.work.foldl (fun a w => fadd64 a (fmul64 (fto64 w.r.key) (fint64 (w.insertNs tc)))) 0
  let a := fsub64 (fadd64 acc (fmul64 mean t)) sum
  let lim := fmul64 (fmul64 (fto64 pl.par.accLim) pl.vbar) t
  if flt64 lim a then (lim, true) else if flt64 a (fneg64 lim) then (fneg64 lim, true) else (a, false)

/-- The record of an SM after the commit of cycle `j`: dwell timer (R149, R159), booked transitions, last exit from BLOCK. -/
def Work.committed (w : Work) (p : ArmPar) (tc j : Nat) : SmRec :=
  let moved := w.mv.isSome && w.r.st != w.st0
  let t := if w.mv.isSome then w.mv.getD 0 else w.re.getD 0
  let since := if moved || w.re.isSome then (if p.lateOk then 0 else tc - t) else min 131071 (w.r.since + tc)
  { w.r with since := since, unblock := if w.st0 = smBlock ∧ w.r.st ≠ smBlock then j else w.r.unblock,
             hist := ((j, (if moved then 1 else 0), w.re.isSome, p.lateOk) :: w.r.hist).take 8 }

/-- A after the computation, whether it was limited, and n0 (R145, R157, R165). -/
def State.armResult (s : State) (m : Nat) : BitVec 64 × Bool × Int :=
  let pl := s.plan m
  let x := s.armSt m
  let (acc, sat) : BitVec 64 × Bool := match pl.mode with
    | .start => accUpdate pl s.tc x.acc
    | .run => accUpdate pl s.tc x.acc
    | .off => (x.acc, false)
    | _ => (0, false)
  let n0 : Int := match pl.mode with
    | .stop => 0
    | .empty => 0
    | .off => x.n0
    | _ => pl.work.foldl (fun n w => n + lev w.r.st) (0 : Int)
  (acc, sat, n0)

/-- MDU_ARMm_ACC, LEVEL and SIGMA show A, n0 and σ (R415, Tables 6.12 and 6.13). -/
def State.armShow (s : State) (m : Nat) (acc : BitVec 64) (n0 : Int) (neg : Bool) : State :=
  ((s.wr (R.MDU_ARM_ACC m) (fto32 acc)).setFld (F.MDU_ARM_LEVEL_LEVEL m) (n0 % 4096).toNat).setBit (F.MDU_ARM_STAT_SIGMA m) neg

/-- The part of the commit of arm `m` for cycle `j` that changes the model of the SMs: the lease holder's. -/
def State.armBook (s : State) (m j : Nat) : State :=
  let pl := s.plan m
  let p := pl.par
  let tc := s.tc
  let x := s.armSt m
  let moved := pl.work.filter (fun w => w.mv.isSome && w.r.st != w.st0)
  let (acc, sat, n0) := s.armResult m
  let edge := match pl.edge with
    | some e => some e
    | none => x.edge.map (fun e => (e.1 - (tc : Int), e.2))
  let s := s.setArm m { x with u0 := pl.u1, acc := acc, n0 := n0, neg := pl.neg, run := p.run, edge := edge, order := pl.order }
  let s := pl.work.foldl (fun s w => s.setSmr w.a (w.committed p tc j)) s
  let s := s.armShow m acc n0 pl.neg
  let s := s.addFld (F.MDU_ARM_EDGE_CNT_V m) moved.length
  let s := s.armFlagIf pl.clip m F.MDU_ARM_STAT_CLIP
  let s := if sat then (s.armFlag m F.MDU_ARM_STAT_ACC_SAT).sendFco 1 m 3 0x26 none none else s
  moved.foldl (fun (s : State) w => s.transNote ⟨w.a, w.r.st, w.mv.getD 0, w.r.st == smBlock || w.st0 == smBlock⟩) s

/-- Commit arm `m` for cycle `j`. Only the holder's commit changes the model; a STANDBY unit's state follows the mirror
(R292). -/
def State.armCommit (s : State) (m j : Nat) : State :=
  let pl := s.plan m
  let n0 := (s.armResult m).2.2
  let s : State := { s with cyc := { s.cyc with slots := pl.work.foldl (fun q w => spSet 0 q w.a (w.slot pl.par)) s.cyc.slots } }
  let s := s.sigPut (0x1150 + m) (toI32 n0)
  let s := s.setFbit F.MDU_STAT_ARM_RUN m pl.par.run
  if s.role ≠ roleActive then s.setArm m { s.armSt m with order := pl.order } else s.armBook m j

/-- SMs that no arm has any more go to BLOCK at EDGE1 = 0 (R141, R138 row 1): their slots carry BLOCK. -/
def State.unassignBook (s : State) : State :=
  s.unassigned.foldl (fun s a =>
    let r := s.smr a
    if r.st = smBlock then s else (s.setSmr a { r with st := smBlock, since := s.tc }).transNote ⟨a, smBlock, 0, true⟩) s

/-- AUX_PACK (R160): entries in order of arrival, one CMDX per slot; a BYPASS_SW goes into two frames of consecutive cycles.
The result: slots and the entries that stay. -/
def auxPack (j : Nat) : List AuxEnt → List Nat → Sparse (BitVec 64) → Sparse (BitVec 64) × List AuxEnt
  | [], _, q => (q, [])
  | e :: es, used, q =>
    if used.contains e.a then
      let (q, l) := auxPack j es used q
      (q, e :: l)
    else
      let q := spSet 0 q e.a (spGet 0 q e.a ||| BitVec.ofNat 64 (e.cmdx * 2 ^ 20))
      let (q, l) := auxPack j es (e.a :: used) q
      if e.cmdx ≠ 4 then (q, l)
      else if e.first = some (j - 1) ∧ 1 ≤ j then (q, l)
      else (q, { e with first := some j } :: l)

/-- MDU_AUX_STAT follows the queue. -/
def State.setAux (s : State) (l : List AuxEnt) : State :=
  let s : State := { s with mdu := { s.mdu with aux := l } }
  (s.setFld F.MDU_AUX_STAT_DEPTH l.length).setBit F.MDU_AUX_STAT_FULL (decide (16 ≤ l.length))

/-- MDU_COMMIT at P7 for cycle `j` (R41). A unit that sends no frames packs no auxiliary command: its queue waits (R160, log entry 48). -/
def State.mduCommit (s : State) (j : Nat) : State :=
  let s : State := { s with cyc := { s.cyc with slots := [] } }
  let s := (List.range 12).foldl (fun s m => s.armCommit m j) s
  if s.role ≠ roleActive then s
  else
  let s := s.unassignBook
  let (q, l) := auxPack j s.mdu.aux [] s.cyc.slots
  ({ s with cyc := { s.cyc with slots := q } } : State).setAux l

/-- A cycle whose frame was an overrun (R158): no SM state changes, dwell timers advance, refill continues. -/
def State.mduOverrun (s : State) (j : Nat) : State :=
  if s.role ≠ roleActive then s
  else (List.range 12).foldl (fun s m =>
    let p := (s.plan m).par
    let x := s.armSt m
    let s := s.setArm m { x with edge := x.edge.map (fun e => (e.1 - (s.tc : Int), e.2)) }
    (s.members m).foldl (fun s a =>
      let r := refillTok p j (s.smr a)
      s.setSmr a { r with since := min 131071 (r.since + s.tc), hist := ((j, 0, false, p.lateOk) :: r.hist).take 8 }) s) s

/-! ## Registers -/

/-- MDU_SMa_STATE as the host reads it (Table 6.14); rounding of DWELL_REM: log entry 7. -/
def State.smStateWord (s : State) (a : Nat) : BitVec 32 :=
  let r := s.smr a
  let dw := s.fld (F.MDU_ARM_DWELL_DWELL (spGet 255 s.cfg.arm a))
  let rem := Int.toNat (divFree (dw - r.since : Nat) 8)
  BitVec.ofNat 32 (r.st * 2 ^ 28 + (if r.elig then 2 ^ 27 else 0) + r.cause * 2 ^ 24 + (if s.isFb a then 2 ^ 23 else 0) +
    (if r.frozen then 2 ^ 22 else 0) + min rem 16383 * 2 ^ 8 + r.tokens % 256)

/-- A configured position: below NCFG on a ring whose port has EN = 1. -/
def State.configured (s : State) (a : Nat) : Bool := s.enabled (a / 64) && decide (a % 64 < s.ncfg (a / 64))

/-- A write to MDU_AUX (R160, Table 6.7). -/
def State.auxWrite (s : State) (v : BitVec 32) : State :=
  let a := F.MDU_AUX_ADDR.get v
  let c := F.MDU_AUX_CMDX.get v
  if c = 0 ∨ (5 ≤ c ∧ c ≤ 7) ∨ s.configured a = false ∨ 16 ≤ s.mdu.aux.length then s.setBit F.MDU_AUX_STAT_AUX_REJ true
  else s.setAux (s.mdu.aux ++ [⟨a, c, none⟩])

/-- MDU_AUX (R160). -/
def execMduAux (t : Nat) (v : BitVec 32) (s : State) : Host.Outcome State Fault Refusal := .next (s.onDie t (·.auxWrite v))

/-- RANK_COMPLETE (R146): the ranker of an arm completes; TDS_RANK_DONE is the latest completion, ns from P0 release. -/
def execRankComplete (t : Nat) (arm : Fin 12) (s : State) : Host.Outcome State Fault Refusal :=
  .next (s.onDie t fun s =>
    match s.cyc.comps.find? (fun c => c.p0At.isSome && decide (c.rel ≤ 6)) with
    | none => s
    | some c =>
      let d := min 0xFFFF (s.now - c.p0At.getD s.now)
      let inTime := decide (s.now < c.p0 + s.fld (F.TDS_CYC_B_BN_Q 5) * 4)
      (s.setArm arm { s.armSt arm with rankDone := inTime }).setFld F.TDS_RANK_DONE_T (max d (s.fld F.TDS_RANK_DONE_T)))

end Sys2Proof.Machine
end

