-- ==== Sys2Proof/Machine/Mirror.lean ====
section
/-! DEFINITION. The mirror (12_redundancy.md, R292 to R294): what the holder sends with each partner frame, what the standby
makes of it at its P0 release, the reports supplied from mirrored keys. -/

namespace Sys2Proof.Machine

/-! ## Building (R292, Table 12.4) -/

/-- Entries of the KEYS record: 16 x KQ where SMs are configured. -/
def State.keyCount (s : State) : Nat := if s.cfg.arm.isEmpty then 0 else 16 * s.fld F.RDU_MIR_CFG_KQ

/-- A key in report units. -/
def keyUnits (k : BitVec 32) : BitVec 16 := BitVec.ofInt 16 (floorHalf (fmul64 (fto64 k) (fint64 20)))

/-- The configured SM addresses in order. -/
def State.configuredSms (s : State) : List Nat := s.cfg.arm.map (·.1)

/-- `n` elements of a list from position `pos` on, continuing at its head. -/
def wrapTake {α : Type} (l : List α) (pos : Nat) : Nat → List α
  | 0 => []
  | n + 1 => match l[pos % max l.length 1]? with
    | some x => x :: wrapTake l (pos + 1) n
    | none => []

/-- ARM record of a running arm. -/
def State.armRec (s : State) (m : Nat) : ArmRec :=
  let x := s.armSt m
  let (e, d) := x.edge.getD (0, 0)
  { arm := m, u0 := x.u0, acc := x.acc, n0 := x.n0, sigma := if x.neg then -1 else 1, edge := e, dir := d }

/-- Bytes of a record of `n` entries of `each` bytes behind a head of `head` bytes; none where there is no entry. -/
def recBytes (head each n : Nat) : Nat := if n = 0 then 0 else head + each * n

/-- Bytes of a mirror by Table 12.4. -/
def mirrorBytes (m : Mirror) : Nat :=
  recBytes 4 4 m.trans.length + recBytes 4 4 m.cond.length + recBytes 4 24 m.arms.length + recBytes 4 44 m.clu.length +
    recBytes 4 8 m.sigs.length + (m.tiles.map (fun t => 8 + 4 * t.words.length)).sum +
    (match m.keys with
     | some (_, ks) => (6 + 2 * ks.length + 7) / 8 * 8
     | none => 0)

/-- The records of a mirror but TRANS, COND and KEYS. -/
def State.mirrorFixed (s : State) : Mirror :=
  let l := s.cfg.mirror
  { arms := ((List.range 12).filter (fun m => (s.armSt m).run)).map s.armRec,
    clu := l.slots.map s.cluRec,
    sigs := l.sigs.map (fun i => (i, s.sigNow i)),
    tiles := l.tiles.map (fun (e, a, n) => ⟨e, a, (List.range n).map (fun w => s.mw (tileBase e + a + 4 * w))⟩) }

/-- The mirror with the entries born before `cut`. -/
def State.mirrorTo (s : State) (m : Mirror) (cut : Nat) : Mirror :=
  { m with trans := (s.rdu.outTrans.filter (fun u => decide (u.born < cut))).map (·.e),
           cond := (s.rdu.outCond.filter (fun u => decide (u.born < cut))).map (·.e) }

/-- KEYS from the sweep's position on: address of the first SM, keys in address order across the configured addresses. -/
def State.keysRec (s : State) : Option (Nat × List (BitVec 16)) :=
  let as := s.configuredSms
  match wrapTake as s.rdu.keyPos s.keyCount with
  | [] => none
  | a :: l => some (a, (a :: l).map (fun x => keyUnits (s.smr x).key))

/-- Insert a number into a falling list. -/
def insDesc (x : Nat) : List Nat → List Nat
  | [] => [x]
  | y :: ys => if y ≤ x then x :: y :: ys else y :: insDesc x ys

/-- Cuts to try: with every entry, without the newest one, without the newest two, and so on. -/
def State.mirrorCuts (s : State) : List Nat :=
  s.rdu.bornNext :: (s.rdu.outTrans.map (·.born) ++ s.rdu.outCond.map (·.born)).foldl (fun l b => insDesc b l) []

/-- The holder's mirror for the computation that commands cycle `j`, and the state after it: KEYS dropped where the records
exceed MIRROR_MAX, then the newest TRANS and COND entries deferred. -/
def State.buildMirror (s : State) (j : Nat) : Mirror × State :=
  let max' := s.fld F.RDU_MIR_CFG_MIRROR_MAX
  let fixed := s.mirrorFixed
  let all := s.mirrorTo { fixed with keys := s.keysRec } s.rdu.bornNext
  let (m, cut) : Mirror × Nat :=
    if mirrorBytes all ≤ max' then (all, s.rdu.bornNext)
    else
      let cut := (s.mirrorCuts.find? (fun c => decide (mirrorBytes (s.mirrorTo fixed c) ≤ max'))).getD 0
      (s.mirrorTo fixed cut, cut)
  let mark {α : Type} (u : Unacked α) : Unacked α := if u.first.isNone && decide (u.born < cut) then { u with first := some j } else u
  let deferred := m.trans.length < s.rdu.outTrans.length ∨ m.cond.length < s.rdu.outCond.length
  let keyPos := if m.keys.isSome then (s.rdu.keyPos + s.keyCount) % max s.cfg.arm.length 1 else s.rdu.keyPos
  let s : State := { s with rdu := { s.rdu with outTrans := s.rdu.outTrans.map mark, outCond := s.rdu.outCond.map mark, keyPos := keyPos } }
  let s := if deferred then (s.setBit F.RDU_STAT_MIR_LATE true).raise 188 else s
  (m, (s.setFld F.RDU_MIR_STAT_LEN (mirrorBytes m)).setFld F.RDU_MIR_STAT_TRANS s.rdu.outTrans.length)

/-! ## The frame on the link (R281, Tables 12.2 and 12.4) -/

/-- A record of a mirror: a header of 4 bytes with type, length in bytes and argument, then its content; one with nothing to carry is
left out. `n` is the number of entries (log entry 118). -/
def recordBytes (type n : Nat) (content : List Byte) : List Byte :=
  if content.isEmpty then []
  else beBytes 4 (type * 2 ^ 28 + (4 + content.length) % 4096 * 2 ^ 16 + (Config.mirrorArg type n).toNat) ++ content

/-- KEYS: first address, keys, filled up to a multiple of 8 bytes. -/
def keysBytes : Option (Nat × List (BitVec 16)) → List Byte
  | none => []
  | some (a, ks) =>
    let b := recordBytes 6 ks.length (beBytes 2 a ++ ks.flatMap (fun k => beBytes 2 k.toNat))
    b ++ (List.range ((b.length + 7) / 8 * 8 - b.length)).map Config.mirrorFill

/-- The records of a mirror in the order of Table 12.4. -/
def mirrorRecords (m : Mirror) : List Byte :=
  recordBytes 5 m.trans.length (m.trans.flatMap (fun x => beBytes 4 (Config.packTrans x).toNat)) ++
  recordBytes 7 m.cond.length (m.cond.flatMap (fun x => beBytes 4 (Config.packCond x).toNat)) ++
  recordBytes 4 m.arms.length (m.arms.flatMap (fun x => beBytes 24 (Config.packArm x).toNat)) ++
  recordBytes 3 m.clu.length (m.clu.flatMap (fun x => beBytes 44 (Config.packClu x).toNat)) ++
  recordBytes 1 m.sigs.length (m.sigs.flatMap (fun x => beBytes 8 (Config.packSig x.1 x.2).toNat)) ++
  m.tiles.flatMap (fun t => recordBytes 2 t.words.length
    (beBytes 4 (Config.packTile t.engine t.addr).toNat ++ t.words.flatMap (fun w => beBytes 4 w.toNat))) ++
  keysBytes m.keys

/-- Bytes in data blocks of 8, the last one filled up. -/
def blocksOf : Nat → List Byte → List Blk
  | 0, _ => []
  | n + 1, bs =>
    let b := bs.take 8
    dataBlk (beNat (b ++ (List.range (8 - b.length)).map Config.mirrorFill)) :: blocksOf n (bs.drop 8)

def bitAt (b : Bool) (i : Nat) : Nat := if b then 2 ^ i else 0

/-- The lease record's blocks L0 to L3 (Table 12.2). -/
def leaseBlocks (l : LeaseRec) : List Blk :=
  [dataBlk (l.cycle.toNat * 2 ^ 32 + l.epoch.toNat),
   dataBlk (l.role % 4 * 2 ^ 62 + bitAt l.ready 61 + bitAt l.sfsOk 60 + bitAt l.release 59 + bitAt l.eqx 58 + bitAt l.relHold 57 +
     bitAt l.stopOrd 56 + bitAt l.blockOrd 55 + l.mlist.toNat * 2 ^ 32 + l.safeCrc.toNat),
   dataBlk l.tails.toNat,
   dataBlk (l.eqxCyc.toNat * 2 ^ 32 + l.mirAck.toNat)]

/-- The lease record that four blocks spell. -/
def leaseOf (l0 l1 l2 l3 : BitVec 64) : LeaseRec :=
  { cycle := l0.extractLsb' 32 32, epoch := l0.extractLsb' 0 32, role := (l1.extractLsb' 62 2).toNat, ready := l1.getLsbD 61,
    sfsOk := l1.getLsbD 60, release := l1.getLsbD 59, eqx := l1.getLsbD 58, relHold := l1.getLsbD 57, stopOrd := l1.getLsbD 56,
    blockOrd := l1.getLsbD 55, mlist := l1.extractLsb' 32 16, safeCrc := l1.extractLsb' 0 32, tails := l2,
    eqxCyc := l3.extractLsb' 32 32, mirAck := l3.extractLsb' 0 32 }

/-- K_P (Table 17.5). -/
def State.pairKey (s : State) : BitVec 256 := s.key256 (secBase + 0x800)

/-- IV of a partner frame of unit A (false) or B. -/
def ivPartner (uid : Bool) (epoch cyc : BitVec 32) : List Byte :=
  [0xB0, if uid then 0x02 else 0x01, 0xFF, 0] ++ beBytes 4 epoch.toNat ++ beBytes 4 cyc.toNat

/-- The partner frame with lease record `l` and mirror `m`; `f` is the free value of its control area. -/
def State.partnerBlocks (s : State) (l : LeaseRec) (m : Option Mirror) (f : Nat) : List Blk :=
  let mir := match m with
    | some x => blocksOf (((mirrorRecords x).length + 7) / 8) (mirrorRecords x)
    | none => []
  let body := leaseBlocks l ++ mir ++ (Config.controlArea l.stopOrd l.blockOrd f).map (fun w => ⟨1, w⟩)
  let tag := tag32 s.pairKey (ivPartner s.sys.uid l.epoch l.cycle) (blkBytes body)
  ctlBlk ctSof (ftPartner * 2 ^ 48 + (Config.partnerSof l.cycle).toNat) :: body ++ [tagBlk body tag, eofBlk ftPartner (body.length + 3)]

/-- A partner frame as the receiver takes it apart. -/
structure PFrame where
  crcOk : Bool
  tagOk : Bool
  lease : LeaseRec
  mirror : Option Mirror
deriving DecidableEq, Repr

/-- What the blocks of a partner frame spell; none where they do not begin with the SOF of one. The spec does not say how the receiver
comes by the sender's UID of the IV: the tag of either is taken (DESIGN CHOICE, log entry 115). A unit that is neither holder nor
releasing sends no mirror. -/
def State.pframe (s : State) (fs : List Blk) : Option PFrame :=
  match fs with
  | [] => none
  | sof :: _ =>
    if !sof.isSof || sof.f 55 48 != ftPartner then none
    else
      let body := bodyOf fs
      let blocks := body.dropLast
      match blocks.map (·.pl), body.getLast? with
      | l0 :: l1 :: l2 :: l3 :: rest, some tb =>
        let l := leaseOf l0 l1 l2 l3
        let tag := tb.pl.extractLsb' 32 32
        let good (uid : Bool) : Bool := tag == tag32 s.pairKey (ivPartner uid l.epoch l.cycle) (blkBytes blocks)
        some { crcOk := tb == tagBlk blocks tag, tagOk := good (!s.sys.uid) || good s.sys.uid, lease := l,
               mirror := if l.role = roleActive ∨ l.release = true then Config.mirrorOf rest else none }
      | _, _ => some { crcOk := false, tagOk := false, lease := {}, mirror := none }

/-! ## Applying (R292, R293) -/

/-- Number of entries at the head of `new` that the last mirror ended with: repeats. -/
def repeats (old new : List TransRec) : Nat → Nat
  | 0 => 0
  | n + 1 => if old.drop (old.length - (n + 1)) = new.take (n + 1) ∧ n + 1 ≤ old.length ∧ n + 1 ≤ new.length then n + 1
             else repeats old new n

/-- Parameters of an SM's arm. -/
def State.parOf (s : State) (a : Nat) : ArmPar := s.armPar (spGet 255 s.cfg.arm a)

/-- Dwell timers, refill and commanded cycle `j` for every configured SM, as the holder's P7 does. -/
def State.mirAdvance (s : State) (j : Nat) : State :=
  s.configuredSms.foldl (fun s a =>
    let p := s.parOf a
    let r := refillTok p j (s.smr a)
    s.setSmr a { r with since := min 131071 (r.since + s.tc), hist := ((j, 0, false, p.lateOk) :: r.hist).take 8 }) s

/-- A TRANS entry (R292): state, dwell timer, token, bypass state, transition count. -/
def State.transApply (s : State) (x : TransRec) : State :=
  let p := s.parOf x.addr
  let r := s.smr x.addr
  let free := r.mirCause != 0 || r.cause == 7 || x.block
  let r := { r with st := x.st, since := if p.lateOk then 0 else s.tc - x.edge,
                    tokens := if p.refill ≠ 0 ∧ free = false then r.tokens - 1 else r.tokens,
                    alt := if s.isFb x.addr && isByp x.st then x.st == smBypass else r.alt,
                    hist := match r.hist with
                      | (j, n, re, l) :: h => (j, n + 1, re, l) :: h
                      | [] => [] }
  (s.setSmr x.addr r).setLt (fun l => { l with trans := spSet 0 l.trans x.addr (spGet 0 l.trans x.addr + 1) })

/-- A COND entry. Cause 6 stays with the SM's serial, as it does in the holder (R139); a later row of Table 6.1 shows that it has ended. A
unit that holds the lease already goes on from the entry. -/
def State.condApply (s : State) (x : CondRec) : State :=
  let r := s.smr x.addr
  let byp := if x.cause = 6 then s.smOf x.addr else if x.cause = 0 ∨ x.cause = 4 ∨ x.cause = 5 then 0 else r.bypSm
  s.setSmr x.addr { r with mirCause := x.cause, mirFrozen := x.frozen, bypSm := byp, cause := if s.role = roleActive then x.cause else r.cause }

/-- An arm takes its record; an arm without one does not run. -/
def State.armApply (s : State) (rs : List ArmRec) (m : Nat) : State :=
  let x := s.armSt m
  match rs.find? (fun r => r.arm == m) with
  | some r =>
    let neg := decide (r.sigma < 0)
    (s.setArm m { x with u0 := r.u0, acc := r.acc, n0 := r.n0, neg := neg, run := true,
                         edge := if r.dir = 0 then none else some (r.edge, r.dir) }).armShow m r.acc r.n0 neg
  | none => if x.run then (s.setArm m { x with acc := 0, n0 := 0, run := false, edge := none }).armShow m 0 0 x.neg else s

/-- Mirrored keys from SM address `a` on; the addresses that have had theirs since the link came up make the sweep of R279. -/
def State.keysApply (s : State) (a : Nat) (ks : List (BitVec 16)) : State :=
  ((wrapTake s.configuredSms (s.configuredSms.idxOf a) ks.length).zip ks).foldl (fun (s : State) (x : Nat × BitVec 16) =>
    let s : State := { s with rdu := { s.rdu with keys := spSet none s.rdu.keys x.1 (some x.2), swept := spSet false s.rdu.swept x.1 true } }
    s.setSmr x.1 { s.smr x.1 with key := vcapVolts x.2 }) s

/-- Apply the mirror of cycle `j`. -/
def State.mirrorApply (s : State) (j : Nat) (m : Mirror) : State :=
  let n := repeats s.rdu.mirTrans m.trans m.trans.length
  let s := m.cond.foldl State.condApply s
  let s := (m.trans.drop n).foldl State.transApply s
  let s := (List.range 12).foldl (fun s i => s.armApply m.arms i) s
  let s := m.clu.foldl State.cluApply s
  let s := m.sigs.foldl (fun s x => s.sigSet x.1 x.2) s
  let s := m.tiles.foldl (fun s t => ((List.range t.words.length).zip t.words).foldl (fun s (x : Nat × Word) =>
    s.setMw (tileBase t.engine + t.addr + 4 * x.1) x.2) s) s
  let s := match m.keys with
    | some (pos, ks) => s.keysApply pos ks
    | none => s
  let s : State := { s with rdu := { s.rdu with mirAck := cyc32 j, mirOk := s.rdu.mirOk + 1, mirTrans := m.trans } }
  s.refreshReady

/-- No mirror of cycle `j` at the standby's P0 release: counted, MIR_LATE. -/
def State.mirrorMissing (s : State) : State :=
  if s.role == roleStandby && s.bit F.RDU_STAT_PL_UP && s.partnerActive then
    let s := ((s.inc F.RDU_MIR_LATE_CNT_V).setBit F.RDU_STAT_MIR_LATE true).raise 188
    ({ s with rdu := { s.rdu with mirOk := 0 } } : State).refreshReady
  else s

/-- MIRROR_APPLY at the P0 release of the computation that commands cycle `j` + 1. -/
def State.mirrorP0 (s : State) (j : Nat) : State :=
  let m := s.rdu.mirIn.find? (fun x => x.cycle == j)
  let s : State := { s with rdu := { s.rdu with mirIn := s.rdu.mirIn.filter (fun x => decide (j < x.cycle)) } }
  let s := if s.role == roleStandby || m.isSome then s.mirAdvance j else s
  match m with
  | some x => s.mirrorApply j x.m
  | none => s.mirrorMissing

/-! ## Supplied reports (R294) -/

/-- STATUS with TIMEOK alone. -/
def supplied (k : Nat) (v : BitVec 16) : Report :=
  { cycle := k, vcap := v, vmin := 0, temp := 0, status := 1, swcount := 0, linkq := 0, xdata := 0, supplied := true }

/-- A new holder's report table for sample `k`: entries from mirrored keys where no report was written. -/
def State.supplyReports (s : State) (k : Nat) : State :=
  if s.role = roleActive ∧ 0 < s.rdu.extLeft then
    let s : State := { s with rdu := { s.rdu with extLeft := s.rdu.extLeft - 1 } }
    s.configuredSms.foldl (fun s a =>
      if s.bit (F.RPU_PORT_POS_ADM (a / 64) (a % 64)) && (s.report k a).isNone then
        match spGet none s.rdu.keys a with
        | some v => { s with reports := spSet none s.reports (k % 2 * 4096 + a) (some (supplied k v)) }
        | none => s
      else s) s
  else s

end Sys2Proof.Machine
end

