-- ==== Sys2Proof/Machine/Partner.lean ====
section
/-! DEFINITION. The partner link (12_redundancy.md): link state, partner frames and what their lease records bring about, the
judgement of each cycle. -/

namespace Sys2Proof.Machine

/-! ## Link state (R280, R8) -/

/-- Training ends: all four lanes hold block lock, the skew is at most 8 blocks, 16 frames in a row have verified. -/
def State.linkUp (s : State) (skew : Nat) (partnerUid : Bool) : State :=
  if s.bit F.PL_STAT_UP || s.fld F.PL_STAT_LANE_LOCK != 0xF || decide (8 < skew) || decide (s.rdu.pOk < 16) then s
  else
    let s := ((s.setBit F.PL_STAT_UP true).setBit F.RDU_STAT_PL_UP true).setBit F.PL_STAT_LINK_CHG true
    let s : State := { s with rdu := { s.rdu with mirOk := 0, swept := [] }, sfi := { s.sfi with linkDown64 := false } }
    let s := ((s.setFld F.PL_STAT_SKEW skew).raise 186)
    let s := (List.range 64).foldl (fun s n => s.setPort n { s.port n with partnerTail := false, noTail := none, cut := false }) s
    let s := if partnerUid == s.sys.uid then
        if s.sys.strapConf then s
        else ((({ s with sys := { s.sys with strapConf := true } } : State).setBit F.RDU_STAT_UID_CONF true).sendFco 0 0 4 0x01 none none).raise 191
      else ({ s with sys := { s.sys with strapConf := false } } : State).setBit F.RDU_STAT_UID_CONF (s.sys.uidConf || s.sys.uidEnum)
    s.tryClaim

/-- PARTNER_LINK_UP (R280, R8, R283). -/
def execPartnerLinkUp (t : Nat) (skew : Fin 16) (partnerUid : Bool) (s : State) : Host.Outcome State Fault Refusal :=
  .next (s.onDie t (·.linkUp skew partnerUid))

/-- The link goes down: training restarts; relaying ports stop (R295). -/
def State.linkLower (s : State) : State :=
    let s := ((s.setBit F.PL_STAT_UP false).setBit F.RDU_STAT_PL_UP false).setBit F.PL_STAT_LINK_CHG true
    let s : State := { s with rdu := { s.rdu with linkDownAt := s.mono, pOk := 0, pBad := 0, mirOk := 0, swept := [], readySince := none, mirIn := [] } }
    let s := (List.range 64).foldl (fun s n =>
      if (s.port n).relaying then let s := s.endRelay n; s.setPort n { s.port n with cut := true } else s) s
    ((s.refreshReady.raise 186).sendFco 0 0 4 0x05 none none)

/-- A lane of the link has lost block lock, or two partner frames in a row have not arrived verified: they failed, or none has come since
the last one for more than two cycles. -/
def State.linkBad (s : State) : Bool :=
  s.fld F.PL_STAT_LANE_LOCK != 0xF || decide (2 ≤ s.rdu.pBad) || decide (s.rdu.pOkAt + 2 * s.tc < s.mono)

/-- The link goes down where R280 says so, with the skew found. -/
def State.linkDown (s : State) (skew : Nat) : State :=
  let s := s.setFld F.PL_STAT_SKEW skew
  let s := if 8 < skew then s.setBit F.PL_STAT_SKEW_ERR true else s
  if s.bit F.PL_STAT_UP && (decide (8 < skew) || s.linkBad) then s.linkLower else s

/-- The same at once, where a lane loses lock or a second frame in a row fails. -/
def State.linkCheck (s : State) : State :=
  if s.bit F.PL_STAT_UP && (s.fld F.PL_STAT_LANE_LOCK != 0xF || decide (2 ≤ s.rdu.pBad)) then s.linkLower else s

/-- BLOCK_LOCK_LOST (R56), with the partner link (R280). -/
def execBlockLockLost (t : Nat) (lane : Fin 72) (s : State) : Host.Outcome State Fault Refusal :=
  .next (s.onDie t fun s => (s.blockLockLost lane).linkCheck)

/-- SLEEP_REQUEST (R67, R68, R280). -/
def execSleepRequest (t : Nat) (lane : Fin 72) (v : BitVec 32) (s : State) : Host.Outcome State Fault Refusal :=
  .next (s.onDie t fun s => (s.pwrWrite lane v).linkCheck)

/-- QUAD_PD (R69, R280). -/
def execQuadPd (t : Nat) (q : Fin 18) (pd : Bool) (s : State) : Host.Outcome State Fault Refusal :=
  .next (s.onDie t fun s => (s.quadWrite q pd).linkCheck)

/-- PARTNER_LINK_DOWN (R280). -/
def execPartnerLinkDown (t : Nat) (skew : Fin 16) (s : State) : Host.Outcome State Fault Refusal :=
  .next (s.onDie t (·.linkDown skew))

/-- PARTNER_LINK_DOWN_64 (R270): the link has been down for 64 cycles. -/
def execPartnerLinkDown64 (t : Nat) (s : State) : Host.Outcome State Fault Refusal :=
  .next (s.onDie t fun s =>
    if !s.bit F.PL_STAT_UP && decide (s.rdu.linkDownAt + 64 * s.tc ≤ s.mono) then
      ({ s with sfi := { s.sfi with linkDown64 := true } } : State).singleTech
    else s)

/-! ## Partner frames (R281) -/

/-- READY of the partner's lease record; a change raises source 187 (Table 12.5). `readySince` serves R296. -/
def State.partnerReadyIn (s : State) (l : LeaseRec) : State :=
  let s := if s.bit F.RDU_STAT_P_READY == l.ready then s else (s.setBit F.RDU_STAT_P_READY l.ready).raise 187
  let rs := if l.ready && l.role == roleStandby then (if s.rdu.readySince.isSome then s.rdu.readySince else some s.mono) else none
  { s with rdu := { s.rdu with readySince := rs } }

/-- Orders of the partner (R271). One that brings the function about here is an order of this unit's SCP with cause "FCO or partner" and
goes to the partner in its turn; one that finds the function in force is none, so orders do not circulate (log entry 41). -/
def State.partnerOrders (s : State) (l : LeaseRec) : State :=
  let t := if l.stopOrd then s.safeStop 2 else s
  let t : State := if t.sfiState = s.sfiState then { t with sfi := { t.sfi with sendStop := s.sfi.sendStop } } else t
  let u := if l.blockOrd then t.safeBlock 5 else t
  if u.sfiState = t.sfiState then { u with sfi := { u.sfi with sendBlock := t.sfi.sendBlock } } else u

/-- Safety orders and the partner's SFI_SAFE_CRC (R270, R271, R275). -/
def State.partnerSafety (s : State) (l : LeaseRec) : State :=
  let s := s.partnerOrders l
  let differs := s.rd R.SFI_SAFE_CRC != l.safeCrc
  let was := s.rd R.SFI_SAFE_CRC != s.rd R.SFI_PARTNER_CRC
  let s := s.wr R.SFI_PARTNER_CRC l.safeCrc
  let s := if differs && (!was || !s.bit F.SFI_STAT_PARTNER_DIFF) then (s.setBit F.SFI_STAT_PARTNER_DIFF true).raise 182 else s
  s.singleTech

/-- The partner's TAILS at the holder: breaks on rings without tails, ends of relays (R127, R131). `j` is the record's
CYCLE. -/
def State.partnerTails (s : State) (l : LeaseRec) (j : Nat) : State :=
  s.rings.foldl (fun s n =>
    let tail := l.tails.getLsbD n
    if s.rdu.relays.contains n then
      let last := spGet none s.rdu.direct n
      if tail && last == some (j - 1) then
        { s with rdu := { s.rdu with relays := s.rdu.relays.filter (· != n), direct := spSet none s.rdu.direct n none } }
      else { s with rdu := { s.rdu with direct := spSet none s.rdu.direct n (if tail then some j else none) } }
    else
      let p := s.port n
      if tail then s.setPort n { p with partnerTail := true, noTail := none }
      else if p.partnerTail && s.inService n then
        let s := s.setPort n { p with noTail := some j }
        if p.noTail = some (j - 1) then s.declareBreak n (j - 2) else s
      else s) s

/-- Entries that the standby's MIR_ACK acknowledges are repeated no more (R292). -/
def State.mirrorAcked (s : State) (ack : BitVec 32) : State :=
  if ack = 0 then s
  else
    let a := fullCycle s.cycNow ack
    let open' {α : Type} (u : Unacked α) : Bool := match u.first with
      | some c => decide (a < c)
      | none => true
    let s : State := { s with rdu := { s.rdu with outTrans := s.rdu.outTrans.filter open', outCond := s.rdu.outCond.filter open' } }
    s.setFld F.RDU_MIR_STAT_TRANS s.rdu.outTrans.length

/-- What a verified lease record brings about in the holder. -/
def State.holderFrame (s : State) (l : LeaseRec) (j : Nat) : State :=
  let s := (s.mirrorAcked l.mirAck).partnerTails l j
  if l.role = roleActive ∧ s.rd R.RDU_EPOCH < l.epoch then s.fence else s

/-- What it brings about in a STANDBY unit: renewal, mirror, RELEASE. -/
def State.standbyFrame (s : State) (l : LeaseRec) (m : Option Mirror) (j : Nat) : State :=
  let s := if l.role = roleActive ∧ s.rd R.RDU_EPOCH_MAX ≤ l.epoch then
    let s : State := { s with rdu := { s.rdu with renewals := (j :: s.rdu.renewals).take 8 } }
    s.wr R.RDU_EPOCH l.epoch else s
  let s : State := match m with
    | some m => if l.role = roleActive ∨ l.release = true then { s with rdu := { s.rdu with mirIn := s.rdu.mirIn ++ [⟨j, m⟩] } } else s
    | none => s
  let s := s.refreshReady
  if l.release && s.bit F.RDU_STAT_READY then s.takeLease else s

/-- A verified partner frame. -/
def State.partnerVerified (s : State) (l : LeaseRec) (m : Option Mirror) : State :=
  let j := fullCycle s.cycNow l.cycle
  let highest := s.rd R.RDU_EPOCH_MAX
  let s : State := { s with rdu := { s.rdu with pOk := s.rdu.pOk + 1, pOkAt := s.mono, pBad := 0, partner := some l,
                                                lastActive := if l.role = roleActive then s.mono else s.rdu.lastActive } }
  let s := s.partnerReadyIn l
  let s := s.setFld64 F.RDU_PTAIL_LO_V F.RDU_PTAIL_HI_V l.tails.toNat
  let s := s.noteEpoch l.epoch
  let s := if s.role = roleActive then s.holderFrame l j
    else if s.role = roleStandby then (if highest ≤ l.epoch then s.standbyFrame l m j else s.standbyFrame { l with role := roleInit } none j)
    else s
  let s := s.partnerSafety l
  if s.role = roleInit then
    let s := if l.role = roleActive ∧ s.mayLeaveInit = true then s.setRole roleStandby else s.tryClaim
    if s.role = roleStandby ∧ l.role = roleActive then s.wr R.RDU_EPOCH l.epoch else s
  else s.refreshReady

/-- A partner frame that does not verify; the second in a row takes the link down (R280). -/
def State.partnerBad (s : State) : State :=
  ({ s with rdu := { s.rdu with pOk := 0, pBad := s.rdu.pBad + 1 } } : State).linkCheck

/-- PARTNER_FRAME_RECEIVED (R281, R127, R131, R271, R275, R279, R283, R284, R287, R288, R292). -/
def execPartnerFrame (t : Nat) (fs : List Blk) (s : State) : Host.Outcome State Fault Refusal :=
  .next (s.onDie t fun s =>
    if !s.bit F.PL_CTL_EN then s
    else match s.pframe fs with
      | none => s
      | some f =>
        if !f.crcOk then s.partnerBad.inc F.PL_CRC_CNT_V
        else if !f.tagOk then (s.partnerBad.inc F.PL_AUTH_CNT_V).setBit F.PL_STAT_AUTH_ERR true
        else s.partnerVerified f.lease f.mirror)

/-! ## Judgement of a cycle (R100, R284, R286) -/

/-- The cycle judged at d_j = t_j + Tc/2. -/
def State.judged (s : State) : Nat := (s.now - s.tc / 2) / s.tc

/-- Cycle `j` is judged now: at d_j, and once. -/
def State.judgeDue (s : State) (j : Nat) : Bool := s.now == s.judgeAt j && s.rdu.judged != some j

/-- Tails of cycle `j` at every port that sends no down frames: RDU_TAIL and TAIL_CNT. -/
def State.judgeTails (s : State) (j : Nat) : State :=
  let v := (List.range 64).foldl (fun v n => if s.enabled n && s.tailOf j n then v + 2 ^ n else v) 0
  let s := s.setFld64 F.RDU_TAIL_LO_V F.RDU_TAIL_HI_V v
  if s.role = roleActive then s
  else s.rings.foldl (fun s n =>
    if (s.port n).relaying || s.tailOf j n then s else s.inc (F.RPU_PORT_TAIL_CNT_V n)) s

/-- The STANDBY unit takes the lease after L silent cycles and a silent guard cycle. -/
def State.takeover (s : State) : State :=
  let ready := s.bit F.RDU_STAT_READY
  let s := s.takeLease
  if s.role = roleActive then
    let s := (s.inc F.RDU_EXP_CNT_V).setLt (fun l => { l with takeovers := l.takeovers + 1 })
    if ready then s else ({ s with rdu := { s.rdu with coldStop := true } } : State).setBit F.RDU_STAT_COLD true
  else s

/-- Renewal or quorum for cycle `j`, or one more silent cycle. -/
def State.judgeLease (s : State) (j : Nat) : State :=
  let rs := s.quorumRings
  let quorum := decide (s.quorum rs.length ≤ (rs.filter (s.tailOf j)).length)
  let n := if quorum || s.rdu.renewals.contains (j + 1) then 0 else s.rdu.silent + 1
  let s : State := { s with rdu := { s.rdu with silent := n } }
  let s := s.setFld F.RDU_STAT_SILENT (min n 15)
  if s.fld F.RDU_LEASE_LEASE_L < n then s.takeover else s

/-- CYCLE_JUDGEMENT (R100, R284, R286). -/
def execCycleJudgement (t : Nat) (s : State) : Host.Outcome State Fault Refusal :=
  .next (s.onDie t fun s =>
    let j := s.judged
    if s.judgeDue j then
      let s := ({ s with rdu := { s.rdu with judged := some j } } : State).judgeTails j
      if s.role = roleStandby then s.judgeLease j else s
    else s)

end Sys2Proof.Machine
end

