-- ==== Sys2Proof/Machine/Flags.lean ====
section
/-! DEFINITION. The arithmetic flags of a signal engine (Table 8.7, R195): INV, OVF, UNF and SAT of SE_STAT. -/

namespace Sys2Proof.Machine

/-- Flags that one instruction sets. -/
structure SeFlags where
  inv : Bool := false
  ovf : Bool := false
  unf : Bool := false
  sat : Bool := false
deriving DecidableEq, Repr

def FRes.flags (r : FRes) : SeFlags := { inv := r.inv, ovf := r.ovf, unf := r.unf }

def SeFlags.join (x y : SeFlags) : SeFlags := ⟨x.inv || y.inv, x.ovf || y.ovf, x.unf || y.unf, x.sat || y.sat⟩

/-- Set the flags of engine `n`; no flag is cleared but by the host. -/
def State.seFlags (s : State) (n : Nat) (f : SeFlags) : State :=
  (((s.when f.inv (·.setBit (F.SE_STAT_INV n) true)).when f.ovf (·.setBit (F.SE_STAT_OVF n) true)).when
    f.unf (·.setBit (F.SE_STAT_UNF n) true)).when f.sat (·.setBit (F.SE_STAT_SAT n) true)

/-- Invalid operation of a comparison: a signalling NaN, or a quiet one as the implementation has it. -/
def cmpInv (a b : BitVec 32) : Bool :=
  (fDecode fmt32 a.toNat).isSnan || (fDecode fmt32 b.toNat).isSnan || (Config.cmpNanInvalid && (fnan32 a || fnan32 b))

/-- F2I: SAT where it saturates; invalid for a NaN, and for a value out of range, as the implementation has it. -/
def f2iFlags (a : BitVec 32) : SeFlags :=
  let sat := (f2i32 a).2
  { sat := sat, inv := (fDecode fmt32 a.toNat).isSnan || (Config.cmpNanInvalid && fnan32 a) || (Config.f2iRangeInvalid && sat) }

/-- Saturate to int32 and tell whether it did. -/
def sat32 (x : Int) : BitVec 32 × Bool :=
  if x < -2147483648 then (0x80000000, true) else if 2147483647 < x then (0x7FFFFFFF, true) else (BitVec.ofInt 32 x, false)

end Sys2Proof.Machine
end

