-- ==== Sys2Proof/Machine/Se.lean ====
section
/-! DEFINITION. The signal engines (08_engines.md): what each instruction of Table 8.2 computes, handshakes and pairs (R189),
outstanding operations (R193), task errors (R197). One meaning per instruction stands at the end. -/

namespace Sys2Proof.Machine

/-! ## What an instruction does -/

/-- Everything one instruction does: error codes of Table 8.8 that apply to it, register writes, flags, tile stores, LC, DLX,
rotation, branch offset, an outstanding operation, a SPAWN, END, whether it reads or writes tile memory. -/
structure SeEff where
  codes : List Nat := []
  wr : List (Nat × BitVec 32) := []
  fl : SeFlags := {}
  st : List (Nat × BitVec 32) := []
  lc : Option (BitVec 32) := none
  dlx : Option (BitVec 32) := none
  rot : Bool := false
  br : Option Int := none
  out : Option Outst := none
  spawn : Option (Nat × Nat) := none
  stop : Bool := false
  tile : Bool := false
deriving DecidableEq, Repr

/-- RANGE and ALIGN errors of a byte address: limit and alignment (R192). -/
def addrCodes (lim al ad : Nat) : List Nat := (if lim ≤ ad then [3] else []) ++ (if ad % al = 0 then [] else [2])

def tileCodes (ad : Nat) : List Nat := addrCodes 0x40000 4 ad
def bankCodes (ad : Nat) : List Nat := addrCodes 0x200000 8 ad

/-- Result of an fp32 operation into d. -/
def effF (d : Nat) (r : FRes) : SeEff := { wr := [(d, w32 r)], fl := r.flags }
/-- A word into d. -/
def effW (d : Nat) (v : BitVec 32) : SeEff := { wr := [(d, v)] }
/-- A 64-bit quantity into pair(d). -/
def effP (d : Nat) (v : BitVec 64) : SeEff := { wr := [(d, v.setWidth 32), (d + 1, (v >>> 32).setWidth 32)] }

/-- FRCPE: the implementation's estimate where it keeps the bound of Table 8.2, else the rounded quotient. -/
def seRcp (a : BitVec 32) : FRes :=
  let r := fDiv fmt32 0x3F800000 a.toNat
  let e := Config.rcpEstimate a
  if rcpOk e a then { r with bits := e.toNat } else r

/-- FRSQE. -/
def seRsq (a : BitVec 32) : FRes :=
  let q := fSqrt fmt32 a.toNat
  let r := fDiv fmt32 0x3F800000 q.bits
  let r := { r with inv := q.inv }
  let e := Config.rsqEstimate a
  if rsqOk e a then { r with bits := e.toNat } else r

/-- ACCRD: round half up, shift, saturate. -/
def seAccrd (acc : BitVec 64) (sh : Nat) : BitVec 32 × Bool :=
  sat32 ((acc.toInt + (if sh = 0 then 0 else 2 ^ (sh - 1))) / 2 ^ sh)

/-- The effect of instruction `i` on the registers that `x` shows, `m` reading the engine's tile memory (R191, R196). -/
def seEffect (x : Eng) (m : Nat → BitVec 32) (i : SeIns) : SeEff :=
  let a := x.get i.a
  let b := x.get i.b
  let c := x.get i.c
  let d := x.get i.d
  let ad := (a + i.imm).toNat
  let f2 (g : Fmt → Nat → Nat → FRes) : SeEff := effF i.d (g fmt32 a.toNat b.toNat)
  let br (c : Bool) : Option Int := if c then some i.imm.toInt else none
  match i.op with
  | 0x00 => {}
  | 0x01 => f2 fAdd
  | 0x02 => f2 fSub
  | 0x03 => f2 fMul
  | 0x04 => effF i.d (fFma fmt32 a.toNat b.toNat c.toNat)
  | 0x05 => effF i.d (fFms fmt32 a.toNat b.toNat c.toNat)
  | 0x06 => f2 fMin
  | 0x07 => f2 fMax
  | 0x08 => effW i.d (fabs32 a)
  | 0x09 => effW i.d (fneg32 a)
  | 0x0A =>
    let r := fMax fmt32 a.toNat b.toNat
    let q := fMin fmt32 r.bits c.toNat
    { effF i.d q with fl := r.flags.join q.flags }
  | 0x0B => { effW i.d (if flt32 a b then 1 else 0) with fl := { inv := cmpInv a b } }
  | 0x0C => { effW i.d (if fCmp fmt32 a.toNat b.toNat == some .eq then 1 else 0) with fl := { inv := cmpInv a b } }
  | 0x0D => { effW i.d (f2i32 a).1 with fl := f2iFlags a }
  | 0x0E => effW i.d (fint32 a.toInt)
  | 0x0F => effF i.d (seRcp a)
  | 0x10 => effF i.d (seRsq a)
  | 0x11 =>
    let r := fFma fmt32 (m a.toNat).toNat x.dlx.toNat d.toNat
    { codes := tileCodes a.toNat ++ tileCodes b.toNat, tile := true, fl := r.flags,
      wr := (if i.d = i.a ∨ i.d = i.b then [] else [(i.d, w32 r)]) ++ (i.a, a + 4) :: (if i.b = i.a then [] else [(i.b, b + 4)]),
      st := [(b.toNat, x.dlx)], dlx := some (m b.toNat) }
  | 0x12 => effP i.d (x.pair i.d + a.signExtend 64 * b.signExtend 64)
  | 0x13 => effP i.d (x.pair i.d + a.setWidth 64 * b.setWidth 64)
  | 0x14 => effP i.d (a.signExtend 64 * b.signExtend 64)
  | 0x15 =>
    let r := seAccrd (x.pair i.a) (i.imm.toNat % 64)
    { effW i.d r.1 with fl := { sat := r.2 } }
  | 0x16 => effW i.d (a * b)
  | 0x18 => effW i.d (a + b)
  | 0x19 => effW i.d (a - b)
  | 0x1A => effW i.d (a &&& b)
  | 0x1B => effW i.d (a ||| b)
  | 0x1C => effW i.d (a ^^^ b)
  | 0x1D => effW i.d (a <<< (b.toNat % 32))
  | 0x1E => effW i.d (a >>> (b.toNat % 32))
  | 0x1F => effW i.d (a.sshiftRight (b.toNat % 32))
  | 0x20 => effW i.d (a + i.imm)
  | 0x21 => effW i.d (if a.slt b then 1 else 0)
  | 0x22 => effW i.d (if c != 0 then a else b)
  | 0x23 => effW i.d i.imm
  | 0x24 => effW i.d ((i.imm <<< 16) ||| (d &&& 0xFFFF))
  | 0x25 => { effW i.d (m ad) with codes := tileCodes ad, tile := true }
  | 0x26 => { st := [(ad, d)], codes := tileCodes ad, tile := true }
  | 0x27 => { wr := [(i.d, m a.toNat), (i.a, a + i.imm)], codes := tileCodes a.toNat, tile := true }
  | 0x28 => { st := [(a.toNat, d)], wr := [(i.a, a + i.imm)], codes := tileCodes a.toNat, tile := true }
  | 0x29 => { wr := [(i.d, m ad), (i.d + 1, m (ad + 4))], codes := tileCodes ad ++ tileCodes (ad + 4), tile := true }
  | 0x2A => { st := [(ad, d), (ad + 4, x.get (i.d + 1))], codes := tileCodes ad ++ tileCodes (ad + 4), tile := true }
  | 0x2B => { out := some { kind := .lds, addr := ad, dst := [x.phys i.d] }, codes := addrCodes 0x4000 1 ad }
  | 0x2C => { out := some { kind := .lds, addr := a.toNat, dst := [x.phys i.d] }, wr := [(i.a, a + i.imm)], codes := addrCodes 0x4000 1 a.toNat }
  | 0x2D => { out := some { kind := .sts, addr := ad, val := d.setWidth 64 } }
  | 0x2E => { out := some { kind := .ldc, addr := ad, dst := [x.phys i.d, x.phys (i.d + 1)] }, codes := bankCodes ad }
  | 0x2F => { out := some { kind := .stc, addr := ad, val := x.pair i.d }, codes := bankCodes ad }
  | 0x30 => {}
  | 0x38 => { br := br (a != 0) }
  | 0x39 => { br := br (a == 0) }
  | 0x3A => { lc := some (x.lc - 1), rot := true, br := br (decide (0 < (x.lc - 1).toInt)) }
  | 0x3B => { lc := some (x.lc - 1), br := br (decide (0 < (x.lc - 1).toInt)) }
  | 0x3C => { lc := some (a + i.imm) }
  | 0x3D => { dlx := some a }
  | 0x3E => { spawn := some (a.toNat, b.toNat % 2 ^ 13) }
  | 0x3F => { stop := true }
  | _ => { codes := [1] }

/-- Tile-memory accesses of an instruction (R192). -/
def seAccesses (op : Nat) : Nat :=
  if op = 0x11 ∨ op = 0x29 ∨ op = 0x2A then 2 else if 0x25 ≤ op ∧ op ≤ 0x28 then 1 else 0

/-! ## Descriptors and the task table (Tables 8.3 and 8.4) -/

def dPhase (d : BitVec 64) : Nat := d.toNat / 2 ^ 58 % 8
def dTask (d : BitVec 64) : Nat := d.toNat / 2 ^ 13 % 8192
def dArg (d : BitVec 64) : Nat := d.toNat % 8192

def tDesc (e : BitVec 192) : BitVec 64 := e.extractLsb' 128 64
def tEntry (e : BitVec 192) : Nat := (e.extractLsb' 115 13).toNat
def tWbase (e : BitVec 192) : Nat := (e.extractLsb' 101 14).toNat
def tWlen (e : BitVec 192) : Nat := (e.extractLsb' 87 14).toNat
def tDiv (e : BitVec 192) : Nat := (e.extractLsb' 79 8).toNat + 1
def tOfs (e : BitVec 192) : Nat := (e.extractLsb' 71 8).toNat
def tKind (e : BitVec 192) : Nat := (e.extractLsb' 69 2).toNat
def tBound (e : BitVec 192) : Nat := (e.extractLsb' 48 16).toNat

/-- Entry `i` of the task table, active copy. -/
def State.task (s : State) (i : Nat) : BitVec 192 := spGet 0 s.tds.tt i

/-- The running task's index and entry; none: index 0 and an empty write window (log entry 21). -/
def Eng.task (x : Eng) : Nat := match x.run with
  | some r => dTask r.desc
  | none => 0

/-- Task error (R197): the task is abandoned at the handshake that starts at `x.pc`. The message is that of the example of chapter 13: SEV 1,
LEVEL 0, SE_ERR as QUAL. -/
def State.taskError (s : State) (n code : Nat) : State :=
  let x := s.eng n
  let s := s.setEng n { x with failed := x.run.isSome, waiting := [] }
  let w := code % 16 * 2 ^ 28 + x.task % 8192 * 2 ^ 13 + x.pc % 8192
  let s := s.wr (R.SE_ERR n) (BitVec.ofNat 32 w)
  (((s.setBit (F.SE_STAT_TASK_ERR n) true).inc (F.SE_ERR_CNT_V n)).raise (72 + n)).sendMsg 1 (seInst n) 0 0x22 (some 1) (some 0) (some w)

/-! ## Dispatch operations that SPAWN needs -/

/-- The computation in progress is treated as an overrun (R206). -/
def State.maskOverrun (s : State) : State :=
  { s with cyc := { s.cyc with comps := s.cyc.comps.map (fun c => if c.k = s.tds.k then { c with masked := true } else c) } }

/-- Enqueue a descriptor; one without an unmasked engine is discarded (R206). -/
def State.enqueue (s : State) (d : BitVec 64) : State :=
  if dEmask d &&& ~~~s.engMask = 0 then
    (((s.inc F.TDS_MDROP_CNT_V).setBit F.TDS_STAT_MDROP true).raise 109).maskOverrun
  else if s.tds.closed then s.inc F.TDS_DROP_CNT_V
  else { s with tds := { s.tds with queue := s.tds.queue ++ [d] } }

/-- SPAWN (R205). -/
def State.spawn (s : State) (a arg : Nat) : State :=
  let e := if a < 8192 then s.task a else 0
  if tKind e ≠ 2 ∨ dPhase (tDesc e) ≤ s.fld F.TDS_STAT_PHASE ∨ s.tds.spawned.contains a then
    ((s.inc F.TDS_SPDROP_CNT_V).setBit F.TDS_STAT_SPDROP true).raise 107
  else
    let s : State := { s with tds := { s.tds with spawned := s.tds.spawned ++ [a] } }
    (s.enqueue (BitVec.ofNat 64 ((tDesc e).toNat / 8192 * 8192 + arg % 8192))).qSync

/-! ## Handshakes -/

/-- Program slot in force of engine `n` and the word at an index. -/
def State.progWord (s : State) (n slot idx : Nat) : BitVec 32 := spGet 0 s.tds.prog (n * 16384 + slot * 8192 + idx % 8192)
def State.psel (s : State) (n : Nat) : Nat := s.fld (F.TDS_CL_CTL_PSEL (n / 4))

/-- Engine `n` fetches these instructions at its next index; an engine that runs no task takes what it is given (log entry
21). -/
def State.seFetches (s : State) (n : Nat) (cs : List SeCmd) : Bool :=
  let x := s.eng n
  x.run.isNone || (List.range cs.length).all (fun j =>
    seOfWord (s.progWord n (s.psel n) (x.pc + j)) == (cs[j]?).map (·.i))

/-- The handshake that engine `n` reads from its program ends at a word with a reserved opcode (R189): its first word, or the second of a
pair. -/
def State.seReserved (s : State) (n : Nat) : Bool :=
  let x := s.eng n
  let at' (j : Nat) : Option SeIns := seOfWord (s.progWord n (s.psel n) (x.pc + j))
  x.run.isSome && (match at' 0 with
    | none => true
    | some i => i.p && (at' 1).isNone)

/-- An instruction reads or writes the destination of an outstanding load, would be a ninth outstanding operation, or is a
FENCE with operations outstanding (R193). -/
def Eng.mustWait (x : Eng) (i : SeIns) : Bool :=
  (i.reads ++ i.writes).any (fun r => x.out.any (fun o => o.dst.contains (x.phys r))) ||
  (0x2B ≤ i.op && i.op ≤ 0x2F && decide (8 ≤ x.out.length)) || (i.op == 0x30 && !x.out.isEmpty)

/-- One of the error codes that apply; which one is recorded where several do is not given: a free choice. -/
def State.pickCode (s : State) : List Nat → Nat × State
  | [] => (0, s)
  | [c] => (c, s)
  | c :: l => let (j, s) := s.freeNat; ((c :: l).getD (j % (l.length + 1)) c, s)

/-- Errors of a handshake: of the pair (R189, R192; DLX is a register that both may not write), of its instructions, of a branch target (R190), of the write window
(R194). -/
def State.shakeCodes (s : State) (x : Eng) (cs : List SeCmd) (es : List SeEff) : List Nat :=
  let is := cs.map (·.i)
  let e := s.task x.task
  let pair := match is with
    | [i, j] => !pairOrder (seClass i.op) (seClass j.op) || (i.writes.map x.phys).any (fun r => (j.writes.map x.phys).contains r) ||
        decide (2 < seAccesses i.op + seAccesses j.op) || (es.filter (fun e => e.dlx.isSome)).length == 2
    | _ => false
  let target := es.any (fun f => match f.br with
    | some o => decide ((x.pc : Int) + o < 0) || decide (8191 < (x.pc : Int) + o)
    | none => false)
  let window := es.any (fun f => match f.out with
    | some o => o.kind == .sts && (x.run.isNone || decide (o.addr < tWbase e) || decide (tWbase e + tWlen e ≤ o.addr))
    | none => false)
  let ill := pair || is.any (·.odd) || target || es.any (fun e => e.codes.contains 1)
  if ill then [1] else (es.flatMap SeEff.codes ++ (if window then [4] else [])).eraseDups

/-- Put register writes in place; a register that one instruction writes twice holds a free value (log entry 22). `done` holds
the registers that have it. -/
def State.putRegs (s : State) (x : Eng) (done : List Nat) : List (Nat × BitVec 32) → Eng × State
  | [] => (x, s)
  | (r, v) :: l =>
    let q := x.phys r
    if done.contains q then s.putRegs x done l
    else if l.any (fun w => x.phys w.1 == q) then
      let (u, s) := s.free32
      s.putRegs (x.putPhys q u) (q :: done) l
    else s.putRegs (x.putPhys q v) done l

/-- One handshake of engine `n`: one instruction or a pair. Both read before either writes. -/
def State.seShake (s : State) (n : Nat) (cs : List SeCmd) : State :=
  let x := s.eng n
  let es := cs.map (fun c =>
    let e := seEffect x (fun ad => s.mw (tileBase n + ad)) c.i
    { e with out := e.out.map (fun o => { o with err := c.err }) })
  let codes := s.shakeCodes x cs es
  let tile := es.any (·.tile)
  if !codes.isEmpty then
    let (code, s) := s.pickCode codes
    s.taskError n code
  else if tile && cs.any (fun c => c.err == .double) then (s.tileUnc n).taskError n 5
  else
    let s := if tile && cs.any (fun c => c.err == .single) then s.sramCorr else s
    let wr := es.flatMap (·.wr)
    let (x, s) := s.putRegs x [] wr
    let x := { x with lc := (es.findSome? (·.lc)).getD x.lc, dlx := (es.findSome? (·.dlx)).getD x.dlx,
                      rot := if es.any (·.rot) then (x.rot + 31) % 32 else x.rot,
                      pc := match es.findSome? (·.br) with
                        | some o => ((x.pc : Int) + o).toNat
                        | none => (x.pc + cs.length) % 8192,
                      out := x.out ++ es.filterMap (·.out), ended := x.ended || (x.run.isSome && es.any (·.stop)) }
    let s := s.setEng n x
    let s := es.foldl (fun s e => e.st.foldl (fun s w => s.setMw (tileBase n + w.1) w.2) (s.seFlags n e.fl)) s
    match es.findSome? (·.spawn) with
    | some (a, b) => s.spawn a b
    | none => s

/-- The instructions of the next handshake among those that wait, and the rest; none while a pair lacks its second. -/
def nextShake : List SeCmd → Option (List SeCmd × List SeCmd)
  | [] => none
  | c :: l => if c.i.p then (match l with
      | [] => none
      | c2 :: l2 => some ([c, c2], l2)) else some ([c], l)

/-- Execute what waits, in order, as far as it can; what an ended or failed task is given is dropped. -/
def State.seDrain (s : State) (n : Nat) : Nat → State
  | 0 => s
  | k + 1 =>
    let x := s.eng n
    if x.ended || x.failed then s.setEng n { x with waiting := [] }
    else match nextShake x.waiting with
      | none => s
      | some (cs, rest) =>
        if cs.any (fun c => x.mustWait c.i) then s
        else
          let s := s.setEng n { x with waiting := rest }
          (if s.seReserved n then s.taskError n 1 else if s.seFetches n cs then s.seShake n cs else s).seDrain n k

/-- Engine `n` is given an instruction. -/
def State.seIssue (s : State) (n : Nat) (i : SeIns) (err : EccErr) : State :=
  if s.held then s
  else
    let x := s.eng n
    let w := x.waiting ++ [⟨i, err⟩]
    (s.setEng n { x with waiting := w }).seDrain n (w.length + 1)

/-- Complete the outstanding operation `o` of engine `n`. -/
def State.outComplete (s : State) (n : Nat) (o : Outst) : State :=
  match o.kind with
  | .lds =>
    let s := if o.err = .single then s.sramCorr else s
    let v := if o.err = .double then dpValue (s.sigType o.addr == 1) else s.sigGet o.addr
    let s := if o.err = .double then s.dpUnc.sigBreak o.addr else s
    s.setEng n ((s.eng n).putPhys (o.dst.getD 0 0) v)
  | .sts => s.sigPut o.addr (o.val.setWidth 32)
  | .ldc =>
    let s := if o.err = .single then s.sramCorr else s
    let (v, s) := if o.err = .double then s.free64 else (s.md (bankBase (n / 4) + o.addr), s)
    let s := if o.err = .double then s.bankUnc (n / 4) else s
    s.setEng n (((s.eng n).putPhys (o.dst.getD 0 0) (v.setWidth 32)).putPhys (o.dst.getD 1 0) ((v >>> 32).setWidth 32))
  | .stc => if o.err = .double then s.bankUnc (n / 4) else (s.when (o.err == .single) State.sramCorr).setMd (bankBase (n / 4) + o.addr) o.val

/-- Sub-bank of the cluster bank that an outstanding operation addresses (R352). -/
def Outst.bank (o : Outst) : Option Nat := if o.kind = .ldc ∨ o.kind = .stc then some (o.addr / 8 % 16) else none

/-- Position `p` of cluster `c` has an access to sub-bank `sb` waiting. The external port, position 4, is served as its commands come. -/
def State.waitsAt (s : State) (c sb p : Nat) : Bool :=
  decide (p < 4) && (s.eng (4 * c + p)).out.any (fun o => o.bank == some sb)

/-- Round-robin of R14: every position between the one granted last and engine `n` has nothing waiting at the sub-bank. -/
def State.turn (s : State) (n sb : Nat) : Bool :=
  let last := spGet 4 s.tds.rr (n / 4 * 16 + sb) % 5
  (List.range ((n % 4 + 4 - last) % 5)).all (fun j => !s.waitsAt (n / 4) sb ((last + 1 + j) % 5))

/-- The access is granted to engine `n`, if it is its turn. -/
def State.grant (s : State) (n : Nat) (o : Outst) : Option State :=
  match o.bank with
  | none => some s
  | some sb => if s.turn n sb then some { s with tds := { s.tds with rr := spSet 4 s.tds.rr (n / 4 * 16 + sb) (n % 4) } } else none

/-- OUTSTANDING_COMPLETE (R193, R14): the i-th oldest operation completes, at a cluster bank when the arbiter serves its engine; what
waited for it goes on. -/
def execOutstandingComplete (t : Nat) (n : Fin 32) (i : Fin 8) (s : State) : Host.Outcome State Fault Refusal :=
  .next (s.onDie t fun s =>
    let x := s.eng n
    match x.out[i.val]? with
    | none => s
    | some o => match s.grant n o with
      | none => s
      | some s =>
        let s := s.setEng n { x with out := x.out.eraseIdx i }
        let s := s.outComplete n o
        s.seDrain n ((s.eng n).waiting.length + 1))

/-! ## The instructions (Table 8.2) -/

/-- Issue with no memory word to check. -/
def State.seRun (s : State) (n : Fin 32) (i : SeIns) : Host.Outcome State Fault Refusal := .next (s.seIssue n i .ok)

/-- NOP (R191, Table 8.2, opcode 0x00). -/
def execNop (n : Fin 32) (p : Bool) (s : State) : Host.Outcome State Fault Refusal :=
  s.seRun n { p := p, op := 0x00 }

/-- FADD (R191, Table 8.2, opcode 0x01). -/
def execFadd (n : Fin 32) (p : Bool) (d a b : Fin 64) (s : State) : Host.Outcome State Fault Refusal :=
  s.seRun n { p := p, op := 0x01, d := d, a := a, b := b }

/-- FSUB (R191, Table 8.2, opcode 0x02). -/
def execFsub (n : Fin 32) (p : Bool) (d a b : Fin 64) (s : State) : Host.Outcome State Fault Refusal :=
  s.seRun n { p := p, op := 0x02, d := d, a := a, b := b }

/-- FMUL (R191, Table 8.2, opcode 0x03). -/
def execFmul (n : Fin 32) (p : Bool) (d a b : Fin 64) (s : State) : Host.Outcome State Fault Refusal :=
  s.seRun n { p := p, op := 0x03, d := d, a := a, b := b }

/-- FMA (R191, Table 8.2, opcode 0x04). -/
def execFma (n : Fin 32) (p : Bool) (d a b c : Fin 64) (s : State) : Host.Outcome State Fault Refusal :=
  s.seRun n { p := p, op := 0x04, d := d, a := a, b := b, c := c }

/-- FMS (R191, Table 8.2, opcode 0x05). -/
def execFms (n : Fin 32) (p : Bool) (d a b c : Fin 64) (s : State) : Host.Outcome State Fault Refusal :=
  s.seRun n { p := p, op := 0x05, d := d, a := a, b := b, c := c }

/-- FMIN (R191, Table 8.2, opcode 0x06). -/
def execFmin (n : Fin 32) (p : Bool) (d a b : Fin 64) (s : State) : Host.Outcome State Fault Refusal :=
  s.seRun n { p := p, op := 0x06, d := d, a := a, b := b }

/-- FMAX (R191, Table 8.2, opcode 0x07). -/
def execFmax (n : Fin 32) (p : Bool) (d a b : Fin 64) (s : State) : Host.Outcome State Fault Refusal :=
  s.seRun n { p := p, op := 0x07, d := d, a := a, b := b }

/-- FABS (R191, Table 8.2, opcode 0x08). -/
def execFabs (n : Fin 32) (p : Bool) (d a : Fin 64) (s : State) : Host.Outcome State Fault Refusal :=
  s.seRun n { p := p, op := 0x08, d := d, a := a }

/-- FNEG (R191, Table 8.2, opcode 0x09). -/
def execFneg (n : Fin 32) (p : Bool) (d a : Fin 64) (s : State) : Host.Outcome State Fault Refusal :=
  s.seRun n { p := p, op := 0x09, d := d, a := a }

/-- FCLAMP (R191, Table 8.2, opcode 0x0A). -/
def execFclamp (n : Fin 32) (p : Bool) (d a b c : Fin 64) (s : State) : Host.Outcome State Fault Refusal :=
  s.seRun n { p := p, op := 0x0A, d := d, a := a, b := b, c := c }

/-- FSLT (R191, Table 8.2, opcode 0x0B). -/
def execFslt (n : Fin 32) (p : Bool) (d a b : Fin 64) (s : State) : Host.Outcome State Fault Refusal :=
  s.seRun n { p := p, op := 0x0B, d := d, a := a, b := b }

/-- FSEQ (R191, Table 8.2, opcode 0x0C). -/
def execFseq (n : Fin 32) (p : Bool) (d a b : Fin 64) (s : State) : Host.Outcome State Fault Refusal :=
  s.seRun n { p := p, op := 0x0C, d := d, a := a, b := b }

/-- F2I (R191, Table 8.2, opcode 0x0D). -/
def execF2i (n : Fin 32) (p : Bool) (d a : Fin 64) (s : State) : Host.Outcome State Fault Refusal :=
  s.seRun n { p := p, op := 0x0D, d := d, a := a }

/-- I2F (R191, Table 8.2, opcode 0x0E). -/
def execI2f (n : Fin 32) (p : Bool) (d a : Fin 64) (s : State) : Host.Outcome State Fault Refusal :=
  s.seRun n { p := p, op := 0x0E, d := d, a := a }

/-- FRCPE (R191, Table 8.2, opcode 0x0F). -/
def execFrcpe (n : Fin 32) (p : Bool) (d a : Fin 64) (s : State) : Host.Outcome State Fault Refusal :=
  s.seRun n { p := p, op := 0x0F, d := d, a := a }

/-- FRSQE (R191, Table 8.2, opcode 0x10). -/
def execFrsqe (n : Fin 32) (p : Bool) (d a : Fin 64) (s : State) : Host.Outcome State Fault Refusal :=
  s.seRun n { p := p, op := 0x10, d := d, a := a }

/-- TAP (R191, Table 8.2, opcode 0x11). -/
def execTap (n : Fin 32) (p : Bool) (d a b : Fin 64) (err : EccErr) (s : State) : Host.Outcome State Fault Refusal :=
  .next (s.seIssue n { p := p, op := 0x11, d := d, a := a, b := b } err)

/-- MAC (R191, Table 8.2, opcode 0x12). -/
def execMac (n : Fin 32) (p : Bool) (d a b : Fin 64) (s : State) : Host.Outcome State Fault Refusal :=
  s.seRun n { p := p, op := 0x12, d := d, a := a, b := b }

/-- MACU (R191, Table 8.2, opcode 0x13). -/
def execMacu (n : Fin 32) (p : Bool) (d a b : Fin 64) (s : State) : Host.Outcome State Fault Refusal :=
  s.seRun n { p := p, op := 0x13, d := d, a := a, b := b }

/-- MUL64 (R191, Table 8.2, opcode 0x14). -/
def execMul64 (n : Fin 32) (p : Bool) (d a b : Fin 64) (s : State) : Host.Outcome State Fault Refusal :=
  s.seRun n { p := p, op := 0x14, d := d, a := a, b := b }

/-- ACCRD (R191, Table 8.2, opcode 0x15). -/
def execAccrd (n : Fin 32) (p : Bool) (d a : Fin 64) (imm : BitVec 13) (s : State) : Host.Outcome State Fault Refusal :=
  s.seRun n { p := p, op := 0x15, d := d, a := a, imm := imm13 imm }

/-- MUL (R191, Table 8.2, opcode 0x16). -/
def execMul (n : Fin 32) (p : Bool) (d a b : Fin 64) (s : State) : Host.Outcome State Fault Refusal :=
  s.seRun n { p := p, op := 0x16, d := d, a := a, b := b }

/-- ADD (R191, Table 8.2, opcode 0x18). -/
def execAdd (n : Fin 32) (p : Bool) (d a b : Fin 64) (s : State) : Host.Outcome State Fault Refusal :=
  s.seRun n { p := p, op := 0x18, d := d, a := a, b := b }

/-- SUB (R191, Table 8.2, opcode 0x19). -/
def execSub (n : Fin 32) (p : Bool) (d a b : Fin 64) (s : State) : Host.Outcome State Fault Refusal :=
  s.seRun n { p := p, op := 0x19, d := d, a := a, b := b }

/-- AND (R191, Table 8.2, opcode 0x1A). -/
def execAndW (n : Fin 32) (p : Bool) (d a b : Fin 64) (s : State) : Host.Outcome State Fault Refusal :=
  s.seRun n { p := p, op := 0x1A, d := d, a := a, b := b }

/-- OR (R191, Table 8.2, opcode 0x1B). -/
def execOrW (n : Fin 32) (p : Bool) (d a b : Fin 64) (s : State) : Host.Outcome State Fault Refusal :=
  s.seRun n { p := p, op := 0x1B, d := d, a := a, b := b }

/-- XOR (R191, Table 8.2, opcode 0x1C). -/
def execXorW (n : Fin 32) (p : Bool) (d a b : Fin 64) (s : State) : Host.Outcome State Fault Refusal :=
  s.seRun n { p := p, op := 0x1C, d := d, a := a, b := b }

/-- SHL (R191, Table 8.2, opcode 0x1D). -/
def execShl (n : Fin 32) (p : Bool) (d a b : Fin 64) (s : State) : Host.Outcome State Fault Refusal :=
  s.seRun n { p := p, op := 0x1D, d := d, a := a, b := b }

/-- SHR (R191, Table 8.2, opcode 0x1E). -/
def execShr (n : Fin 32) (p : Bool) (d a b : Fin 64) (s : State) : Host.Outcome State Fault Refusal :=
  s.seRun n { p := p, op := 0x1E, d := d, a := a, b := b }

/-- SAR (R191, Table 8.2, opcode 0x1F). -/
def execSar (n : Fin 32) (p : Bool) (d a b : Fin 64) (s : State) : Host.Outcome State Fault Refusal :=
  s.seRun n { p := p, op := 0x1F, d := d, a := a, b := b }

/-- ADDI (R191, Table 8.2, opcode 0x20). -/
def execAddi (n : Fin 32) (p : Bool) (d a : Fin 64) (imm : BitVec 13) (s : State) : Host.Outcome State Fault Refusal :=
  s.seRun n { p := p, op := 0x20, d := d, a := a, imm := imm13 imm }

/-- SLT (R191, Table 8.2, opcode 0x21). -/
def execSlt (n : Fin 32) (p : Bool) (d a b : Fin 64) (s : State) : Host.Outcome State Fault Refusal :=
  s.seRun n { p := p, op := 0x21, d := d, a := a, b := b }

/-- SEL (R191, Table 8.2, opcode 0x22). -/
def execSel (n : Fin 32) (p : Bool) (d a b c : Fin 64) (s : State) : Host.Outcome State Fault Refusal :=
  s.seRun n { p := p, op := 0x22, d := d, a := a, b := b, c := c }

/-- LIL (R191, Table 8.2, opcode 0x23). -/
def execLil (n : Fin 32) (p : Bool) (d : Fin 64) (imm : BitVec 16) (s : State) : Host.Outcome State Fault Refusal :=
  s.seRun n { p := p, op := 0x23, d := d, imm := imm16 imm }

/-- LIH (R191, Table 8.2, opcode 0x24). -/
def execLih (n : Fin 32) (p : Bool) (d : Fin 64) (imm : BitVec 16) (s : State) : Host.Outcome State Fault Refusal :=
  s.seRun n { p := p, op := 0x24, d := d, imm := imm16 imm }

/-- LW (R191, Table 8.2, opcode 0x25). -/
def execLw (n : Fin 32) (p : Bool) (d a : Fin 64) (imm : BitVec 13) (err : EccErr) (s : State) : Host.Outcome State Fault Refusal :=
  .next (s.seIssue n { p := p, op := 0x25, d := d, a := a, imm := imm13 imm } err)

/-- SW (R191, Table 8.2, opcode 0x26). -/
def execSw (n : Fin 32) (p : Bool) (d a : Fin 64) (imm : BitVec 13) (err : EccErr) (s : State) : Host.Outcome State Fault Refusal :=
  .next (s.seIssue n { p := p, op := 0x26, d := d, a := a, imm := imm13 imm } err)

/-- LWI (R191, Table 8.2, opcode 0x27). -/
def execLwi (n : Fin 32) (p : Bool) (d a : Fin 64) (imm : BitVec 13) (err : EccErr) (s : State) : Host.Outcome State Fault Refusal :=
  .next (s.seIssue n { p := p, op := 0x27, d := d, a := a, imm := imm13 imm } err)

/-- SWI (R191, Table 8.2, opcode 0x28). -/
def execSwi (n : Fin 32) (p : Bool) (d a : Fin 64) (imm : BitVec 13) (err : EccErr) (s : State) : Host.Outcome State Fault Refusal :=
  .next (s.seIssue n { p := p, op := 0x28, d := d, a := a, imm := imm13 imm } err)

/-- LW2 (R191, Table 8.2, opcode 0x29). -/
def execLw2 (n : Fin 32) (p : Bool) (d a : Fin 64) (imm : BitVec 13) (err : EccErr) (s : State) : Host.Outcome State Fault Refusal :=
  .next (s.seIssue n { p := p, op := 0x29, d := d, a := a, imm := imm13 imm } err)

/-- SW2 (R191, Table 8.2, opcode 0x2A). -/
def execSw2 (n : Fin 32) (p : Bool) (d a : Fin 64) (imm : BitVec 13) (err : EccErr) (s : State) : Host.Outcome State Fault Refusal :=
  .next (s.seIssue n { p := p, op := 0x2A, d := d, a := a, imm := imm13 imm } err)

/-- LDS (R191, Table 8.2, opcode 0x2B). -/
def execLds (n : Fin 32) (p : Bool) (d a : Fin 64) (imm : BitVec 13) (err : EccErr) (s : State) : Host.Outcome State Fault Refusal :=
  .next (s.seIssue n { p := p, op := 0x2B, d := d, a := a, imm := imm13 imm } err)

/-- LDSI (R191, Table 8.2, opcode 0x2C). -/
def execLdsi (n : Fin 32) (p : Bool) (d a : Fin 64) (imm : BitVec 13) (err : EccErr) (s : State) : Host.Outcome State Fault Refusal :=
  .next (s.seIssue n { p := p, op := 0x2C, d := d, a := a, imm := imm13 imm } err)

/-- STS (R191, Table 8.2, opcode 0x2D). -/
def execSts (n : Fin 32) (p : Bool) (d a : Fin 64) (imm : BitVec 13) (s : State) : Host.Outcome State Fault Refusal :=
  s.seRun n { p := p, op := 0x2D, d := d, a := a, imm := imm13 imm }

/-- LDC (R191, Table 8.2, opcode 0x2E). -/
def execLdc (n : Fin 32) (p : Bool) (d a : Fin 64) (imm : BitVec 13) (err : EccErr) (s : State) : Host.Outcome State Fault Refusal :=
  .next (s.seIssue n { p := p, op := 0x2E, d := d, a := a, imm := imm13 imm } err)

/-- STC (R191, Table 8.2, opcode 0x2F). -/
def execStc (n : Fin 32) (p : Bool) (d a : Fin 64) (imm : BitVec 13) (err : EccErr) (s : State) : Host.Outcome State Fault Refusal :=
  .next (s.seIssue n { p := p, op := 0x2F, d := d, a := a, imm := imm13 imm } err)

/-- FENCE (R191, Table 8.2, opcode 0x30). -/
def execFence (n : Fin 32) (p : Bool) (s : State) : Host.Outcome State Fault Refusal :=
  s.seRun n { p := p, op := 0x30 }

/-- BNZ (R191, Table 8.2, opcode 0x38). -/
def execBnz (n : Fin 32) (p : Bool) (a : Fin 64) (ofs : BitVec 19) (s : State) : Host.Outcome State Fault Refusal :=
  s.seRun n { p := p, op := 0x38, a := a, imm := ofs19 ofs }

/-- BZ (R191, Table 8.2, opcode 0x39). -/
def execBz (n : Fin 32) (p : Bool) (a : Fin 64) (ofs : BitVec 19) (s : State) : Host.Outcome State Fault Refusal :=
  s.seRun n { p := p, op := 0x39, a := a, imm := ofs19 ofs }

/-- LOOP (R191, Table 8.2, opcode 0x3A). -/
def execLoop (n : Fin 32) (p : Bool) (ofs : BitVec 19) (s : State) : Host.Outcome State Fault Refusal :=
  s.seRun n { p := p, op := 0x3A, imm := ofs19 ofs }

/-- LOOPN (R191, Table 8.2, opcode 0x3B). -/
def execLoopn (n : Fin 32) (p : Bool) (ofs : BitVec 19) (s : State) : Host.Outcome State Fault Refusal :=
  s.seRun n { p := p, op := 0x3B, imm := ofs19 ofs }

/-- SETLC (R191, Table 8.2, opcode 0x3C). -/
def execSetlc (n : Fin 32) (p : Bool) (a : Fin 64) (imm : BitVec 13) (s : State) : Host.Outcome State Fault Refusal :=
  s.seRun n { p := p, op := 0x3C, a := a, imm := imm13 imm }

/-- DLX (R191, Table 8.2, opcode 0x3D). -/
def execDlx (n : Fin 32) (p : Bool) (a : Fin 64) (s : State) : Host.Outcome State Fault Refusal :=
  s.seRun n { p := p, op := 0x3D, a := a }

/-- SPAWN (R191, Table 8.2, opcode 0x3E). -/
def execSpawn (n : Fin 32) (p : Bool) (a b : Fin 64) (s : State) : Host.Outcome State Fault Refusal :=
  s.seRun n { p := p, op := 0x3E, a := a, b := b }

/-- END (R191, Table 8.2, opcode 0x3F). -/
def execEndTask (n : Fin 32) (p : Bool) (s : State) : Host.Outcome State Fault Refusal :=
  s.seRun n { p := p, op := 0x3F }

end Sys2Proof.Machine
end

