-- ==== Sys2Proof/Machine/Tds.lean ====
section
/-! DEFINITION. Task dispatch (08_engines.md, R198 to R210): task starts, prefetch, migration, phases, masking, cluster swaps, the
program-slot window. -/

namespace Sys2Proof.Machine

/-! ## Tasks -/

/-- Bn in ns; B0 = 0 is the P0 release. -/
def State.bOfs (s : State) (n : Nat) : Nat := if n = 0 then 0 else s.fld (F.TDS_CYC_B_BN_Q (n - 1)) * 4

/-- TASK_START (R186): engine `n` starts the task of descriptor `d` with every register cleared but v1 to v3. -/
def State.taskStart (s : State) (n : Nat) (d : BitVec 64) : State :=
  let x := s.eng n
  let v : Sparse (BitVec 32) := spSet 0 (spSet 0 (spSet 0 [] 1 (BitVec.ofNat 32 (dArg d * 32))) 2 (BitVec.ofNat 32 n)) 3 (cyc32 s.tds.k)
  s.setEng n { v := v, pc := tEntry (s.task (dTask d)), run := some { desc := d, at' := s.mono }, pre := x.pre, busy := x.busy }

/-- A descriptor may run: its phase has been released. -/
def State.released (s : State) (d : BitVec 64) : Bool := decide (dPhase d ≤ s.fld F.TDS_STAT_PHASE)

/-- An idle engine starts the first released descriptor of its prefetch slots, a masked one too (R197; log entry 116). -/
def State.startPre (s : State) (n : Nat) : State :=
  let x := s.eng n
  if x.run.isSome then s
  else match x.pre.find? s.released with
    | none => s
    | some d => (s.setEng n { x with pre := x.pre.erase d }).taskStart n d

/-- Queued descriptors that engine `n` may take: of the released phase or the next (R201). -/
def State.eligible (s : State) (n : Nat) : List (BitVec 64) :=
  s.tds.queue.filter (fun d => (dEmask d).getLsbD n && decide (dPhase d ≤ s.fld F.TDS_STAT_PHASE + 1))

/-- DESCRIPTOR_MIGRATE (R202): an idle engine without work gets a released descriptor that waits at a busy engine; which
one is the command's choice. -/
def State.migrate (s : State) (n donor : Nat) : State :=
  if (s.eng n).run.isSome || s.engMask.getLsbD n || !(s.eligible n).isEmpty then s
  else
    let cand (m : Nat) : Option (BitVec 64) :=
      if m ≠ n ∧ (s.eng m).run.isSome then (s.eng m).pre.find? (fun d => s.released d && (dEmask d).getLsbD n) else none
    let ms := (List.range 32).filter (fun m => (cand m).isSome)
    match ms[donor % max ms.length 1]? with
    | none => s
    | some m => match cand m with
      | none => s
      | some d =>
        let y := s.eng m
        (s.setEng m { y with pre := y.pre.erase d }).taskStart n d

/-- DESCRIPTOR_DISPATCH (R201): a free prefetch slot of engine `n` is filled; which descriptor of the priority is the
command's choice. -/
def execDescriptorDispatch (t : Nat) (n : Fin 32) (pick : Nat) (s : State) : Host.Outcome State Fault Refusal :=
  .next (s.onDie t fun s =>
    let x := s.eng n
    let el := s.eligible n
    if s.tds.closed || s.engMask.getLsbD n || decide (2 ≤ x.pre.length) || el.isEmpty then s
    else
      let pr := el.foldl (fun m d => min m (dPrio d)) 7
      let ds := el.filter (fun d => dPrio d == pr)
      match ds[pick % max ds.length 1]? with
      | none => s
      | some d =>
        let s : State := { s with tds := { s.tds with queue := s.tds.queue.erase d } }
        ((s.setEng n { x with pre := x.pre ++ [d] }).qSync).startPre n)

/-- BOUND_EXCEEDED (R204). -/
def execBoundExceeded (t : Nat) (n : Fin 32) (s : State) : Host.Outcome State Fault Refusal :=
  .next (s.onDie t fun s =>
    let x := s.eng n
    match x.run with
    | none => s
    | some r =>
      if !r.exc && decide (tBound (s.task (dTask r.desc)) < (s.mono - r.at') * 10) then
        (((s.setEng n { x with run := some { r with exc := true } }).inc F.TDS_BEXC_CNT_V).setBit F.TDS_STAT_BEXC true).raise 108
      else s)

/-! ## Phases -/

/-- No engine runs a task and nothing is queued or prefetched (R46). -/
def State.fabricIdle (s : State) : Bool :=
  s.tds.queue.isEmpty && (List.range 32).all (fun n => (s.eng n).run.isNone && (s.eng n).pre.isEmpty)

/-- Phase `n` has no descriptor queued, prefetched or running (R203). -/
def State.phaseIdle (s : State) (n : Nat) : Bool :=
  !s.tds.queue.any (fun d => dPhase d == n) &&
  (List.range 32).all (fun e =>
    let x := s.eng e
    !x.pre.any (fun d => dPhase d == n) && (match x.run with
      | some r => dPhase r.desc != n
      | none => true))

/-- Phase `n` is released: idle engines start what waits for it. -/
def State.tdsRelease (s : State) (n : Nat) : State :=
  (List.range 32).foldl (fun s e => s.startPre e) (s.setFld F.TDS_STAT_PHASE n)

/-- At an overrun nothing more is dispatched; what is left, queued or prefetched, is counted (R45, R203). -/
def State.tdsOverrun (s : State) : State :=
  let n := s.tds.queue.length + ((List.range 32).map (fun e => (s.eng e).pre.length)).sum
  let s := s.addFld F.TDS_DROP_CNT_V n
  let s : State := { s with tds := { s.tds with queue := [], closed := true } }
  ((List.range 32).foldl (fun s e => if (s.eng e).pre.isEmpty then s else s.setEng e { s.eng e with pre := [] }) s).qSync

/-- Entry `i` lies within cluster `c`. -/
def inCluster (e : BitVec 192) (c : Nat) : Bool := dEmask (tDesc e) &&& ~~~(0xF#32 <<< (4 * c)) == 0

/-- Exchange active and shadow entries of cluster `c`. -/
def swapEntries (c : Nat) (tt : Sparse (BitVec 192)) :
    Sparse (Option (BitVec 192)) → Sparse (BitVec 192) × Sparse (Option (BitVec 192))
  | [] => (tt, [])
  | (i, o) :: l =>
    let (tt', l') := swapEntries c tt l
    match o with
    | none => (tt', l')
    | some e => if inCluster e c then (spSet 0 tt' i e, spIns l' i (some (spGet 0 tt i))) else (tt', spIns l' i o)

/-- CLUSTER_SWAP (R209). -/
def State.clusterSwap (s : State) (c : Nat) (late : Bool) : State :=
  let (tt, sh) := swapEntries c s.tds.tt s.tds.shadow
  let s : State := { s with tds := { s.tds with tt := tt, shadow := sh, swap := spSet none s.tds.swap c none } }
  let s := s.setBit (F.TDS_CL_CTL_PSEL c) (!s.bit (F.TDS_CL_CTL_PSEL c))
  (((s.setBit (F.TDS_CL_CTL_SHADOW_OK c) false).setBit (F.TDS_CL_CTL_SWAP c) false).setFld (F.TDS_CL_CTL_SW_ST c)
    (if late then 3 else 1)).raise 110

/-- Pending swaps end with status LATE (R248, R377). -/
def State.swapCancel (s : State) : State :=
  (List.range 8).foldl (fun s c =>
    if (spGet none s.tds.swap c).isSome then
      let s : State := { s with tds := { s.tds with swap := spSet none s.tds.swap c none } }
      ((s.setBit (F.TDS_CL_CTL_SWAP c) false).setFld (F.TDS_CL_CTL_SW_ST c) 2).raise 110
    else s) s

/-- Swaps due at the P0 release that falls in cycle `cyc`. -/
def State.swapsDue (s : State) (cyc : Nat) : State :=
  (List.range 8).foldl (fun s c =>
    match spGet none s.tds.swap c with
    | some (n, late) => if n ≤ cyc then s.clusterSwap c late else s
    | none => s) s

/-- Host masking takes effect, re-admitted clusters are unmasked (R206, R207). -/
def State.masksP0 (s : State) : State :=
  let un := clusterEngines s.tds.admitted
  let s := (List.range 8).foldl (fun s c => if s.tds.admitted.getLsbD c then s.setFld (F.TDS_CL_CTL_ISOL c) 0 else s) s
  { s with
    memu := { s.memu with tileIso := s.memu.tileIso &&& ~~~un, cluIso := s.memu.cluIso &&& ~~~s.tds.admitted },
    tds := { s.tds with hostMask := s.rd R.TDS_HOST_MASK, admitted := 0 } }

/-- CYCLIC_ENQUEUE (R200) for sample cycle `k`. -/
def State.cyclicEnqueue (s : State) (k : Nat) : State :=
  (s.tds.tt.foldl (fun s c => if tKind c.2 = 1 ∧ k % tDiv c.2 = tOfs c.2 then s.enqueue (tDesc c.2) else s) s).qSync

/-- The TDS at the P0 release of sample `k`, which falls in cycle `cyc`. -/
def State.tdsP0 (s : State) (k cyc : Nat) : State :=
  let s := (s.masksP0).swapsDue cyc
  let s : State := { s with tds := { s.tds with queue := [], spawned := [], k := k, closed := false } }
  let s := (List.range 32).foldl (fun s n =>
    let x := s.eng n
    let s := s.setFld (F.SE_BUSY_NS n) (min x.busy 65535)
    if x.busy = 0 then s else s.setEng n { x with busy := 0 }) s
  (s.setFld F.TDS_STAT_PHASE 0).cyclicEnqueue k

/-! ## Host commands -/

/-- A SWAP request (R209, R379). -/
def State.swapReq (s : State) (c : Nat) (lateOk : Bool) : State :=
  if !s.bit (F.TDS_CL_CTL_SHADOW_OK c) then (s.setBit (F.TDS_CL_CTL_SW_REF c) true).raise 110
  else match s.judge (fullCycle s.cycNow (s.rd (R.TDS_CL_SWCYC c))) lateOk with
    | none => (s.setFld (F.TDS_CL_CTL_SW_ST c) 2).raise 110
    | some (n, late) =>
      let s : State := { s with tds := { s.tds with swap := spSet none s.tds.swap c (some (n, late)) } }
      let s := s.setBit (F.TDS_CL_CTL_SWAP c) true
      if late then s.setFld (F.TDS_CL_CTL_SW_ST c) 3 else s

/-- SWAP (R209). -/
def execSwap (t : Nat) (c : Fin 8) (lateOk : Bool) (s : State) : Host.Outcome State Fault Refusal :=
  .next (s.onDie t fun s => (s.setBit (F.TDS_CL_CTL_LATE_OK c) lateOk).swapReq c lateOk)

/-- A read of TDS_Qp_STAT: the depths, and PEAK clears (Table 8.12). -/
def State.qStatRead (s : State) (q : Nat) : BitVec 32 × State := (s.rd (R.TDS_Q_STAT q), s.setFld (F.TDS_Q_STAT_PEAK q) 0)

/-- Q_STAT_READ. -/
def execQStatRead (t : Nat) (q : Fin 8) (s : State) : Host.Outcome State Fault Refusal :=
  .next (s.onDie t fun s => State.didRead (s.qStatRead q))

/-- The window's index advances at each access (Table 8.6). -/
def State.pNext (s : State) (n : Nat) : State := s.setFld (F.SE_PADDR_INDEX n) (s.fld (F.SE_PADDR_INDEX n) + 1)

/-- A write through SE_PDATA (R208). -/
def State.pdataWrite (s : State) (n : Nat) (v : BitVec 32) : State :=
  let slot := s.fld (F.SE_PADDR_SLOT n)
  let s := if slot = s.psel n then s.setBit (F.SE_PADDR_PWR_ERR n) true
    else { s with tds := { s.tds with prog := spSet 0 s.tds.prog (n * 16384 + slot * 8192 + s.fld (F.SE_PADDR_INDEX n)) v } }
  s.pNext n

/-- A read through SE_PDATA. -/
def State.pdataRead (s : State) (n : Nat) : BitVec 32 × State :=
  (s.progWord n (s.fld (F.SE_PADDR_SLOT n)) (s.fld (F.SE_PADDR_INDEX n)), s.pNext n)

/-- SE_PDATA_WRITE (R208). -/
def execSePdataWrite (t : Nat) (n : Fin 32) (v : BitVec 32) (s : State) : Host.Outcome State Fault Refusal :=
  .next (s.onDie t (·.pdataWrite n v))

/-- SE_PDATA_READ. -/
def execSePdataRead (t : Nat) (n : Fin 32) (s : State) : Host.Outcome State Fault Refusal :=
  .next (s.onDie t fun s => State.didRead (s.pdataRead n))

/-- SE_STAT as the host reads it: BUSY, MASKED and ISOLATED show the engine. -/
def State.seStatView (s : State) (n : Nat) : BitVec 32 :=
  (F.SE_STAT_ISOLATED n).put ((F.SE_STAT_MASKED n).put ((F.SE_STAT_BUSY n).put (s.rd (R.SE_STAT n))
    (if (s.eng n).run.isSome then 1 else 0)) (if s.engMask.getLsbD n then 1 else 0)) (if s.memu.tileIso.getLsbD n then 1 else 0)

/-- TDS_TT_DATAi: the active entry at TDS_TT_ADDR. -/
def State.ttDataView (s : State) (i : Nat) : BitVec 32 := (s.task (s.fld F.TDS_TT_ADDR_INDEX)).extractLsb' (32 * i) 32

end Sys2Proof.Machine
end

