-- ==== Sys2Proof/Machine/Mem.lean ====
section
/-! DEFINITION. The memory unit (16_memory.md): Winter, access errors, conflict counters, AON events. -/

namespace Sys2Proof.Machine

/-! ## Access errors (R354, R358, R362, R363) -/

/-- ACC_ERR with its count and source 237. -/
def State.accErr (s : State) : State := ((s.setBit F.MEM_STAT_ACC_ERR true).inc F.MEM_ACC_ERR_CNT_V).raise 237

/-- LOST_WRITE. -/
def State.lostWrite (s : State) : State := ((s.inc F.MEM_DP_LOST_CNT_V).setBit F.MEM_STAT_LOST_WRITE true).raise 224

/-! ## AON events (R391) -/

/-- Write an AON event of source `n` into the ring of 64 in AON SRAM; of its value, qualifier and sequence word the spec says
nothing. -/
def State.aonEvent (s : State) (n : Nat) : State :=
  let (v, s) := s.free32
  let (q, s) := s.free32
  let (sq, s) := s.free32
  let r : EvRec := { time := s.now, code := n, src := n, value := v, qual := q, seq := sq, flags := s.evFlags 0xFF }
  let e := s.fld F.AON_EVT_WPTR_V
  let s := (List.range 8).foldl (fun s w => s.wr (R.AON_EVT_W e w) (r.word.extractLsb' (32 * w) 32)) s
  s.setFld F.AON_EVT_WPTR_V (e + 1)

/-! ## Winter (R361, R362) -/

/-- The Winter bit of tile `i`, or of cluster bank `i`. -/
def State.winBit (s : State) (cb : Bool) (i : Nat) : Bool := if cb then s.fbit F.MEM_WIN_CB_V i else s.fbit F.MEM_WIN_TILE_V i
def State.setWinBit (s : State) (cb : Bool) (i : Nat) (v : Bool) : State :=
  if cb then s.setFbit F.MEM_WIN_CB_V i v else s.setFbit F.MEM_WIN_TILE_V i v
/-- The memory is accessible. -/
def State.winRdy (s : State) (cb : Bool) (i : Nat) : Bool :=
  if cb then s.fbit F.MEM_WIN_RDY_CB_V i else s.fbit F.MEM_WIN_RDY_TILE_V i
def State.setWinRdy (s : State) (cb : Bool) (i : Nat) (v : Bool) : State :=
  if cb then s.setFbit F.MEM_WIN_RDY_CB_V i v else s.setFbit F.MEM_WIN_RDY_TILE_V i v

/-- A request is refused: an engine that works on the memory is not masked, the mirror list names the tile, the cluster is being
re-admitted. -/
def State.winRefused (s : State) (cb : Bool) (i : Nat) : Bool :=
  let m := s.engMask
  let c := if cb then i else i / 4
  s.bit (F.TDS_CL_CTL_ADMIT c) ||
    (if cb then (List.range 4).any (fun e => !m.getLsbD (4 * i + e))
     else !m.getLsbD i || s.cfg.mirror.tiles.any (fun r => r.1 == i))

/-- A write that sets a Winter bit. -/
def State.winReq (s : State) (cb : Bool) (i : Nat) : State :=
  if cb && decide (8 ≤ i) then s
  else if s.winBit cb i then s
  else if s.winRefused cb i then (s.setBit F.MEM_STAT_WIN_REF true).raise 233
  else
    let s := s.setWinBit cb i true
    if cb then { s with memu := { s.memu with winReqC := s.memu.winReqC ||| (1 <<< i) } }
    else { s with memu := { s.memu with winReqT := s.memu.winReqT ||| (1 <<< i) } }

/-- WINTER_REQUEST (R361). -/
def execWinterRequest (t : Nat) (cb : Bool) (i : Fin 32) (s : State) : Host.Outcome State Fault Refusal :=
  .next (s.onDie t (·.winReq cb i))

/-- A write that clears a Winter bit: a memory in Winter starts to wake, a request not yet in effect ends. -/
def State.winWake (s : State) (cb : Bool) (i : Nat) : State :=
  if cb && decide (8 ≤ i) then s
  else if !s.winBit cb i then s
  else
    let s := s.setWinBit cb i false
    let m := s.memu
    if cb then
      let b : BitVec 8 := 1 <<< i
      { s with memu := { m with winReqC := m.winReqC &&& ~~~b, inWinC := m.inWinC &&& ~~~b, wakingC := m.wakingC ||| (m.inWinC &&& b) } }
    else
      let b : BitVec 32 := 1 <<< i
      { s with memu := { m with winReqT := m.winReqT &&& ~~~b, inWinT := m.inWinT &&& ~~~b, wakingT := m.wakingT ||| (m.inWinT &&& b) } }

/-- WINTER_WAKE (R362). -/
def execWinterWake (t : Nat) (cb : Bool) (i : Fin 32) (s : State) : Host.Outcome State Fault Refusal :=
  .next (s.onDie t (·.winWake cb i))

/-- The memory is awake. -/
def State.winReady (s : State) (cb : Bool) (i : Nat) : State :=
  let m := s.memu
  if cb then
    if m.wakingC.getLsbD i then
      (({ s with memu := { m with wakingC := m.wakingC &&& ~~~(1#8 <<< i) } } : State).setWinRdy true i true).raise 232
    else s
  else if m.wakingT.getLsbD i then
    (({ s with memu := { m with wakingT := m.wakingT &&& ~~~(1#32 <<< i) } } : State).setWinRdy false i true).raise 232
  else s

/-- WINTER_READY (R362). -/
def execWinterReady (t : Nat) (cb : Bool) (i : Fin 32) (s : State) : Host.Outcome State Fault Refusal :=
  .next (s.onDie t (·.winReady cb i))

/-- WINTER_ENTRY at P0 release: every accepted request takes effect. -/
def State.winEnter (s : State) : State :=
  let m := s.memu
  let enter (cb : Bool) (s : State) (i : Nat) : State := (s.setWinRdy cb i false).raise 232
  let s : State := { s with memu := { m with winReqT := 0, winReqC := 0, inWinT := m.inWinT ||| m.winReqT, inWinC := m.inWinC ||| m.winReqC,
                                             wakingT := m.wakingT &&& ~~~m.winReqT, wakingC := m.wakingC &&& ~~~m.winReqC } }
  let s := ((List.range 32).filter (fun i => m.winReqT.getLsbD i)).foldl (enter false) s
  ((List.range 8).filter (fun i => m.winReqC.getLsbD i)).foldl (enter true) s

/-! ## Conflict counters (R355) -/

/-- A read of MEM_CONFm: the count, which clears. The D3 cycles that a request waits are no commands, so the count is a free
value (log entry 98). -/
def State.confRead (s : State) (m : Nat) : BitVec 32 × State :=
  let (v, s) := s.free32
  (v, s.wr (R.MEM_CONF m) 0)

/-- CONF_READ (R355). -/
def execConfRead (t : Nat) (m : Fin 16) (s : State) : Host.Outcome State Fault Refusal :=
  .next (s.onDie t fun s => State.didRead (s.confRead m))

/-! ## Tamper (R359, R360) -/

/-- Wipe the secure store and the derived keys that RPU, SPU and PL hold. -/
def State.wipeKeys (s : State) : State :=
  let wipe (x : Option Session) : Option Session := x.map (fun y => { y with wiped := true })
  let s := s.memWipe secBase (secBase + 0x40000)
  { s with ports := spMap {} (fun (p : Port) => { p with sess := wipe p.sess, prev := wipe p.prev, next := wipe p.next }) s.ports,
           memu := { s.memu with keysWiped := true } }

/-- Privilege closes (R389). -/
def State.privClose (s : State) : State :=
  if s.bit F.SYS_PRIV_OPEN then (s.setBit F.SYS_PRIV_OPEN false).raise 245 else s

/-- A TAMP input becomes active for its filter time. The AON latches it also while the controller die is in reset. -/
def State.tamper (s : State) (i : Nat) : State :=
  if !s.fbit F.MEM_TAMP_CFG_EN i then s
  else
    let s := (s.setFbit F.MEM_TAMP_STAT_LATCH i true).wipeKeys.aonEvent 234
    if s.held then s
    else
      let s : State := { s with memu := { s.memu with privPend := true, wipe := if s.memu.wipe = .none then .tamper else s.memu.wipe } }
      (s.setBit F.MEM_STAT_WIPING true).privClose.raise 234

/-- TAMPER (R359). -/
def execTamper (t : Nat) (i : Fin 4) (s : State) : Host.Outcome State Fault Refusal := .next ((s.tick t).tamper i)

/-- Supplies of the unit are absent. -/
def State.unpowered (s : State) : Bool := s.sys.vcoreLost || s.sys.vsafLost || !s.sys.rails.isEmpty

/-- UNPOWERED_TAMPER (R360). -/
def execUnpoweredTamper (t : Nat) (i : Fin 4) (s : State) : Host.Outcome State Fault Refusal :=
  let s := s.tick t
  .next (if s.unpowered then (s.setFbit F.MEM_TAMP_STAT_LATCH i true).setBit F.MEM_TAMP_STAT_UNPWR true else s)

end Sys2Proof.Machine
end

