-- ==== Sys2Proof/Machine/Aon.lean ====
section
/-! DEFINITION. The always-on domain (17_configuration.md, R390, R391): lifetime store, calendar, supply of VBAT. -/

namespace Sys2Proof.Machine

/-! ## Lifetime store (R390, Table 17.15) -/

/-- A copy whose commit word is valid. -/
def ltValid (c : Option LtCopy) : Option LtCopy :=
  match c with
  | some x => if x.torn then none else some x
  | none => none

/-- SEQ of a copy that is valid. -/
def ltSeq (c : Option LtCopy) : Option Nat := (ltValid c).map (·.seq)

/-- A save goes to copy 1: an invalid copy first, else the one with the lower SEQ. -/
def AonSt.saveTo1 (a : AonSt) : Bool :=
  match ltSeq a.copy0, ltSeq a.copy1 with
  | some x, some y => decide (y < x)
  | some _, none => true
  | none, _ => false

/-- The valid copy with the higher SEQ. -/
def AonSt.newest (a : AonSt) : Option LtCopy :=
  match ltValid a.copy0, ltValid a.copy1 with
  | some x, some y => if x.seq < y.seq then some y else some x
  | some x, none => some x
  | none, y => y

/-- A save: the older copy with SEQ + 1; one that fails leaves that copy invalid (R390). -/
def State.ltSave (s : State) (ok : Bool) : State :=
  let a := s.aon
  let q := (match a.newest with
    | some c => c.seq
    | none => 0) + 1
  let c : LtCopy := { seq := q, body := a.lt, torn := !ok }
  let a : AonSt := { a with savedAt := some s.mono }
  let s : State := { s with aon := if a.saveTo1 then { a with copy1 := some c } else { a with copy0 := some c } }
  if ok then s.wr R.AON_LT_SEQ (BitVec.ofNat 32 q) else (s.setBit F.AON_STAT_LT_FAIL true).raise 253

/-- The newest copy without a valid commit word. -/
def AonSt.tear (a : AonSt) : AonSt :=
  let torn (c : Option LtCopy) : Option LtCopy := c.map (fun x => { x with torn := true })
  match ltSeq a.copy0, ltSeq a.copy1 with
  | some x, some y => if x < y then { a with copy1 := torn a.copy1 } else { a with copy0 := torn a.copy0 }
  | _, some _ => { a with copy1 := torn a.copy1 }
  | some _, none => { a with copy0 := torn a.copy0 }
  | none, none => a

/-- A loss of power, or a fall of PORST_N, within the 5 ms that a save may take: the copy being written may stay invalid (R390, R407). -/
def State.ltCut (s : State) : State :=
  match s.aon.savedAt with
  | some t0 =>
    if s.mono < t0 + 5000000 then
      let (torn, s) := s.freeBool
      if torn then { s with aon := s.aon.tear } else s
    else s
  | none => s

/-- LIFETIME_LOAD: at a start the valid copy with the higher SEQ is loaded. -/
def State.ltLoad (s : State) : State :=
  match s.aon.newest with
  | some c => ({ s with aon := { s.aon with lt := c.body } } : State).wr R.AON_LT_SEQ (BitVec.ofNat 32 c.seq)
  | none => { s with aon := { s.aon with lt := {} } }

/-- LIFETIME_SAVE_TIMER (R390). -/
def execLifetimeSaveTimer (t : Nat) (saveOk : Bool) (s : State) : Host.Outcome State Fault Refusal :=
  .next (s.onDie t (·.ltSave saveOk))

/-- SAVE (R390): a write of AON_LT_CTL.SAVE. -/
def execSave (t : Nat) (saveOk : Bool) (s : State) : Host.Outcome State Fault Refusal := .next (s.onDie t (·.ltSave saveOk))

/-! ## The copies as bytes of NV (Table 17.15) -/

/-- A list of `n` numbers of `w` bytes. -/
def leTable (w n : Nat) (f : Nat → Nat) : List Byte := (List.range n).flatMap (fun i => leBytes w (f i))

/-- One history entry. -/
def histBytes (e : BitVec 56 × Nat × Nat) : List Byte := leBytes 16 (e.1.toNat * 2 ^ 72 + e.2.1 % 4096 * 2 ^ 60 + e.2.2 % 2 ^ 60)

/-- Bytes 0x10 to 0x1_8FFF of a copy: its body. -/
def Lifetime.body (l : Lifetime) : List Byte :=
  leBytes 8 l.opSec ++ leTable 4 16 (spGet 0 l.resets) ++
    leBytes 4 l.takeovers ++ leBytes 4 l.releases ++ leBytes 4 l.equinox ++ leBytes 4 l.fencings ++
    leTable 4 18 (spGet 0 l.excursions) ++ leTable 8 15 (spGet 0 l.tj) ++
    leTable 4 256 (spGet 0 l.thaw) ++ (List.range 0xAD8).map (fun i => Config.ltGap i) ++ leTable 8 4096 (spGet 0 l.trans) ++
    l.hist.flatMap histBytes ++ List.replicate (65536 - 16 * l.hist.length) 0

/-- A whole copy. -/
def LtCopy.bytes (c : LtCopy) : List Byte :=
  let b := c.body.body
  leBytes 8 c.seq ++ leBytes 4 b.length ++ leBytes 4 (crc32 b).toNat ++ b ++ leBytes 8 (2 ^ 64 - 1 - c.seq % 2 ^ 64)

/-- Byte `o` of the lifetime store's part of NV (Table 16.5). -/
def AonSt.nvByte (a : AonSt) (o : Nat) : Byte :=
  let copy (c : Option LtCopy) (i : Nat) : Byte := match c with
    | none => 0xFF
    | some c => if c.torn then Config.ltTorn c.seq i else c.bytes.getD i 0xFF
  let cell (e : Option (BitVec 32)) (i : Nat) : Byte := match e with
    | none => 0xFF
    | some v => Config.epochCell v i
  if o < 0x19008 then copy a.copy0 o
  else if 0x40000 ≤ o ∧ o < 0x59008 then copy a.copy1 (o - 0x40000)
  else if 0x80000 ≤ o ∧ o < 0x80010 then cell a.epochA (o - 0x80000)
  else if 0x80010 ≤ o ∧ o < 0x80020 then cell a.epochB (o - 0x80010)
  else 0xFF

/-! ## Calendar (R391) -/

/-- TAI seconds of the calendar. -/
def State.calSec (s : State) : Nat := s.fld64 F.AON_CAL_LO_V F.AON_CAL_HI_V

/-- Give the calendar a whole second. -/
def State.calPut (s : State) (sec : Nat) : State :=
  ({ s with aon := { s.aon with calAt := s.mono } } : State).setFld64 F.AON_CAL_LO_V F.AON_CAL_HI_V (sec % 2 ^ 48)

/-- AON_CAL_SUB as it reads. -/
def State.calSub (s : State) : BitVec 32 := BitVec.ofNat 32 (min 32767 ((s.mono - s.aon.calAt) * 32768 / 10 ^ 9))

/-- One second of operation: operating seconds and the bin of the Tj histogram; Tj is a free value. -/
def State.opSecond (s : State) : State :=
  let (n, s) := s.freeNat
  s.setLt (fun l => { l with opSec := l.opSec + 1, tj := spSet 0 l.tj (n % 15) (spGet 0 l.tj (n % 15) + 1) })

/-- CALENDAR_SECOND (R391): the calendar counts on any supply; while LOCK = 1 it takes the TBU count. -/
def execCalendarSecond (t : Nat) (s : State) : Host.Outcome State Fault Refusal :=
  .next (
    let s := s.tick t
    if s.held then s.calPut (s.calSec + 1)
    else (s.calPut (if s.bit F.TBU_STAT_LOCK then t / 10 ^ 9 else s.calSec + 1)).opSecond)

/-- A write of AON_CAL_SET_HI: privileged. -/
def State.calSet (s : State) (m : Acc) (hi : BitVec 32) : State :=
  if s.priv m then
    let s := (s.touchPriv.calPut ((s.rd R.AON_CAL_SET_LO).toNat + hi.toNat % 2 ^ 16 * 2 ^ 32)).setBit F.AON_STAT_CAL_VALID true
    (s.aonEvent 252).raise 252
  else s

/-- CAL_SET (R391). -/
def execCalSet (t : Nat) (by' : Acc) (hi : BitVec 32) (s : State) : Host.Outcome State Fault Refusal :=
  .next (s.onDie t (·.calSet by' hi))

/-! ## VBAT (R392) -/

/-- VBAT_LOW: the AON sees it also while the controller die is in reset. -/
def execVbatLow (t : Nat) (s : State) : Host.Outcome State Fault Refusal :=
  .next (
    let s := (s.tick t).setBit F.AON_STAT_VBAT_LOW true
    if s.held then s else s.raise 251)

end Sys2Proof.Machine
end

