-- ==== Sys2Proof/Machine/Apw.lean ====
section
/-! DEFINITION. Auxiliary pulse-width modulation (15_aux_pwm.md, R337 to R348): periods, double buffering, short pulses, trips and
blanking, the fault input, forcing, precedence of the pins. Times of pin edges are in quarter ns. -/

namespace Sys2Proof.Machine

/-- A configuration error (R348). -/
def State.apwErr (s : State) : State := (s.setBit F.APW_STAT_CFG_ERR true).raise 170

/-- APW_CHc_STAT as the host reads it: FORCED, PEND, H and L show the channel. -/
def State.apwStatView (s : State) (c : Nat) : BitVec 32 :=
  let x := (s.apwNow c).apwCh c
  let (h, l) := x.driven (s.mono * 4)
  let n (b : Bool) : Nat := if b then 1 else 0
  (F.APW_CH_STAT_L c).put ((F.APW_CH_STAT_H c).put ((F.APW_CH_STAT_PEND c).put ((F.APW_CH_STAT_FORCED c).put (s.rd (R.APW_CH_STAT c))
    (n (s.fbit F.APW_FORCE_MASK_V c && x.force != 0))) (n (x.wPeriod.isSome || x.wPhase.isSome || x.wDuty.isSome))) (n h)) (n l)

/-- Levels at the balls of PWM_H and PWM_L; none: high impedance, also while the die is held (Table 18.9). POL inverts both. -/
def State.apwPins (s : State) (c : Nat) : Option (Bool × Bool) :=
  if s.held || s.apwRow c == 1 then none
  else
    let (h, l) := ((s.apwNow c).apwCh c).driven (s.mono * 4)
    let p := s.bit (F.APW_CH_CTL_POL c)
    some (h != p, l != p)

/-! ## Periods (R338 to R342) -/

/-- First instant on the grid PHASE + n PERIOD (ticks) at or after `t`, in TAI ns. -/
def gridFrom (period phase t : Nat) : Nat :=
  let p := max 1 (period * 2)
  t + ((phase * 2 + p * t) - t) % p

/-- A staged write reached D5 at least 8 ns before the boundary `b`. -/
def inTime (w : Option Nat) (b : Nat) : Bool :=
  match w with
  | some t => decide (t + 8 ≤ b)
  | none => false

/-- Transfers at the boundary `b` (R339). PHASE goes with PERIOD, or with everything staged after a clear of UPDLK; one written too
late for that goes at the next boundary. -/
def State.apwTransfer (s : State) (c b : Nat) : State :=
  let x := s.apwCh c
  if s.fbit F.APW_UPDLK_V c || (x.unlock.isSome && !inTime x.unlock b) then s
  else
    let per := inTime x.wPeriod b
    let due := per || x.unlock.isSome || x.phaseDue
    let ph := due && inTime x.wPhase b
    let du := inTime x.wDuty b
    let s := if per then s.wr (R.APW_CH_ACTP c) (s.rd (R.APW_CH_PERIOD c)) else s
    let s := if du then s.wr (R.APW_CH_ACTD c) (s.rd (R.APW_CH_DUTY c)) else s
    s.setApwCh c { x with phase := if ph then s.fld (F.APW_CH_PHASE_V c) else x.phase, phaseDue := due && !ph && x.wPhase.isSome,
                          wPeriod := if per then none else x.wPeriod, wPhase := if ph then none else x.wPhase,
                          wDuty := if du then none else x.wDuty, unlock := none }

/-- The demanded high time emitted for effective demand `d` in a period of `p`, with the counts of Table 15.1; all in quarter
ns, 0 < d < p. -/
def State.shortPulse (s : State) (c : Nat) (d p : Int) : Int × State :=
  let dt : Int := s.apwDt c
  let minp : Int := s.fld (F.APW_CH_DT_MINP c) * 8
  let hs := decide (d - dt < minp)
  let ls := decide (p - d - dt < minp)
  let (tie, s) := if hs && ls && decide (2 * d = p) then s.freeBool else (decide (2 * d < p), s)
  let hs' := hs && (!ls || tie)
  let ls' := ls && !hs'
  let policy := s.fld (F.APW_CH_CTL_POLICY c)
  if !hs' && !ls' then (d, s)
  else
    let full : Int := if hs' then 0 else p
    if policy = 1 then
      let d' := if hs' then minp + dt else p - dt - minp
      let other := if hs' then decide (p - d' - dt < minp) else decide (d' - dt < minp)
      if other then (full, s.inc (F.APW_CH_CNT_SUPP c)) else (d', s.inc (F.APW_CH_CNT_STR c))
    else if policy = 2 then (full, s)
    else (full, s.inc (F.APW_CH_CNT_SUPP c))

/-- The carry after a period with effective demand `d` of which `e` was emitted. -/
def State.setCarry (s : State) (c : Nat) (v : Int) : State :=
  let lim : Int := s.fld (F.APW_CH_ACTP_V c) * 8
  let s := if lim < v.natAbs then (s.setBit (F.APW_CH_STAT_CARRY_SAT c) true).raise 169 else s
  s.wr (R.APW_CH_CARRY c) (BitVec.ofInt 32 (max (-lim) (min lim v)))

/-- The high time of a period of `len` ns (R340, R342). -/
def State.apwHigh (s : State) (c len : Nat) : Nat × State :=
  let period := s.fld (F.APW_CH_ACTP_V c)
  let duty := s.fld (F.APW_CH_ACTD_V c)
  let p := len * 4
  if period * 8 < duty then
    (p, (((s.setBit (F.APW_CH_STAT_MISMATCH c) true).setFld (F.APW_CH_CARRY_V c) 0).raise 164))
  else
    let dem := if len = period * 2 then duty else duty * len / (max 1 (period * 2))
    let carry := s.fld (F.APW_CH_CTL_POLICY c) == 2
    let d : Int := if carry then dem + (s.rd (R.APW_CH_CARRY c)).toInt else dem
    let (e, s) := if d ≤ 0 then ((0 : Int), s) else if p ≤ d then ((p : Int), s) else s.shortPulse c d p
    (e.toNat, if carry then s.setCarry c (d - e) else s.setFld (F.APW_CH_CARRY_V c) 0)

/-- Trip input `i` is active: its filtered level is the one that ACT_HI selects (R343). -/
def State.tripOn (s : State) (i : Nat) : Bool := s.apw.trip.getLsbD i == s.bit (F.APW_TRIP_CFG_ACT_HI i)

/-- One of the inputs that channel `c` masks is active. -/
def State.tripHeld (s : State) (c : Nat) : Bool :=
  (List.range 8).any (fun i => s.fbit (F.APW_CH_CTL_TRIP_MASK c) i && s.tripOn i)

/-- A period begins at `b` (elapsed time), `tb` on the count: transfers, its length, its pulse, force at the boundary, end of a
CYCLE trip. -/
def State.apwPeriod (s : State) (c b tb : Nat) : State :=
  let s := (s.apwTo c (b * 4 - 1)).apwTransfer c b
  let x := s.apwCh c
  let period := s.fld (F.APW_CH_ACTP_V c) * 2
  let g := gridFrom (s.fld (F.APW_CH_ACTP_V c)) x.phase tb
  let joining := s.bit (F.APW_CH_CTL_ALIGN c) && decide (g ≠ tb)
  let len := max 1 (if joining then g - tb else period)
  let (h, s) := s.apwHigh c len
  let s := s.when joining (·.raise 168)
  let x := s.apwCh c
  let x := { x with run := some (b, len), first := none, high := h, force := x.wait.getD x.force, wait := none }
  let s := s.setApwCh c x
  let s := if s.bit (F.APW_CH_CTL_TMODE c) && !s.tripHeld c then
      (s.setBit (F.APW_CH_STAT_TRIPPED c) false).setFbit F.APW_STAT_TRIPPED c false else s
  let s := s.setBit F.APW_FORCE_CTL_GO ((List.range 12).any (fun c => (s.apwCh c).wait.isSome))
  (s.apwCarry c).apwTo c (b * 4)

/-- The next boundary of a channel, in elapsed time. -/
def ApwCh.nextBoundary (x : ApwCh) : Option Nat :=
  match x.first, x.run with
  | some b, _ => some b
  | none, some (b, len) => some (b + len)
  | none, none => none

/-- APW_PERIOD_BOUNDARY (R339). -/
def execApwBoundary (t : Nat) (c : Fin 12) (s : State) : Host.Outcome State Fault Refusal :=
  .next (s.onDie t fun s =>
    match (s.apwCh c).nextBoundary with
    | some b => if b ≤ s.mono then (s.apwPeriod c b (s.now - (s.mono - b))).apwNow c else s
    | none => s)

/-- The first boundary of a channel that is on, on the grid of the values that transfer there, at the first D5 tick at least 8 ns after
the write of EN (R338). -/
def State.apwFirst (s : State) (c : Nat) : Nat :=
  let x := s.apwCh c
  let free := !s.fbit F.APW_UPDLK_V c
  let period := if free && x.wPeriod.isSome then s.fld (F.APW_CH_PERIOD_V c) else s.fld (F.APW_CH_ACTP_V c)
  let phase := if free && x.wPhase.isSome && (x.wPeriod.isSome || x.unlock.isSome || x.phaseDue) then s.fld (F.APW_CH_PHASE_V c) else x.phase
  let t8 := s.now + (x.enAt + 8 - s.mono)
  let b := if s.bit (F.APW_CH_CTL_ALIGN c) then gridFrom period phase t8 else t8 + t8 % 2
  s.mono + (b - s.now)

/-- The count has stepped: the running period of an ALIGN = 1 channel ends, and one that waits for its first grid instant waits for that
of the new count (R338). -/
def State.apwStep (s : State) : State :=
  (List.range 12).foldl (fun s c =>
    if !s.bit (F.APW_CH_CTL_ALIGN c) then s
    else if (s.apwCh c).run.isSome then s.apwPeriod c s.mono s.now
    else if (s.apwCh c).first.isSome then s.setApwCh c { s.apwCh c with first := some (s.apwFirst c) } else s) s

/-! ## Trips, blanking (R343, R344) -/

/-- Last transition of a pin of channel `c` up to now, in quarter ns. -/
def State.lastEdge (s : State) (c : Nat) : Nat :=
  let x := s.apwCh c
  let (h, l) := x.driven (s.mono * 4)
  max (max x.hFall x.lFall) (if h then x.hRise else if l then x.lRise else 0)

/-- End of the running or last blanking window of trip input `i`, in quarter ns; none before any transition. -/
def State.blankEnd (s : State) (i : Nat) : Option Nat :=
  let c := s.fld (F.APW_TRIP_CFG_BLANK_CH i)
  let e := (s.apwNow c).lastEdge c
  if !s.bit (F.APW_TRIP_CFG_BLANK_EN i) || e == 0 then none else some (e + s.fld (F.APW_TRIP_CFG_BLANK_T i) * 8)

/-- Trip input `i` is ignored now. -/
def State.blanked (s : State) (i : Nat) : Bool :=
  match s.blankEnd i with
  | some e => decide (s.mono * 4 < e)
  | none => false

/-- Input `i` acts on every channel that it masks. -/
def State.tripAct (s : State) (i : Nat) : State :=
  (List.range 12).foldl (fun s c =>
    if s.fbit (F.APW_CH_CTL_TRIP_MASK c) i then
      let s := ((s.apwNow c).setBit (F.APW_CH_STAT_TRIPPED c) true).setFbit F.APW_STAT_TRIPPED c true
      (((s.inc (F.APW_CH_TRIP_CNT_V c)).raise 165).setFld (F.APW_CH_CARRY_V c) 0).apwNow c
    else s) s

/-- APW_TRIP_ACTIVE (R343): the filter gives way after TFLT at the new level, so not sooner after its last change. -/
def execApwTrip (t : Nat) (i : Fin 8) (active : Bool) (s : State) : Host.Outcome State Fault Refusal :=
  .next (s.onDie t fun s =>
    let due := match spGet none s.apw.tripAt i with
      | some t0 => decide (t0 + s.fld (F.APW_TRIP_CFG_TFLT i) * 2 ≤ s.mono)
      | none => true
    if active == s.tripOn i || !due then s
    else
      let s : State := { s with apw := { s.apw with trip := s.apw.trip ^^^ (1#8 <<< i.val), tripAt := spSet none s.apw.tripAt i (some s.mono) } }
      if active && !s.blanked i then s.tripAct i else s)

/-- BLANK_WINDOW_END (R344): a trip still active when a window ends acts. -/
def execBlankEnd (t : Nat) (i : Fin 8) (s : State) : Host.Outcome State Fault Refusal :=
  .next (s.onDie t fun s => match s.blankEnd i with
    | some e => if s.tripOn i && decide (e ≤ s.mono * 4 ∧ s.mono * 4 < e + 4) then s.tripAct i else s
    | none => s)

/-- A write of 1 to TRIP_CLR. -/
def State.tripClr (s : State) (c : Nat) : State :=
  if !s.bit (F.APW_CH_CTL_TMODE c) && !s.tripHeld c then
    ((s.setBit (F.APW_CH_STAT_TRIPPED c) false).setFbit F.APW_STAT_TRIPPED c false).apwNow c
  else s

/-- TRIP_CLR (R343). -/
def execTripClr (t : Nat) (c : Fin 12) (s : State) : Host.Outcome State Fault Refusal := .next (s.onDie t (·.tripClr c))

/-! ## APW_FLT_N (R345) -/

/-- APW_FLT_N_LOW: asynchronous. -/
def execApwFltLow (t : Nat) (s : State) : Host.Outcome State Fault Refusal :=
  let s := s.tick t
  let was := s.apw.fltLow
  let s : State := { s with apw := { s.apw with fltLow := true } }
  .next (if s.held || was then s
    else ((List.range 12).foldl (fun s c => s.apwCarry c) ((s.setBit F.APW_STAT_FLT true).raise 166)).apwAll)

/-- APW_FLT_N_HIGH. -/
def execApwFltHigh (t : Nat) (s : State) : Host.Outcome State Fault Refusal :=
  let s := s.tick t
  let was := s.apw.fltLow
  let s : State := { s with apw := { s.apw with fltLow := false } }
  .next (if s.held || !was then s else ((s.setBit F.APW_STAT_FLT true).raise 166))

def State.fltClr (s : State) : State := if s.apw.fltLow then s else (s.setBit F.APW_STAT_FLT false).apwAll

/-- FLT_CLR. -/
def execFltClr (t : Nat) (s : State) : Host.Outcome State Fault Refusal := .next (s.onDie t State.fltClr)

/-! ## Forcing (R347) -/

/-- A write of GO. -/
def State.forceGo (s : State) (atBnd : Bool) : State :=
  let s := (List.range 12).foldl (fun s c =>
    let v := s.fld F.APW_FORCE_VAL_V / 2 ^ (2 * c) % 4
    let x := { s.apwCh c with wait := none }
    let s := s.apwNow c
    if !s.fbit F.APW_FORCE_MASK_V c then s.setApwCh c { s.apwCh c with wait := none }
    else if atBnd then s.setApwCh c { s.apwCh c with wait := some v }
    else ((s.setApwCh c { s.apwCh c with wait := x.wait, force := v }).apwCarry c).apwNow c) s
  (s.setBit F.APW_FORCE_CTL_GO ((List.range 12).any (fun c => (s.apwCh c).wait.isSome))).raise 167

/-- A write of APW_FORCE_CTL. -/
def State.forceCtlWrite (s : State) (v : BitVec 32) : State :=
  let s := s.setBit F.APW_FORCE_CTL_AT_BND (v.getLsbD 0)
  s.when (v.getLsbD 31) (·.forceGo (v.getLsbD 0))

/-- FORCE_GO. -/
def execForceGo (t : Nat) (atBnd : Bool) (s : State) : Host.Outcome State Fault Refusal :=
  .next (s.onDie t fun s => (s.setBit F.APW_FORCE_CTL_AT_BND atBnd).forceGo atBnd)

/-! ## Register writes -/

/-- EN is set: the channel waits for its first boundary (R338). -/
def State.apwStart (s : State) (c : Nat) : State :=
  let s := s.setApwCh c { s.apwCh c with enAt := s.mono, run := none, high := 0 }
  s.setApwCh c { s.apwCh c with first := some (s.apwFirst c) }

/-- EN follows from `was`. -/
def State.apwRun (s : State) (c : Nat) (was : Bool) : State :=
  let on := s.bit (F.APW_CH_CTL_EN c)
  let s := if on && !was then s.apwStart c
    else if !on then s.setApwCh c { s.apwCh c with first := none, run := none, high := 0 } else s
  (s.apwCarry c).apwNow c

/-- A write of APW_CHc_CTL: POLICY 3 is refused; the locked fields take it until an image is committed (R5). -/
def State.apwCtlWrite (s : State) (c : Nat) (v : BitVec 32) : State :=
  let was := s.bit (F.APW_CH_CTL_EN c)
  let bad := (F.APW_CH_CTL_POLICY c).get v == 3
  let s := (s.apwNow c).when bad (·.apwErr)
  let v := if bad then (F.APW_CH_CTL_POLICY c).put v (s.fld (F.APW_CH_CTL_POLICY c)) else v
  (s.plain (R.APW_CH_CTL c) v).apwRun c was

/-- A write of the staged PERIOD: below 50 it is ignored. -/
def State.apwPeriodWrite (s : State) (c : Nat) (v : BitVec 32) : State :=
  let p := (F.APW_CH_PERIOD_V c).get v
  if p < 50 then s.apwErr
  else (s.setFld (F.APW_CH_PERIOD_V c) p).setApwCh c { s.apwCh c with wPeriod := some s.mono }

def State.apwDutyWrite (s : State) (c : Nat) (v : BitVec 32) : State :=
  (s.setFld (F.APW_CH_DUTY_V c) ((F.APW_CH_DUTY_V c).get v)).setApwCh c { s.apwCh c with wDuty := some s.mono }

/-- A write of the staged PHASE. -/
def State.apwPhaseWrite (s : State) (c : Nat) (v : BitVec 32) : State :=
  let p := (F.APW_CH_PHASE_V c).get v
  let s := s.when (decide (s.fld (F.APW_CH_PERIOD_V c) ≤ p)) (·.apwErr)
  (s.setFld (F.APW_CH_PHASE_V c) p).setApwCh c { s.apwCh c with wPhase := some s.mono }

/-- A write of APW_UPDLK: where a bit clears, every staged register waits for the next boundary. -/
def State.updlkWrite (s : State) (v : BitVec 32) : State :=
  let s := (List.range 12).foldl (fun s c =>
    if s.fbit F.APW_UPDLK_V c && !v.getLsbD c then s.setApwCh c { s.apwCh c with unlock := some s.mono } else s) s
  s.setFld F.APW_UPDLK_V (F.APW_UPDLK_V.get v)

/-- Trip input `i` was inactive before a change of its configuration: it acts where it is active now. -/
def State.tripTurn (s : State) (i : Nat) (was : Bool) : State := if s.tripOn i && !was && !s.blanked i then s.tripAct i else s

/-- A write of APW_TRIPi_CFG: a BLANK_CH above 11 is refused. The filtered level stays what it is, so a write of ACT_HI turns an inactive
input into an active one (DESIGN CHOICE, log entry 121). -/
def State.tripCfgWrite (s : State) (i : Nat) (v : BitVec 32) : State :=
  let was := s.tripOn i
  let bad := decide (11 < (F.APW_TRIP_CFG_BLANK_CH i).get v)
  let keep := s.fld (F.APW_TRIP_CFG_BLANK_CH i)
  let s := s.when bad (·.apwErr)
  let s := s.wr (R.APW_TRIP_CFG i) (v &&& 0xFC01FF7F)
  (s.when bad (·.setFld (F.APW_TRIP_CFG_BLANK_CH i) keep)).tripTurn i was

end Sys2Proof.Machine
end

