-- ==== Sys2Proof/Machine/Msu.lean ====
section
/-! DEFINITION. Measurement inputs (09_measurement.md): delta-sigma filters, calibration, SAR converters, sampled-value streams, pulse
inputs, the snapshot at P0 release. -/

namespace Sys2Proof.Machine

/-- Nearest integer; which one at an exact half is not stated (log entry 7). -/
def roundNear (num : Int) (den : Nat) : Int :=
  let q := num / (den : Int)
  let r := num % (den : Int)
  if 2 * r < den then q else if (den : Int) < 2 * r then q + 1 else if Config.roundUp num den then q + 1 else q

/-- The device sets a flag of MSU_STAT: source `n` when it becomes set (R228). -/
def State.msuFlag (s : State) (f : RF) (n : Nat) : State := if s.bit f then s else (s.setBit f true).raise n

def State.cfgErr (s : State) : State := s.msuFlag F.MSU_STAT_CFG_ERR 144

/-! ## Delta-sigma filters (R214 to R217) -/

def State.ds (s : State) (c : Nat) : DsCh := spGet {} s.msu.ds c
def State.setDs (s : State) (c : Nat) (x : DsCh) : State := { s with msu := { s.msu with ds := spSet {} s.msu.ds c x } }

/-- Configuration register of filter `c`. -/
def dsCfg (c : Nat) : Nat := if c < 12 then R.MSU_MD_CFG c else R.MSU_MDX_CFG (c - 12)

/-- D, order and EN of a configuration word. -/
def cfgDec (v : BitVec 32) : Nat := v.toNat % 2 ^ 13
def cfgOrder (v : BitVec 32) : Nat := v.toNat / 2 ^ 25 % 4 + 1
def cfgEn (v : BitVec 32) : Bool := v.getLsbD 31

/-- The external clock of filter `c` under a configuration word runs at D4/4. -/
def State.clkDiv4 (s : State) (c : Nat) (v : BitVec 32) : Bool :=
  decide (12 ≤ c) && (if v.getLsbD 27 then s.bit F.MSU_MDX_CLK_CLK1_DIV4 else s.bit F.MSU_MDX_CLK_CLK0_DIV4)

/-- Word period of filter `c` under a configuration word and a clock, in 1/128 ns (R214). -/
def wordPeriod (c : Nat) (v : BitVec 32) (div4 : Bool) : Nat := cfgDec v * (if c < 12 then 1 else if div4 then 4 else 2) * 3125

/-- Word period in force. -/
def State.dsPeriod (s : State) (c : Nat) : Nat := wordPeriod c (s.ds c).eff (s.ds c).div4

/-- A multiple of period `p` (1/128 ns), counted from the TAI epoch, lies within 1 ns of `t`. -/
def wordInstant (p t : Nat) : Bool :=
  let r := t * 128 % p
  p != 0 && (decide (r < 128) || decide (p < r + 128))

/-- What a change of clears filter `c` (R216, R217): the fields of its configuration word but DLY, and its clock. -/
def State.dsKey (s : State) (c : Nat) : BitVec 32 × Bool :=
  let v := s.rd (dsCfg c)
  (if c < 12 then v else v &&& 0xFE0FFFFF, s.clkDiv4 c v)

/-- What a write has made of filter `c`, whose registers stood as in `old`: a change waits for a word instant; a disabled filter stops. -/
def State.dsSync (s old : State) (c : Nat) : State :=
  let v := s.rd (dsCfg c)
  let x := s.ds c
  if !cfgEn v then s.setDs c { x with eff := 0, chg := none, res := [], settle := 0, lost := false, good := 0, last := none }
  else if s.dsKey c == old.dsKey c then (if x.chg.isSome then s else s.setDs c { x with eff := v })
  else s.setDs c { x with chg := some s.now }

/-- MD channel or SAR (12, 13) under calibration now (R218, R219): on-chip channels one after another, 1.5 ms each. -/
def State.calibrating (s : State) (c : Nat) : Bool :=
  (match s.msu.cal with
   | some t0 => if c < 12 then decide (t0 + c * 1500000 ≤ s.mono) && decide (s.mono < t0 + (c + 1) * 1500000) && cfgEn (s.rd (dsCfg c)) else true
   | none => false) ||
  (match s.msu.recal with
   | some (n, _) => n == c
   | none => false)

def gcalReg (c : Nat) : Nat := if c < 12 then R.MSU_MD_GCAL c else R.MSU_SAR_GCAL (c - 12)
def ocalReg (c : Nat) : Nat := if c < 12 then R.MSU_MD_OCAL c else R.MSU_SAR_OCAL (c - 12)

/-- Measure channel `c` (12, 13: the SARs): `r0` shorted, `r1` the reference. A channel that fails keeps its factors. -/
def State.calChannel (s : State) (c : Nat) (r0 r1 : Int) : State :=
  let ocal := -r0
  let den := r1 + ocal
  let g := frat32 (if den < 0 then -6710886 else 6710886) den.natAbs
  let ok := decide (ocal.natAbs ≤ 41943) && den != 0 && !fltRat g 98 100 && !fltRat (fneg32 g) (-102) 100
  if ok then (((s.wr (gcalReg c) g).wr (ocalReg c) ((BitVec.ofInt 24 ocal).setWidth 32)).setFbit F.MSU_CAL_STAT_CAL_VALID c true)
  else (s.setFbit F.MSU_CAL_STAT_CAL_VALID c false).setBit F.MSU_CAL_STAT_CAL_FAIL true

/-- A change of GAIN against the registers of `old` ends the calibration of an on-chip channel (R220). -/
def State.gainChange (s old : State) (c : Nat) : State :=
  s.when (decide (c < 12) && ((s.rd (dsCfg c) ^^^ old.rd (dsCfg c)) &&& 0x18000000 != 0)) (·.setFbit F.MSU_CAL_STAT_CAL_VALID c false)

/-- Slots of a running self-calibration that have ended by now: each enabled channel has its factors from the end of its own slot, and
its next words settle (R218). -/
def State.calStep (s : State) : State :=
  match s.msu.cal with
  | none => s
  | some t0 => (List.range 12).foldl (fun s c =>
      if c = s.msu.calDone ∧ t0 + (c + 1) * 1500000 ≤ s.mono then
        let s : State := { s with msu := { s.msu with calDone := c + 1 } }
        if cfgEn (s.rd (dsCfg c)) then
          let r := s.msu.calRaws.getD c (0, 0)
          let x := s.ds c
          (s.setDs c { x with settle := max x.settle (cfgOrder x.eff) }).calChannel c r.1 r.2
        else s
      else s) s

/-- Value of a delta-sigma word: round((raw + OCAL) x GCAL), saturated; and whether it saturates (R215). -/
def dsValue (raw : Int) (ocal : BitVec 24) (gcal : BitVec 32) : Int × Bool :=
  let x := raw + ocal.toInt * 65536
  let v : Int := match fDecode fmt32 gcal.toNat with
    | .fin n m e =>
      let g : Int := if n then -(m : Int) else m
      if 0 ≤ e then roundNear (x * g * 2 ^ e.toNat) 65536 else roundNear (x * g) (65536 * 2 ^ (-e).toNat)
    | _ => 0
  if v < -8388608 then (-8388608, true) else if 8388607 < v then (8388607, true) else (v, false)

/-- A result word (Table 9.3). -/
def resWord (ch : Nat) (src clip ovr settling : Bool) (v : Int) : BitVec 32 :=
  BitVec.ofNat 32 (ch % 16 * 2 ^ 28 + (if src then 2 ^ 27 else 0) + (if clip then 2 ^ 26 else 0) + (if ovr then 2 ^ 25 else 0) +
    (if settling then 2 ^ 24 else 0) + (BitVec.ofInt 24 v).toNat)

def resValue (w : BitVec 32) : Int := (w.extractLsb' 0 24).toInt

/-- Filter `c` completes a word under the configuration in force. -/
def State.dsComplete (s : State) (c : Nat) (raw : Int) (ovr stuck : Bool) : State :=
  let md := c < 12
  let i := if md then c else c - 12
  let x := s.ds c
  let x := if md then x else
    let g := if stuck then 0 else x.good + 1
    { x with lost := stuck || (x.lost && decide (g < 16)), good := if x.lost || stuck then g else 0 }
  let s := s.when (!md && stuck) (·.msuFlag F.MSU_STAT_MDX_LOSS 136)
  let cal := md && s.calibrating c
  let (v, clip) := dsValue raw (s.rd (if md then R.MSU_MD_OCAL i else R.MSU_MDX_OCAL i) |>.setWidth 24)
    (s.rd (if md then R.MSU_MD_GCAL i else R.MSU_MDX_GCAL i))
  let settling := cal || decide (0 < x.settle)
  let w := resWord i (!md) clip ovr settling v
  let x := { x with settle := if cal then cfgOrder x.eff else x.settle - 1, res := (⟨w, s.mono, s.now⟩ :: x.res).take 3, last := some s.mono }
  let s := s.setDs c x
  let s := if md then (s.wr (R.MSU_MD_RES i) w).wr (R.MSU_MD_TS i) (BitVec.ofNat 32 s.now)
    else (s.wr (R.MSU_MDX_RES i) w).wr (R.MSU_MDX_TS i) (BitVec.ofNat 32 s.now)
  let s := s.when ovr fun s => (s.inc (if md then F.MSU_MD_CNT_OVR i else F.MSU_MDX_CNT_OVR i)).msuFlag F.MSU_STAT_OVR_ANY 134
  let s := s.when clip fun s => (s.inc (if md then F.MSU_MD_CNT_CLIP i else F.MSU_MDX_CNT_CLIP i)).msuFlag F.MSU_STAT_CLIP_ANY 135
  s.monitors c v settling ovr

/-- DS_WORD_COMPLETE (R214 to R216): the word of the filter in force, then a change that waits for this instant. -/
def execDsWord (t : Nat) (ch : Fin 20) (raw : Int) (ovr stuck : Bool) (s : State) : Host.Outcome State Fault Refusal :=
  .next (s.onDie t fun s =>
    let c := ch.val
    let s := s.calStep
    let x := s.ds c
    let fresh (p : Nat) : Bool := match x.last with
      | some t0 => decide (p < 256 * (s.mono - t0))
      | none => true
    let p := s.dsPeriod c
    let s := if cfgEn x.eff && wordInstant p s.now && fresh p then s.dsComplete c raw ovr stuck else s
    let x := s.ds c
    let v := s.rd (dsCfg c)
    match x.chg with
    | some t0 =>
      let d := s.clkDiv4 c v
      if t0 < s.now ∧ wordInstant (wordPeriod c v d) s.now then
        s.setDs c { x with eff := v, div4 := d, chg := none, settle := cfgOrder v, res := if cfgEn x.eff then x.res else [], last := some s.mono,
                           lost := x.lost && cfgEn x.eff }
      else s
    | none => s)

/-- MDX_LOSS (R217). -/
def execMdxLoss (t : Nat) (x : Fin 8) (s : State) : Host.Outcome State Fault Refusal :=
  .next (s.onDie t fun s =>
    let c := x.val + 12
    let d := s.ds c
    if cfgEn d.eff then (s.setDs c { d with lost := true, good := 0 }).msuFlag F.MSU_STAT_MDX_LOSS 136 else s)

/-! ## Calibration (R218 to R220) -/

/-- A write of MSU_MDn_CFG or MSU_MDXx_CFG (R216, R219, R220): DEC outside 16 to 4,096 keeps its value. -/
def State.dsCfgWrite (s : State) (c : Nat) (v : BitVec 32) : State :=
  let s := s.calStep
  if c < 12 && s.calibrating c then s.cfgErr
  else
    let was := s
    let old := s.rd (dsCfg c)
    let bad := decide (cfgDec v < 16) || decide (4096 < cfgDec v)
    let v := v &&& (if c < 12 then 0xFE001FFF else 0xFFF01FFF)
    let v := if bad then (v &&& 0xFFFFE000) ||| (old &&& 0x1FFF) else v
    let s := s.when bad State.cfgErr
    ((s.wr (dsCfg c) v).gainChange was c).dsSync was c

/-- A write of MSU_MDX_CLK: a change for every external filter on a clock that it changes (R217). -/
def State.mdxClkWrite (s : State) (v : BitVec 32) : State :=
  let was := s
  let s := s.wr R.MSU_MDX_CLK (v &&& 3)
  (List.range 8).foldl (fun s i => s.dsSync was (i + 12)) s

/-- Self-calibration begins; `raws` are the outputs that it will measure. -/
def State.calBegin (s : State) (raws : List (Int × Int)) : State :=
  { s with msu := { s.msu with cal := some s.mono, calRaws := raws, calDone := 0 } }.setBit F.MSU_CAL_STAT_BUSY true

/-- A self-calibration has taken its 18 ms. -/
def State.calOver (s : State) : Bool :=
  match s.msu.cal with
  | some t0 => decide (t0 + 18000000 ≤ s.mono)
  | none => false

/-- CAL_COMPLETE: the last slot and both SARs, whose outputs are `raws`, are judged; source 132. -/
def State.calEnd (s : State) (raws : List (Int × Int)) : State :=
  let s := s.calStep
  let s := [0, 1].foldl (fun s a => let r := raws.getD a (0, 0); s.calChannel (12 + a) r.1 r.2) s
  ({ s with msu := { s.msu with cal := none, calRaws := [], calDone := 0 } }.setBit F.MSU_CAL_STAT_BUSY false).raise 132

/-- A write of MSU_CAL_CTL with RECAL (R219). -/
def State.recalReq (s : State) (c : Nat) : State :=
  let s := s.setFld F.MSU_CAL_CTL_CH c
  if 11 < c ∨ s.msu.cal.isSome ∨ s.msu.recal.isSome then s.cfgErr
  else if !cfgEn (s.rd (dsCfg c)) then s.cfgErr
  else
    ({ s with msu := { s.msu with recal := some (c, s.mono) } }.setBit F.MSU_CAL_STAT_BUSY true).setBit F.MSU_CAL_CTL_RECAL true

/-- RECAL (R219). -/
def execRecal (t : Nat) (ch : Fin 16) (s : State) : Host.Outcome State Fault Refusal := .next (s.onDie t (·.recalReq ch))

/-- RECAL_COMPLETE (R219): 1.5 ms after the request. -/
def execRecalComplete (t : Nat) (raw0 raw1 : Int) (s : State) : Host.Outcome State Fault Refusal :=
  .next (s.onDie t fun s =>
    match s.msu.recal with
    | some (c, t0) =>
      if t0 + 1500000 ≤ s.mono then
        let s := s.calChannel c raw0 raw1
        let x := s.ds c
        let s := s.setDs c { x with settle := max x.settle (cfgOrder x.eff) }
        (({ s with msu := { s.msu with recal := none } }.setBit F.MSU_CAL_STAT_BUSY false).setBit F.MSU_CAL_CTL_RECAL false).raise 133
      else s
    | none => s)

/-- A write of a GCAL or OCAL register: on-chip channels 0 to 11, external filters 12 to 19, SARs 20 and 21 (R219, R220). -/
def State.factorWrite (s : State) (ch : Nat) (gain : Bool) (v : BitVec 32) : State :=
  let s := s.calStep
  let valid : Option Nat := if ch < 12 then some ch else if ch < 20 then none else some (ch - 8)
  let busy := match valid with
    | some c => s.calibrating c
    | none => false
  if busy then s.cfgErr
  else if gain && (fbad32 v || fltRat v 9 10 || fltRat (fneg32 v) (-11) 10) then s.cfgErr
  else
    let reg := if ch < 12 then (if gain then R.MSU_MD_GCAL ch else R.MSU_MD_OCAL ch)
      else if ch < 20 then (if gain then R.MSU_MDX_GCAL (ch - 12) else R.MSU_MDX_OCAL (ch - 12))
      else (if gain then R.MSU_SAR_GCAL (ch - 20) else R.MSU_SAR_OCAL (ch - 20))
    let s := s.wr reg (if gain then v else v &&& 0xFFFFFF)
    match valid with
    | some c => s.setFbit F.MSU_CAL_STAT_CAL_VALID c true
    | none => s

/-- CAL_FACTOR_WRITE. -/
def execCalFactorWrite (t : Nat) (ch : Fin 22) (gain : Bool) (v : BitVec 32) (s : State) : Host.Outcome State Fault Refusal :=
  .next (s.onDie t (·.factorWrite ch gain v))

/-! ## SAR converters (R221, R222) -/

def State.sar (s : State) (a : Nat) : SarSt := spGet {} s.msu.sar a
def State.setSar (s : State) (a : Nat) (x : SarSt) : State := { s with msu := { s.msu with sar := spSet {} s.msu.sar a x } }

/-- Start entry `pos` of the sequence now. -/
def State.sarEntry (s : State) (a pos : Nat) : State :=
  s.setSar a { conv := some { input := s.fld (F.MSU_SAR_SEQ_INPUT a pos), at' := s.mono, stamp := s.now, pos := some pos } }

/-- A sequence runs, or waits for an urgent conversion to end. -/
def SarSt.running (x : SarSt) : Bool := x.start || (match x.conv with
  | some c => c.pos.isSome
  | none => false)

/-- A trigger of SAR `a` (R221). -/
def State.sarGo (s : State) (a : Nat) : State :=
  let x := s.sar a
  if x.running then (s.inc (F.MSU_SAR_SEQ_OVR_V a)).msuFlag F.MSU_STAT_SEQ_OVR 139
  else if x.conv.isSome then s.setSar a { x with start := true }
  else
    let s := s.sarEntry a 0
    let x := s.sar a
    s.setSar a { x with conv := x.conv.map (fun c => { c with idle := true }) }

/-- SAR_TRIGGER (R221): the trigger must be the one that TRIG selects. -/
def execSarTrigger (t : Nat) (a : Fin 2) (trig : SarTrig) (s : State) : Host.Outcome State Fault Refusal :=
  .next (s.onDie t fun s =>
    let tr := s.fld (F.MSU_SAR_CTL_TRIG a)
    let due := match trig with
      | .cycle => tr == 1 && decide (s.now % s.tc = s.fld (F.MSU_SAR_CTL_TRG_OFS a) * 4 % s.tc)
      | .tsi pin => tr == 2 && s.fld (F.MSU_SAR_CTL_TSEL a) == pin.val
      | .cont => tr == 4 && !(s.sar a).running
    if due then s.sarGo a else s)

/-- A host write of 1 to START. -/
def State.sarStartReq (s : State) (a : Nat) : State := if s.fld (F.MSU_SAR_CTL_TRIG a) = 3 then s.sarGo a else s

/-- SAR_START (R221). -/
def execSarStart (t : Nat) (a : Fin 2) (s : State) : Host.Outcome State Fault Refusal := .next (s.onDie t (·.sarStartReq a))

/-- An urgent request is dropped (R222). -/
def State.urgDrop (s : State) (a : Nat) : State :=
  ((s.inc (F.MSU_SAR_URG_DROP_V a)).setFld (F.MSU_SAR_URG_URG_ST a) 2).raise (137 + a)

/-- An urgent request is taken: its conversion starts now, ahead of a sequence that starts in the same cycle. -/
def State.urgTake (s : State) (a : Nat) (host start : Bool) : State :=
  (s.setSar a { conv := some { input := s.fld (F.MSU_SAR_URG_INPUT a), at' := s.mono, stamp := s.now, pos := none, host := host },
                start := start }).setFld (F.MSU_SAR_URG_URG_ST a) 1

/-- An urgent request from the host or from a TSI edge (R222): with a regular start that meets it at an idle SAR it goes first. -/
def State.urgReq (s : State) (a : Nat) (host : Bool) : State :=
  let x := s.sar a
  match x.conv with
  | none => s.urgTake a host false
  | some c =>
    if c.at' = s.mono ∧ c.pos = some 0 ∧ c.idle = true then s.urgTake a host true
    else if c.at' = s.mono ∧ c.pos = none ∧ c.host ∧ !host then (s.urgDrop a).urgTake a false x.start
    else s.urgDrop a

/-- SAR_URGENT_REQ (R222). -/
def execSarUrgent (t : Nat) (a : Fin 2) (req : UrgBy) (s : State) : Host.Outcome State Fault Refusal :=
  .next (s.onDie t fun s =>
    match req with
    | .host i => (s.setFld (F.MSU_SAR_URG_INPUT a) i).urgReq a true
    | .tsi pin => if s.bit (F.MSU_SAR_CTL_URG_TSI_EN a) && s.fld (F.MSU_SAR_CTL_URG_TSEL a) == pin.val then s.urgReq a false else s)

/-- SAR_CONVERSION_COMPLETE (R215, R221): 100 ns after the start; the sampling instant is the end of the 30 ns of acquisition. -/
def execSarConversion (t : Nat) (a : Fin 2) (code : BitVec 16) (s : State) : Host.Outcome State Fault Refusal :=
  .next (s.onDie t fun s =>
    let x := s.sar a
    match x.conv with
    | none => s
    | some c =>
      if s.mono < c.at' + 100 then s
      else
        let v : Int := ((code.toNat : Int) - 32768) * 256
        let ovr := code == 0 || code == 0xFFFF
        let settling := s.calibrating (12 + a.val)
        let ch := 20 + 8 * a.val + c.input
        let w := resWord c.input (a.val == 1) false ovr settling v
        let r : MsuRes := ⟨w, s.mono, c.stamp + 30⟩
        let s : State := { s with msu := { s.msu with sarRes := spSet [] s.msu.sarRes ch ((r :: spGet [] s.msu.sarRes ch).take 3) } }
        let s := s.when ovr (·.msuFlag F.MSU_STAT_OVR_ANY 134)
        let s := s.when c.pos.isNone (·.wr (R.MSU_SAR_URG_RES a) w)
        let s := match c.pos with
          | none => if x.start then s.sarEntry a 0 else s.setSar a {}
          | some p =>
            if p < s.fld (F.MSU_SAR_CTL_SEQ_LEN_M1 a) then s.sarEntry a (p + 1)
            else if s.fld (F.MSU_SAR_CTL_TRIG a) = 4 then s.sarEntry a 0 else s.setSar a {}
        s.monitors ch v settling ovr)

/-! ## Sampled values (R223 to R226) -/

def State.sv (s : State) (i : Nat) : SvSt := spGet {} s.msu.sv i
def State.setSv (s : State) (i : Nat) (x : SvSt) : State := { s with msu := { s.msu with sv := spSet {} s.msu.sv i x } }

/-- The samples, newest first, that a snapshot from `m` on can still take: back to the newest one that had arrived 40 ns before. -/
def keepSamples (m : Nat) : List SvSample → List SvSample
  | [] => []
  | x :: l => if x.at' + 40 ≤ m then [x] else x :: keepSamples m l

/-- The SPU hands over a sample of stream `i`: values with their quality words, smpCnt, smpSynch. -/
def State.svSample (s : State) (i : Nat) (vals : List (BitVec 32 × BitVec 32)) (cnt synch : Nat) : State :=
  if !s.bit (F.MSU_SV_CFG_EN i) then s
  else
    let rate := max (s.fld (F.MSU_SV_CFG_RATE i)) 1
    let x := s.sv i
    let step := match x.cnt with
      | some c => (cnt + rate - c % rate) % rate
      | none => 1
    if step = 0 ∨ rate < 2 * step then s.inc (F.MSU_SV_MISS_CNT_V i)
    else
      let s := s.addFld (F.MSU_SV_MISS_CNT_V i) (step - 1)
      let sec := match x.cnt with
        | some c => if cnt < c then s.now / 10 ^ 9 else x.sec
        | none => s.now / 10 ^ 9
      let unsync := synch == 0
      let good (q : BitVec 32) : Bool := (q &&& 3 == 0) && (!q.getLsbD 11 || s.bit (F.MSU_SV_CFG_TEST_OK i))
      let vals := vals.take (s.fld (F.MSU_SV_CFG_NVAL i))
      let oks := vals.map (fun v => (v.1, good v.2 && (!unsync || s.bit (F.MSU_SV_CFG_UNSYNC_OK i))))
      let time := sec * 10 ^ 9 + (roundNear (cnt * 10 ^ 9) rate).toNat
      let s := s.setFld (F.MSU_SV_STAT_SYNCH i) synch
      let s := if vals.all (fun v => good v.2) then s else (s.setBit (F.MSU_SV_STAT_QBAD i) true).raise 141
      let s := s.when unsync fun s => (s.setBit (F.MSU_SV_STAT_UNSYNC i) true).raise 142
      let s := s.setSv i { cnt := some cnt, sec := sec, since := s.mono, samples := keepSamples s.mono (⟨s.mono, time, oks⟩ :: x.samples) }
      if s.bit (F.MSU_SV_STAT_LOST i) && oks.all (·.2) then (s.setBit (F.MSU_SV_STAT_LOST i) false).raise 140 else s

/-- SV_STREAM_LOST (R224): no sample for SV_TMO nominal periods. -/
def execSvLost (t : Nat) (i : Fin 16) (s : State) : Host.Outcome State Fault Refusal :=
  .next (s.onDie t fun s =>
    let x := s.sv i
    if s.bit (F.MSU_SV_CFG_EN i) && !s.bit (F.MSU_SV_STAT_LOST i) &&
        decide (s.fld (F.MSU_SV_CFG_SV_TMO i) * 10 ^ 9 ≤ (s.mono - x.since) * s.fld (F.MSU_SV_CFG_RATE i)) then
      ((s.setSv i { x with cnt := none }).setBit (F.MSU_SV_STAT_LOST i) true).raise 140
    else s)

/-! ## Pulse inputs (R227) -/

def State.psi (s : State) (i : Nat) : List (Nat × Bool) := spGet [] s.msu.psi i
def State.setPsi (s : State) (i : Nat) (l : List (Nat × Bool)) : State := { s with msu := { s.msu with psi := spSet [] s.msu.psi i l } }

/-- The edges up to elapsed time `t` that have proved not to begin a short pulse by now: the filter lets the newest one through after
FLT x 20 ns. -/
def State.psiEdges (s : State) (i t : Nat) : List (Nat × Bool) :=
  let l := match s.psi i with
    | e :: rest => if s.mono < e.1 + s.fld (F.MSU_PSI_CFG_FLT i) * 20 then rest else e :: rest
    | [] => []
  l.filter (fun e => decide (e.1 ≤ t))

/-- The measured quantity from the edges up to elapsed time `t`: at least two complete periods; x of the last one. -/
def State.psiX (s : State) (i t : Nat) : Option (BitVec 32) :=
  let es := s.psiEdges i t
  let rises := (es.filter (·.2)).map (·.1)
  match rises with
  | r1 :: r0 :: _ :: _ =>
    let per := r1 - r0
    if per = 0 then none
    else if s.fld (F.MSU_PSI_CFG_MODE i) = 1 then some (frat32 (10 ^ 9) per)
    else match es.find? (fun e => !e.2 && decide (r0 ≤ e.1) && decide (e.1 ≤ r1)) with
      | some e => some (frat32 ((e.1 - r0 : Nat) : Int) per)
      | none => none
  | _ => none

/-- x is inside [XMIN, XMAX] and an edge has come within TMO. -/
def State.psiOk (s : State) (i t : Nat) (x : BitVec 32) : Bool :=
  fle32 (s.rd (R.MSU_PSI_XMIN i)) x && fle32 x (s.rd (R.MSU_PSI_XMAX i)) &&
  (match (s.psiEdges i t).find? (·.2) with
   | some e => decide (t < e.1 + s.fld (F.MSU_PSI_TMO_TMO i) * 1000)
   | none => false)

/-- MSU_PSI_X and PSI_INV by the edges that count by now. -/
def State.psiShow (s : State) (i : Nat) : State :=
  match s.psiX i s.mono with
  | some x =>
    let s := s.wr (R.MSU_PSI_X i) x
    if s.psiOk i s.mono x then s else s.msuFlag F.MSU_STAT_PSI_INV 143
  | none => s

/-- PSI_EDGE (R227): a pulse shorter than FLT x 20 ns vanishes with both its edges. -/
def execPsiEdge (t : Nat) (i : Fin 4) (high : Bool) (s : State) : Host.Outcome State Fault Refusal :=
  .next (s.onDie t fun s =>
    let m := s.fld (F.MSU_PSI_CFG_MODE i)
    if m = 0 ∨ m = 3 then s
    else
      let up := high != s.bit (F.MSU_PSI_CFG_INV i)
      let s := s.psiShow i
      let l := s.psi i
      let l' := match l with
        | (t0, u0) :: rest =>
          if u0 = up then l
          else if s.mono < t0 + s.fld (F.MSU_PSI_CFG_FLT i) * 20 then rest
          else ((s.mono, up) :: l).take 10
        | [] => [(s.mono, up)]
      s.setPsi i l')

/-- PSI_TIMEOUT (R227): no rising edge for TMO us; measuring starts afresh. -/
def execPsiTimeout (t : Nat) (i : Fin 4) (s : State) : Host.Outcome State Fault Refusal :=
  .next (s.onDie t fun s =>
    let m := s.fld (F.MSU_PSI_CFG_MODE i)
    let s := s.psiShow i
    let due := match (s.psiEdges i s.mono).find? (·.2) with
      | some e => decide (e.1 + s.fld (F.MSU_PSI_TMO_TMO i) * 1000 ≤ s.mono)
      | none => true
    if (m == 1 || m == 2) && due then (s.setPsi i []).msuFlag F.MSU_STAT_PSI_INV 143 else s)

/-- A change of MODE or INV against the registers of `old` starts the measurement of input `i` afresh. -/
def State.psiSync (s old : State) (i : Nat) : State :=
  s.when ((s.rd (R.MSU_PSI_CFG i) ^^^ old.rd (R.MSU_PSI_CFG i)) &&& 0xE0000000 != 0) (·.setPsi i [])

/-- A write of MSU_PSIp_CFG: a change of MODE or INV starts the measurement afresh. -/
def State.psiCfgWrite (s : State) (i : Nat) (v : BitVec 32) : State :=
  let was := s.psiShow i
  let old := s.rd (R.MSU_PSI_CFG i)
  let v := if v &&& 0xFF = 0 then (v &&& 0xE0000000) ||| (old &&& 0xFF) else v &&& 0xE00000FF
  (was.wr (R.MSU_PSI_CFG i) v).psiSync was i

/-! ## The snapshot (R212, R213) -/

/-- Latest of the results completed by elapsed time `t`. -/
def lastRes (l : List MsuRes) (t : Nat) : Option MsuRes := l.find? (fun r => decide (r.at' ≤ t))

/-- A result word is marked SETTLING or OVERRANGE. -/
def resMarked (w : BitVec 32) : Bool := w.getLsbD 24 || w.getLsbD 25

/-- Calibration that REQ_CAL asks for is missing (R220). -/
def State.awaitsCal (s : State) (c : Nat) : Bool := s.bit F.MSU_CTL_REQ_CAL && !s.fbit F.MSU_CAL_STAT_CAL_VALID c

/-- Word period of a SAR in ns where its trigger gives one (log entry 23). -/
def State.sarPeriod (s : State) (a : Nat) : Option Nat :=
  match s.fld (F.MSU_SAR_CTL_TRIG a) with
  | 1 => some s.tc
  | 4 => some ((s.fld (F.MSU_SAR_CTL_SEQ_LEN_M1 a) + 1) * 100)
  | _ => none

/-- x of channel `c` at cut-off `t` (elapsed time), where the channel has a valid result. -/
def State.channel (s : State) (c t : Nat) : Option (BitVec 32) :=
  if c < 20 then
    let x := s.ds c
    match lastRes x.res t with
    | none => none
    | some r =>
      let stale := decide (4 * s.dsPeriod c < (t - r.at') * 128)
      if !cfgEn (s.rd (dsCfg c)) || resMarked r.word || stale || x.lost || (decide (c < 12) && s.awaitsCal c) then none
      else some (fint32 (resValue r.word))
  else if c < 36 then
    let a := (c - 20) / 8
    match lastRes (spGet [] s.msu.sarRes c) t with
    | none => none
    | some r =>
      let stale := match s.sarPeriod a with
        | some p => decide (4 * p < t - r.at')
        | none => false
      if resMarked r.word || stale || s.awaitsCal (12 + a) then none else some (fint32 (resValue r.word))
  else if c < 40 then
    let m := s.fld (F.MSU_PSI_CFG_MODE (c - 36))
    if m = 1 ∨ m = 2 then (s.psiX (c - 36) t).filter (s.psiOk (c - 36) t) else none
  else if 64 ≤ c ∧ c < 192 then
    let i := (c - 64) / 8
    if !s.bit (F.MSU_SV_CFG_EN i) || s.bit (F.MSU_SV_STAT_LOST i) then none
    else match (s.sv i).samples.find? (fun x => decide (x.at' ≤ t)) with
      | none => none
      | some x => match x.vals[c % 8]? with
        | some (v, true) => some (fint32 v.toInt)
        | _ => none
  else none

/-- SNAPSHOT at P0 release: scaled values of the valid channels, and the quality words. -/
def State.snapshot (s : State) : State :=
  let s := (List.range 4).foldl State.psiShow s.calStep
  let t := s.mono - 40
  let vs := (List.range 192).map (fun c => s.channel c t)
  let s := (List.range 192).foldl (fun s c => match vs.getD c none with
    | some x => s.sigSet (0x1000 + c) (ffma32 (s.rd (R.MSU_CH_SCALE c)) x (s.rd (R.MSU_CH_BIAS c)))
    | none => s) s
  let s := (List.range 8).foldl (fun s w =>
    s.sigSet (0x10F8 + w) ((List.range 32).foldl (fun q b => if (vs.getD (32 * w + b) none).isSome then q ||| (1#32 <<< b) else q) 0)) s
  (List.range 4).foldl (fun s i =>
    let m := s.fld (F.MSU_PSI_CFG_MODE i)
    if (m == 1 || m == 2) && (vs.getD (36 + i) none).isNone then s.msuFlag F.MSU_STAT_PSI_INV 143 else s) s

/-- Monitor `c` has had no word for more than 4 word periods (R266); with no period known, the row's report stands. -/
def State.monSilent (s : State) (c : Nat) : Bool :=
  let ch := s.fld (F.SFI_MON_CFG_CHAN c)
  if ch < 20 then
    match (s.ds ch).res.head? with
    | some r => decide (4 * s.dsPeriod ch < (s.mono - r.at') * 128)
    | none => true
  else
    match (spGet [] s.msu.sarRes ch).head?, s.sarPeriod ((ch - 20) / 8) with
    | some r, some p => decide (4 * p < s.mono - r.at')
    | _, _ => true

/-- MONITOR_WORD_GAP (R266). -/
def execMonitorWordGap (t : Nat) (c : Fin 8) (s : State) : Host.Outcome State Fault Refusal :=
  .next (s.onDie t fun s => if s.sfiState == stStop && !s.scpDead && s.bit (F.SFI_MON_CFG_EN c) && s.monSilent c then s.envExit else s)

/-- A stream that is mapped waits for its first sample from now; one that is not has none. -/
def State.svSync (s : State) (i : Nat) : State :=
  let x := s.sv i
  if s.bit (F.MSU_SV_CFG_EN i) && x.since == 0 then s.setSv i { x with since := s.mono }
  else if !s.bit (F.MSU_SV_CFG_EN i) then s.setSv i {} else s

/-- An image comes into force over the registers of `old`: changed filter settings wait for a word instant; mapped streams and pulse
inputs start. -/
def State.msuLoad (s old : State) : State :=
  let s := (List.range 20).foldl (fun s c => (s.gainChange old c).dsSync old c) s
  let s := (List.range 4).foldl (fun s i => s.psiSync old i) s
  (List.range 16).foldl State.svSync s

end Sys2Proof.Machine
end

