-- ==== Sys2Proof/Machine/Tbu.lean ====
section
/-! DEFINITION. The time base unit (10_time_station.md, R242 to R254): time sources, step, slew and servo, LOCK, PPS, timestamp inputs
and timed outputs. The step itself (R247) stands in TimeStep. -/

namespace Sys2Proof.Machine

/-! ## Rate (R242) -/

/-- The limit of the applied rate: 500 ppm in units of 2^-40. -/
def rateMax : Int := 549755814

/-- Largest change of the rate in `dt` ns: RSLOPE ppm per ms. -/
def State.slope (s : State) (dt : Nat) : Int := Int.ofNat (s.fld F.TBU_CTL_RSLOPE * 2 ^ 40 * dt / 10 ^ 12)

/-- The applied rate. -/
def State.tbuRate (s : State) : Int :=
  let b := s.tbu
  let d := s.slope (s.mono - b.rateAt)
  if b.rate < b.target then min b.target (b.rate + d) else max b.target (b.rate - d)

/-- Move toward rate `r` from now on. -/
def State.steer (s : State) (r : Int) : State :=
  { s with tbu := { s.tbu with rate := s.tbuRate, rateAt := s.mono, target := max (-rateMax) (min rateMax r) } }

/-- fp32 `g` times integer `x`, over 2^149; none for a gain that is no number. -/
def gainTimes (g : BitVec 32) (x : Int) : Option Int :=
  match fDecode fmt32 g.toNat with
  | .fin n m e => some ((if n then -1 else 1) * Int.ofNat (m * 2 ^ (e + 149).toNat) * x)
  | _ => none

/-- KI_S times the sum of offsets plus KP_S times `d`, both in 1/16 ns here (R246); units and rounding log entry 24. -/
def State.servoRate (s : State) (d : Int) : Int × State :=
  match gainTimes (s.rd R.TBU_KI_S) s.tbu.acc, gainTimes (s.rd R.TBU_KP_S) d with
  | some a, some b => (divFree (a + b) (2 ^ 153), s)
  | _, _ => let (v, s) := s.free64; (v.toInt, s)

/-- The PI servo acts on offset `d` (1/16 ns). -/
def State.servo (s : State) (d : Int) : State :=
  let (r, s) := ({ s with tbu := { s.tbu with acc := s.tbu.acc + d } } : State).servoRate d
  s.steer r

/-! ## Sources (Table 10.6, R245) -/

def State.timeSrc (s : State) (i : Nat) : TimeSrc := spGet {} s.tbu.src i
def State.setTimeSrc (s : State) (i : Nat) (x : TimeSrc) : State := { s with tbu := { s.tbu with src := spSet {} s.tbu.src i x } }
def State.qualified (s : State) (i : Nat) : Bool := i != 0 && decide (4 ≤ (s.timeSrc i).n)

/-- The source that Table 10.6 gives this unit. One without a partner link is outside a pair and takes PTP, but for a lease holder with
SRC = PPS, which two rows of the table name (DEDUCED, log entry 124). -/
def State.tbuChoice (s : State) : Nat :=
  let src := s.fld F.TBU_CTL_SRC
  if s.role = roleActive ∧ src = 2 then 2
  else if !s.bit F.PL_CTL_EN then 1
  else if s.role = roleActive then (if src = 1 then 1 else 0)
  else if s.bit F.RDU_STAT_PL_UP then 3 else 4

/-- SLEW starts or ends with source 150. -/
def State.setSlew (s : State) (b : Bool) : State :=
  if s.bit F.TBU_STAT_SLEW == b then s else (s.setBit F.TBU_STAT_SLEW b).raise 150

/-- A change of LOCK raises source 152 (R250). -/
def State.setLock (s : State) (b : Bool) : State :=
  let s : State := if b then s else { s with tbu := { s.tbu with lockN := 0 } }
  if s.bit F.TBU_STAT_LOCK == b then s else (s.setBit F.TBU_STAT_LOCK b).raise 152

/-- ACT_SRC and HOLD follow the source in use; its loss ends LOCK, and holdover runs at the integrator's rate. -/
def State.tbuHold (s : State) : State :=
  let q := s.qualified s.tbu.sel
  let s := s.setFld F.TBU_STAT_ACT_SRC (if q then s.tbu.sel else 0)
  if s.bit F.TBU_STAT_HOLD == !q then s
  else
    let s := (s.setBit F.TBU_STAT_HOLD (!q)).raise 151
    if q then s
    else
      let (r, s) := ((s.setSlew false).setLock false).servoRate 0
      s.steer r

/-- At a cycle boundary the unit takes the source that Table 10.6 now gives it. -/
def State.tbuSync (s : State) : State :=
  let c := s.tbuChoice
  let s : State := if s.tbu.sel = c then s else { s with tbu := { s.tbu with sel := c, lockN := 0 } }
  s.tbuHold

/-! ## Offsets (R246, R250) -/

/-- Δ in ns as TBU_LAST_OFS shows it. -/
def lastOfs (d : Int) : BitVec 32 :=
  let v := divFree d 16
  BitVec.ofInt 32 (max (-2147483648) (min 2147483647 v))

/-- LOCK after one more offset of the source in use. -/
def State.lockStep (s : State) (d : Int) : State :=
  let thr := 16 * s.fld F.TBU_LOCK_THR_LOCK_THR
  if d.natAbs ≤ thr then
    let n := min 16 (s.tbu.lockN + 1)
    let s : State := { s with tbu := { s.tbu with lockN := n } }
    if 16 ≤ n then s.setLock true else s
  else
    let s : State := { s with tbu := { s.tbu with lockN := 0 } }
    if 4 * thr < d.natAbs then s.setLock false else s

/-- Table 10.7 for offset `d` of the qualified source in use. -/
def State.correct (s : State) (d : Int) : State :=
  let large := decide (16 * s.fld F.TBU_STEP_THR_V < d.natAbs)
  if s.bit F.TBU_STAT_STEP_ARM && s.fld F.MDU_STAT_ARM_RUN == 0 then
    let s := (s.setBit F.TBU_STAT_STEP_ARM false).setSlew false
    if large then ({ s with tbu := { s.tbu with step := some d } } : State).servo (d - 16 * roundNear d 16) else s.servo d
  else if large then (s.steer (if 0 < d then -rateMax else rateMax)).setSlew true
  else (s.setSlew false).servo d

/-- The unit without the lease compares its PTP offset with its partner-derived time (R250). -/
def State.pairCheck (s : State) (i : Nat) (d : Int) : State :=
  if i = 3 then { s with tbu := { s.tbu with lastPartner := some d } }
  else if i = 1 && s.role != roleActive && s.tbu.sel == 3 then
    match s.tbu.lastPartner with
    | some p =>
      if 16 * s.fld F.TBU_LOCK_THR_PAIR_TOL < (d - p).natAbs ∧ s.bit F.TBU_STAT_PAIR_DIFF = false then
        (s.setBit F.TBU_STAT_PAIR_DIFF true).raise 158
      else s
    | none => s
  else s

/-- An offset `d` (1/16 ns, own count less source) from source `i`. -/
def State.offset (s : State) (i : Nat) (d : Int) : State :=
  let x := s.timeSrc i
  let s := s.setTimeSrc i { n := min 4 (x.n + 1), last := s.mono }
  let s := s.when (x.n == 3) (·.raise 148)
  let s := s.pairCheck i d
  if s.tbu.sel = i then
    let s := (s.wr R.TBU_LAST_OFS (lastOfs d)).tbuHold
    if s.qualified i then (s.correct d).lockStep d else s
  else s

/-- A write of TBU_OFS_IN_HI commits Δ. -/
def State.ofsIn (s : State) (hi : BitVec 32) : State :=
  (s.wr R.TBU_OFS_IN_HI hi).offset 1 (hi ++ s.rd R.TBU_OFS_IN_LO : BitVec 64).toInt

/-- OFS_IN (R246). -/
def execOfsIn (t : Nat) (hi : BitVec 32) (s : State) : Host.Outcome State Fault Refusal := .next (s.onDie t (·.ofsIn hi))

/-- SOURCE_LOST (R245): no offset for 4 s. -/
def execSourceLost (t : Nat) (src : Fin 5) (s : State) : Host.Outcome State Fault Refusal :=
  .next (s.onDie t fun s =>
    let x := s.timeSrc src
    if x.n = 0 ∨ s.mono < x.last + 4 * 10 ^ 9 then s
    else
      let was := s.qualified src
      let s := s.setTimeSrc src {}
      let s := s.when was (·.raise 148)
      if s.tbu.sel = src.val then ((s.when was (·.sendFco 3 0 6 0x60 none none)).setLock false).tbuHold else s)

/-! ## PPS (R254) -/

/-- An edge of PPS_IN: its distance from the nearest second in ns is an offset; beyond 1 ms it raises source 157 as well. -/
def State.ppsIn (s : State) : State :=
  let s : State := { s with tbu := { s.tbu with lastPps := s.mono, ppsMissing := false } }
  let st := s.now - s.fld F.TBU_PPS_PPS_IN_DLY
  let r : Nat := st % 10 ^ 9
  let d : Int := if r ≤ 500000000 then Int.ofNat r else Int.ofNat r - 1000000000
  (s.when (decide (1000000 < d.natAbs)) (·.raise 157)).offset 2 (16 * d)

/-- PPS_IN_EDGE (R245, R254). -/
def execPpsInEdge (t : Nat) (s : State) : Host.Outcome State Fault Refusal := .next (s.onDie t State.ppsIn)

/-- PPS_IN_MISSING (R254). -/
def execPpsInMissing (t : Nat) (s : State) : Host.Outcome State Fault Refusal :=
  .next (s.onDie t fun s =>
    if !s.tbu.ppsMissing && decide (s.tbu.lastPps + 2 * 10 ^ 9 ≤ s.mono) then
      ({ s with tbu := { s.tbu with ppsMissing := true } } : State).raise 157
    else s)

/-- PPS_OUT_START (R254): a whole second, less PPS_OUT_DLY. -/
def execPpsOutStart (t : Nat) (s : State) : Host.Outcome State Fault Refusal :=
  .next (s.onDie t fun s =>
    if (s.now + s.fld F.TBU_PPS_PPS_OUT_DLY) % 10 ^ 9 = 0 then { s with tbu := { s.tbu with ppsOut := some s.mono } } else s)

/-- PPS_OUT_END (R254): PPS_W ms later. -/
def execPpsOutEnd (t : Nat) (s : State) : Host.Outcome State Fault Refusal :=
  .next (s.onDie t fun s =>
    match s.tbu.ppsOut with
    | some m => if m + s.fld F.TBU_PPS_PPS_W * 10 ^ 6 ≤ s.mono then { s with tbu := { s.tbu with ppsOut := none } } else s
    | none => s)

/-- Level of PPS_OUT: held low while LOCK = 0, unless PPS_FREE = 1; low in reset (Table 18.9). -/
def State.ppsPin (s : State) : Bool := !s.held && s.tbu.ppsOut.isSome && (s.bit F.TBU_STAT_LOCK || s.bit F.TBU_PPS_PPS_FREE)

/-! ## STEP_REARM (R249) -/

def State.stepRearm (s : State) (m : Acc) : State :=
  if s.priv m then ((s.touchPriv.setBit F.TBU_STAT_STEP_ARM true).inc F.TBU_STEP_CNT_REARM).raise 159 else s

/-- STEP_REARM. -/
def execStepRearm (t : Nat) (by' : Acc) (s : State) : Host.Outcome State Fault Refusal := .next (s.onDie t (·.stepRearm by'))

/-! ## Timestamp inputs (R252) -/

def State.tsi (s : State) (i : Nat) : List (Nat × Bool) := spGet [] s.tbu.tsi i
def State.setTsi (s : State) (i : Nat) (l : List (Nat × Bool)) : State := { s with tbu := { s.tbu with tsi := spSet [] s.tbu.tsi i l } }

/-- An edge at input `i`: stamped into the FIFO, or discarded and counted. -/
def State.tsiIn (s : State) (i : Nat) (falling : Bool) (pulse : Nat) : State :=
  let sel := s.fld (F.TBU_TSI_CFG_EDGE i)
  if pulse < s.fld (F.TBU_TSI_CFG_FLT i) || !(sel == 3 || sel == (if falling then 2 else 1)) then s
  else if 16 ≤ (s.tsi i).length then (s.inc (F.TBU_TSI_OVF_CNT_V i)).raise 154
  else
    let st := s.now - s.fld (F.TBU_TSI_CFG_TSI_DLY i)
    let s := s.setTsi i (s.tsi i ++ [(st, falling)])
    let s : State := { s with drc := { s.drc with hits := s.drc.hits ++ [⟨5, i * 2 + (if falling then 1 else 0), st⟩] } }
    if s.bit (F.TBU_TSI_CFG_EVT i) then
      let (q, s) := s.free32
      let v : BitVec 32 := BitVec.ofNat 32 i
      let s' := s.raiseWith 153 v q 0xFF
      if s.bit (F.INT_SRC_CFG_TO_EVR 153) then s'
      else s'.evRecord { time := s.now, code := 153, src := 153, value := v, qual := q, flags := s.evFlags 0xFF }
    else s

/-- TSI_EDGE (R252). -/
def execTsiEdge (t : Nat) (i : Fin 32) (falling : Bool) (pulse : Nat) (s : State) : Host.Outcome State Fault Refusal :=
  .next (s.onDie t (·.tsiIn i falling pulse))

/-- A read of TBU_TSIi_POP. -/
def State.tsiPop (s : State) (i : Nat) : BitVec 32 × State :=
  match s.tsi i with
  | [] => (0, s)
  | (st, falling) :: l =>
    let v := (F.TBU_TSI_POP_N i).put ((F.TBU_TSI_POP_EDGE i).put ((F.TBU_TSI_POP_VALID i).put 0 1) (if falling then 1 else 0)) (l.length + 1)
    (v, (s.setTsi i l).setFld64 (F.TBU_TSI_TSL_V i) (F.TBU_TSI_TSH_V i) st)

/-- TSI_POP. -/
def execTsiPop (t : Nat) (i : Fin 32) (s : State) : Host.Outcome State Fault Refusal :=
  .next (s.onDie t fun s => State.didRead (s.tsiPop i))

/-- A read of TBU_TIME_LO latches TIME_HI. -/
def State.timeLoRead (s : State) : BitVec 32 × State :=
  (BitVec.ofNat 32 s.now, s.wr R.TBU_TIME_HI (BitVec.ofNat 32 (s.now / 2 ^ 32)))

/-- TIME_LO_READ (R242). -/
def execTimeLoRead (t : Nat) (s : State) : Host.Outcome State Fault Refusal := .next (s.onDie t fun s => State.didRead s.timeLoRead)

/-! ## Timed outputs (R253) -/

def State.tso (s : State) (o : Nat) : TsoSt := spGet {} s.tbu.tso o
def State.setTso (s : State) (o : Nat) (x : TsoSt) : State := { s with tbu := { s.tbu with tso := spSet {} s.tbu.tso o x } }

/-- The queue of an output, with DEPTH. -/
def State.setTsoQ (s : State) (o : Nat) (q : List TsoAct) : State :=
  (s.setTso o { s.tso o with queue := q }).setFld (F.TBU_TSO_CTL_DEPTH o) q.length

def State.tsoReject (s : State) (o code : Nat) : State := (s.setFld (F.TBU_TSO_CTL_ST o) code).raise 155

/-- A GO write: the action at TL/TH, or START of PERIODIC mode. -/
def State.tsoGo (s : State) (o : Nat) (level : Bool) : State :=
  let ts := s.fld64 (F.TBU_TSO_TL_V o) (F.TBU_TSO_TH_V o)
  let late := decide (ts < s.now + 2 * s.tc)
  let at' := if late then (s.cycNow + 1) * s.tc else ts
  let period := s.fld (F.TBU_TSO_PERIOD_V o)
  let high := s.fld (F.TBU_TSO_HIGH_V o)
  let periodic := s.bit (F.TBU_TSO_CTL_MODE o)
  let x := s.tso o
  if periodic && (decide (period < 100) || decide (period ≤ high)) then s.tsoReject o 5
  else if late && !s.bit (F.TBU_TSO_CTL_LATE_OK o) then s.tsoReject o 2
  else if !periodic && decide (4 ≤ x.queue.length) then s.tsoReject o 4
  else if !periodic && x.queue.any (fun a => decide (at' ≤ a.at')) then s.tsoReject o 5
  else
    let s := if periodic then s.setTso o { x with grid := some (at', period, high) } else s.setTsoQ o (x.queue ++ [⟨at', level, late⟩])
    if late then (s.setFld (F.TBU_TSO_CTL_ST o) 3).raise 156 else s

/-- TSO_GO (R253). -/
def execTsoGo (t : Nat) (o : Fin 8) (level : Bool) (s : State) : Host.Outcome State Fault Refusal :=
  .next (s.onDie t (·.tsoGo o level))

/-- TSO_ACTION (R253): the oldest action at its instant, less TSO_DLY. -/
def execTsoAction (t : Nat) (o : Fin 8) (s : State) : Host.Outcome State Fault Refusal :=
  .next (s.onDie t fun s =>
    match (s.tso o).queue with
    | a :: q =>
      if !s.bit (F.TBU_TSO_CTL_MODE o) && decide (a.at' ≤ s.now + s.fld (F.TBU_TSO_CTL_TSO_DLY o)) then
        let s := s.setTso o { s.tso o with level := some a.level }
        (s.setTsoQ o q).setFld (F.TBU_TSO_CTL_ST o) (if a.late then 3 else 1)
      else s
    | [] => s)

/-- TSO_PERIODIC_EDGE (R253): high at START + n PERIOD, low HIGH ns later, less TSO_DLY. -/
def execTsoPeriodicEdge (t : Nat) (o : Fin 8) (s : State) : Host.Outcome State Fault Refusal :=
  .next (s.onDie t fun s =>
    match (s.tso o).grid with
    | some (start, period, high) =>
      let x := s.now + s.fld (F.TBU_TSO_CTL_TSO_DLY o)
      let ph := (x - start) % period
      if s.bit (F.TBU_TSO_CTL_MODE o) && decide (start ≤ x) && (ph == 0 || ph == high) then
        s.setTso o { s.tso o with level := some (decide (ph < high)) }
      else s
    | none => s)

/-- Level of a timed output's pin; low in reset (Table 18.9). -/
def State.tsoPin (s : State) (o : Nat) : Bool := !s.held && (s.tso o).level.getD (s.bit (F.TBU_TSO_CTL_IDLE o))

/-- Pending actions end with status LATE (R248). -/
def State.tsoCancel (s : State) : State :=
  (List.range 8).foldl (fun s o => if (s.tso o).queue.isEmpty then s else (s.setTsoQ o []).tsoReject o 2) s

/-! ## Blocks (R54, R57, R63, R113, R114, R245) -/

/-- The offset in 1/16 ns that the lease holder's TIME block of ring `n` gives, which arrived at `tenths`: arrival less departure, which
ROUND and EARLY state, less the ring's end-to-end delay (Table 10.6). -/
def State.ringOffset (s : State) (n tenths : Nat) (b : Blk) : Int :=
  let k := s.cycNow - (s.cycNow + 256 - b.f 39 32) % 256
  let dep : Int := Int.ofNat (64 * ((k + 1) * s.tc - 64)) - Int.ofNat (b.f 31 16)
  divFree (divFree (64 * Int.ofNat tenths) 10 - dep - Config.ringDelay n s.rdu.mirAck) 4

/-- The offset that a TIME block gives: on a partner lane the two-way exchange's `ofs`, on a ring lane that of the lease holder's. -/
def State.timeBlock (s : State) (l tenths : Nat) (b : Blk) (ofs : Option Int) : State :=
  if !b.isCtl || b.ct != ctTime then s
  else if 68 ≤ l then
    match ofs with
    | some d => if s.bit F.RDU_STAT_PL_UP then s.offset 3 d else s
    | none => s
  else if s.enabled l && b.f 55 48 == l && b.f 47 40 != s.ownEnd && s.role != roleActive then s.offset 4 (s.ringOffset l tenths b) else s

/-- GIMENLINK_BLOCK_RECEIVED (R57). -/
def execBlockReceived (t : Nat) (tenth : Fin 10) (lane : Fin 72) (line : BitVec 66) (off : Int) (ofs : Option Int) (s : State) :
    Host.Outcome State Fault Refusal :=
  .next (s.onDie t fun s =>
    match s.laneReceive lane line off with
    | (none, s) => s
    | (some b, s) =>
      let s := s.rxStamp lane (10 * t + tenth) b
      (s.when (decide (lane.val < 64)) (·.ringBlock lane (10 * t + tenth) b)).timeBlock lane (10 * t + tenth) b ofs)

end Sys2Proof.Machine
end

