-- ==== Sys2Proof/Machine/Drc.lean ====
section
/-! DEFINITION. The disturbance recorder (14_recorders.md, R325 to R336): channels and the change-only stream, trigger units and combiners,
records and their directory, measurements, masks, exporting. -/

namespace Sys2Proof.Machine

/-! ## Area and directory (R329, Table 14.7) -/

/-- Base of the DRC area in the record store. -/
def State.drcBase (s : State) : Nat := s.fld F.DRC_AREA_BASE * 0x4000000
/-- Bytes of the stream. -/
def State.drcSize (s : State) : Nat := s.fld F.DRC_AREA_SIZE * 0x4000000 - 65536 - 6291456
def State.drcStream (s : State) : Nat := s.drcBase + 65536 + 6291456
def State.drcMeas (s : State) (i : Nat) : Nat := s.drcBase + 65536 + 6144 * i
/-- The NV copy of the directory (Table 16.5). -/
def nvDirBase : Nat := nvBase + 0x1D00000

/-- A directory entry without its CRC. -/
structure DirEnt where
  t : Nat := 0
  start : Nat := 0
  stop : Nat := 0
  startOfs : Nat := 0
  stopOfs : Nat := 0
  units : Nat := 0
  retrig : Nat := 0
  viol : Nat := 0
  flags : BitVec 32 := 0
  tc : Nat := 0
  evt : Nat := 0
deriving DecidableEq, Repr

def DirEnt.body (e : DirEnt) : List Byte :=
  leBytes 8 e.t ++ leBytes 8 e.start ++ leBytes 8 e.stop ++ leBytes 8 e.startOfs ++ leBytes 8 e.stopOfs ++ leBytes 4 e.units ++
  leBytes 2 e.retrig ++ leBytes 2 e.viol ++ leBytes 4 e.flags.toNat ++ leBytes 4 e.tc ++ leBytes 4 e.evt

def DirEnt.bytes (e : DirEnt) : List Byte := e.body ++ leBytes 4 (crc32 e.body).toNat

/-- The entry in the 64 bytes at `a`. -/
def State.dirAt (s : State) (a : Nat) : DirEnt :=
  { t := s.mleFrom a 8, start := s.mleFrom (a + 8) 8, stop := s.mleFrom (a + 16) 8, startOfs := s.mleFrom (a + 24) 8,
    stopOfs := s.mleFrom (a + 32) 8, units := s.mleFrom (a + 40) 4, retrig := s.mleFrom (a + 44) 2, viol := s.mleFrom (a + 46) 2,
    flags := BitVec.ofNat 32 (s.mleFrom (a + 48) 4), tc := s.mleFrom (a + 52) 4, evt := s.mleFrom (a + 56) 4 }

def State.dir (s : State) (i : Nat) : DirEnt := s.dirAt (s.drcBase + 64 * i)

/-! FLAGS bits. -/
def fOpen : Nat := 0
def fClosed : Nat := 1
def fTrunc : Nat := 2
def fLost : Nat := 3
def fPreShort : Nat := 4
def fExporting : Nat := 5
def fTorn : Nat := 6
def fByMask : Nat := 7
def fPfail : Nat := 8

def DirEnt.has (e : DirEnt) (b : Nat) : Bool := e.flags.getLsbD b
def DirEnt.with' (e : DirEnt) (b : Nat) (v : Bool) : DirEnt :=
  { e with flags := if v then e.flags ||| (1#32 <<< b) else e.flags &&& ~~~(1#32 <<< b) }
/-- The entry is held: open or closed. -/
def DirEnt.held (e : DirEnt) : Bool := e.has fOpen || e.has fClosed

/-- Entries held, in ascending order. -/
def State.dirHeld (s : State) : List Nat := (List.range 1024).filter (fun i => (s.dir i).held)

/-- NDIR follows the directory. -/
def State.ndir (s : State) : State := s.setFld F.DRC_STAT_NDIR s.dirHeld.length

/-- Write an entry; a change of its FLAGS copies it to NV (R335). -/
def State.setDir (s : State) (i : Nat) (e : DirEnt) : State :=
  let old := s.dir i
  let s := s.setMbytes (s.drcBase + 64 * i) e.bytes
  if old.flags = e.flags then s else (s.setMbytes (nvDirBase + 64 * i) e.bytes).ndir

/-! ## Samples (R325, R326) -/

/-- The samples of cycle `k`: channel and word; an SM without a VALID report of that cycle gives none. -/
def State.drcSamples (s : State) (k : Nat) : List (Nat × BitVec 32) :=
  let bank := k % 2 * 4096
  let sms := s.reports.filterMap (fun e =>
    match e.2 with
    | some r => if bank ≤ e.1 ∧ e.1 < bank + 4096 ∧ r.cycle = k ∧ r.supplied = false then some (e.1 - bank, r.vcap.setWidth 32) else none
    | none => none)
  let an := (List.range 256).filterMap (fun a =>
    if s.bit (F.DRC_ACH_CFG_EN a) then some (4096 + a, s.sigGet (s.fld (F.DRC_ACH_CFG_IDX a))) else none)
  sms ++ an

/-- The sample of channel `c` as fp32 for triggers and masks: volts for an SM (R330), an int32 converted. -/
def State.drcFp (s : State) (c : Nat) (v : BitVec 32) : BitVec 32 :=
  if c < 4096 then frat32 v.toNat 20 else if s.bit (F.DRC_ACH_CFG_TYPE (c - 4096)) then fint32 v.toInt else v

/-- Deadband of SM channel `c`. -/
def State.smDb (s : State) (c : Nat) : Nat := (s.rd (R.DRC_SMDB (c / 4))).toNat / 2 ^ (8 * (c % 4)) % 256

/-- Channel `c` records `v` outside a keyframe (R326). -/
def State.drcChanged (s : State) (c : Nat) (v : BitVec 32) : Bool :=
  match spGet none s.drc.last c with
  | none => true
  | some l =>
    if c < 4096 then decide (s.smDb c < (Int.ofNat v.toNat - Int.ofNat l.toNat).natAbs)
    else if s.bit (F.DRC_ACH_CFG_TYPE (c - 4096)) then v != l
    else fnan32 v || fnan32 l || flt32 (s.rd (R.DRC_ACH_DB (c - 4096))) (fabs32 (fsub32 v l))

/-! ## The stream (R327, R329) -/

/-- A row: mask of the channels in `lo` to `lo` + 63, then their values in `w` bytes each; empty where there are none. -/
def drcRow (w lo : Nat) (xs : List (Nat × BitVec 32)) : List Byte :=
  let xs := xs.filter (fun x => decide (lo ≤ x.1 ∧ x.1 < lo + 64))
  if xs.isEmpty then []
  else leBytes 8 (xs.foldl (fun m x => m + 2 ^ (x.1 - lo)) 0) ++ xs.flatMap (fun x => leBytes w x.2.toNat)

/-- The cycle block of the recorded samples `xs` (Table 14.4). -/
def State.drcBlock (s : State) (k : Nat) (key : Bool) (xs : List (Nat × BitVec 32)) : List Byte :=
  let any (lo : Nat) : Bool := xs.any (fun x => decide (lo ≤ x.1 ∧ x.1 < lo + 64))
  let rmask := (List.range 64).foldl (fun m r => if any (64 * r) then m + 2 ^ r else m) 0
  let gmask := (List.range 4).foldl (fun m g => if any (4096 + 64 * g) then m + 2 ^ g else m) 0
  let w := k % 2 ^ 24 * 256 + (if key then 128 else 0) + (if s.leaseHeld then 64 else 0) + (if s.sys.uid then 32 else 0) + gmask
  let b := leBytes 8 (k * s.tc) ++ leBytes 8 rmask ++ leBytes 4 w ++ leBytes 4 0 ++
    (List.range 64).flatMap (fun r => drcRow 2 (64 * r) xs) ++ (List.range 4).flatMap (fun g => drcRow 4 (4096 + 64 * g) xs)
  b ++ List.replicate ((8 - b.length % 8) % 8) 0

/-- Write bytes to the circular stream. -/
def State.streamWrite (s : State) : Nat → List Byte → State
  | _, [] => s
  | o, b :: bs => (s.setMb (s.drcStream + o % max 1 s.drcSize) b).streamWrite (o + 1) bs

/-- Two spans of the circular stream overlap. -/
def overlaps (size o n o' n' : Nat) : Bool := decide ((o' + size - o) % size < n ∨ (o + size - o') % size < n')

/-- The oldest blocks of the list that overlap the span leave it. -/
def dropOver (size o n : Nat) : List DrcBlk → List DrcBlk × List DrcBlk
  | [] => ([], [])
  | b :: bs => if overlaps size o n b.ofs b.len then let (d, r) := dropOver size o n bs; (b :: d, r) else ([], b :: bs)

/-- RECORD_TRUNCATE: a held record whose start goes moves to the first keyframe left, or loses its data. -/
def State.truncate (s : State) (gone left : List DrcBlk) : State :=
  if gone.isEmpty then s
  else s.dirHeld.foldl (fun s i =>
    let e := s.dir i
    if !e.has fLost && gone.any (fun b => b.ofs == e.startOfs && b.tk == e.start) then
      let e := e.with' fTrunc true
      let e := match left.find? (fun b => b.key && (e.has fOpen || decide (b.tk ≤ e.stop))) with
        | some b => { e with start := b.tk, startOfs := b.ofs }
        | none => e.with' fLost true
      let torn := e.has fExporting
      let s := s.setDir i (if torn then e.with' fTorn true else e)
      let s := if torn && s.fld F.DRC_EXP_STAT_ENTRY == i then s.setBit F.DRC_EXP_STAT_EXP_TORN true else s
      ((s.setBit F.DRC_STAT_TRUNC true).inc F.DRC_TRUNC_CNT_V).raise 211
    else s) s

/-- DRC_SAMPLE: the cycle block of the samples that record. -/
def State.drcRecord (s : State) (k : Nat) (xs : List (Nat × BitVec 32)) : State :=
  let key := decide (k % max 1 (s.fld F.DRC_KEYF_V) = 0) || s.drc.forceKey
  let rs := xs.filter (fun x => key || s.drcChanged x.1 x.2)
  let last := rs.foldl (fun m x => spSet none m x.1 (some x.2)) s.drc.last
  let s : State := { s with drc := { s.drc with last := last, forceKey := s.drc.forceKey && rs.isEmpty, lastK := some k } }
  if rs.isEmpty then s
  else
    let bs := s.drcBlock k key rs
    let o := s.fld F.DRC_WPTR_V * 8
    let n := bs.length
    let size := max 1 s.drcSize
    let (gone, left) := dropOver size o n s.drc.blocks
    let s := s.truncate gone left
    let s := s.streamWrite o bs
    let s : State := { s with drc := { s.drc with blocks := left ++ [⟨o, n, k * s.tc, key⟩] } }
    s.setFld F.DRC_WPTR_V ((o + n) % size / 8)

/-! ## Triggers (R330) -/

/-- A hit counts at the evaluation at count `t`: an event or an edge once it is 40 ns old, a safety state at once. -/
def DrcHit.due (h : DrcHit) (t : Nat) : Bool := h.ty == 6 || decide (h.stamp + 40 ≤ t)

/-- Condition of unit `u` at the P0 release of cycle `k`; hits that are due count. -/
def State.trigCond (s : State) (u : Nat) (xs : List (Nat × BitVec 32)) (hits : List DrcHit) : Bool :=
  let ty := s.fld (F.DRC_TRG_CFG_TYPE u)
  let arg := s.fld (F.DRC_TRG_CFG_ARG u)
  let dir := s.bit (F.DRC_TRG_CFG_DIR u)
  let lvl := s.rd (R.DRC_TRG_LVL u)
  let hi := s.rd (R.DRC_TRG_HI u)
  let cur := (xs.find? (fun x => x.1 == arg)).map (fun x => s.drcFp arg x.2)
  let prev := (spGet none s.drc.prev arg).map (s.drcFp arg)
  match ty with
  | 1 => match prev, cur with
    | some p, some c => if dir then flt32 lvl p && fle32 c lvl else flt32 p lvl && fle32 lvl c
    | _, _ => false
  | 2 => match prev, cur with
    | some p, some c => let d := fsub32 c p; if dir then flt32 d (fneg32 lvl) else flt32 lvl d
    | _, _ => false
  | 3 => match cur with
    | some c => if dir then fle32 lvl c && fle32 c hi else flt32 c lvl || flt32 hi c
    | none => false
  | 4 => hits.any (fun h => h.ty == 4 && h.arg == arg)
  | 5 => hits.any (fun h => h.ty == 5 && h.arg / 2 == arg % 32)
  | 6 => hits.any (fun h => h.ty == 6 && h.arg == arg)
  | _ => false

/-- Stamp of the hit that makes unit `u` of type 4 to 6 true in this cycle. -/
def State.trigHit (s : State) (u : Nat) (hits : List DrcHit) : Option Nat :=
  let ty := s.fld (F.DRC_TRG_CFG_TYPE u)
  let arg := s.fld (F.DRC_TRG_CFG_ARG u)
  (hits.find? (fun h => decide (4 ≤ ty) && h.ty == ty && (if ty = 5 then h.arg / 2 == arg % 32 else h.arg == arg))).map (·.stamp)

/-- Stamp of the first type 4 to 6 unit true, by a hit of this cycle or held from one before; or 0. -/
def State.trigStamp (s : State) (units : BitVec 32) : Nat :=
  match (List.range 32).find? (fun u => units.getLsbD u && (4 ≤ s.fld (F.DRC_TRG_CFG_TYPE u))) with
  | some u => spGet 0 s.drc.stamps u % 2 ^ 32
  | none => 0

/-! ## Records (R331) -/

/-- First keyframe of a record whose trigger time is `t`, and whether PRE falls short. -/
def State.drcStart (s : State) (t : Nat) : Option DrcBlk × Bool :=
  let keys := s.drc.blocks.filter (·.key)
  let pre := t - s.fld F.DRC_PRE_V * 1000
  match keys.reverse.find? (fun b => decide (b.tk ≤ pre)) with
  | some b => (some b, false)
  | none => (keys.head?, true)

/-- RECORD_OPEN, RETRIG or a lost trigger, for a trigger in cycle `k` by combiner `c` with `units` true. -/
def State.trigger (s : State) (k c : Nat) (units : BitVec 32) (evt : Nat) : State :=
  let t := k * s.tc
  let endT := t + s.fld F.DRC_POST_V * 1000
  match s.drc.open' with
  | some o =>
    let e := s.dir o.entry
    let s := s.setDir o.entry { e with retrig := min 65535 (e.retrig + 1) }
    if s.bit F.DRC_CTL_EXTEND then
      { s with drc := { s.drc with open' := some { o with endT := min endT (o.t + 10 ^ 10) } } }
    else s
  | none =>
    match (List.range 1024).find? (fun i => !(s.dir i).held) with
    | none => ((s.setBit F.DRC_STAT_TRIG_LOST true).inc F.DRC_TRIG_LOST_CNT_V).raise 210
    | some i =>
      let (b, short) := s.drcStart t
      let (st, so) := match b with
        | some b => (b.tk, b.ofs)
        | none => (t, s.fld F.DRC_WPTR_V * 8)
      let fl := 1 + (if short then 2 ^ fPreShort else 0) + c * 2 ^ 9 + (if s.sys.uid then 2 ^ 12 else 0) + (if s.leaseAtTime t then 2 ^ 13 else 0)
      let e : DirEnt := { t := t, start := st, stop := t, startOfs := so, stopOfs := s.fld F.DRC_WPTR_V * 8, units := units.toNat,
                          flags := BitVec.ofNat 32 fl, tc := s.tc % 65536 + s.cfg.recCrc.toNat % 65536 * 65536, evt := evt }
      let s := s.setDir i e
      let s : State := { s with drc := { s.drc with
        open' := some { entry := i, t := t, k := k, endT := endT, lastT := t, lastOfs := s.fld F.DRC_WPTR_V * 8 }, meas := [] } }
      (s.setBit F.DRC_STAT_OPEN true).raise 208

/-- TRIGGER_EVALUATION at the P0 release of cycle `k`. -/
def State.drcTriggers (s : State) (k : Nat) (xs : List (Nat × BitVec 32)) : State :=
  let (now, later) := s.drc.hits.partition (fun h => h.due s.now)
  let conds := (List.range 32).map (fun u => s.trigCond u xs now)
  let heldAt (u : Nat) : Nat := spGet 0 s.drc.held u
  let units := BitVec.ofNat 32 (((List.range 32).zip conds).foldl (fun m x => if x.2 || heldAt x.1 != 0 then m + 2 ^ x.1 else m) 0)
  let held := ((List.range 32).zip conds).foldl (fun m (x : Nat × Bool) =>
    spSet 0 m x.1 (if x.2 then s.fld (F.DRC_TRG_CFG_HOLD x.1) else heldAt x.1 - 1)) s.drc.held
  let out (i : Nat) : Bool :=
    let mask := s.rd (R.DRC_CMB_MASK i)
    s.bit (F.DRC_CMB_CTL_EN i) && (if s.bit (F.DRC_CMB_CTL_OP i) then units &&& mask == mask else units &&& mask != 0)
  let cmb := BitVec.ofNat 8 ((List.range 8).foldl (fun m i => if out i then m + 2 ^ i else m) 0)
  let rises := (List.range 8).find? (fun i => cmb.getLsbD i && !s.drc.prevCmb.getLsbD i)
  let stamps := (List.range 32).foldl (fun m u => match s.trigHit u now with
    | some x => spSet 0 m u x
    | none => m) s.drc.stamps
  let s : State := { s with drc := { s.drc with hits := later, held := held, prevCmb := cmb, stamps := stamps } }
  let evt := s.trigStamp units
  match rises with
  | some c => s.trigger k c units evt
  | none => s

/-! ## Measurements (R332) -/

/-- An fp32 number times 2^149. -/
def fix149 (a : BitVec 32) : Option Int :=
  match fDecode fmt32 a.toNat with
  | .fin n m e => some ((if n then -1 else 1) * Int.ofNat (m * 2 ^ (e + 149).toNat))
  | _ => none

/-- Cycles of the rising zero crossings of samples in time order. -/
def zeroRises : List (Nat × BitVec 32) → List Nat
  | a :: b :: l => if flt32 a.2 0 && fle32 0 b.2 then b.1 :: zeroRises (b :: l) else zeroRises (b :: l)
  | _ => []

/-- Period of samples in time order: mean interval of the rising zero crossings in s, 0 with fewer than two. -/
def State.measPeriod (s : State) (xs : List (Nat × BitVec 32)) : BitVec 32 :=
  let zs := zeroRises xs
  if zs.length < 2 then 0 else frat32 (Int.ofNat ((zs.getLastD 0 - zs.headD 0) * s.tc)) ((zs.length - 1) * 10 ^ 9)

/-- The value, or a free value where there is none. -/
def State.free32Or (s : State) : Option (BitVec 32) → BitVec 32 × State
  | some v => (v, s)
  | none => s.free32

/-- Minimum, maximum, mean, RMS and amplitude of samples of which some are infinite: those that the infinities make numbers or
infinities. -/
def measInf (xs : List (BitVec 32)) : List (Option (BitVec 32)) :=
  let low (a b : BitVec 32) : BitVec 32 := if flt32 b a then b else a
  let high (a b : BitVec 32) : BitVec 32 := if flt32 a b then b else a
  let mn := xs.foldl low (xs.headD 0)
  let mx := xs.foldl high (xs.headD 0)
  let pos : BitVec 32 := 0x7F800000
  let neg : BitVec 32 := 0xFF800000
  [some mn, some mx, if mn == neg && mx == pos then none else some (if mx == pos then pos else neg), some pos,
   if mn == mx then none else some pos]

/-- The six values of samples in time order (rounding: log entry 17); free values where the rule gives no number, of NaNs or of the
difference of two infinities (log entry 64). -/
def State.measure (s : State) (xs : List (Nat × BitVec 32)) : List (BitVec 32) × State :=
  let fx := xs.filterMap (fun x => fix149 x.2)
  let per := s.measPeriod xs
  let five : List (Option (BitVec 32)) :=
    if fx.length = xs.length ∧ xs ≠ [] then
      let n := xs.length
      let mn := fx.foldl min (fx.headD 0)
      let mx := fx.foldl max (fx.headD 0)
      let den := 2 ^ 149
      let sum := fx.foldl (· + ·) 0
      let sq := fx.foldl (fun a x => a + x * x) 0
      [some (frat32 mn den), some (frat32 mx den), some (frat32 sum (n * den)),
       some (fto32 (w64 (fSqrt fmt64 (fOfRat fmt64 sq (n * den * den))))), some (frat32 (mx - mn) (2 * den))]
    else if xs.any (fun x => fnan32 x.2) || xs.isEmpty then [none, none, none, none, none]
    else measInf (xs.map (·.2))
  match five with
  | [mn, mx, mean, rms, amp] =>
    let (mn, s) := s.free32Or mn
    let (mx, s) := s.free32Or mx
    let (mean, s) := s.free32Or mean
    let (rms, s) := s.free32Or rms
    let (amp, s) := s.free32Or amp
    ([mn, mx, mean, rms, per, amp], s)
  | _ => ([], s)

/-- Write the measurements of every channel that has samples. -/
def State.measWrite (s : State) (i : Nat) : State :=
  s.drc.meas.foldl (fun s c =>
    let (vs, s) := s.measure c.2.samples.reverse
    s.setMbytes (s.drcMeas i + 24 * c.1) (vs.flatMap (fun v => leBytes 4 v.toNat))) s

/-- The samples of a cycle join the open record, up to its end. -/
def State.measTake (s : State) (k : Nat) (xs : List (Nat × BitVec 32)) : State :=
  match s.drc.open' with
  | none => s
  | some o =>
    let t := k * s.tc
    let stop := min o.endT (o.maskEnd.getD o.endT)
    if o.t ≤ t ∧ t ≤ stop then
      let meas := xs.foldl (fun m x =>
        if 4096 ≤ x.1 ∧ s.bit (F.DRC_ACH_CFG_MEAS (x.1 - 4096)) = true then
          spSet {} m (x.1 - 4096) { samples := (k, s.drcFp x.1 x.2) :: (spGet {} m (x.1 - 4096)).samples }
        else m) s.drc.meas
      { s with drc := { s.drc with meas := meas, open' := some { o with lastT := t, lastOfs := s.fld F.DRC_WPTR_V * 8 } } }
    else s

/-! ## Masks (R333) -/

/-- Point `i` of side `hi` of mask unit `m`. -/
def State.mskPoint (s : State) (m : Nat) (hi : Bool) (i : Nat) : BitVec 32 := spGet 0 s.drc.points (m * 4096 + (if hi then 2048 else 0) + i)

/-- Mask unit `m` in cycle `k` of the open record. -/
def State.maskCheck (s : State) (k : Nat) (xs : List (Nat × BitVec 32)) (m : Nat) : State :=
  match s.drc.open' with
  | none => s
  | some o =>
    let c := 4096 + s.fld (F.DRC_MSK_CFG_CHAN m)
    let step := s.fld (F.DRC_MSK_CFG_STEP_M1 m) + 1
    let first := o.k + s.fld (F.DRC_MSK_OFS_OFS m)
    let i := (k - first) / step
    let stop := min o.endT (o.maskEnd.getD o.endT)
    match xs.find? (fun x => x.1 == c) with
    | some x =>
      let v := s.drcFp c x.2
      if s.bit (F.DRC_MSK_CFG_EN m) && decide (first ≤ k ∧ (k - first) % step = 0 ∧ i < 1024 ∧ k * s.tc ≤ stop) &&
          (fnan32 v || flt32 v (s.mskPoint m false i) || flt32 (s.mskPoint m true i) v) then
        let e := s.dir o.entry
        let s := (s.setDir o.entry { e with viol := (BitVec.ofNat 16 e.viol ||| (1#16 <<< m)).toNat }).raise 212
        if s.bit (F.DRC_MSK_CFG_STOP m) then
          let v := (k + s.fld (F.DRC_MSK_OFS_VPOST m)) * s.tc
          { s with drc := { s.drc with open' := some { o with maskEnd := some (min v (o.maskEnd.getD v)) } } }
        else s
      else s
    | none => s

/-- MASK_VIOLATION for every unit. -/
def State.drcMasks (s : State) (k : Nat) (xs : List (Nat × BitVec 32)) : State := (List.range 16).foldl (fun s m => s.maskCheck k xs m) s

/-! ## Close, arm, disarm (R331, R333, Table 14.16) -/

/-- Close the open record at the last cycle written; after a violation of a mask with STOP the DRC enters STOPPED at the
record's end (R333). `pfail` marks a power failure (R335). -/
def State.drcClose (s : State) (pfail : Bool) : State :=
  match s.drc.open' with
  | none => s
  | some o =>
    let e := s.dir o.entry
    let byMask := !pfail && o.maskEnd.isSome
    let e := ((({ e with stop := o.lastT, stopOfs := o.lastOfs }.with' fOpen false).with' fClosed true).with' fByMask byMask).with' fPfail pfail
    let s := (s.measWrite o.entry).setDir o.entry e
    let s : State := { s with drc := { s.drc with open' := none, meas := [] } }
    let s := (s.setBit F.DRC_STAT_OPEN false).raise 209
    if byMask then
      ((s.setBit F.DRC_STAT_STOPPED true).setBit F.DRC_STAT_ARMED false).setBit F.DRC_CTL_ARM false |>.raise 213
    else s

/-- RECORD_CLOSE (R331): every cycle up to the record's end has been sampled. -/
def execRecordClose (t : Nat) (s : State) : Host.Outcome State Fault Refusal :=
  .next (s.onDie t fun s =>
    match s.drc.open', s.drc.lastK with
    | some o, some k => if min o.endT (o.maskEnd.getD o.endT) < (k + 1) * s.tc then s.drcClose false else s
    | _, _ => s)

/-- Writes of ARM and DISARM take effect; a record that DISARM closes was not stopped by a mask. -/
def State.drcCtl (s : State) : State :=
  let s := if s.drc.disarmReq then
      let s : State := { s with drc := { s.drc with open' := s.drc.open'.map (fun o => { o with maskEnd := none }) } }
      let s := s.drcClose false
      ({ s with drc := { s.drc with disarmReq := false } } : State).setBit F.DRC_STAT_ARMED false |>.setBit F.DRC_CTL_ARM false
    else s
  if s.drc.armReq && s.drc.ready then
    let s : State := { s with drc := { s.drc with armReq := false, forceKey := true, prev := [], held := [], prevCmb := 0, stamps := [] } }
    ((s.setBit F.DRC_STAT_ARMED true).setBit F.DRC_STAT_STOPPED false).setBit F.DRC_CTL_ARM true
  else s

/-- The DRC at the P0 release of cycle `k`. -/
def State.drcP0 (s : State) (k : Nat) : State :=
  let s := s.drcCtl
  let old : State := { s with drc := { s.drc with hits := s.drc.hits.filter (fun h => !h.due s.now) } }
  if s.bit F.DRC_STAT_STOPPED then old.inc F.DRC_STOP_CYC_V
  else if !s.bit F.DRC_STAT_ARMED then old
  else
    let xs := s.drcSamples k
    let s := (s.drcRecord k xs).drcTriggers k xs
    let s := (s.measTake k xs).drcMasks k xs
    { s with drc := { s.drc with prev := xs.foldl (fun m x => spSet none m x.1 (some x.2)) [] } }

def State.drcArm (s : State) : State := { s with drc := { s.drc with armReq := true, disarmReq := false } }
def State.drcDisarm (s : State) : State := { s with drc := { s.drc with disarmReq := true, armReq := false } }

/-- DRC_ARM (R333). -/
def execDrcArm (t : Nat) (s : State) : Host.Outcome State Fault Refusal := .next (s.onDie t State.drcArm)

/-- DRC_DISARM (R331). -/
def execDrcDisarm (t : Nat) (s : State) : Host.Outcome State Fault Refusal := .next (s.onDie t State.drcDisarm)

/-- A write of DRC_CTL. -/
def State.drcCtlWrite (s : State) (v : BitVec 32) : State :=
  let s := s.setBit F.DRC_CTL_EXTEND (v.getLsbD 29)
  (s.when (v.getLsbD 31) State.drcArm).when (v.getLsbD 30) State.drcDisarm

def State.drcErr (s : State) : State := s.setBit F.DRC_STAT_CFG_ERR true

/-- Release of entry `i`: an open or EXPORTING entry is refused. -/
def State.drcRel (s : State) (i : Nat) : State :=
  let e := s.dir i
  if e.has fOpen || e.has fExporting then s.drcErr
  else if e.has fClosed then s.setDir i {} else s

/-- DRC_REL (R331). -/
def execDrcRel (t : Nat) (entry : Fin 1024) (s : State) : Host.Outcome State Fault Refusal := .next (s.onDie t (·.drcRel entry))

/-- A privileged write to a mask register, refused while a record is open (R333). -/
def State.mskWrite (s : State) (by' : Acc) (f : State → State) : State :=
  if !s.priv by' then s
  else
    let s := s.touchPriv
    if s.drc.open'.isSome then s.drcErr else f s

/-- A write of DRC_MSKm_PDATA: the point at PADDR; the point number advances. -/
def State.mskPdata (s : State) (m : Nat) (v : BitVec 32) : State :=
  let p := s.fld (F.DRC_MSK_PADDR_POINT m)
  let i := m * 4096 + s.fld (F.DRC_MSK_PADDR_SIDE m) * 2048 + p
  let s : State := if p < 1024 then { s with drc := { s.drc with points := spSet 0 s.drc.points i v } } else s
  s.setFld (F.DRC_MSK_PADDR_POINT m) (p + 1)

/-- MSK_PDATA_WRITE (R333). -/
def execMskPdataWrite (t : Nat) (by' : Acc) (m : Fin 16) (v : BitVec 32) (s : State) : Host.Outcome State Fault Refusal :=
  .next (s.onDie t fun s => s.mskWrite by' (·.mskPdata m v))

/-- A write of DRC_TRGu_CFG: TYPE 0b111 is ignored; a channel above 4,351 sets CFG_ERR. -/
def State.trgCfgWrite (s : State) (u : Nat) (v : BitVec 32) : State :=
  let ty := (F.DRC_TRG_CFG_TYPE u).get v
  let arg := (F.DRC_TRG_CFG_ARG u).get v
  if ty = 7 ∨ (1 ≤ ty ∧ ty ≤ 3 ∧ 4351 < arg) then s.drcErr else s.wr (R.DRC_TRG_CFG u) (v &&& 0xFFF0FFFF)

/-! ## Export (R334) -/

/-- Setup for entry `i`: segments and measurement block; false where it is refused. -/
def State.drcExport (s : State) (i : Nat) : Bool × State :=
  let e := s.dir i
  if !e.has fClosed || e.has fLost then (false, s.setBit F.DRC_EXP_STAT_REFUSED true)
  else
    let s := s.setDir i ((e.with' fExporting true).with' fTorn false)
    let s := ((s.setBit F.DRC_EXP_STAT_READY true).setBit F.DRC_EXP_STAT_EXP_TORN false).setFld F.DRC_EXP_STAT_ENTRY i
    let wraps := decide (e.stopOfs < e.startOfs)
    let len0 := if wraps then s.drcSize - e.startOfs else e.stopOfs - e.startOfs
    let len1 := if wraps then e.stopOfs else 0
    let s := (s.setFld (F.DRC_EXP_SEG_ADDR_V 0) ((s.drcStream + e.startOfs) / 8)).setFld (F.DRC_EXP_SEG_LEN_V 0) (len0 / 8)
    let s := (s.setFld (F.DRC_EXP_SEG_ADDR_V 1) (s.drcStream / 8)).setFld (F.DRC_EXP_SEG_LEN_V 1) (len1 / 8)
    (true, s.setFld F.DRC_EXP_MEAS_V (s.drcMeas i / 8))

/-- A write of DONE for the entry in DRC_EXP_CTL. -/
def State.exportDone (s : State) : State :=
  let i := s.fld F.DRC_EXP_CTL_ENTRY
  let e := s.dir i
  if e.has fExporting then
    let s := s.setDir i (e.with' fExporting false)
    let s := if s.fld F.DRC_EXP_STAT_ENTRY = i then s.setBit F.DRC_EXP_STAT_READY false else s
    s.when (e.has fTorn) (·.raise 214)
  else s

/-- EXPORT_DONE (R334). -/
def execExportDone (t : Nat) (s : State) : Host.Outcome State Fault Refusal := .next (s.onDie t State.exportDone)

/-! ## Power failure and restart (R335) -/

/-- Close the open record and copy the directory to NV. -/
def State.drcPfail (s : State) : State :=
  let s := s.drcClose true
  s.setMbytes nvDirBase (s.mbytes s.drcBase 65536)

/-- Held entries of the NV copy whose CRC-32 is right. -/
def State.nvDirHeld (s : State) : List Nat :=
  (List.range 1024).filter (fun i =>
    let a := nvDirBase + 64 * i
    (s.dirAt a).held && (s.mleFrom (a + 60) 4 == (crc32 (s.mbytes a 60)).toNat))

/-- At a power-on start every held entry of the NV copy is closed and has lost its data. -/
def State.drcNvMark (s : State) : State :=
  let l := s.nvDirHeld
  let s := l.foldl (fun s i =>
    let a := nvDirBase + 64 * i
    s.setMbytes a ((((s.dirAt a).with' fOpen false).with' fClosed true).with' fLost true).bytes) s
  s.raiseIf (!l.isEmpty) 215

/-- The directory comes back from NV into the record store. -/
def State.drcDirLoad (s : State) : State :=
  let s : State := { s with drc := { s.drc with nvPend := false } }
  (s.nvDirHeld.foldl (fun s i => s.setMbytes (s.drcBase + 64 * i) (s.mbytes (nvDirBase + 64 * i) 64)) s).ndir

/-- The held entry with the newest data still in the stream. -/
def State.newestHeld (s : State) : Option DirEnt :=
  ((s.dirHeld.map s.dir).filter (fun e => !e.has fLost)).foldl (fun o e => match o with
    | some x => if x.stop ≤ e.stop then some e else o
    | none => some e) none

/-- After a warm reset the stream restarts with a keyframe after the newest held data, or at its base where no record is held
(R335); a record that was open is closed. -/
def State.drcWarm (s : State) : State :=
  let s : State := match s.drc.open' with
    | some o =>
      let e := s.dir o.entry
      s.setDir o.entry (({ e with stop := o.lastT, stopOfs := o.lastOfs }.with' fOpen false).with' fClosed true)
    | none => s
  let (w, b) := match s.newestHeld with
    | some e => (e.stopOfs / 8, s.drc.blocks.filter (fun b => decide (b.tk ≤ e.stop)))
    | none => (0, [])
  ({ s with drc := { blocks := b, ready := s.drc.ready, nvPend := s.drc.nvPend } } : State).setFld F.DRC_WPTR_V w |>.ndir

end Sys2Proof.Machine
end

