-- ==== Sys2Proof/Machine/Image.lean ====
section
/-! DEFINITION. Configuration images (17_configuration.md, R366 to R371): container, records, what an image sets, and the
verification of R369 with the acceptance checks that the chapters give to the CFC. An image is read from memory at the
address of its first byte. -/

namespace Sys2Proof.Machine

/-! ## Container (Tables 17.1 and 17.2) -/

def imgMagic : Nat := 0x4E524E31
/-- 12 MiB less the 4 KiB trailer. -/
def imgMax : Nat := 12578816

/-- LENGTH and NSEC of the image at `b`. -/
def State.imgLen (s : State) (b : Nat) : Nat := s.mleFrom (b + 8) 4
def State.imgNsec (s : State) (b : Nat) : Nat := s.mleFrom (b + 12) 2
def State.imgPartial (s : State) (b : Nat) : Bool := (s.mleFrom (b + 6) 2) % 2 == 1

/-- A section: index in the table, TYPE, INST, FLAGS, offset, length, CRC. -/
structure Sec where
  idx : Nat
  ty : Nat
  inst : Nat
  flags : Nat
  ofs : Nat
  len : Nat
  crc : Nat
deriving DecidableEq, Repr

/-- The section table of the image at `b`. -/
def State.secs (s : State) (b : Nat) : List Sec :=
  (List.range (s.imgNsec b)).map (fun i =>
    let e := b + 256 + 16 * i
    ⟨i, s.mleFrom e 2, s.mleFrom (e + 2) 1, s.mleFrom (e + 3) 1, s.mleFrom (e + 4) 4, s.mleFrom (e + 8) 4, s.mleFrom (e + 12) 4⟩)

/-- A reason why an image fails (Table 17.20): CODE, and SECTION, DETAIL and the byte offset where the failure has them. -/
structure ImgErr where
  code : Nat
  sec : Option Nat := none
  detail : Option Nat := none
  ofs : Option Nat := none
deriving DecidableEq, Repr

/-- Sections in ascending offset, 8-byte aligned, without overlap, before the signature. -/
def secsOk (lo hi : Nat) : List Sec → Bool
  | [] => true
  | x :: xs => decide (lo ≤ x.ofs) && x.ofs % 8 == 0 && decide (x.ofs + x.len ≤ hi) && secsOk (x.ofs + x.len) hi xs

/-- Every byte of `n` from address `a` on is zero. -/
def State.zeros (s : State) (a n : Nat) : Bool := s.mleFrom a n == 0

/-- Header fields (R366). -/
def State.headerOk (s : State) (b : Nat) : Bool :=
  let len := s.imgLen b
  let n := s.imgNsec b
  s.mleFrom b 4 == imgMagic && s.mleFrom (b + 4) 2 == 1 && decide (s.mleFrom (b + 6) 2 ≤ 1) && len % 8 == 0 &&
    decide (len ≤ imgMax) && decide (1 ≤ n) && decide (n ≤ 64) && decide (256 + 16 * n + 96 ≤ len) && s.zeros (b + 14) 2 &&
    s.zeros (b + 168) 88 && (s.imgPartial b || s.zeros (b + 24) 48) && secsOk (256 + 16 * n) (len - 96) (s.secs b)

/-! ## Records (R368, Table 17.3) -/

/-- A record: section, byte offset in the image, TYPE, ARG, length of its body. -/
structure ImgRec where
  sec : Sec
  ofs : Nat
  ty : Nat
  arg : Nat
  len : Nat
deriving DecidableEq, Repr

/-- Address of a record's body in the image at `b`. -/
def ImgRec.body (r : ImgRec) (b : Nat) : Nat := b + r.ofs + 8

/-- The records from offset `o` up to `hi`, and the offset of one whose LENGTH does not fit. -/
def State.recsFrom (s : State) (b : Nat) (x : Sec) (hi : Nat) : Nat → Nat → List ImgRec × Option Nat
  | 0, _ => ([], none)
  | n + 1, o =>
    if hi ≤ o then ([], none)
    else
      let w := s.mleFrom (b + o) 8
      let len := w / 2 ^ 32 % 2 ^ 24
      if hi < o + 8 ∨ len < 8 ∨ len % 4 ≠ 0 ∨ hi < o + len then ([], some o)
      else
        let (rs, e) := s.recsFrom b x hi n (o + len)
        (⟨x, o, w / 2 ^ 56, w % 2 ^ 32, len - 8⟩ :: rs, e)

/-- The safety section ends with its key and signature (R367). -/
def secEnd (x : Sec) : Nat := x.ofs + x.len - (if x.ty = 9 then 192 else 0)

def State.secRecs (s : State) (b : Nat) (x : Sec) : List ImgRec × Option Nat := s.recsFrom b x (secEnd x) (x.len / 8 + 1) x.ofs

/-- Every record of the image at `b` in the order in which the CFC applies them (R370). -/
def State.imgRecs (s : State) (b : Nat) : List ImgRec := ((s.secs b).map (fun x => (s.secRecs b x).1)).flatten

/-- Record types that Table 17.2 allows in a section. -/
def secAllows : Nat → List Nat
  | 1 => [0x01, 0x02]
  | 2 => [0x03, 0x04]
  | 3 => [0x05, 0x06]
  | 4 => [0x07, 0x05, 0x02]
  | 5 => [0x08, 0x09, 0x01]
  | 6 => [0x0A, 0x01]
  | 7 => [0x0C, 0x01]
  | 8 => [0x0D]
  | 9 => [0x0E, 0x0F, 0x0B, 0x01]
  | 10 => [0x02]
  | _ => []

/-- Bits of a register that a REGWR may set (R370). -/
def RRow.imgMask (r : RRow) : BitVec 32 :=
  r.fields.foldl (fun v f => if f.ty = .rw ∨ f.ty = .rwl then v ||| BitVec.ofNat 32 ((2 ^ f.w - 1) * 2 ^ f.lo) else v) 0
/-- Bits that an image which does not name the register returns to reset. -/
def RRow.rwlMask (r : RRow) : BitVec 32 :=
  r.fields.foldl (fun v f => if f.ty = .rwl then v ||| BitVec.ofNat 32 ((2 ^ f.w - 1) * 2 ^ f.lo) else v) 0

def imgMaskOf (o : Nat) : BitVec 32 :=
  match rowOf o with
  | some r => r.imgMask
  | none => 0

/-- REGWR entries: register offset and value. -/
def State.regEntries (s : State) (b : Nat) (r : ImgRec) : List (Nat × BitVec 32) :=
  (List.range (r.len / 8)).map (fun i => (s.mleFrom (r.body b + 8 * i) 4, s.mw (r.body b + 8 * i + 4)))

/-- A REGWR entry that R370 forbids: no register, or bits outside fields RW and RWL. -/
def regBad (e : Nat × BitVec 32) : Bool := (rowOf e.1).isNone || (e.2 &&& ~~~(imgMaskOf e.1)) != 0

/-- Length and ARG of a record by its type. -/
def ImgRec.sized (r : ImgRec) : Bool :=
  if r.ty = 0x01 then r.len == 8 * r.arg
  else if r.ty = 0x02 then decide (8 ≤ r.len) && r.arg == 0
  else if r.ty = 0x03 then r.len == 32 * r.arg
  else if r.ty = 0x04 then true
  else if r.ty = 0x05 then r.len % 24 == 0 && decide (r.arg + r.len / 24 ≤ 8192)
  else if r.ty = 0x06 then decide (r.arg < 64) && r.len == 80
  else if r.ty = 0x07 then decide (r.arg + r.len / 4 ≤ 8192)
  else if r.ty = 0x08 then decide (r.arg < 64) && r.len == 64
  else if r.ty = 0x09 then decide (r.arg < 64) && r.len == 512
  else if r.ty = 0x0B then r.len == 1024 && r.arg == 0
  else r.arg == 0

/-- The first failure in the structure of the records (R368, R370); a CLUSTER section names one of the eight clusters. -/
def State.recErr (s : State) (b : Nat) : Option ImgErr :=
  (s.secs b).findSome? (fun x =>
    let (rs, e) := s.secRecs b x
    let stray : Option ImgErr := if x.ty = 4 ∧ 8 ≤ x.inst then some ⟨6, some x.idx, none, some x.ofs⟩ else none
    let bad := stray.or <| rs.findSome? (fun r =>
      if !(secAllows x.ty).contains r.ty || !r.sized then some (⟨6, some x.idx, none, some r.ofs⟩ : ImgErr)
      else if r.ty = 0x01 then
        ((s.regEntries b r).find? regBad).map (fun w => ⟨6, some x.idx, some (w.1 % 65536), some r.ofs⟩)
      else none)
    match bad, e with
    | some i, _ => some i
    | none, some o => some ⟨6, some x.idx, none, some o⟩
    | none, none => none)

/-! ## What an image sets -/

/-- The contents of one image or of a base and its partial image: register words by offset, memory loads (target address,
address of the data, length, cluster of a CLUSTER section), signal entries, their names, READSETs (CLU slot or task, index,
signals), task table, programs (cluster, first instruction, address, count), arm and SM maps, mirror list and identifier,
mask points, recorder identifier, CRC of the safety section, KEYWRAP entries (address, image), IMAGE_ID. -/
structure Img where
  regs : Sparse (Option (BitVec 32)) := []
  loads : List (Nat × Nat × Nat × Option Nat) := []
  sigs : List (Nat × SigDef × Nat) := []
  reads : List (Bool × Nat × List Nat) := []
  tt : Sparse (BitVec 192) := []
  prog : List (Nat × Nat × Nat × Nat) := []
  arm : Sparse Nat := []
  sm : Sparse (BitVec 64) := []
  mirror : MirList := {}
  mlistId : BitVec 16 := 0
  points : List (Nat × BitVec 32) := []
  recCrc : BitVec 32 := 0
  safeCrc : Option (BitVec 32) := none
  keys : Option (Nat × Nat) := none
  imageId : BitVec 64 := 0
deriving DecidableEq, Repr

def Img.setReg (i : Img) (e : Nat × BitVec 32) : Img := { i with regs := spSet none i.regs e.1 (some e.2) }

/-- A SIGNAL entry of Table 17.10 at address `a`: index, definition, name. -/
def State.sigEntry (s : State) (a : Nat) : Nat × SigDef × Nat :=
  (s.mleFrom a 2, ⟨s.mleFrom (a + 2) 1, s.mleFrom (a + 3) 1, s.mleFrom (a + 4) 2, s.mleFrom (a + 6) 1, s.mw (a + 8)⟩,
   s.mleFrom (a + 12) 20)

/-- A KEYWRAP entry of this unit among those from address `a` on, `n` bytes left (Table 17.4). -/
def State.keyEntry (s : State) : Nat → Nat → Nat → Option Nat
  | 0, _, _ => none
  | f + 1, a, n =>
    let p := s.mleFrom (a + 20) 4
    if n < 40 + p then none
    else if beNat (s.mbytes a 7) = Config.serial.toNat then some a
    else s.keyEntry f (a + 40 + p) (n - 40 - p)

/-- Apply one record of the image at `b`. -/
def State.imgRec (s : State) (b : Nat) (i : Img) (r : ImgRec) : Img :=
  let a := r.body b
  if r.ty = 0x01 then (s.regEntries b r).foldl Img.setReg i
  else if r.ty = 0x02 then
    { i with loads := i.loads ++ [(s.mleFrom a 8, a + 8, r.len - 8, if r.sec.ty = 4 then some r.sec.inst else none)] }
  else if r.ty = 0x03 then { i with sigs := i.sigs ++ (List.range r.arg).map (fun n => s.sigEntry (a + 32 * n)) }
  else if r.ty = 0x04 then
    { i with reads := i.reads ++ [(r.arg / 2 ^ 30 == 1, r.arg % 16384, (List.range (r.len / 2)).map (fun n => s.mleFrom (a + 2 * n) 2))] }
  else if r.ty = 0x05 then
    { i with tt := (List.range (r.len / 24)).foldl (fun m n => spSet 0 m (r.arg + n) (BitVec.ofNat 192 (s.mleFrom (a + 24 * n) 24))) i.tt }
  else if r.ty = 0x06 then
    (List.range 20).foldl (fun i n =>
      let o := R.CLU_SLOT_CTL r.arg + 4 * n
      i.setReg (o, s.mw (a + 4 * n) &&& imgMaskOf o)) i
  else if r.ty = 0x07 then { i with prog := i.prog ++ [(r.sec.inst % 8, r.arg, a, r.len / 4)] }
  else if r.ty = 0x08 then
    { i with arm := (List.range 64).foldl (fun m p => spSet 255 m (smAddr r.arg p) (s.mb (a + p)).toNat) i.arm }
  else if r.ty = 0x09 then
    { i with sm := (List.range 64).foldl (fun m p => spSet 0 m (smAddr r.arg p) (s.md (a + 8 * p))) i.sm }
  else if r.ty = 0x0A then
    let (sg, tl, sl) := Config.mirrorList (s.mbytes a r.len)
    { i with mirror := ⟨sg, tl, sl⟩, mlistId := (crc32 (s.mbytes (b + r.ofs) (r.len + 8))).setWidth 16 }
  else if r.ty = 0x0B then (List.range 256).foldl (fun i k => i.setReg (R.FCO_RT k, s.mw (a + 4 * k) &&& imgMaskOf (R.FCO_RT k))) i
  else if r.ty = 0x0C then
    let (ws, ps) := Config.recorderDefs (s.mbytes a r.len)
    { ws.foldl (fun i e => i.setReg (e.1, e.2 &&& imgMaskOf e.1)) i with points := ps, recCrc := crc32 (s.mbytes a r.len) }
  else if r.ty = 0x0D then { i with keys := (s.keyEntry (r.len / 40 + 1) a r.len).map (fun e => (e, b)) }
  else i

/-- The contents of the image at `b` on top of `i`. -/
def State.imgOf (s : State) (i : Img) (b : Nat) : Img :=
  let i := (s.imgRecs b).foldl (s.imgRec b) i
  let safe := ((s.secs b).find? (fun x => x.ty == 9)).map (fun x => crc32 (s.mbytes (b + x.ofs) x.len))
  { i with safeCrc := safe.or i.safeCrc, imageId := if s.imgPartial b then i.imageId else s.md (b + 16) }

/-- Address of the partial image behind the base image at `b`, where there is one (R373, R378). -/
def State.partialAt (s : State) (b : Nat) : Option Nat :=
  let p := b + s.imgLen b
  if s.imgLen b + 256 ≤ imgMax ∧ s.mleFrom p 4 = imgMagic ∧ s.imgPartial p = true then some p else none

/-- The contents of configuration slot `i`: base and partial together. -/
def State.slotImg (s : State) (i : Nat) : Img :=
  let b := slotBase i
  let x := s.imgOf {} b
  match s.partialAt b with
  | some p => s.imgOf x p
  | none => x

/-- The word that register `o` takes where an image gives it `v`: the configuration of a source that never becomes pending takes no
write (R308), nor does EVR_FROST_TMO outside its range (Table 14.9), and in BLOCK a 1 to RUN has no effect (R257). -/
def State.imgWord (s : State) (o : Nat) (v : BitVec 32) : BitVec 32 :=
  if (List.range 256).any (fun n => neverPending n && o == R.INT_SRC_CFG n) || (o == R.EVR_FROST_TMO && !frostTmoOk v) then s.rd o
  else if s.sfiState == stBlock && (List.range 12).any (fun m => o == R.MDU_ARM_CTL m) then v &&& 0xFFFFFF7F
  else v

/-- A register under an image (R370): named fields take the image's value, RWL fields that it does not name their reset
value, RW fields that it does not name stay. -/
def State.imgReg (s : State) (i : Img) (o : Nat) : BitVec 32 :=
  match rowOf o with
  | none => s.rd o
  | some r =>
    match spGet none i.regs o with
    | some v => s.imgWord o ((s.rd o &&& ~~~r.imgMask) ||| (v &&& r.imgMask))
    | none => (s.rd o &&& ~~~r.rwlMask) ||| (r.rstVal &&& r.rwlMask)

/-- Registers, signal table and maps of an image; with it the period of TDS_CYC_TC takes effect (R32). -/
def State.imgApply (s : State) (i : Img) : State :=
  let s0 := s
  let s := s0.regs.foldl (fun s e => s.wr e.1 (s0.imgReg i e.1)) s
  let s := i.regs.foldl (fun s e => s.wr e.1 (s0.imgReg i e.1)) s
  { s with cfg := { sigs := i.sigs.foldl (fun m e => spSet {} m e.1 e.2.1) [], arm := i.arm, sm := i.sm, mirror := i.mirror,
                    mlistId := i.mlistId, imageId := i.imageId, recCrc := i.recCrc },
           tds := { s.tds with tt := i.tt }, cyc := { s.cyc with tcSteps := s.fld F.TDS_CYC_TC_TC_STEPS } }

/-! ## Acceptance checks of the chapters

Each is a list of (failure, detail) on the state as the image would set it; times in tenths of a nanosecond. -/

/-- Collect-frame end of ring `n` after t_k by the up constraint. -/
def State.upEnd (s : State) (n : Nat) : Nat :=
  10 * (s.fld (F.RPU_PORT_GEOM_LEAD_A n) + s.fld (F.RPU_PORT_GEOM_LEAD_B n)) + 200 * s.ncfg n + 64 * (2 * s.ncfg n + 3)

def State.armsOn (s : State) : List Nat := (List.range 12).filter (fun m => s.bit (F.MDU_ARM_CTL_EN m))
def State.slotsOn (s : State) : List Nat := (List.range 64).filter (fun i => s.bit (F.CLU_SLOT_CTL_EN i))

/-- R31, R37, R40, Tables 2.9, 2.12 and 6's STALE_LIM. -/
def State.chkTiming (s : State) : List (Bool × Nat) :=
  let tc := s.tc
  let p0 := s.p0Ofs
  let b (n : Nat) : Nat := s.bOfs n
  let arms := !s.armsOn.isEmpty
  let n := s.slotsOn.length
  let reg (n : Nat) : Nat := R.TDS_CYC_B (n - 1) % 65536
  [(s.fld F.TDS_CYC_TC_TC_STEPS < 125 || 2500 < s.fld F.TDS_CYC_TC_TC_STEPS, R.TDS_CYC_TC % 65536),
   (s.rings.any (fun r => decide (10 * (tc + p0) < s.upEnd r + 600)), R.TDS_CYC_P0 % 65536)] ++
  (List.range 6).map (fun i => (decide (b (i + 2) ≤ b (i + 1)), reg (i + 2))) ++
  [(decide (tc ≤ p0 + 140 + b 7), reg 7),
   (n != 0 && decide (10 * (b 4 - b 3) < 400 + 25 * n), reg 4),
   (arms && decide (b 6 < b 5 + 40), reg 6), (arms && decide (b 7 < b 6 + 100), reg 7),
   (arms && decide (tc < p0 + 140 + b 7 + 60), reg 7), (arms && decide (b 6 < 400), reg 6),
   (s.fld F.TDS_DLM_CTL_OVR_LIMIT == 0, R.TDS_DLM_CTL % 65536), (s.fld F.MDU_CTL_STALE_LIM == 0, R.MDU_CTL % 65536)]

/-- R28, R30, R53, R91. -/
def State.chkRings (s : State) : List (Bool × Nat) :=
  let arm (n p : Nat) : Nat := spGet 255 s.cfg.arm (smAddr n p)
  (s.rings.map (fun n =>
    let c := s.ncfg n
    let la := s.fld (F.RPU_PORT_GEOM_LEAD_A n)
    let lb := s.fld (F.RPU_PORT_GEOM_LEAD_B n)
    let down (l : Nat) : Bool := decide (10 * s.tc < 10 * l + 200 * c + 64 * (c + 3) + 1000)
    (la < 30 || lb < 30 || !s.bit (F.LPH_LANE_CTL_PRECODE n) || down la || down lb || decide (15 * s.tc < s.upEnd n) ||
      (List.range c).any (fun p => decide (11 < arm n p)), n))) ++
  (List.range 12).map (fun m => (decide (1024 < (s.members m).length), m))

/-- The `n` largest of a list. -/
def largest (n : Nat) (l : List Nat) : List Nat := (l.foldl (fun q x => insDesc x q) []).take n

/-- Lengths of the RELAY_CH largest relay-enabled rings. -/
def State.relayLens (s : State) : List Nat :=
  largest (s.fld F.RDU_MIR_CFG_RELAY_CH) ((s.rings.filter (fun n => s.bit (F.RPU_PORT_CTL_RELAY_EN n))).map s.ncfg)

/-- R129. -/
def State.chkRelay (s : State) : List (Bool × Nat) :=
  let ch := s.fld F.RDU_MIR_CFG_RELAY_CH
  let d := 1100 + 50 * s.fld F.PL_CTL_FIBRE_M
  let tc := s.tc
  let ls := s.relayLens
  let max' := s.fld F.RDU_MIR_CFG_MIRROR_MAX
  ((s.rings.filter (fun n => s.bit (F.RPU_PORT_CTL_RELAY_EN n))).map (fun n =>
    let c := s.ncfg n
    let bad (l : Nat) : Bool :=
      decide (10 * tc < d + 10 * l + 200 * (c - 1) + 64 * (c + 3) + 1000) ||
      decide (min (15 * tc) (10 * (tc + s.p0Ofs) - 600) < 10 * l + 200 * (c - 1) + 64 * (2 * c + 3) + d)
    (ch == 0 || decide (s.fld F.RDU_LEASE_RIDE_N < 6) || bad (s.fld (F.RPU_PORT_GEOM_LEAD_A n)) ||
      bad (s.fld (F.RPU_PORT_GEOM_LEAD_B n)), n))) ++
  [(decide (8 < ch), R.RDU_MIR_CFG % 65536),
   (!ls.isEmpty && decide (5 * tc < 1024 + max' + 8 * (ls.map (· + 8)).sum), R.RDU_MIR_CFG % 65536),
   (!ls.isEmpty && decide (5 * tc < 1024 + 8 * (ls.map (fun n => 2 * n + 3)).sum), R.RDU_MIR_CFG % 65536)]

/-- Fixed type, PKIND and PID of an entry of a fixed producer (Tables 1.6 and 13.2, R412): TYPE, PID where one unit produces
the range. -/
def fixedSig (i : Nat) : Option (Nat × Option Nat) :=
  if i < 0x1000 then some (1, some 0x00) else if i < 0x10F8 then some (1, some 0x14) else if i < 0x1100 then some (3, some 0x14)
  else if i < 0x1140 then some (1, some 0x12) else if 0x1150 ≤ i ∧ i < 0x115C then some (2, some 0x13)
  else if i = 0x1164 then some (3, some 0x36) else if 0x1160 ≤ i ∧ i < 0x1180 then some (2, some 0x36) else none

/-- Entries that an engine task or a slot's OUT2 may write. -/
def bindable (i : Nat) : Bool := (0x1140 ≤ i && i < 0x114C) || (0x1180 ≤ i && i < 0x4000)

def inWin (e : BitVec 192) (i : Nat) : Bool := decide (tWbase e ≤ i) && decide (i < tWbase e + tWlen e)

/-- Task-table entries in use. -/
def State.tasksOn (s : State) : Sparse (BitVec 192) := s.tds.tt.filter (fun e => tKind e.2 == 1 || tKind e.2 == 2)

/-- Slots whose OUT2 writes, with the entry. -/
def State.out2s (s : State) : List (Nat × Nat) :=
  (s.slotsOn.filter (fun i => s.bit (F.CLU_SLOT_CTL_OUT2_EN i))).map (fun i => (i, s.fld (F.CLU_SLOT_SEL2_OUT2_IDX i)))

/-- R21, R194, R382, R412 on the SIGNAL entries; INDEX runs to 0x3FFF (Table 17.10). -/
def State.chkSignals (s : State) (i : Img) : List (Bool × Nat) :=
  i.sigs.map (fun e =>
    let (n, d, name) := e
    let twice := decide (2 ≤ (i.sigs.filter (fun f => f.1 == n)).length) || decide (2 ≤ (i.sigs.filter (fun f => f.2.2 == name)).length)
    let fixed := match fixedSig n with
      | some (ty, pid) => d.ty != ty || d.pkind != 3 || (match pid with
          | some p => d.pid != p
          | none => false)
      | none => false
    let prod := if d.pkind = 1 then !((s.tasksOn.find? (fun t => t.1 == d.pid)).any (fun t => inWin t.2 n))
      else if d.pkind = 2 then !s.out2s.contains (d.pid, n)
      else false
    (decide (0x4000 ≤ n) || twice || (sigReserved n && d.pkind != 0) || fixed || prod, n))

/-- R21 and R194 on write windows and OUT2 bindings. -/
def State.chkWriters (s : State) : List (Bool × Nat) :=
  let bound (n k p : Nat) : Bool := match s.cfg.sigs.find? (fun c => c.1 == n) with
    | some c => c.2.pkind != k || c.2.pid != p
    | none => false
  s.tasksOn.map (fun t =>
    let e := t.2
    let lo := tWbase e
    let hi := lo + tWlen e
    (tWlen e != 0 && (!((decide (0x1140 ≤ lo) && decide (hi ≤ 0x114C)) || (decide (0x1180 ≤ lo) && decide (hi ≤ 0x4000))) ||
      s.tasksOn.any (fun u => u.1 != t.1 && tWlen u.2 != 0 && decide (tWbase u.2 < hi) && decide (lo < tWbase u.2 + tWlen u.2)) ||
      s.cfg.sigs.any (fun c => inWin e c.1 && (c.2.pkind != 1 || c.2.pid != t.1))), t.1)) ++
  s.out2s.map (fun o =>
    (!bindable o.2 || s.tasksOn.any (fun t => inWin t.2 o.2) || s.out2s.any (fun u => u.1 != o.1 && u.2 == o.2) || bound o.2 2 o.1, o.1))

/-- Signals that slot `i` reads from the signal map; chains are left out. -/
def State.slotReads (s : State) (i : Nat) : List Nat := (((s.cluShadow i).sels (s.cluShadow i).ffEn).filterMap (fun x => x)).filter (fun x => !isCluOut x)

/-- R23, R167, R177, R382 on readers. -/
def State.chkReaders (s : State) (i : Img) : List (Bool × Nat) :=
  let taskPhase (t : Nat) : Nat := dPhase (tDesc (spGet 0 s.tds.tt t))
  let writes (ph n : Nat) (me : Option Nat) : Bool :=
    s.tasksOn.any (fun t => some t.1 != me && inWin t.2 n && taskPhase t.1 == ph)
  i.reads.map (fun r =>
    let (slot, n, l) := r
    let ph := if slot then 3 else taskPhase n
    (l.any (fun x => s.sigType x == 0 || writes ph x (if slot then none else some n) ||
      (!slot && ph == 3 && isCluOut x && s.bit (F.CLU_SLOT_CTL_EN (x - 0x1100))) || (!slot && ph == 4 && s.out2s.any (fun o => o.2 == x))), n)) ++
  (List.range 64).map (fun c =>
    (((s.cluShadow c).sels true).any (fun o => match o with
      | some x => isCluOut x && (decide (0x1100 + c ≤ x) || !s.bit (F.CLU_SLOT_CTL_EN (x - 0x1100)))
      | none => false), c)) ++
  s.slotsOn.map (fun c =>
    let d := s.cluShadow c
    ((s.slotReads c).any (fun x => writes 3 x none) || (d.notchEn && !s.notchValid d), c))

/-- R199 and R43. -/
def State.chkTasks (s : State) : List (Bool × Nat) :=
  s.tasksOn.map (fun t =>
    let e := t.2
    (dTask (tDesc e) != t.1 || dEmask (tDesc e) == 0 || decide (tDiv e ≤ tOfs e), t.1)) ++
  (List.range 8).map (fun p => (decide (1024 < (s.tasksOn.filter (fun t => dPrio (tDesc t.2) == p)).length), p)) ++
  (List.range 8).map (fun p =>
    let ts := s.tasksOn.filter (fun t => dPhase (tDesc t.2) == p)
    let sum := (ts.map (fun t => tBound t.2)).sum
    let mx := ts.foldl (fun m t => max m (tBound t.2)) 0
    let mask := ts.foldl (fun m t => m &&& dEmask (tDesc t.2)) (BitVec.allOnes 32)
    let n := ((List.range 32).filter (fun i => mask.getLsbD i)).length
    let len := (if p = 7 then s.tc - 140 - s.p0Ofs else s.bOfs (p + 1)) - s.bOfs p
    (!ts.isEmpty && (n == 0 || decide (10 * n * len < sum + n * mx)), p))

/-- Chapter 11: R265, Tables 11.6, 11.10 and 11.11. -/
def State.chkSafety (s : State) : List (Bool × Nat) :=
  let dc := s.fld64 F.SFI_STOP_DC_LO_V F.SFI_STOP_DC_HI_V
  let ac := s.fld64 F.SFI_STOP_AC_LO_V F.SFI_STOP_AC_HI_V
  (List.range 8).map (fun p => (s.fld (F.SFI_SIN_CFG_FUNC p) == 3, R.SFI_SIN_CFG p % 65536)) ++
  (List.range 64).map (fun i =>
    (((dc.testBit i || ac.testBit i) && !s.bit (F.CLU_SLOT_CTL_EN i)) || (dc.testBit i && ac.testBit i), i)) ++
  (List.range 8).map (fun m =>
    (decide (35 < s.fld (F.SFI_MON_CFG_CHAN m)) ||
      (s.bit (F.SFI_MON_CFG_EN m) && !flt32 0 (s.rd (R.SFI_MON_TOL m))), R.SFI_MON_CFG m % 65536))

/-- Chapter 12: R285, R293, Table 12.9. -/
def State.chkLease (s : State) : List (Bool × Nat) :=
  let l := s.fld F.RDU_LEASE_LEASE_L
  let max' := s.fld F.RDU_MIR_CFG_MIRROR_MAX
  let kq := s.fld F.RDU_MIR_CFG_KQ
  let m := s.cfg.mirror
  let fixed := recBytes 4 24 s.armsOn.length + recBytes 4 44 m.slots.length + recBytes 4 8 m.sigs.length +
    (m.tiles.map (fun t => 8 + 4 * t.2.2)).sum
  [(decide (l < 2), R.RDU_LEASE % 65536), (decide (s.fld F.RDU_LEASE_RIDE_N ≤ l + 2), R.RDU_LEASE % 65536),
   (decide (5 * (s.p0Ofs + 140) < max' + 64 + 8 * (s.relayLens.map (· + 8)).sum + 5 * (110 + 5 * s.fld F.PL_CTL_FIBRE_M)), R.RDU_MIR_CFG % 65536),
   (decide (max' < fixed + (if kq = 0 then 0 else (6 + 32 * kq + 7) / 8 * 8)), R.RDU_MIR_CFG % 65536)]

/-- The class below which an image may not map a kind (Table 13.3). -/
def floorOf (k : Nat) : Nat := if k = 0xE0 ∨ k = 0xE1 then 3 else if k = 0x01 ∨ k = 0x40 ∨ k = 0x42 then 1 else 0

/-- Chapter 13: R301, Tables 13.4 and 13.10. -/
def State.chkFco (s : State) : List (Bool × Nat) :=
  ((List.range 256).filter kindDefined).map (fun k =>
    (decide (5 < s.fld (F.FCO_RT_CLASS k)) || decide (s.fld (F.FCO_RT_CLASS k) < floorOf k) ||
      (decide (1 ≤ s.fld (F.FCO_RT_K k)) && s.fld (F.FCO_RT_W_CNT k) == 0) || decide (6 * 10 ^ 11 < s.fallow k), R.FCO_RT k % 65536))

/-- Chapters 10, 14 and 16: MODE, RSLOPE, the DRC area, the record-store schedule, the tamper filter, the staging buffer
(R229, R357, R372). -/
def State.chkRest (s : State) : List (Bool × Nat) :=
  let base := s.fld F.DRC_AREA_BASE
  let size := s.fld F.DRC_AREA_SIZE
  let slots := (List.range 6).map (fun i => s.fld (F.MEM_RS_A_V i))
  let hits (b n : Nat) : Bool := n != 0 && decide (b < 0x200000000) && decide (stagingBase < b + 32 * n)
  let tx (p q : Nat) : Bool := hits (s.fld (F.SPU_PAIR_TX_SIZE_BASE_HI p q) * 2 ^ 32 + s.fld (F.SPU_PAIR_TX_BASE_BASE p q) * 32) (s.fld (F.SPU_PAIR_TX_SIZE_SIZE p q))
  let rx (p q : Nat) : Bool := hits (s.fld (F.SPU_PAIR_RX_SIZE_BASE_HI p q) * 2 ^ 32 + s.fld (F.SPU_PAIR_RX_BASE_BASE p q) * 32) (s.fld (F.SPU_PAIR_RX_SIZE_SIZE p q))
  let flt := s.fld F.MEM_TAMP_CFG_FLT
  let rs := s.fld F.TBU_CTL_RSLOPE
  [(s.fld (F.SPU_PAIR_CTL_MODE 0) == 3, R.SPU_PAIR_CTL 0 % 65536), (s.fld (F.SPU_PAIR_CTL_MODE 1) == 3, R.SPU_PAIR_CTL 1 % 65536),
   (rs == 0 || decide (20 < rs), R.TBU_CTL % 65536),
   (decide (size < 2) || decide (128 < size) || decide (128 < base + size) || decide (stagingBase < (base + size) * 0x4000000), R.DRC_AREA % 65536),
   (decide (slots.headD 0 < 160) || decide (768 < slots.sum), R.MEM_RS_A 0 % 65536),
   (flt == 0 || decide (50 < flt), R.MEM_TAMP_CFG % 65536)] ++
  (List.range 4).map (fun q => (tx 0 q, R.SPU_PAIR_TX_BASE 0 q % 65536)) ++ (List.range 4).map (fun q => (tx 1 q, R.SPU_PAIR_TX_BASE 1 q % 65536)) ++
  (List.range 3).map (fun q => (rx 0 q, R.SPU_PAIR_RX_BASE 0 q % 65536)) ++ (List.range 3).map (fun q => (rx 1 q, R.SPU_PAIR_RX_BASE 1 q % 65536))

/-- Every acceptance check, on the state as image `i` would set it. -/
def State.chkAll (s : State) (i : Img) : List (Bool × Nat) :=
  s.chkTiming ++ s.chkRings ++ s.chkRelay ++ s.chkSignals i ++ s.chkWriters ++ s.chkReaders i ++ s.chkTasks ++ s.chkSafety ++
    s.chkLease ++ s.chkFco ++ s.chkRest

/-! ## Verification (R367, R369, R371) -/

/-- The plaintext of this unit's KEYWRAP entry at `e` of the image at `b`, where its tag verifies. -/
def State.unwrap (s : State) (e b : Nat) : Option (List Byte) :=
  match s.aon.kDev with
  | none => none
  | some k =>
    let p := s.mleFrom (e + 20) 4
    let iv := s.mbytes (e + 8) 12
    let aad := s.mbytes (b + 16) 8 ++ s.mbytes e 7
    let ct := s.mbytes (e + 24) p
    if beBytes 16 (gcmTag k iv aad ct).toNat = s.mbytes (e + 24 + p) 16 then some (gcmDecrypt k iv ct)
    else none

/-- The signature checks of R369: signer, image signature, section CRCs, safety key and signature. -/
def State.signErr (s : State) (b : Nat) : Option ImgErr :=
  let len := s.imgLen b
  let key := s.mbytes (b + 72) 96
  if s.aon.signerHash ≠ some (sha384 key) then some { code := 2 }
  else if !ecdsaVerify key (sha384 (s.mbytes b (len - 96))) (s.mbytes (b + len - 96) 96) then some { code := 3 }
  else match (s.secs b).find? (fun x => (crc32 (s.mbytes (b + x.ofs) x.len)).toNat != x.crc) with
  | some x => some { code := 4, sec := some x.idx, ofs := some x.ofs }
  | none =>
    match (s.secs b).find? (fun x => x.ty == 9) with
    | none => none
    | some x =>
      let e := b + x.ofs + x.len
      let k := s.mbytes (e - 192) 96
      if decide (x.len < 192) || s.aon.safetyHash != some (sha384 k) ||
          !ecdsaVerify k (sha384 (s.mbytes (b + x.ofs) (x.len - 96))) (s.mbytes (e - 96) 96) then
        some { code := 5, sec := some x.idx, ofs := some x.ofs }
      else none

/-- R369 on a base image at `b`: the first failure. -/
def State.verify (s : State) (b : Nat) : Option ImgErr :=
  if !s.headerOk b || s.imgPartial b then some { code := 1 }
  else match s.signErr b with
  | some e => some e
  | none => match s.recErr b with
    | some e => some e
    | none =>
      let i := s.imgOf {} b
      match i.keys with
      | none => some { code := 9 }
      | some (e, b') =>
        if (s.unwrap e b').isNone then some { code := 9, ofs := some (e - b) }
        else (((s.imgApply i).chkAll i).find? (·.1)).map (fun c => { code := 7, detail := some c.2 })

/-- R369 and R378 on a partial image at `p` over the base image at `b`; the acceptance checks see both together. -/
def State.verifyPartial (s : State) (b p : Nat) : Option ImgErr :=
  if !s.headerOk p || !s.imgPartial p then some { code := 1 }
  else match s.signErr p with
  | some e => some e
  | none => match s.recErr p with
    | some e => some e
    | none =>
      if sha384 (s.mbytes b (s.imgLen b)) ≠ BitVec.ofNat 384 (beNat (s.mbytes (p + 24) 48)) then some { code := 8 }
      else
        let i := s.imgOf (s.imgOf {} b) p
        (((s.imgApply i).chkAll i).find? (·.1)).map (fun c => { code := 7, detail := some c.2 })

/-- R373 on slot `n`: base and, where the slot holds one, partial image. -/
def State.verifySlot (s : State) (n : Nat) : Option ImgErr :=
  match s.verify (slotBase n) with
  | some e => some e
  | none => match s.partialAt (slotBase n) with
    | some p => s.verifyPartial (slotBase n) p
    | none => none

end Sys2Proof.Machine
end

