-- ==== Sys2Proof/Machine/Live.lean ====
section
/-! DEFINITION. Partial images applied while running (17_configuration.md, R378, Table 17.6): what waits for a P0 release. -/

namespace Sys2Proof.Machine

/-- The number of configuration slot in force (CFC_STAT.ACTIVE_SLOT). -/
def State.activeSlot (s : State) : Nat := s.fld F.CFC_STAT_ACTIVE_SLOT

/-- Serial of an SM map entry. -/
def smSerial (e : BitVec 64) : BitVec 56 := e.setWidth 56

/-- The history of replaced SMs keeps its newest 4,096 entries (R390). -/
def histPut (h : List (BitVec 56 × Nat × Nat)) (e : BitVec 56 × Nat × Nat) : List (BitVec 56 × Nat × Nat) :=
  let l := h ++ [e]
  l.drop (l.length - 4096)

/-- SM address `a` receives a new serial (R132, R390): its count moves to the history and restarts, its position is admitted
anew. -/
def State.newSerial (s : State) (old : BitVec 56) (a : Nat) : State :=
  let n := min (spGet 0 s.aon.lt.trans a) (2 ^ 60 - 1)
  let s := s.setLt (fun l => { l with trans := spSet 0 l.trans a 0, hist := histPut l.hist (old, a, n) })
  let s := s.setBit (F.RPU_PORT_POS_ADM (a / 64) (a % 64)) false
  s.when (s.inService (a / 64) && !s.bit (F.RPU_PORT_STAT_BROKEN (a / 64))) (·.reidentPort (a / 64))

/-- SMMAP of a live update: new serials in force. -/
def State.liveSm (s : State) (sm : Sparse (BitVec 64)) : State :=
  let old := s.cfg.sm
  let s : State := { s with cfg := { s.cfg with sm := sm } }
  sm.foldl (fun s e =>
    let o := smSerial (spGet 0 old e.1)
    if o != smSerial e.2 && o != 0 then s.newSerial o e.1 else s) s

/-- The parameters that the HBL takes from the safety section. -/
def State.hblLoad (s : State) : State :=
  { s with sfi := { s.sfi with hblTstop := s.fld F.SFI_TSTOP_MAX_V, hblPar := (List.range 8).foldl (fun m p =>
      spSet (resetOf (R.SFI_SIN_CFG p)) m p (s.rd (R.SFI_SIN_CFG p))) [] } }

/-- A verified safety section comes into force: SFI_SAFE_CRC, the HBL's parameters, SFS_OK (R259, R275), and what its pairs demand by it
(R261). -/
def State.safetyLoad (s : State) (crc : Option (BitVec 32)) : State :=
  let s : State := { s with sfi := { s.sfi with verified := crc.isSome } }
  let t := s.fld F.SFI_STAT_TEST_FAIL
  let s := (s.wr R.SFI_SAFE_CRC (crc.getD 0)).hblLoad
  let s := s.setBit F.SFI_STAT_HBL_OK (crc.isSome && decide (t < 4) && !s.sfi.d9Lost)
  let s := (s.setBit F.SFI_STAT_SCP_OK (crc.isSome && !t.testBit 0)).sfsRefresh
  (List.range 8).foldl State.actDemand s

/-- PARTNER_DIFF where the two units' safety sections differ (R275); raised by the change of the own one. -/
def State.partnerDiff (s : State) : State :=
  if s.rdu.partner.isSome && s.rd R.SFI_SAFE_CRC != s.rd R.SFI_PARTNER_CRC then (s.setBit F.SFI_STAT_PARTNER_DIFF true).raise 182 else s

/-- The SCP restarts after a live update of the safety section; SFS_OK is low meanwhile. -/
def State.scpRestart (s : State) : State :=
  (({ s with sfi := { s.sfi with scpRestart := true } } : State).setBit F.SFI_STAT_SCP_OK false).sfsRefresh

/-- The sections of a partial image that wait for a P0 release: SMMAP records, RECORDERS, SAFETY. -/
def State.liveApply (s : State) (p : Nat) : State :=
  let i := s.imgOf { sm := s.cfg.sm } p
  let s := s.liveSm i.sm
  let s := i.regs.foldl (fun s e => match rowOf e.1, e.2 with
    | some r, some v => s.wr e.1 (s.imgWord e.1 ((s.rd e.1 &&& ~~~r.imgMask) ||| (v &&& r.imgMask)))
    | _, _ => s) s
  let rec' := (s.imgRecs p).any (fun r => r.ty == 0x0C)
  let s : State := if rec' then { s with cfg := { s.cfg with recCrc := i.recCrc },
                                         drc := { s.drc with points := i.points.foldl (fun m e => spSet 0 m e.1 e.2) [] } } else s
  if i.safeCrc.isSome then ((s.safetyLoad i.safeCrc).partnerDiff).scpRestart else s

/-- A live update that waits takes effect at a P0 release. -/
def State.liveP0 (s : State) : State :=
  if s.cfc.live then
    let s : State := { s with cfc := { s.cfc with live := false } }
    match s.partialAt (slotBase s.activeSlot) with
    | some p => s.liveApply p
    | none => s
  else s

end Sys2Proof.Machine
end

