-- ==== Sys2Proof/Machine/Cycle.lean ====
section
/-! DEFINITION. The control cycle (02_control_cycle.md): cycle starts, P0 release, phases, completions, send points, overruns,
down frames; the partner frame of R281 and the changes of lease that a send point brings (R288, R291). -/

namespace Sys2Proof.Machine

/-! ## Cycle start (R29, R33, R111, R115) -/

/-- CYCLE_START: cycle t / Tc starts. A new key generation follows from the cycle number of each frame (R97). -/
def execCycleStart (t : Nat) (s : State) : Host.Outcome State Fault Refusal :=
  .next (s.onDie t fun s =>
    if t % s.tc = 0 ∧ s.cyc.resume ≤ t ∧ s.sys.booting = false then
      let k := t / s.tc
      let s : State := { s with cyc := { s.cyc with started := k } }
      let s := (s.wr R.TBU_CYCLE (cyc32 k)).tbuSync
      let s := (List.range 64).foldl (fun s n => s.sendUp n k) s
      ({ s with apw := { s.apw with lease := s.leaseHeld } } : State).apwAll
    else s)

/-! ## Computations -/

/-- The computation with sample cycle `k` changed by `f`. -/
def State.setComp (s : State) (k : Nat) (f : Comp → Comp) : State :=
  { s with cyc := { s.cyc with comps := s.cyc.comps.map (fun c => if c.k = k then f c else c) } }

/-- The computation whose P0 has been released. -/
def State.curComp (s : State) : Option Comp := s.cyc.comps.find? (fun c => c.p0At.isSome)

/-- A phase-late event for phase `n` (R44, R46). -/
def State.phaseLate (s : State) (n : Nat) : State :=
  let s := ((s.inc F.TDS_PLATE_CNT_V).setBit F.TDS_DLM_STAT_PLATE true).setFld F.TDS_DLM_STAT_LATE_PHASE n
  let s := s.raise 105
  if s.bit F.TDS_DLM_CTL_PHASE_LATE_NOTE then s.sendFco 1 0 1 0x23 none none else s

/-! ## P0 release -/

/-- Entry 0x1164 (Table 17.11). -/
def State.statusWord (s : State) : BitVec 32 :=
  let b (v : Bool) (i : Nat) : Nat := if v then 2 ^ i else 0
  BitVec.ofNat 32 (b s.sys.uid 0 + b s.leaseHeld 1 + b (s.bit F.RDU_STAT_READY) 2 + b s.partnerActive 3 +
    b (s.bit F.SFI_STAT_SFS_OK) 4 + s.sfiState * 32 + b (s.bit F.TBU_STAT_LOCK) 7 + b (s.bit F.TBU_STAT_HOLD) 8)

/-- SIGNAL_TBU_WRITE (R383) for sample cycle `k`. -/
def State.sigTbu (s : State) (k : Nat) : State :=
  let tk := k * s.tc
  let w (s : State) (i n : Nat) : State := s.sigSet i (BitVec.ofNat 32 n)
  let s := w (w (w (w s 0x1160 k) 0x1161 tk) 0x1162 (tk / 2 ^ 32)) 0x1163 s.tc
  ((s.sigSet 0x1164 s.statusWord).sigSet 0x1165 (s.rd R.RDU_EPOCH)).sigSet 0x1166 (BitVec.ofNat 32 (s.fld F.TDS_DLM_STAT_RUN))

/-- After a cold takeover the first computation commands RUN = 0 (R286). -/
def State.coldStart (s : State) : State :=
  if s.rdu.coldStop then ({ s with rdu := { s.rdu with coldStop := false } } : State).armsOff else s

/-- P0 is released for the computation of sample `k`. TDS_PHn_DONE and TDS_RANK_DONE clear here and show the running computation up to
its end (DESIGN CHOICE: the spec says 'the last cycle'; log entry 113). -/
def State.p0Run (s : State) (k : Nat) : State :=
  let s := ((s.liveP0.sigFlush.sigHostIn.tdsP0 k (k + 1)).snapshot).sigTbu k
  let s := ((s.mirrorP0 (k + 2)).coldStart.supplyReports k).mduP0 k
  let s := ((s.cluP0 (k + 1)).winEnter).drcP0 k
  let s := (List.range 8).foldl (fun s n => s.setFld (F.TDS_PH_DONE_T_DONE n) 0xFFFF) (s.setFld F.TDS_RANK_DONE_T 0)
  s.setComp k (fun c => { c with p0At := some s.now, rel := 1 })

/-- A unit in INIT runs no computation (Table 12.1): host actions tied to P0 release, Winter and the DRC go on. -/
def State.p0Init (s : State) (k : Nat) : State :=
  let s := (((s.liveP0.sigFlush.sigHostIn.masksP0).swapsDue (k + 1)).snapshot).sigTbu k
  ((s.cluP0 (k + 1)).winEnter).drcP0 k

/-- A P0 release that waits because the fabric is busy takes place once it is idle (R46). -/
def State.lateP0 (s : State) : State :=
  match s.cyc.comps.find? (fun c => c.p0At.isNone) with
  | some c => if s.fabricIdle && s.curComp.isNone then s.p0Run c.k else s
  | none => s

/-- TASK_COMPLETE (R193, R197, R202): after END or an error, with no outstanding operation. A P0 release that waits for
the fabric takes place where it has become idle (R46). -/
def execTaskComplete (t : Nat) (n : Fin 32) (donor : Nat) (s : State) : Host.Outcome State Fault Refusal :=
  .next (s.onDie t fun s =>
    let x := s.eng n
    match x.run with
    | none => s
    | some r =>
      if (x.ended || x.failed) && x.out.isEmpty then
        let s := if x.failed then s else s.inc (F.SE_TASK_CNT_V n)
        let s := s.setEng n { pre := x.pre, busy := x.busy + (s.mono - r.at') }
        ((s.startPre n).migrate n donor).lateP0
      else s)

/-- P0 falls at `t`: for sample cycle `k` by the schedule, or at the switch instant of a new image. -/
def State.p0Due (s : State) (t k : Nat) : Bool := t == s.p0Of k || s.cyc.switchAt == some t

/-- P0_RELEASE (R37, R46). -/
def execP0Release (t : Nat) (s : State) : Host.Outcome State Fault Refusal :=
  .next (s.onDie t fun s =>
    let k := t / s.tc - 1
    if s.imageOn && decide (s.tc ≤ t) && s.p0Due t k && decide (s.cyc.resume ≤ k * s.tc) && s.cyc.comps.all (fun c => c.k != k) then
      if s.role = roleInit then s.p0Init k
      else
        let s : State := { s with cyc := { s.cyc with comps := s.cyc.comps ++ [{ k := k, p0 := t }] } }
        if s.fabricIdle then s.p0Run k
        else s.phaseLate 0
    else s)

/-! ## Phases (R38, R44, R203) -/

/-- The units' work at the release of phase `n` of a computation that commands cycle `j`. -/
def State.phaseWork (s : State) (n j : Nat) : State :=
  if n = 3 then s.cluP3 else if n = 4 then s.cluP4 else if n = 5 then s.mduP5 else if n = 6 then s.mduP6 j else s

/-- Phase `n` of computation `k` is released. -/
def State.phaseGo (s : State) (k n : Nat) : State :=
  let s := s.setComp k (fun c => { c with rel := n + 1 })
  (s.sigFlush.tdsRelease n).phaseWork n (k + 3)

/-- Phase `n` - 1 was not complete in time at the boundary of phase `n`. -/
def State.boundaryLate (s : State) (c : Comp) (n : Nat) : State :=
  if c.late < n then (s.phaseLate (n - 1)).setComp c.k (fun c => { c with late := n }) else s

/-- A ranker of an enabled arm has not completed at B6 (Table 2.13). -/
def State.rankLate (s : State) : State :=
  if (List.range 12).any (fun m => s.bit (F.MDU_ARM_CTL_EN m) && !(s.armSt m).rankDone) then s.setBit F.TDS_DLM_STAT_RANK_LATE true
  else s

/-- PHASE_RELEASE (R38, R44): the boundary of phase `n`, 1 to 7. -/
def execPhaseRelease (t : Nat) (n : Fin 8) (s : State) : Host.Outcome State Fault Refusal :=
  .next (s.onDie t fun s =>
    match s.cyc.comps.find? (fun c => n.val != 0 && t == c.p0 + s.bOfs n) with
    | none => s
    | some c =>
      let s := if n.val = 6 then s.rankLate else s
      if n.val < c.rel then s
      else if c.p0At.isSome ∧ c.done = n.val ∧ c.doneAt < t then s.phaseGo c.k n
      else s.boundaryLate c n)

/-- After the completion of phase `n`: the next phase is released where its boundary has passed; P7 in time commits. -/
def State.phaseNext (s : State) (c : Comp) (n : Nat) : State :=
  if n = 7 then
    if s.now < (c.k + 2) * s.tc - 140 ∧ c.masked = false then
      (s.mduCommit (c.k + 3)).setComp c.k (fun c => { c with booked := s.role == roleActive })
    else s
  else if c.p0 + s.bOfs (n + 1) ≤ s.now then (s.boundaryLate c (n + 1)).phaseGo c.k (n + 1)
  else s

/-- PHASE_COMPLETE (R203, R41, R44, R46): the last task and outstanding operation of phase `n` are complete. -/
def execPhaseComplete (t : Nat) (n : Fin 8) (s : State) : Host.Outcome State Fault Refusal :=
  .next (s.onDie t fun s =>
    let s := s.lateP0
    match s.curComp with
    | none => s
    | some c =>
      if c.rel = n.val + 1 ∧ c.done = n.val ∧ s.phaseIdle n = true then
        let s := s.setFld (F.TDS_PH_DONE_T_DONE n) (min 0xFFFF (t - c.p0At.getD t))
        (s.setComp c.k (fun c => { c with done := n + 1, doneAt := t })).phaseNext c n
      else s)

/-! ## Send point (R38, R45, R48) -/

/-- The number of consecutive overruns, and at the limit source 106 and the message of R48. -/
def State.overrun (s : State) (j : Nat) : State :=
  let reached := s.fld F.TDS_DLM_STAT_RUN + 1 == s.fld F.TDS_DLM_CTL_OVR_LIMIT
  let s := ((s.setBit F.TDS_DLM_STAT_OVR true).inc F.TDS_OVR_CNT_V).inc F.TDS_DLM_STAT_RUN
  let s := s.raise 104
  let s := if reached then (s.raise 106).sendFco 1 0 1 0x24 none none else s
  s.tdsOverrun.mduOverrun j

/-- The computation of sample `k` at its send point: whether it was an overrun; none where none ran. -/
def State.sendComp (s : State) (t k : Nat) : Option Bool × State :=
  match s.cyc.comps.find? (fun c => c.k == k) with
  | none => (none, s)
  | some c =>
    let ok := c.done == 8 && decide (c.doneAt < t) && !c.masked
    let s := if ok then s.setFld F.TDS_DLM_STAT_RUN 0 else s.overrun (k + 3)
    (some !ok, s)

/-- The new holder books a computation that ran in shadow. -/
def State.bookShadow (s : State) (k : Nat) : State :=
  match s.cyc.comps.find? (fun c => c.k == k) with
  | some c => if c.booked then s else (List.range 12).foldl (fun s m => s.armBook m (k + 3)) s
  | none => s

/-! ## Partner frame (R281, Tables 12.2 and 12.4) -/

/-- The lease record with CYCLE = `j`. -/
def State.leaseRec (s : State) (j : Nat) (release : Bool) : LeaseRec :=
  { cycle := cyc32 j, epoch := if s.leaseHeld then s.rd R.RDU_EPOCH else s.rd R.RDU_EPOCH_MAX, role := s.role,
    ready := s.bit F.RDU_STAT_READY, sfsOk := s.bit F.SFI_STAT_SFS_OK, release := release,
    eqx := s.role == roleActive && s.rdu.eqxN.isSome, relHold := s.bit F.RDU_STAT_REL_HOLD,
    stopOrd := s.sfi.sendStop, blockOrd := s.sfi.sendBlock, mlist := s.cfg.mlistId, safeCrc := s.rd R.SFI_SAFE_CRC,
    tails := (List.range 64).foldl (fun v n => if s.tailOf (j - 2) n then v ||| (1#64 <<< n) else v) 0,
    eqxCyc := cyc32 (s.rdu.eqxN.getD 0), mirAck := s.rdu.mirAck }

/-- Relays of this unit whose rings have shown direct tails of the two cycles up to that which the partner frame for cycle `j` reports
end (R131): the port stops, and relayed frames up to cycle `j` come too late. -/
def State.relayEnds (s : State) (j : Nat) : State :=
  (List.range 64).foldl (fun s n =>
    if (s.port n).relaying && s.tailOf (j - 2) n && s.tailOf (j - 3) n then
      let s := s.endRelay n
      s.setPort n { s.port n with relayOver := some j }
    else s) s

/-- The partner link carries this unit's blocks: its four lanes are open to them (R65, R66, R68). -/
def State.plOpen (s : State) : Bool := [68, 69, 70, 71].all s.txOpen

/-- Blocks leave on the partner link: block b of the stream goes on lane 68 + b mod 4; where in the stream these blocks stand is a
free value (R71, R62). -/
def State.plSend (s : State) (bs : List Blk) : State :=
  let (b0, s) := s.freeNat
  let sof := 10 * s.now
  [0, 1, 2, 3].foldl (fun s i =>
    let part := ((List.range bs.length).zip bs).filter (fun x => decide ((b0 + x.1) % 4 = i))
    s.txSend (68 + i) (part.map (·.2)) (if part.any (fun x => x.2.isSof) then some sof else none) none none) s

/-- Send the partner frame, behind the relayed frames of the cycle. -/
def State.sendPartner (s : State) (j : Nat) (release : Bool) (m : Option Mirror) : State :=
  if s.bit F.PL_CTL_EN && s.fld F.SYS_LC_STATE == 2 && s.plOpen then
    let l := s.leaseRec j release
    let (f, s) := s.freeNat
    let bs := s.partnerBlocks l m f
    let s : State := { s with rdu := { s.rdu with txFrame := some (l, m), txBlocks := bs }, sfi := { s.sfi with sendStop := false, sendBlock := false } }
    (s.plSend ((s.rdu.txRelay.map (·.2)).flatten ++ bs)).relayEnds j
  else s

/-- RELAY_SEND (R128): the relayed rings' down frames for cycle `j`, each behind its RELAY block, which names the relaying end. -/
def State.relaySend (s : State) (j : Nat) (ovr : Bool) : State :=
  s.rdu.relays.foldl (fun s n =>
    let (fs, s) := s.buildDown n j ovr
    { s with rdu := { s.rdu with txRelay := s.rdu.txRelay ++ [(n, ctlBlk ctRelay (n * 2 ^ 48 + (3 - s.ownEnd) * 2 ^ 40) :: fs)] } }) s

/-! ## Roles at the send point -/

/-- GIVE_UP_CONTROL (R288): RELEASE with the mirror, STANDBY with REL_HOLD. -/
def State.giveUpNow (s : State) (j : Nat) : State :=
  let (m, s) := s.buildMirror j
  let s := ((s.dropLease roleStandby).setBit F.RDU_STAT_REL_HOLD true).raise 185
  let s := (s.inc F.RDU_REL_CNT_V).setLt (fun l => { l with releases := l.releases + 1 })
  s.sendPartner j true (some m)

/-- The holder goes on: its frame for cycle `j` is decided, with relayed frames and mirror. -/
def State.holderSend (s : State) (n j : Nat) (ovr : Bool) : State :=
  let s : State := if s.rdu.sendFrom ≤ n then ({ s with cyc := { s.cyc with frame := some (j, ovr) } } : State).relaySend j ovr else s
  let (m, s) := s.buildMirror j
  s.sendPartner j false (some m)

/-- The holder at the send point before t_n: back to INIT (R9), RELEASE, Equinox, or its frame. -/
def State.holderPoint (s : State) (n j : Nat) (ovr : Bool) : State :=
  if s.rdu.backToInit then (s.dropLease roleInit).sendPartner j false none
  else if s.rdu.giveUp then s.giveUpNow j
  else
    let s := if s.rdu.eqxN = some n then s.eqxHolder else s
    if s.role = roleActive then s.holderSend n j ovr else s.sendPartner j false none

/-- A READY standby takes the lease at the send point before t_n (R291) and sends from t_n. -/
def State.standbyPoint (s : State) (n j : Nat) (comp : Option Bool) : State :=
  let asked := match s.rdu.partner with
    | some l => l.eqx && fullCycle s.cycNow l.eqxCyc == n
    | none => false
  let s := if s.role == roleStandby && s.bit F.RDU_STAT_READY && asked then s.eqxStandby else s
  if s.role = roleActive then
    let s := if comp = some false then s.bookShadow (j - 3) else s
    s.holderSend n j (comp.getD false)
  else s.sendPartner j false none

/-- SEND_POINT (R38, R41, R45, R281, R288, R291): t = t_n - 140 ns, the send point of the computation of sample n - 2. -/
def execSendPoint (t : Nat) (s : State) : Host.Outcome State Fault Refusal :=
  .next (s.onDie t fun s =>
    let n := (t + 140) / s.tc
    if (t + 140) % s.tc = 0 ∧ 2 ≤ n ∧ s.cyc.resume ≤ t ∧ s.sys.booting = false then
      let (comp, s) := s.sendComp t (n - 2)
      let s : State := { s with cyc := { s.cyc with frame := none }, rdu := { s.rdu with txRelay := [], txFwd := [] } }
      let s := if s.role = roleActive then
          let s := if comp = some false then s.bookShadow (n - 2) else s
          s.holderPoint n (n + 1) (comp.getD false)
        else s.standbyPoint n (n + 1) comp
      { s with cyc := { s.cyc with comps := s.cyc.comps.filter (fun c => c.k != n - 2) } }
    else s)

/-! ## Down frames (R35, R110, R120) -/

/-- SESSION_FRAME_SEND in cycle `c` (R118, R120): every 8 cycles up to S while the session is set up, once for joiners. -/
def State.sessionSend (s : State) (n c : Nat) : State :=
  let p := s.port n
  match p.next with
  | some x =>
    if s.phase n = phSession ∧ c < x.start ∧ (x.start - c) % 8 = 0 then
      s.setPort n { p with txSession := s.buildSession n c x false (s.matched n) }
    else s.setPort n { p with txSession := [] }
  | none =>
    match p.sess with
    | some x =>
      if p.joiners.isEmpty then s.setPort n { p with txSession := [] }
      else s.setPort n { p with txSession := s.buildSession n c x true p.joiners, joiners := [] }
    | none => s.setPort n { p with txSession := [] }

/-- The down frame of port `n` for cycle `j`, its first command slot at t_{j-1} (R35, R62); a relayed ring's frame was built at the
send point. On a ring without a key session for cycle `j` none leaves, there being no K_D to tag it with (DESIGN CHOICE: R80 and R110
speak of every ring; log entry 114). -/
def State.downSend (s : State) (n j : Nat) (ovr : Bool) : State :=
  let relayed := s.rdu.txRelay.find? (fun x => x.1 == n)
  let (fs, s) : List Blk × State :=
    if ((s.port n).sessFor j).isNone then ([], s)
    else match relayed with
      | some x => (x.2.drop 1, s)
      | none => s.buildDown n j ovr
  let s := (s.setPort n { s.port n with txDown := fs }).sessionSend n (j - 1)
  let (d, s) := s.blockBefore ((j - 1) * s.tc)
  s.txSend n (fs ++ (s.port n).txSession) (some (d - 192)) none (some d)

/-- DOWN_FRAME_SEND (R35): the holder's frames for the cycle after next, SOF and header so early that the first command slot leaves at
t_{j-1}, which is the instant of this command. A unit fenced since its send point still sends them (R287). -/
def execDownFrameSend (t : Nat) (s : State) : Host.Outcome State Fault Refusal :=
  .next (s.onDie t fun s =>
    match s.cyc.frame with
    | none => s
    | some (j, ovr) =>
      if t = (j - 1) * s.tc ∧ s.role ≠ roleInit then
        let s := (s.rings.filter s.sendsTime).foldl (fun s n => s.downSend n j ovr) s
        { s with cyc := { s.cyc with frame := none } }
      else s)

end Sys2Proof.Machine
end

