-- ==== Sys2Proof/Machine/Cfc.lean ====
section
/-! DEFINITION. The configuration controller (17_configuration.md, R366 to R379): slots and their activation, loading, the
switch, partial updates, keys; re-admission of clusters (R207), which reloads from the active slot. -/

namespace Sys2Proof.Machine

/-! ## Statuses (Table 17.13) and long EXECs (R388) -/

def hsOk : BitVec 8 := 0
def hsBusy : BitVec 8 := 1
def hsPriv : BitVec 8 := 2
def hsAddr : BitVec 8 := 3
def hsCrc : BitVec 8 := 4
def hsOpcode : BitVec 8 := 5
def hsRefused : BitVec 8 := 6
def hsLate : BitVec 8 := 7
def hsLateExec : BitVec 8 := 8
def hsLockout : BitVec 8 := 9

/-- A long EXEC is accepted: HCP_BUSY rises. -/
def State.longStart (s : State) (code : Nat) (arg : BitVec 64) : State :=
  ({ s with hcp := { s.hcp with long := some { code := code, arg := arg } } } : State).setBit F.HCP_STAT_BUSY true

/-- A long EXEC ends with its final status: HCP_BUSY falls, source 240. -/
def State.longEnd (s : State) (st : BitVec 8) : State :=
  match s.hcp.long with
  | none => s
  | some l =>
    let s := ({ s with hcp := { s.hcp with long := none } } : State).setBit F.HCP_STAT_BUSY false
    ((s.setFld F.HCP_STAT_LAST_EXEC l.code).setFld F.HCP_STAT_LAST_RESULT st.toNat).raise 240

/-- The long EXEC with code `c` runs: its argument. -/
def State.longArg (s : State) (c : Nat) : Option (BitVec 64) :=
  match s.hcp.long with
  | some l => if l.code = c then some l.arg else none
  | none => none

/-! ## Errors (Table 17.20) -/

/-- CFC_ERR and CFC_ERR_OFS; a field that does not apply to the cause is a free value. -/
def State.setCfcErr (s : State) (e : ImgErr) : State :=
  let (sec, s) := s.orFree e.sec
  let (det, s) := s.orFree e.detail
  let (ofs, s) := s.orFree e.ofs
  (((s.setFld F.CFC_ERR_CODE e.code).setFld F.CFC_ERR_SECTION sec).setFld F.CFC_ERR_DETAIL det).setFld F.CFC_ERR_OFS_V ofs

/-- A verification fails: CFC_ERR, source 241 (R369). -/
def State.verifyFail (s : State) (e : ImgErr) : State := (s.setCfcErr e).raise 241

/-- A request is refused for the cause of the given CODE. -/
def State.refuse (s : State) (code : Nat) : State := s.setCfcErr { code := code }

/-! ## Slots (R372 to R374) -/

/-- G of slot `n` where its activation word is valid. -/
def State.genOf (s : State) (n : Nat) : Option Nat :=
  let g := s.mleFrom (actWord n) 8
  if g + s.mleFrom (actWord n + 8) 8 = 2 ^ 64 - 1 then some g else none

/-- The larger valid generation of the two slots. -/
def State.maxGen (s : State) : Nat := max ((s.genOf 0).getD 0) ((s.genOf 1).getD 0)

def State.otherSlot (s : State) : Nat := 1 - s.activeSlot

/-- IMAGE_ID, PARTIAL and VALID or INVALID of slot `n`. -/
def State.slotMark (s : State) (n : Nat) (ok : Bool) : State :=
  let s := s.setFld64 (F.CFC_SLOT_ID_LO_V n) (F.CFC_SLOT_ID_HI_V n) (s.mleFrom (slotBase n + 16) 8)
  (s.setFld (F.CFC_SLOT_STAT_ST n) (if ok then 1 else 2)).setBit (F.CFC_SLOT_STAT_PARTIAL n) (s.partialAt (slotBase n)).isSome

/-- The result of verifying slot `n`: its mark, and CFC_ERR with source 241 where it fails. -/
def State.slotJudge (s : State) (n : Nat) : Bool × State :=
  match s.verifySlot n with
  | none => (true, s.slotMark n true)
  | some e => (false, (s.slotMark n false).verifyFail e)

/-- Slot `n` is the active one. -/
def State.slotActive (s : State) (n : Nat) : State :=
  ((s.setFld F.CFC_STAT_ACTIVE_SLOT n).setBit (F.CFC_SLOT_STAT_ACTIVE n) true).setBit (F.CFC_SLOT_STAT_ACTIVE (1 - n)) false

/-- The activation word of slot `n`: G + 1 and its complement (R374). -/
def State.writeAct (s : State) (n : Nat) : State :=
  let g := (s.maxGen + 1) % 2 ^ 64
  ((s.setMle (actWord n) 8 g).setMle (actWord n + 8) 8 (2 ^ 64 - 1 - g)).setFld (F.CFC_SLOT_GEN_V n) g

/-! ## Keys (R371, Table 17.5) -/

/-- Plaintext of this unit's key entry. -/
def State.keyBytes (s : State) (i : Img) : List Byte :=
  match i.keys with
  | some (e, b) => (s.unwrap e b).getD []
  | none => []

/-- Bytes `o` to `o + n - 1` of a plaintext. -/
def keyPart (k : List Byte) (o n : Nat) : List Byte := (k.drop o).take n

/-- K_PRIV alone goes into the secure store (R359). -/
def State.loadPriv (s : State) (k : List Byte) : State := s.setMbytes (secBase + 0x820) (keyPart k 0x820 32)

/-- The secure store is loaded; while a tamper latch stands, with K_PRIV alone (R359, R360). -/
def State.loadKeys (s : State) (k : List Byte) : State :=
  if s.memu.keysWiped then s.loadPriv k else s.setMbytes secBase (k.take 0x40000)

/-! ## Memory loads (R376) -/

/-- A MEMLOAD reaches tile memories, cluster banks, the staging DPRAM's buffers and the record store. -/
def loadable (a : Nat) : Bool :=
  a < 0x200000000 || (0x200000000 ≤ a && a < 0x200800000) || (0x201000000 ≤ a && a < 0x202000000) ||
    (dpramBase + 0x60000 ≤ a && a < dpramBase + 0x200000)

/-- The word that the loads of an image put at address `a`, where one does. -/
def State.loadedWord (s : State) (l : List (Nat × Nat × Nat × Option Nat)) (a : Nat) : Option (BitVec 32) :=
  (l.reverse.find? (fun x => decide (x.1 ≤ a) && decide (a + 4 ≤ x.1 + x.2.2.1))).map (fun x => s.mw (x.2.1 + (a - x.1)))

/-- Write the words of one load that the loads `old` do not already give. -/
def State.loadWords (s : State) (old : List (Nat × Nat × Nat × Option Nat)) (x : Nat × Nat × Nat × Option Nat) : State :=
  (List.range (x.2.2.1 / 4)).foldl (fun s i =>
    let a := x.1 + 4 * i
    let w := s.mw (x.2.1 + 4 * i)
    if loadable a && s.loadedWord old a != some w then s.setMw a w else s) s

def State.memLoads (s : State) (old new : List (Nat × Nat × Nat × Option Nat)) : State := new.foldl (fun s x => s.loadWords old x) s

/-! ## Programs -/

/-- Load a program into slot `slot` of the four engines of its cluster. -/
def State.progLoad (s : State) (slot : Nat → Nat) (p : Nat × Nat × Nat × Nat) : State :=
  let (c, first, a, n) := p
  let words := (List.range n).map (fun i => (i, s.mw (a + 4 * i)))
  let put (m : Sparse (BitVec 32)) (e : Nat) : Sparse (BitVec 32) :=
    words.foldl (fun m w => spSet 0 m (e * 16384 + slot c * 8192 + first + w.1) w.2) m
  { s with tds := { s.tds with prog := [4 * c, 4 * c + 1, 4 * c + 2, 4 * c + 3].foldl put s.tds.prog } }

/-- Program slot that the engines of cluster `c` run from, and the other one. -/
def State.runSlot (s : State) (c : Nat) : Nat := s.fld (F.TDS_CL_CTL_PSEL c)
def State.freeSlot (s : State) (c : Nat) : Nat := 1 - s.runSlot c

/-- Every cluster changes to its other program slot; shadow entries of the old image are gone. -/
def State.pselFlip (s : State) : State :=
  let s := (List.range 8).foldl (fun s c =>
    (s.setBit (F.TDS_CL_CTL_PSEL c) (!s.bit (F.TDS_CL_CTL_PSEL c))).setBit (F.TDS_CL_CTL_SHADOW_OK c) false) s
  { s with tds := { s.tds with shadow := [] } }

/-! ## An image comes into force (R370, R377, R402) -/

/-- Entries whose TYPE, PKIND or PID changes take INIT; at the start of an image (`old` is none) every listed one does. An entry of a fixed
producer is typed by it whether or not an image lists it (R412), so a switch changes none of them. -/
def State.sigInit (s : State) (old : Option (Sparse SigDef)) : State :=
  { s with sig := s.cfg.sigs.foldl (fun m e =>
      let keeps := match old with
        | none => false
        | some l =>
          let o := spGet ({} : SigDef) l e.1
          (fixedSig e.1).isSome || (o.ty == e.2.ty && o.pkind == e.2.pkind && o.pid == e.2.pid)
      if keeps then m else spSet 0 m e.1 e.2.init) s.sig }

/-- A lane leaves electrical idle, unless something holds it there. -/
def State.laneOn (s : State) (l : Nat) : State := if s.txIdle l then s else s.txWake l

/-- Ring ports by RPU_PORTn_CTL.EN: an enabled one lights, one that is no longer enabled goes off. -/
def State.portsLoad (s : State) : State :=
  (List.range 64).foldl (fun s n =>
    if s.enabled n then (if s.phase n = phOff then (s.setPhase n phLight).laneOn n else s)
    else if s.phase n = phOff then s else ((s.setPort n {}).setPhase n phOff).txStop n) s

/-- Partner and station lanes by PL_CTL.EN and SPU_PAIRp_CTL.EN. -/
def State.linksLoad (s : State) : State :=
  let s := [68, 69, 70, 71].foldl (fun s l => if s.bit F.PL_CTL_EN then s.laneOn l else s.txStop l) s
  [64, 65, 66, 67].foldl (fun s l =>
    s.setBit (F.LPH_LANE_STAT_TX_ACTIVE l) (s.bit (F.SPU_PAIR_CTL_EN ((l - 64) / 2)) && !s.txIdle l)) s

/-- Lanes carry traffic in OPERATIONAL alone (Table 17.12). -/
def State.lightUp (s : State) : State := if s.fld F.SYS_LC_STATE = 2 then s.portsLoad.linksLoad else s

/-- APW channels that the image starts or stops, staged values that it changes, trip inputs whose active level it turns (R338, R339,
R343). -/
def State.apwLoad (s old : State) : State :=
  let s := (List.range 12).foldl (fun s c =>
    let mark (r : Nat) (w : Option Nat) : Option Nat := if s.rd r = old.rd r then w else some s.mono
    let x := s.apwCh c
    let s := s.setApwCh c { x with wPeriod := mark (R.APW_CH_PERIOD c) x.wPeriod, wPhase := mark (R.APW_CH_PHASE c) x.wPhase,
                                   wDuty := mark (R.APW_CH_DUTY c) x.wDuty }
    s.apwRun c (old.bit (F.APW_CH_CTL_EN c))) s
  (List.range 8).foldl (fun s i => s.tripTurn i (old.tripOn i)) s

/-- RECDEF differs: the DRC disarms and closes its record; mask envelopes are those of the image. -/
def State.recLoad (s : State) (i : Img) : State :=
  let s := s.drcClose false
  let s := (s.setBit F.DRC_STAT_ARMED false).setBit F.DRC_CTL_ARM false
  { s with drc := { s.drc with points := i.points.foldl (fun m e => spSet 0 m e.1 e.2) [], armReq := false } }

/-- The period changes from `tc0` in cycle `n`: cycles run again from the first multiple of the new one at or after the end
of the last old cycle, and the frames that leave in the first three of them command BLOCK (R32). -/
def State.tcChange (s : State) (tc0 n : Nat) : State :=
  let t := ((n + 1) * tc0 + s.tc - 1) / s.tc * s.tc
  { s with cyc := { s.cyc with comps := [], frame := none, blockTill := t / s.tc + 3, resume := t } }

/-- Every enabled ring starts a new key session (R98). -/
def State.resessionAll (s : State) : State := s.rings.foldl (fun s n => s.resessionPort n) s

/-- Every SM of an arm holds BUD_CAP tokens (R153). -/
def State.tokenFill (s : State) : State :=
  s.cfg.arm.foldl (fun s e =>
    if e.2 < 12 then s.setSmr e.1 { s.smr e.1 with tokens := s.fld (F.MDU_ARM_BUDGET_BUD_CAP e.2) } else s) s

/-- The image of slot `slot` comes into force: at a start (`boot`), or at a switch instant in cycle `n`. -/
def State.putInForce (s : State) (slot : Nat) (boot : Bool) (n : Nat) : State :=
  let s := s.apwAll.calStep
  let was := s
  let old : Img := if boot || s.bit F.CFC_STAT_NOIMG then {} else s.slotImg s.activeSlot
  let new := s.slotImg slot
  let k0 := s.keyBytes old
  let k1 := s.keyBytes new
  let s := s.cluCancel.swapCancel
  let s := new.prog.foldl (fun s p => s.progLoad (if boot then was.runSlot else was.freeSlot) p) s
  let s := (s.imgApply new).when (!boot) State.pselFlip
  let s := (s.memLoads old.loads new.loads).sigInit (if boot || was.bit F.CFC_STAT_NOIMG then none else some was.cfg.sigs)
  let s := s.when (boot || was.bit F.CFC_STAT_NOIMG) State.tokenFill
  let s := s.when (boot || k0 != k1) (·.loadKeys k1)
  let s := s.when (!boot && keyPart k0 0x820 32 != keyPart k1 0x820 32) State.privClose
  let s := s.when (boot || was.cfg.recCrc != new.recCrc) (·.recLoad new)
  let s := (s.slotActive slot).setBit F.CFC_STAT_NOIMG false
  let s := ((s.cluLoad.msuLoad was).apwLoad was).safetyLoad new.safeCrc
  let s := (s.when (was.rd R.SFI_SAFE_CRC != s.rd R.SFI_SAFE_CRC) State.partnerDiff).lightUp
  let newTc := !boot && was.tc != s.tc
  let s := s.when newTc (·.tcChange was.tc n)
  let s := s.when (newTc || (!boot && k0.take 0x800 != k1.take 0x800)) State.resessionAll
  s.refreshReady

/-! ## LOAD (R372) -/

/-- EXEC LOAD: an image length that cannot be is refused (CODE 15). -/
def State.loadReq (s : State) (arg : BitVec 64) : BitVec 8 × State :=
  let st := s.fld F.SYS_LC_STATE
  if st = 0 ∨ st = 3 then (hsRefused, s)
  else if imgMax < arg.toNat ∨ arg.toNat ≠ s.imgLen stagingBase then (hsRefused, s.refuse 15)
  else (hsOk, s.longStart 1 arg)

/-- Copy `n` bytes of memory. -/
def State.copyMem (s : State) (src dst n : Nat) : State := s.setMbytes dst (s.mbytes src n)

/-- A configuration slot is erased but for its trailer. -/
def State.eraseSlot (s : State) (n : Nat) : State := s.memWipe (slotBase n) (actWord n)

/-- The copy into the inactive slot, its verification and mark. -/
def State.loadDone (s : State) (len : Nat) : State :=
  let n := s.otherSlot
  let s := (s.eraseSlot n).copyMem stagingBase (slotBase n) len
  ((s.slotJudge n).2).longEnd (if (s.slotJudge n).1 then hsOk else hsRefused)

/-- A reset or a loss of power cuts off what the CFC is writing into NV: an activation word may stand without its complement, which
leaves it invalid (R374), and of an image that LOAD or UPDATE copies into the inactive slot the first bytes, or nothing of it has begun (R372, R378). -/
def State.cfcCut (s : State) : State :=
  let s := if s.cfc.act.isSome then
      let (begun, s) := s.freeBool
      s.when begun (fun s => s.setMle (actWord s.activeSlot) 8 ((s.maxGen + 1) % 2 ^ 64))
    else s
  let base := s.mbytes (slotBase s.activeSlot) (s.imgLen (slotBase s.activeSlot))
  let image : Option (List Byte) := match s.longArg 1, s.longArg 3 with
    | some n, _ => some (s.mbytes stagingBase n.toNat)
    | none, some n => some (base ++ s.mbytes stagingBase n.toNat)
    | none, none => none
  match image with
  | none => s
  | some bs =>
    let (m, s) := s.freeNat
    if m = 0 then s else (s.eraseSlot s.otherSlot).setMbytes (slotBase s.otherSlot) (bs.take (min (m - 1) imgMax))

/-- LOAD_COMPLETE. -/
def execLoadComplete (t : Nat) (s : State) : Host.Outcome State Fault Refusal :=
  .next (s.onDie t fun s => match s.longArg 1 with
    | some a => s.loadDone a.toNat
    | none => s)

/-! ## SWITCH (R375 to R377) -/

/-- EXEC SWITCH. -/
def State.switchReq (s : State) (arg : BitVec 64) : BitVec 8 × State :=
  let st := s.fld F.SYS_LC_STATE
  if st = 0 ∨ st = 3 then (hsRefused, s) else (hsOk, s.longStart 2 arg)

/-- An arm runs, or an SM of an arm is not in BLOCK (R32). -/
def State.armsUp (s : State) : Bool :=
  s.fld F.MDU_STAT_ARM_RUN != 0 || s.cfg.arm.any (fun e => decide (e.2 < 12) && (s.smr e.1).st != smBlock)

/-- Arms whose ARMMAP entries differ between the maps `x` and `y`. -/
def armsMoved (x y : Sparse Nat) (m : Nat) : Bool :=
  x.any (fun e => e.2 == m && spGet 255 y e.1 != m) || y.any (fun e => e.2 == m && spGet 255 x e.1 != m)

/-- What refuses a switch to image `i` in cycle `n` (R375): the CODE of Table 17.20. -/
def State.switchBar (s : State) (i : Img) (n : Nat) : Option Nat :=
  let tcNew := (s.imgApply i).tc
  if s.cycNow + 65536 < n then some 13
  else if tcNew ≠ s.tc ∧ s.armsUp = true then some 14
  else if (List.range 12).any (fun m => armsMoved s.cfg.arm i.arm m && s.bit (F.MDU_ARM_CTL_RUN m)) then some 14
  else if s.leaseHeld && i.safeCrc != some (s.rd R.SFI_SAFE_CRC) then some 11
  else if s.rdu.eqxN.isSome then some 12
  else none

/-- Verification of the inactive slot has ended. -/
def State.switchJudge (s : State) (arg : BitVec 64) : State :=
  let (ok, s) := s.slotJudge s.otherSlot
  if !ok then s.longEnd hsRefused
  else
    let n := fullCycle s.cycNow (arg.extractLsb' 32 32)
    match s.switchBar (s.slotImg s.otherSlot) n with
    | some c => (s.refuse c).longEnd hsRefused
    | none => match s.judge n (arg.getLsbD 0) with
      | none => (s.setFld F.CFC_STAT_SW_ST 2).longEnd hsLate
      | some (n, late) =>
        let s : State := { s with cfc := { s.cfc with pend := some (n, late) } }
        ((s.setBit F.CFC_STAT_SW_PEND true).wr R.CFC_SW_CYC (cyc32 n)).when late (·.setFld F.CFC_STAT_SW_ST 3)

/-- SWITCH_VERIFIED. -/
def execSwitchVerified (t : Nat) (s : State) : Host.Outcome State Fault Refusal :=
  .next (s.onDie t fun s => match s.longArg 2 with
    | some a => if s.cfc.pend.isSome || s.cfc.act.isSome then s else s.switchJudge a
    | none => s)

/-- SWITCH_INSTANT: at the P0 release that falls in the accepted cycle. -/
def execSwitchInstant (t : Nat) (s : State) : Host.Outcome State Fault Refusal :=
  .next (s.onDie t fun s => match s.cfc.pend with
    | some (n, late) =>
      if t = n * s.tc + s.p0Ofs then
        let s := s.putInForce s.otherSlot false n
        let s : State := { s with cfc := { s.cfc with pend := none, act := some (if late then hsLateExec else hsOk) },
                                  cyc := { s.cyc with switchAt := some t } }
        (s.setBit F.CFC_STAT_SW_PEND false).setFld F.CFC_STAT_SW_ST (if late then 3 else 1)
      else s
    | none => s)

/-- ACTIVATION_WORD_WRITTEN (R374, R377): source 242, and the switch's EXEC ends. -/
def execActivationWordWritten (t : Nat) (s : State) : Host.Outcome State Fault Refusal :=
  .next (s.onDie t fun s => match s.cfc.act with
    | some st =>
      let s : State := { s with cfc := { s.cfc with act := none } }
      ((s.writeAct s.activeSlot).raise 242).longEnd st
    | none => s)

/-- A pending switch is cancelled by a time step (R248). -/
def State.switchCancel (s : State) : State :=
  if s.cfc.pend.isSome then
    let s : State := { s with cfc := { s.cfc with pend := none } }
    ((s.setBit F.CFC_STAT_SW_PEND false).setFld F.CFC_STAT_SW_ST 2).longEnd hsLate
  else s

/-! ## UPDATE (R378) -/

/-- Sections that a live update may carry. -/
def State.liveSec (s : State) (b : Nat) (x : Sec) : Bool :=
  if x.ty = 5 then (s.secRecs b x).1.all (fun r => r.ty == 0x09) else [4, 7, 9, 10].contains x.ty

/-- The CODE that bars the partial image at `b` from live application (R378, Table 17.6). -/
def State.updateBar (s : State) (b : Nat) : Option ImgErr :=
  match (s.secs b).find? (fun x => !s.liveSec b x) with
  | some x => some { code := 10, sec := some x.idx }
  | none =>
    match (s.secs b).find? (fun x => x.ty == 9) with
    | some x => if s.leaseHeld then some { code := 11, sec := some x.idx } else none
    | none => none

/-- The partial image at `b` carries recorder definitions and the DRC is armed. -/
def State.updateArmed (s : State) (b : Nat) : Bool := s.bit F.DRC_STAT_ARMED && (s.secs b).any (fun x => x.ty == 7)

/-- EXEC UPDATE. -/
def State.updateReq (s : State) (arg : BitVec 64) : BitVec 8 × State :=
  let st := s.fld F.SYS_LC_STATE
  let base := s.imgLen (slotBase s.activeSlot)
  if st = 0 ∨ st = 3 ∨ s.bit F.CFC_STAT_NOIMG = true then (hsRefused, s)
  else if imgMax < base + arg.toNat ∨ arg.toNat ≠ s.imgLen stagingBase then (hsRefused, s.refuse 15)
  else match s.updateBar stagingBase with
    | some e => (hsRefused, s.setCfcErr e)
    | none => if s.updateArmed stagingBase then (hsRefused, s.refuse 10) else (hsOk, s.longStart 3 arg)

/-- A task entry of the cluster update at `p` that reaches outside its cluster, before or after (R209). -/
def State.clusterStray (s : State) (p : Nat) : Option ImgErr :=
  (s.imgRecs p).findSome? (fun r =>
    if r.ty = 0x05 && r.sec.ty = 4 then
      ((List.range (r.len / 24)).find? (fun n =>
        let e : BitVec 192 := BitVec.ofNat 192 (s.mleFrom (r.body p + 24 * n) 24)
        !inCluster e r.sec.inst || !inCluster (spGet 0 s.tds.tt (r.arg + n)) r.sec.inst)).map
        (fun n => { code := 7, sec := some r.sec.idx, detail := some (r.arg + n), ofs := some r.ofs })
    else none)

/-- Verification of base and partial image in slot `n`. -/
def State.updateErr (s : State) (n : Nat) : Option ImgErr :=
  match s.verifySlot n with
  | some e => some e
  | none => match s.partialAt (slotBase n) with
    | some p => s.clusterStray p
    | none => some { code := 1 }

/-- CLUSTER sections of a live update: programs and entries into the cluster's shadow, memory loads, SHADOW_OK. -/
def State.clusterLoad (s : State) (p : Nat) : State :=
  let i := s.imgOf {} p
  let s := i.prog.foldl (fun s x => s.progLoad s.freeSlot x) s
  let s : State := { s with tds := { s.tds with shadow := i.tt.foldl (fun m e => spSet none m e.1 (some e.2)) s.tds.shadow } }
  let s := s.memLoads [] i.loads
  (s.secs p).foldl (fun s x => if x.ty = 4 then s.setBit (F.TDS_CL_CTL_SHADOW_OK x.inst) true else s) s

/-- The partial image is placed behind the base image in the inactive slot, verified, activated and applied live. -/
def State.updateDone (s : State) (len : Nat) : State :=
  let a := s.activeSlot
  let n := s.otherSlot
  let base := s.imgLen (slotBase a)
  let s := ((s.eraseSlot n).copyMem (slotBase a) (slotBase n) base).copyMem stagingBase (slotBase n + base) len
  match s.updateErr n with
  | some e => ((s.slotMark n false).verifyFail e).longEnd hsRefused
  | none =>
    let p := slotBase n + base
    match s.updateBar p with
    | some e => ((s.slotMark n true).setCfcErr e).longEnd hsRefused
    | none =>
      if s.updateArmed p then ((s.slotMark n true).refuse 10).longEnd hsRefused
      else
        let s := (((s.slotMark n true).writeAct n).slotActive n).clusterLoad p
        (({ s with cfc := { s.cfc with live := true } } : State).raise 243).longEnd hsOk

/-- UPDATE_COMPLETE. -/
def execUpdateComplete (t : Nat) (s : State) : Host.Outcome State Fault Refusal :=
  .next (s.onDie t fun s => match s.longArg 3 with
    | some a => s.updateDone a.toNat
    | none => s)

/-! ## Keys after a tamper (R359, R360) -/

/-- Keys of the active image. -/
def State.activeKeys (s : State) : List Byte := s.keyBytes (s.slotImg s.activeSlot)

/-- PRIV_KEY_RELOAD (R359): within 1 ms of a wipe. -/
def execPrivKeyReload (t : Nat) (s : State) : Host.Outcome State Fault Refusal :=
  .next (s.onDie t fun s =>
    if s.memu.privPend then
      let s : State := { s with memu := { s.memu with privPend := false } }
      if s.imageOn then s.loadPriv s.activeKeys else s
    else s)

/-- A privileged write to MEM_TAMP_STAT; once every latch bit is clear, the other keys are reloaded. -/
def State.tampClear (s : State) (m : Acc) (v : BitVec 32) : State :=
  if s.priv m then
    let s := s.touchPriv
    let x := s.rd R.MEM_TAMP_STAT &&& ~~~v
    let s := s.wr R.MEM_TAMP_STAT x
    if s.fld F.MEM_TAMP_STAT_LATCH = 0 ∧ s.memu.keysWiped = true then
      let s : State := { s with memu := { s.memu with keysWiped := false, privPend := false } }
      if s.imageOn then s.loadKeys s.activeKeys else s
    else s
  else s

/-- TAMP_CLEAR (R359). -/
def execTampClear (t : Nat) (by' : Acc) (v : BitVec 32) (s : State) : Host.Outcome State Fault Refusal :=
  .next (s.onDie t (·.tampClear by' v))

/-! ## Re-admission of a cluster (R207) -/

/-- Wake the memories of cluster `c` that are in Winter (R362). -/
def State.wakeCluster (s : State) (c : Nat) : State :=
  [4 * c, 4 * c + 1, 4 * c + 2, 4 * c + 3].foldl (fun s i => s.winWake false i) (s.winWake true c)

/-- ADMIT: the cluster is masked, its tile memories and bank are cleared. -/
def State.admitCluster (s : State) (c : Nat) : State :=
  if s.bit (F.TDS_CL_CTL_ADMIT c) then s
  else
  let s := ((s.wakeCluster c).setBit (F.TDS_CL_CTL_ADMIT c) true).maskSync
  let s := [4 * c, 4 * c + 1, 4 * c + 2, 4 * c + 3].foldl (fun s i => s.memWipe (tileBase i) (tileBase (i + 1))) s
  s.memWipe (bankBase c) (bankBase (c + 1))

/-- ADMIT (R207). -/
def execAdmitCluster (t : Nat) (c : Fin 8) (s : State) : Host.Outcome State Fault Refusal := .next (s.onDie t (·.admitCluster c))

/-- An address of cluster `c`: its tile memories or its bank. -/
def ofCluster (c a : Nat) : Bool :=
  (tileBase (4 * c) ≤ a && a < tileBase (4 * c + 4)) || (bankBase c ≤ a && a < bankBase (c + 1))

/-- The parts of the load `x` that fall into the range from `lo` to `hi`. -/
def clipLoad (lo hi : Nat) (x : Nat × Nat × Nat × Option Nat) : List (Nat × Nat × Nat × Option Nat) :=
  let a := max lo x.1
  let e := min hi (x.1 + x.2.2.1)
  if a < e then [(a, x.2.1 + (a - x.1), e - a, x.2.2.2)] else []

/-- Memory loads of the active slot go into the memories of cluster `c`, and into these alone. -/
def State.reloadCluster (s : State) (c : Nat) : State :=
  if s.imageOn then
    s.memLoads [] ((s.slotImg s.activeSlot).loads.flatMap (fun x =>
      clipLoad (tileBase (4 * c)) (tileBase (4 * c + 4)) x ++ clipLoad (bankBase c) (bankBase (c + 1)) x))
  else s

/-- The end of a re-admission: `bad` is the memory whose test fails. -/
def State.admitted (s : State) (c : Nat) (bad : Option Nat) : State :=
  if !s.bit (F.TDS_CL_CTL_ADMIT c) then s
  else match bad with
    | none =>
      let s := (s.reloadCluster c).setBit (F.TDS_CL_CTL_ADMIT c) false
      let s : State := { s with tds := { s.tds with admitted := s.tds.admitted ||| (1#8 <<< c) },
                                memu := { s.memu with cluIso := s.memu.cluIso ||| (1#8 <<< c) } }
      s.raise 111
    | some b =>
      let s := s.when (decide (b < 4)) (·.tileUnc (4 * c + b))
      let s : State := { s with memu := { s.memu with cluIso := s.memu.cluIso ||| (1#8 <<< c) } }
      ((s.setBit (F.TDS_CL_CTL_ADMIT c) false).setBit (F.TDS_CL_CTL_ADM_FAIL c) true).raise 111

/-- ADMISSION_COMPLETE (R207, R15). -/
def execAdmissionComplete (t : Nat) (c : Fin 8) (bad : Option (Fin 5)) (s : State) : Host.Outcome State Fault Refusal :=
  .next (s.onDie t (·.admitted c (bad.map (·.val))))

end Sys2Proof.Machine
end

