-- ==== Sys2Proof/Machine/Spu.lean ====
section
/-! DEFINITION. The station port unit (10_time_station.md, R229 to R241, R255): pair modes, receive filters and classes, duplicate
discard, descriptor rings, transmission. -/

namespace Sys2Proof.Machine

def State.stPort (s : State) (n : Nat) : StPort := spGet {} s.spu.ports n
def State.setStPort (s : State) (n : Nat) (x : StPort) : State := { s with spu := { s.spu with ports := spSet {} s.spu.ports n x } }
def State.txRing (s : State) (p q : Nat) : TxRing := spGet {} s.spu.tx (p * 4 + q)
def State.setTxRing (s : State) (p q : Nat) (x : TxRing) : State := { s with spu := { s.spu with tx := spSet {} s.spu.tx (p * 4 + q) x } }
def State.rxActive (s : State) (p r : Nat) : Bool := spGet false s.spu.rx (p * 4 + r)
def State.setRxActive (s : State) (p r : Nat) (b : Bool) : State := { s with spu := { s.spu with rx := spSet false s.spu.rx (p * 4 + r) b } }

/-- PRP, HSR (Table 10.1). -/
def State.isPrp (s : State) (p : Nat) : Bool := s.fld (F.SPU_PAIR_CTL_MODE p) == 1
def State.isHsr (s : State) (p : Nat) : Bool := s.fld (F.SPU_PAIR_CTL_MODE p) == 2

/-- The pair's own unicast address. -/
def State.ownMac (s : State) (p : Nat) : BitVec 48 :=
  BitVec.ofNat 48 (s.fld (F.SPU_PAIR_MAC_LO_V p) + s.fld (F.SPU_PAIR_MAC_HI_V p) * 2 ^ 32)

/-! ## Record store (R237) -/

/-- Rings and buffers lie in the record store; a write elsewhere is dropped (log entry 26). -/
def State.storeBytes (s : State) (a : Nat) (bs : List Byte) : State := if a + bs.length ≤ 0x0200000000 then s.setMbytes a bs else s

/-- A descriptor's address: BASE, index. -/
def ringDesc (baseLo baseHi i : Nat) : Nat := baseHi * 2 ^ 32 + baseLo * 32 + i * 32

def State.txDesc (s : State) (p q : Nat) : Nat :=
  ringDesc (s.fld (F.SPU_PAIR_TX_BASE_BASE p q)) (s.fld (F.SPU_PAIR_TX_SIZE_BASE_HI p q)) (s.fld (F.SPU_PAIR_TX_HEAD_V p q))

def State.rxDesc (s : State) (p r : Nat) : Nat :=
  ringDesc (s.fld (F.SPU_PAIR_RX_BASE_BASE p r)) (s.fld (F.SPU_PAIR_RX_SIZE_BASE_HI p r)) (s.fld (F.SPU_PAIR_RX_HEAD_V p r))

/-- The 16-bit field at byte `o` of the descriptor at `a`. -/
def State.descU16 (s : State) (a o : Nat) : BitVec 16 := BitVec.ofNat 16 (s.mleFrom (a + o) 2)

/-- The index after `i` in a ring of `size` descriptors. -/
def ringNext (size i : Nat) : Nat := if size ≤ i + 1 then 0 else i + 1

/-! ## Receive filters (R230, R234 to R236) -/

/-- Enabled SV entries that match a frame of pair `p`. -/
def State.svMatch (s : State) (p : Nat) (f : StFrame) : Option Nat :=
  (List.range 16).find? (fun i =>
    s.bit (F.SPU_SV_CFG_EN i) && s.fld (F.SPU_SV_CFG_PAIR i) == p &&
    f.da == BitVec.ofNat 48 (s.fld (F.SPU_SV_DA_LO_V i) + s.fld (F.SPU_SV_DA_HI_HI i) * 2 ^ 32) &&
    f.appid.toNat == s.fld (F.SPU_SV_DA_HI_APPID i) &&
    (!s.bit (F.SPU_SV_CFG_VID_CHK i) || (match f.tag with
      | some (v, _) => v.toNat == s.fld (F.SPU_SV_CFG_VID i)
      | none => false)))

/-- Destination address of GOOSE entry `g`. -/
def State.goDa (s : State) (g : Nat) : BitVec 48 :=
  BitVec.ofNat 48 (s.fld (F.SPU_GO_DA_LO_V g) + s.fld (F.SPU_GO_DA_HI_HI g) * 2 ^ 32)

def State.goMatch (s : State) (f : StFrame) : Option Nat :=
  (List.range 64).find? (fun g => s.bit (F.SPU_GO_CFG_EN g) && f.da == s.goDa g && f.appid.toNat == s.fld (F.SPU_GO_CFG_APPID g))

/-- The destination addresses that a station MAC accepts (R230). -/
def State.macAccepts (s : State) (p : Nat) (da : BitVec 48) : Bool :=
  da == s.ownMac p || da == 0xFFFFFFFFFFFF || da == 0x011B19000000 || da == 0x0180C200000E ||
  (List.range 16).any (fun i => s.bit (F.SPU_PAIR_MC_HI_EN p i) &&
    da == BitVec.ofNat 48 (s.fld (F.SPU_PAIR_MC_LO_V p i) + s.fld (F.SPU_PAIR_MC_HI_HI p i) * 2 ^ 32)) ||
  (List.range 16).any (fun i => s.bit (F.SPU_SV_CFG_EN i) &&
    da == BitVec.ofNat 48 (s.fld (F.SPU_SV_DA_LO_V i) + s.fld (F.SPU_SV_DA_HI_HI i) * 2 ^ 32)) ||
  (List.range 64).any (fun g => s.bit (F.SPU_GO_CFG_EN g) && da == s.goDa g)

/-- The MAC of a frame verifies under key slot `key` or `key` + 1 (R236). -/
def State.authOk (s : State) (alg key : Nat) (f : StFrame) : Bool :=
  match f.mac with
  | some (some b) => Config.stationMacOk alg (s.key256 (secBase + 0x840 + 32 * (key + (if b then 1 else 0)))) f.bytes
  | _ => false

/-! ## Duplicates (R231, R232) -/

def State.dupTable (s : State) (p : Nat) : List DupEnt := spGet [] s.spu.dup p
def State.setDup (s : State) (p : Nat) (l : List DupEnt) : State := { s with spu := { s.spu with dup := spSet [] s.spu.dup p l } }

/-- An entry still counts: FORGET ms have not passed. -/
def State.dupLive (s : State) (p : Nat) (e : DupEnt) : Bool := decide (s.mono < e.at' + s.fld (F.SPU_PAIR_CTL_FORGET p) * 10 ^ 6)

/-- The frame has been seen. -/
def State.dupSeen (s : State) (p : Nat) (sa : BitVec 48) (seq : BitVec 16) : Bool :=
  (s.dupTable p).any (fun e => e.sa == sa && e.seq == seq && s.dupLive p e)

/-- Note a first copy; the oldest of 1,024 entries is evicted. -/
def State.dupNote (s : State) (p : Nat) (sa : BitVec 48) (seq : BitVec 16) : State :=
  let l := (s.dupTable p).filter (fun e => !(e.sa == sa && e.seq == seq))
  if 1024 ≤ l.length then
    ((s.setDup p (l.drop 1 ++ [⟨sa, seq, s.mono⟩])).setBit (F.SPU_PAIR_STAT_DUP_OVF p) true).raise 70
  else s.setDup p (l ++ [⟨sa, seq, s.mono⟩])

/-- DUP_ENTRY_EXPIRY (R231): the oldest entry, after FORGET ms. -/
def execDupExpiry (t : Nat) (pair : Fin 2) (s : State) : Host.Outcome State Fault Refusal :=
  .next (s.onDie t fun s =>
    match s.dupTable pair with
    | e :: l => if s.dupLive pair e then s else s.setDup pair l
    | [] => s)

/-! ## Delivery (R237, R239) -/

/-- STATUS of a receive descriptor's write-back (Table 10.4). -/
def rxStatus (port cls : Nat) (tag : Option (BitVec 12 × BitVec 3)) (auth : Bool) : Nat :=
  port % 2 * 2 ^ 14 + (match tag with
    | some (_, pcp) => 2 ^ 13 + pcp.toNat * 2 ^ 10
    | none => 0) + cls * 2 ^ 7 + (if auth then 2 ^ 6 else 0)

/-- Put a frame into receive ring `r` of the pair of `port`. -/
def State.rxPut (s : State) (port r cls : Nat) (auth : Bool) (f : StFrame) : State :=
  let p := port / 2
  let a := s.rxDesc p r
  let own := (s.descU16 a 12).getLsbD 15
  if s.drc.ready && s.rxActive p r && own then
    let s := s.storeBytes (s.mleFrom a 5) (f.bytes.take (s.descU16 a 8).toNat)
    let wb := leBytes 2 f.bytes.length ++ leBytes 2 (rxStatus port cls f.tag auth) ++
      leBytes 2 (match f.tag with
        | some (v, _) => v.toNat
        | none => 0) ++ leBytes 8 s.now ++
      leBytes 2 (match f.red with
        | some (q, _) => q.toNat
        | none => 0) ++ leBytes 1 (match f.red with
        | some (_, l) => l.toNat
        | none => 0)
    let s := s.storeBytes (a + 10) wb
    s.setFld (F.SPU_PAIR_RX_HEAD_V p r) (ringNext (s.fld (F.SPU_PAIR_RX_SIZE_SIZE p r)) (s.fld (F.SPU_PAIR_RX_HEAD_V p r)))
  else ((s.setRxActive p r false).inc (F.SPU_PAIR_NOBUF_V p)).raise 66

/-- A frame that fails R236. -/
def State.authFail (s : State) (p : Nat) : State := (s.inc (F.SPU_PAIR_AUTH_FAIL_V p)).raise 67

/-- A sampled-value frame that entry `i` matches (R235, R236). -/
def State.svFrame (s : State) (port i : Nat) (f : StFrame) : State :=
  let p := port / 2
  let auth := s.bit (F.SPU_SV_CFG_AUTH i)
  let bad := auth && !s.authOk (s.fld (F.SPU_SV_CFG_ALG i)) (s.fld (F.SPU_SV_CFG_KEY i)) f
  let s := s.when bad (·.authFail p)
  match f.sv with
  | some a =>
    let n := s.fld (F.MSU_SV_CFG_NVAL i)
    if !bad && a.confRev == s.rd (R.SPU_SV_CONFREV i) && a.dataOk && a.asdus.all (fun x => x.vals.length == n) &&
        decide (1 ≤ a.asdus.length ∧ a.asdus.length ≤ 8) then
      let s := a.asdus.foldl (fun s x => s.svSample i x.vals x.cnt x.synch) s
      s.when (s.bit (F.SPU_SV_CFG_COPY i)) (·.rxPut port 2 2 auth f)
    else (s.inc (F.SPU_SV_DISC_CNT_V i)).raise 68
  | none => (s.inc (F.SPU_SV_DISC_CNT_V i)).raise 68

/-- A PTP message that the hardware does not serve: it needs a feature that Table 10.5 marks absent, or runs on the pair that does not
carry PTP (DEDUCED, log entry 122). -/
def State.ptpIgnored (s : State) (p : Nat) (f : StFrame) : Bool := f.ptpAbsent || s.fld F.TBU_CTL_PTP_PAIR != p

/-- Classify and deliver (Table 10.2). -/
def State.classify (s : State) (port : Nat) (f : StFrame) : State :=
  let p := port / 2
  if f.etype = 0x88F7 then (if s.ptpIgnored p f then s.inc F.SPU_PTP_IGN_CNT_V else s.rxPut port 0 1 false f)
  else if f.etype = 0x88BA then
    match s.svMatch p f with
    | some i => s.svFrame port i f
    | none => (s.inc (F.SPU_PAIR_NOMATCH_V p)).raise 68
  else if f.etype = 0x88B8 then
    match s.goMatch f with
    | some g =>
      let auth := s.bit (F.SPU_GO_CFG_AUTH g)
      if auth && !s.authOk (s.fld (F.SPU_GO_CFG_ALG g)) (s.fld (F.SPU_GO_CFG_KEY g)) f then s.authFail p else s.rxPut port 1 3 auth f
    | none => (s.inc (F.SPU_PAIR_NOMATCH_V p)).raise 68
  else s.rxPut port 2 5 false f

/-! ## Fields of station frames (R231, R238, R241; places from the standards that the rules name, log entry 123) -/

def be16 (bs : List Byte) (o : Nat) : Nat := (bs.getD o 0).toNat * 256 + (bs.getD (o + 1) 0).toNat

/-- Bytes `o` on replaced by `new`. -/
def patch (bs : List Byte) (o : Nat) (new : List Byte) : List Byte := bs.take o ++ new ++ bs.drop (o + new.length)

/-- Place of the EtherType behind an 802.1Q tag, if there is one. -/
def typeAt (bs : List Byte) : Nat := if be16 bs 12 = 0x8100 then 16 else 12

/-- LSDU size of a redundancy control trailer: what follows the EtherType, and the trailer's 6 bytes. -/
def lsduSize (bs : List Byte) : Nat := bs.length - (typeAt bs + 2) + 6

/-- Place of the PTP message in a frame that carries a Sync. -/
def ptpSyncAt (bs : List Byte) : Option Nat :=
  let o := typeAt bs
  if be16 bs o = 0x88F7 ∧ (bs.getD (o + 2) 0).toNat % 16 = 0 then some (o + 2) else none

/-- One-step operation: the time in originTimestamp (48 bits of seconds, 32 of nanoseconds), its fraction of a ns, 0 here, in
correctionField. -/
def oneStepBytes (bs : List Byte) (o t : Nat) : List Byte :=
  patch (patch bs (o + 8) (beBytes 8 0)) (o + 34) (beBytes 6 (t / 10 ^ 9) ++ beBytes 4 (t % 10 ^ 9))

/-- `d` ns added to the correctionField, which counts 2^-16 ns. -/
def correctBytes (bs : List Byte) (o d : Nat) : List Byte :=
  patch bs (o + 8) (beBytes 8 (beNat ((bs.drop (o + 8)).take 8) + d * 65536))

/-! ## Transmission (R231 to R233, R238) -/

/-- CTL of the transmit descriptor at `a`. -/
def State.txCtl (s : State) (a : Nat) : BitVec 16 := s.descU16 a 10

/-- Ports that LANSEL names. -/
def lansel (ctl : BitVec 16) : Bool × Bool :=
  match (ctl.extractLsb' 6 2).toNat with
  | 0 => (true, true)
  | 1 => (true, false)
  | 2 => (false, true)
  | _ => Config.lanselReserved

/-- The head of transmit ring `q` waits to leave port `n`. -/
def State.txWants (s : State) (n q : Nat) : Bool :=
  let r := s.txRing (n / 2) q
  let (a, b) := lansel (s.txCtl (s.txDesc (n / 2) q))
  s.drc.ready && r.active && (if n % 2 = 0 then a && r.tsA.isNone else b && r.tsB.isNone)

/-- An idle port transmitter takes the next frame in the strict order of R232. -/
def State.txPick (s : State) (n : Nat) : State :=
  let x := s.stPort n
  if x.cur.isSome then s
  else
    let c : Option TxSrc := if s.txWants n 3 then some (.ring 3) else if !x.fwd.isEmpty then some .fwd
      else if s.txWants n 2 then some (.ring 2) else if s.txWants n 1 then some (.ring 1) else if s.txWants n 0 then some (.ring 0) else none
    s.setStPort n { x with cur := c }

/-- The next sequence number of the pair. -/
def State.nextSeq (s : State) (p : Nat) : BitVec 16 × State :=
  let q := spGet 0 s.spu.seq p
  (q, { s with spu := { s.spu with seq := spSet 0 s.spu.seq p (q + 1) } })

/-- HEAD advances past a descriptor whose STATUS is `st`; OWN clears. -/
def State.txDone (s : State) (p q st : Nat) : State :=
  let a := s.txDesc p q
  let s := s.storeBytes (a + 10) (leBytes 2 (s.txCtl a &&& 0x7FFF).toNat)
  let s := s.storeBytes (a + 14) (leBytes 2 st)
  let s := s.setTxRing p q { active := (s.txRing p q).active }
  s.setFld (F.SPU_PAIR_TX_HEAD_V p q) (ringNext (s.fld (F.SPU_PAIR_TX_SIZE_SIZE p q)) (s.fld (F.SPU_PAIR_TX_HEAD_V p q)))

/-- Reach the descriptor at HEAD: OWN = 0 stops the ring; a LEN out of range is written back with ERR and the next one is
reached; a sound one gets its sequence number. At most `fuel` descriptors. -/
def State.txReach (s : State) (p q : Nat) : Nat → State
  | 0 => s
  | fuel + 1 =>
    let a := s.txDesc p q
    let ctl := s.txCtl a
    let len := (s.descU16 a 8).toNat
    if !(s.txRing p q).active then s
    else if !ctl.getLsbD 15 then s.setTxRing p q {}
    else if len < 14 ∨ 1518 < len then
      (((s.setBit (F.SPU_PAIR_STAT_TXERR p) true).raise 69).txDone p q (2 ^ 13)).txReach p q fuel
    else if (s.isPrp p || s.isHsr p) && !ctl.getLsbD 5 then
      let (n, s) := s.nextSeq p
      s.setTxRing p q { s.txRing p q with seq := some n }
    else s

/-- TAIL of a transmit ring is written. -/
def State.txTail (s : State) (p q tail : Nat) : State :=
  let s := s.setFld (F.SPU_PAIR_TX_TAIL_V p q) tail
  let size := s.fld (F.SPU_PAIR_TX_SIZE_SIZE p q)
  if !s.bit (F.SPU_PAIR_CTL_EN p) || size == 0 || (s.txRing p q).active then s
  else
    let s := s.setTxRing p q { active := true }
    if s.drc.ready then ((s.txReach p q size).txPick (2 * p)).txPick (2 * p + 1) else s

/-- Station rings written before the record-store wipe has ended start after it (R402). -/
def State.stationStart (s : State) : State :=
  let s := (List.range 8).foldl (fun s i => s.txReach (i / 4) (i % 4) (s.fld (F.SPU_PAIR_TX_SIZE_SIZE (i / 4) (i % 4)))) s
  (List.range 4).foldl (fun s n => s.txPick n) s

/-- TAIL of a receive ring is written. -/
def State.rxTail (s : State) (p r tail : Nat) : State :=
  let s := s.setFld (F.SPU_PAIR_RX_TAIL_V p r) tail
  if s.fld (F.SPU_PAIR_RX_SIZE_SIZE p r) = 0 then s else s.setRxActive p r true

/-- RING_TAIL_WRITE (R237). Receive rings are 0 to 2. -/
def execRingTailWrite (t : Nat) (pair : Fin 2) (tx : Bool) (q : Fin 4) (tail : Fin 4096) (s : State) : Host.Outcome State Fault Refusal :=
  .next (s.onDie t fun s => if tx then s.txTail pair q tail else if q.val < 3 then s.rxTail pair q tail else s)

/-- The frame of ring `q` leaves port `n`; when it has left every port that it needs, its descriptor is written back. -/
def State.txRingSent (s : State) (n q : Nat) : State :=
  let p := n / 2
  let a := s.txDesc p q
  let ctl := s.txCtl a
  let r := s.txRing p q
  let (na, nb) := lansel ctl
  let len := (s.descU16 a 8).toNat
  let r := if n % 2 = 0 then { r with tsA := some s.now } else { r with tsB := some s.now }
  let lan : BitVec 4 := if s.isPrp p then (if n % 2 = 0 then 0xA else 0xB) else 0
  let buf := s.mbytes (s.mleFrom a 5) len
  let sync := if ctl.getLsbD 13 then ptpSyncAt buf else none
  let out : StTx := { bytes := (sync.map (fun o => oneStepBytes buf o s.now)).getD buf, lsdu := r.seq.map (fun _ => lsduSize buf), red := r.seq.map (fun q => (q, lan)),
                      tag := if ctl.getLsbD 12 then some ((s.descU16 a 12).setWidth 12, ctl.extractLsb' 9 3) else none,
                      oneStep := sync.map (fun _ => s.now) }
  let s := s.setStPort n { s.stPort n with cur := none, last := some out }
  let s := (s.inc (F.SPU_PORT_TXOK_CNT_V n)).setTxRing p q r
  if (!na || r.tsA.isSome) && (!nb || r.tsB.isSome) then
    let ts := ctl.getLsbD 14
    let wb (s : State) (o : Nat) : Option Nat → State
      | some v => s.storeBytes (a + o) (leBytes 8 v)
      | none => s
    let s := if ts then wb (wb s 16 r.tsA) 24 r.tsB else s
    let st := (if ts && r.tsA.isSome then 2 ^ 15 else 0) + (if ts && r.tsB.isSome then 2 ^ 14 else 0)
    (s.txDone p q st).txReach p q (s.fld (F.SPU_PAIR_TX_SIZE_SIZE p q))
  else s

/-- A forwarded frame as it leaves: where its pair carries PTP, the correctionField of a Sync grows by the residence time and the link
delay, which no register holds (free value; Table 10.5, log entry 123). -/
def State.forwarded (s : State) (n : Nat) (f : StFrame) (since : Nat) : List Byte × State :=
  match (if s.fld F.TBU_CTL_PTP_PAIR = n / 2 then ptpSyncAt f.bytes else none) with
  | some o =>
    let (d, s) := s.freeNat
    (correctBytes f.bytes o (s.mono - since + d), s)
  | none => (f.bytes, s)

/-- The frame in transmission at port `n` leaves. -/
def State.txSent (s : State) (n : Nat) : State :=
  let x := s.stPort n
  match x.cur with
  | none => s
  | some .fwd =>
    let s : State := match x.fwd with
      | (f, m) :: l =>
        let (bs, s) := s.forwarded n f m
        (s.setStPort n { x with cur := none, fwd := l, last := some (StTx.mk bs f.tag f.red (f.red.map (fun _ => lsduSize f.bytes)) none true) }).inc (F.SPU_PORT_TXOK_CNT_V n)
      | [] => s.setStPort n { x with cur := none }
    s.txPick n
  | some (.ring q) =>
    ((s.txRingSent n q).txPick (n / 2 * 2)).txPick (n / 2 * 2 + 1)

/-- TX_FRAME_SENT (R238). -/
def execTxFrameSent (t : Nat) (port : Fin 4) (s : State) : Host.Outcome State Fault Refusal := .next (s.onDie t (·.txSent port))

/-! ## Reception (R230 to R234) -/

/-- Frames that an HSR pair forwards to the other port. -/
def State.hsrForward (s : State) (port : Nat) (f : StFrame) : State :=
  let o := port / 2 * 2 + (1 - port % 2)
  if f.da = s.ownMac (port / 2) then s
  else (s.setStPort o { s.stPort o with fwd := (s.stPort o).fwd ++ [(f, s.mono)] }).txPick o

/-- A frame on a LAN ends its silence. -/
def State.lanHeard (s : State) (port : Nat) : State :=
  let s := s.setStPort port { s.stPort port with rx := s.mono }
  if port % 2 = 0 then s.setBit (F.SPU_PAIR_STAT_LAN_A_SILENT (port / 2)) false else s.setBit (F.SPU_PAIR_STAT_LAN_B_SILENT (port / 2)) false

/-- A frame of right length and FCS: redundancy, address filter, classes. -/
def State.stationTake (s : State) (port : Nat) (f : StFrame) : State :=
  let p := port / 2
  let hsr := s.isHsr p
  let red := s.isPrp p || hsr
  let s := (s.inc (F.SPU_PORT_RXOK_CNT_V port)).lanHeard port
  if hsr && f.sa == s.ownMac p then s
  else if !hsr && !s.macAccepts p f.da then s
  else
    let wrong := match f.red with
      | some (_, l) => s.isPrp p && l != (if port % 2 = 0 then 0xA else 0xB)
      | none => false
    let s := s.when wrong (fun s => (s.inc (F.SPU_PAIR_WRONG_LAN_V p)).raise 65)
    let seen := match f.red with
      | some (q, _) => red && s.dupSeen p f.sa q
      | none => false
    if seen then s.inc (F.SPU_PAIR_DUP_CNT_V p)
    else
      let s := match f.red with
        | some (q, _) => s.when red (·.dupNote p f.sa q)
        | none => s
      let s := s.when hsr (·.hsrForward port f)
      if s.macAccepts p f.da then s.classify port f else s

/-- STATION_FRAME_RECEIVED (R230 to R236, R239, R241). -/
def execStationFrame (t : Nat) (port : Fin 4) (f : StFrame) (s : State) : Host.Outcome State Fault Refusal :=
  .next (s.onDie t fun s =>
    if !s.bit (F.SPU_PAIR_CTL_EN (port / 2)) then s
    else if !f.fcsOk || decide (f.bytes.length + 4 < 64 ∨ 1528 < f.bytes.length + 4) then s.inc (F.SPU_PORT_RXERR_CNT_V port)
    else s.stationTake port f)

/-- LAN_SILENT (R255): no frame on a PRP LAN for 1 s. -/
def execLanSilent (t : Nat) (port : Fin 4) (s : State) : Host.Outcome State Fault Refusal :=
  .next (s.onDie t fun s =>
    let p := port.val / 2
    let f := if port.val % 2 = 0 then F.SPU_PAIR_STAT_LAN_A_SILENT p else F.SPU_PAIR_STAT_LAN_B_SILENT p
    if s.bit (F.SPU_PAIR_CTL_EN p) && s.isPrp p && !s.bit f && decide ((s.stPort port).rx + 10 ^ 9 ≤ s.mono) then (s.setBit f true).raise 65
    else s)

/-- STATION_LINK_CHANGE (R70, R255): block lock of the port's lane changes. -/
def execStationLink (t : Nat) (port : Fin 4) (locked : Bool) (s : State) : Host.Outcome State Fault Refusal :=
  .next (s.onDie t fun s =>
    if s.bit (F.SPU_PORT_STAT_BLOCK_LOCK port) == locked || !s.pcsChange (64 + port) locked then s
    else
      let s := s.setLane (64 + port) { s.lane (64 + port) with good := 0, winCnt := 0, winBad := 0 }
      let s := (s.setBit (F.SPU_PORT_STAT_BLOCK_LOCK port) locked).setBit (F.LPH_LANE_STAT_BLOCK_LOCK (64 + port)) locked
      let s := s.when locked (fun s => (s.setBit (F.SPU_PORT_STAT_SIG_DET port) true).setBit (F.LPH_LANE_STAT_SIG_DET (64 + port)) true)
      (s.setBit (F.SPU_PORT_STAT_LINK_CHG port) true).raise 64)

end Sys2Proof.Machine
end

