-- ==== Sys2Proof/Machine/Reset.lean ====
section
/-! DEFINITION. Reset, boot and power failure (18_physical.md, R397 to R409): causes, what a power-on and a warm reset keep, pins that
hold the unit, the selection of the image at start, the reset button, the flush. -/

namespace Sys2Proof.Machine

/-! ## Causes (Table 18.8) -/

def porCode : PorCause → Nat
  | .cold => 0
  | .porst => 1
  | .drop .vsaf => 2
  | .drop .vcore => 3
  | .drop _ => 4

/-- Place of a rail in Table 18.6. -/
def railIdx : Rail → Nat
  | .vcore => 0
  | .vsaf => 1
  | .vmem => 4
  | .vio18 => 5
  | .vio33 => 6

/-! ## What a reset keeps -/

/-- Registers of the always-on domain and of the supervisor die, which a power-on reset keeps. -/
def keepsPowerOn (a : Nat) : Bool :=
  a == R.SYS_LC || a == R.MEM_TAMP_STAT || a == R.AON_CAL_LO || a == R.AON_CAL_HI || a == R.AON_EVT_WPTR ||
    (decide (R.AON_EVT_W 0 0 ≤ a) && decide (a < R.AON_EVT_W 64 0)) || a == R.EVR_SEQ_NEXT || a == R.EVR_RSV_STAT ||
    (decide (R.EVR_RSV_W 0 0 ≤ a) && decide (a < R.EVR_RSV_W 16 0))

/-- The bits of the ST fields of a register row, which a warm reset keeps. -/
def RRow.stMask (r : RRow) : BitVec 32 :=
  r.fields.foldl (fun v f => if f.st then v ||| (BitVec.ofNat 32 (2 ^ f.w - 1) <<< f.lo) else v) 0

/-- The word of register `a` after a warm reset. -/
def warmWord (a : Nat) (v : BitVec 32) : BitVec 32 :=
  match rowOf a with
  | some r => (v &&& r.stMask) ||| (r.rstVal &&& ~~~r.stMask)
  | none => v

/-- Registers after a power-on reset. -/
def State.regsPowerOn (s : State) : State :=
  let cv := s.bit F.AON_STAT_CAL_VALID
  ({ s with regs := s.regs.filter (fun c => keepsPowerOn c.1) } : State).setBit F.AON_STAT_CAL_VALID cv

/-- Registers after a warm reset: ST fields keep their values; the AON's event pointers and calendar are its own. -/
def State.regsWarm (s : State) : State :=
  let l := s.regs.map (fun c => (c.1, if keepsPowerOn c.1 then c.2 else warmWord c.1 c.2))
  { s with regs := l.filter (fun c => !decide (c.2 = resetOf c.1)) }

/-- Station ports that have heard no frame since `m`. -/
def stPorts (m : Nat) : Sparse StPort := [0, 1, 2, 3].map (fun i => (i, { rx := m }))

/-- Everything that neither class of reset keeps beside registers and memory. -/
def State.coreClear (s : State) : State :=
  { s with fco := {}, hcp := {}, lanes := [], ltx := [], ports := [], reports := [], cyc := {}, sig := [], sigNext := [], sigHost := [], sigUnc := [], mdu := {}, cfg := {},
           clu := {}, tds := {}, msu := {}, apw := { trip := s.apw.trip, tripAt := s.apw.tripAt, fltLow := s.apw.fltLow }, cfc := {}, evr := { log := s.evr.log },
           rdu := { lastActive := s.mono, linkDownAt := s.mono }, tbu := { lastPps := s.mono },
           spu := { ports := if s.mono = 0 then [] else stPorts s.mono },
           sys := { s.sys with booting := true, mgcNotes := [], uidConf := false } }

/-- The HBL's own evaluation of its inputs while the controller die is in reset (R268, R399). -/
def State.hblWatch (s : State) : State :=
  (List.range 8).foldl State.hblAct s

/-- The filtered inputs of the supervisor die and the HBL's parameters go on through a reset. -/
def State.sfiClear (s : State) : State :=
  let f := s.sfi
  { s with sfi := { aAct := f.aAct, bAct := f.bAct, differ := f.differ, sinAt := f.sinAt, hblPar := f.hblPar, hblTstop := f.hblTstop,
                    hblOrder := f.hblOrder, hblStop := f.hblStop } }

/-! ## Power-on reset (R398, Table 16.6) -/

/-- What a loss of power or a fall of PORST_N cuts off: writes of the event log, of configuration slots, of the lifetime store. -/
def State.powerCut (s : State) : State := s.evrCut.cfcCut.ltCut

/-- A power-on reset of cause `code`; while one is held, a further cause counts where its code is lower. -/
def State.powerOn (s : State) (code : Nat) : State :=
  if s.sys.porDone && s.held then s.wr R.SYS_RST_CAUSE (BitVec.ofNat 32 (min (s.fld F.SYS_RST_CAUSE_V) code))
  else
    let s := if s.held then s else s.powerCut
    let s := (s.regsPowerOn.coreClear.sfiClear).hblWatch
    let s : State := { s with mem := s.mem.filter (fun c => decide (nvBase ≤ c.1)), drc := {}, memu := { wipe := .por },
                              sys := { s.sys with porDone := true, pfailLow := false, uidEnum := false, strapConf := false } }
    s.wr R.SYS_RST_CAUSE (BitVec.ofNat 32 code)

/-- Something takes hold of the controller die: the power-on reset of this hold is still to come. -/
def State.hold (s : State) : State := if s.held then s else { s.powerCut with sys := { s.sys with porDone := false } }

/-- A rail drops, or a pin falls. -/
def State.causeSet (s : State) (c : PorCause) : State :=
  match c with
  | .cold => { s with sys := { s.sys with porstLow := true, vsafLost := false, vcoreLost := false, rails := [] }, sfi := { s.sfi with hblPar := [], hblTstop := 200000, hblOrder := false, hblStop := none } }
  | .porst => { s with sys := { s.sys with porstLow := true } }
  | .drop r =>
    let s : State := { s with sys := { s.sys with under := if s.sys.under.contains r then s.sys.under else s.sys.under ++ [r] } }
    match r with
    | .vsaf => { s with sys := { s.sys with vsafLost := true }, sfi := { s.sfi with hblPar := [], hblTstop := 200000, hblOrder := false, hblStop := none } }
    | .vcore => { s with sys := { s.sys with vcoreLost := true } }
    | r => { s with sys := { s.sys with rails := if s.sys.rails.contains r then s.sys.rails else s.sys.rails ++ [r] } }

/-- POWER_ON_RESET (R398): of coincident causes the lowest code is recorded. -/
def execPowerOnReset (t : Nat) (causes : List PorCause) (s : State) : Host.Outcome State Fault Refusal :=
  .next (
    let s := s.tick t
    match causes with
    | [] => s
    | c :: cs =>
      let code := cs.foldl (fun m x => min m (porCode x)) (porCode c)
      let s := s.powerOn code
      (c :: cs).foldl (fun s x => s.causeSet x) s)

/-! ## Start (R6, R244, R279, R360, R390) -/

/-- The nonce of PRIV_OPEN is new. -/
def State.newNonce (s : State) : State :=
  let (a, s) := s.free32
  let (b, s) := s.free32
  (s.wr R.SYS_PRIV_NONCE_LO a).wr R.SYS_PRIV_NONCE_HI b

/-- Count the reset cause in the lifetime store (R398). -/
def State.countReset (s : State) : State :=
  let c := s.fld F.SYS_RST_CAUSE_V
  s.setLt (fun l => { l with resets := spSet 0 l.resets c (spGet 0 l.resets c + 1) })

/-- A tamper latch found at the start (R360). -/
def State.tamperAtStart (s : State) : State :=
  if s.fld F.MEM_TAMP_STAT_LATCH = 0 then s else ({ s with memu := { s.memu with keysWiped := true } } : State).raise 250

/-- What both classes of reset end in: lifetime store loaded, cause counted, tamper latch, button, APW_FLT_N, nonce. -/
def State.startCommon (s : State) : State :=
  let s := s.ltLoad.countReset
  (((s.tamperAtStart.setBit F.AON_STAT_BTN_STUCK s.aon.stuck).setBit F.RDU_STAT_UID s.sys.uid).setBit F.APW_STAT_FLT s.apw.fltLow).newNonce

/-- The highest epoch of the lifetime store (R282). -/
def State.epochLoad (s : State) : State := s.wr R.RDU_EPOCH_MAX (if s.aon.epochA.getD 0 < s.aon.epochB.getD 0 then s.aon.epochB.getD 0 else s.aon.epochA.getD 0)

/-- The count starts from the AON calendar (R244). -/
def State.tbuStart (s : State) : State :=
  let s := s.setBit F.TBU_STAT_STEP_ARM true
  if s.bit F.AON_STAT_CAL_VALID then { s with now := s.calSec * 10 ^ 9 }
  else (({ s with now := 0 } : State).setBit F.TBU_STAT_CAL_INV true).raise 252

/-- Supply excursions of the rails that dropped. -/
def State.countUnder (s : State) : State :=
  let s := s.setLt (fun l => { l with excursions := s.sys.under.foldl (fun m r => spSet 0 m (2 * railIdx r) (spGet 0 m (2 * railIdx r) + 1)) l.excursions })
  { s with sys := { s.sys with under := [] } }

/-- Nothing holds the die any more after a power-on reset: the unit samples its strap and starts. -/
def State.powerStart (s : State) (uid : Bool) : State :=
  if s.held || !s.sys.porDone then s
  else
    let s : State := { s with sys := { s.sys with uid := uid } }
    (s.tbuStart.startCommon.countUnder.epochLoad).drcNvMark

/-- PORST_N_ASSERT (R399). -/
def execPorstAssert (t : Nat) (s : State) : Host.Outcome State Fault Refusal :=
  .next (
    let s := s.tick t
    if s.sys.porstLow then s
    else
      let s := s.hold
      (({ s with sys := { s.sys with porstLow := true, porstAt := s.mono } } : State).hblIdleAll).hblWatch)

/-- The power-on reset of a hold that has brought none yet. -/
def State.porLate (s : State) (code : Nat) : State := if s.sys.porDone then s else s.powerOn code

/-- PORST_N_RELEASE (R6, R399): a pulse shorter than 10 us may or may not have reset the unit (free value). -/
def execPorstRelease (t : Nat) (uid : Bool) (s : State) : Host.Outcome State Fault Refusal :=
  .next (
    let s := s.tick t
    if s.sys.porstLow then
      let (f, s) := s.freeBool
      let s := s.when (f || decide (s.sys.porstAt + 10000 ≤ s.mono)) (·.porLate 1)
      let s : State := { s with sys := { s.sys with porstLow := false } }
      if s.held then s
      else if s.sys.porDone then s.powerStart uid
      else { s with sys := { s.sys with porDone := true } }
    else s)

/-- THERMAL_TRIP (R398): held until Tj is below 100 degrees. -/
def execThermalTrip (t : Nat) (s : State) : Host.Outcome State Fault Refusal :=
  .next (
    let s := (s.tick t).powerOn 5
    { s with sys := { s.sys with thermal := true } })

/-- THERMAL_TRIP_END. -/
def execThermalTripEnd (t : Nat) (uid : Bool) (s : State) : Host.Outcome State Fault Refusal :=
  .next (
    let s := s.tick t
    if s.sys.thermal then ({ s with sys := { s.sys with thermal := false } } : State).powerStart uid else s)

/-! ## Loss of supplies and clocks (R20, R268, R269, R397, R409) -/

/-- VCORE_LOSS (R268). -/
def execVcoreLoss (t : Nat) (s : State) : Host.Outcome State Fault Refusal :=
  .next (
    let s := (s.tick t).hold
    ((({ s with sys := { s.sys with vcoreLost := true } } : State).hblIdleAll)).hblWatch)

/-- VSAF_LOSS (R258, R397). -/
def execVsafLoss (t : Nat) (s : State) : Host.Outcome State Fault Refusal :=
  .next (
    let s := (s.tick t).hold
    ({ s with sys := { s.sys with vsafLost := true }, sfi := { s.sfi with hblPar := [], hblTstop := 200000, hblOrder := false, hblStop := none } } : State).hblIdleAll)

/-- D3_LOSS (R20, R269): electrical idle, SFS_OK low, no order. -/
def execD3Loss (t : Nat) (s : State) : Host.Outcome State Fault Refusal :=
  .next (s.onDie t fun s => ({ s with sfi := { s.sfi with d3Lost := true } } : State).hblIdleAll.sfsRefresh)

/-- An order of SAFE BLOCK whose cause Table 11.8 does not name: BLK_CAUSE is a free value. -/
def State.blockUnnamed (s : State) : State :=
  let ignored := s.sfiState == stBlock && s.bit F.SFI_STAT_INJ
  let s := s.blockNow 5
  if ignored then s
  else
    let (c, s) := s.freeNat
    s.setFld F.SFI_STAT_BLK_CAUSE c

/-- D9_LOSS (R409): SAFE BLOCK, HBL_OK 0, BLK_OUT high until power-on reset. The supervisor die orders it and not the SCP, so R271 sends
nothing to the partner. -/
def execD9Loss (t : Nat) (s : State) : Host.Outcome State Fault Refusal :=
  .next (
    let s := s.tick t
    let s : State := { s with sfi := { s.sfi with d9Lost := true } }
    if s.held then s
    else
      let was := s.sfi.sendBlock
      let s := s.blockUnnamed
      (({ s with sfi := { s.sfi with sendBlock := was } } : State).setBit F.SFI_STAT_HBL_OK false).sfsRefresh)

/-- Rail `r` is absent or out of range. -/
def State.railLost (s : State) (r : Rail) : Bool :=
  match r with
  | .vsaf => s.sys.vsafLost
  | .vcore => s.sys.vcoreLost
  | r => s.sys.rails.contains r

/-- Rail `r` is back in range. -/
def State.railBack (s : State) (r : Rail) : State :=
  match r with
  | .vsaf => { s with sys := { s.sys with vsafLost := false } }
  | .vcore => { s with sys := { s.sys with vcoreLost := false } }
  | r => { s with sys := { s.sys with rails := s.sys.rails.filter (· != r) } }

/-- SUPPLY_RECOVERY (R398). -/
def execSupplyRecovery (t : Nat) (r : Rail) (uid : Bool) (s : State) : Host.Outcome State Fault Refusal :=
  .next (
    let s := s.tick t
    if s.railLost r then ((s.porLate (porCode (.drop r))).railBack r).powerStart uid else s)

/-! ## Warm reset (R398, Tables 16.6 and 18.8) -/

/-- A warm reset of cause `code`; it begins with a lifetime save. A UID conflict holds through it (R8, R9). A die held in power-on
reset has none. -/
def State.warmReset (s : State) (code : Nat) (saveOk : Bool) : State :=
  if s.held then s
  else
    let s := (s.evrCut.cfcCut.ltSave saveOk).drcWarm
    let w := s.fld F.DRC_WPTR_V
    let n := s.fld F.DRC_STAT_NDIR
    let lit := s.sfi.hblIdle
    let f := s.sfi
    let m := s.memu
    let s := s.regsWarm.coreClear.sfiClear
    let s : State := { s with mem := s.mem.filter (fun c => decide (c.1 < 0x200000000) || decide (nvBase ≤ c.1)),
                              memu := { wipe := if m.wipe = .por then .por else .warm, retired := m.retired },
                              sfi := { s.sfi with disc := f.disc, d9Lost := f.d9Lost, d3Lost := f.d3Lost, hblIdle := f.hblIdle } }
    let s := ((s.wr R.SYS_RST_CAUSE (BitVec.ofNat 32 code)).setFld F.DRC_WPTR_V w).setFld F.DRC_STAT_NDIR n
    let s := s.setBit F.RDU_STAT_UID_CONF (s.sys.uidEnum || s.sys.strapConf)
    (s.when lit State.hblIdleAll).startCommon

/-- MGC_WATCHDOG (R398). -/
def execMgcWatchdog (t : Nat) (saveOk : Bool) (s : State) : Host.Outcome State Fault Refusal :=
  .next ((s.tick t).warmReset 8 saveOk)

/-- JTAG_RESET (R398): in MANUFACTURE only. -/
def execJtagReset (t : Nat) (saveOk : Bool) (s : State) : Host.Outcome State Fault Refusal :=
  .next (
    let s := s.tick t
    if s.fld F.SYS_LC_STATE = 0 then s.warmReset 9 saveOk else s)

/-! ## The reset button (R400) -/

/-- BUTTON_PRESS. -/
def execButtonPress (t : Nat) (s : State) : Host.Outcome State Fault Refusal :=
  .next (
    let s := s.tick t
    let s : State := { s with aon := { s.aon with low := true } }
    if s.held || s.aon.stuck then s else { s with aon := { s.aon with pressed := true } })

/-- BUTTON_RELEASE: a warm reset, unless the button was stuck; during a power-failure flush it is merged into the reset that
follows (R406). -/
def execButtonRelease (t : Nat) (saveOk : Bool) (s : State) : Host.Outcome State Fault Refusal :=
  .next (
    let s := s.tick t
    let s : State := { s with aon := { s.aon with low := false } }
    if s.aon.pressed then
      let s : State := { s with aon := { s.aon with pressed := false } }
      if s.aon.stuck || s.sys.pfailLow then s else s.warmReset 7 saveOk
    else s)

/-- BUTTON_STUCK: the low level goes on, whether or not it counted as a press. -/
def execButtonStuck (t : Nat) (s : State) : Host.Outcome State Fault Refusal :=
  .next (
    let s := s.tick t
    if s.aon.stuck || !s.aon.low then s
    else
      let s := (({ s with aon := { s.aon with stuck := true } } : State).setBit F.AON_STAT_BTN_STUCK true).aonEvent 249
      if s.held then s else s.raise 249)

/-- BUTTON_UNSTUCK: the high level goes on. -/
def execButtonUnstuck (t : Nat) (s : State) : Host.Outcome State Fault Refusal :=
  .next (
    let s := s.tick t
    if s.aon.stuck && !s.aon.low then ({ s with aon := { s.aon with stuck := false, pressed := false } } : State).setBit F.AON_STAT_BTN_STUCK false else s)

/-! ## Power failure (R404 to R406) -/

/-- PFAIL_FALL (R404, R319, R335, R390, R405). -/
def execPfailFall (t : Nat) (bad : Option Nat) (saveOk : Bool) (s : State) : Host.Outcome State Fault Refusal :=
  .next (s.onDie t fun s =>
    if s.sys.pfailLow then s
    else
      let s := ({ s with sys := { s.sys with pfailLow := true } } : State).raise 248
      (((s.evrFlush bad).ltSave saveOk).drcPfail).giveUpControl)

/-- PFAIL_ACCEPT_END (R319): PFAIL + 0.8 ms. -/
def execPfailAcceptEnd (t : Nat) (s : State) : Host.Outcome State Fault Refusal :=
  .next (s.onDie t fun s =>
    let due := match s.evr.pfail with
      | some t0 => decide (t0 + 800000 ≤ s.now)
      | none => false
    if s.sys.pfailLow && due then { s with evr := { s.evr with accepting := false } } else s)

/-- PFAIL_RECOVERED (R406). -/
def execPfailRecovered (t : Nat) (saveOk : Bool) (s : State) : Host.Outcome State Fault Refusal :=
  .next (
    let s := s.tick t
    if s.sys.pfailLow then ({ s with sys := { s.sys with pfailLow := false } } : State).warmReset 6 saveOk else s)

/-! ## The end of a wipe, the image at start (R364, R373, R402) -/

/-- The directory returns from NV, and the DRC and the station rings start, once the record-store wipe has ended and the
image that places the DRC area is in force, or there is none. -/
def State.storeReady (s : State) : State :=
  if s.drc.ready && !s.sys.booting then (s.when s.drc.nvPend State.drcDirLoad).stationStart else s

/-- WIPE_COMPLETE (R364). -/
def execWipeComplete (t : Nat) (s : State) : Host.Outcome State Fault Refusal :=
  .next (s.onDie t fun s =>
    if s.memu.wipe = .none then s
    else
      let s : State := { s with memu := { s.memu with wipe := .none }, drc := { s.drc with ready := true } }
      ((s.setBit F.MEM_STAT_WIPING false).raise 235).storeReady)

/-- Level of HCP_BUSY: a long EXEC, a wipe of the record store, reset (R364, R388, Table 18.9). -/
def State.hcpBusy (s : State) : Bool :=
  s.held || s.hcp.long.isSome || s.memu.wipe == .por || s.memu.wipe == .lifeCycle || s.memu.wipe == .decommission

/-- Slots with a valid activation word, the higher generation first (R373). -/
def State.bootOrder (s : State) : List Nat :=
  match s.genOf 0, s.genOf 1 with
  | some a, some b => if a < b then [1, 0] else [0, 1]
  | some _, none => [0]
  | none, some _ => [1]
  | none, none => []

/-- Generations of the slots as the registers show them. -/
def State.genShow (s : State) : State :=
  [0, 1].foldl (fun s n => match s.genOf n with
    | some g => s.setFld (F.CFC_SLOT_GEN_V n) g
    | none => s) s

/-- No image comes into force (R373). -/
def State.noImage (s : State) : State := (s.setBit F.CFC_STAT_NOIMG true).raise 244

/-- The slot that R373 takes. -/
def State.bootSelect (s : State) : State :=
  match s.bootOrder with
  | [] => s.noImage
  | n :: rest =>
    let (ok, s) := s.slotJudge n
    if ok then s.putInForce n true 0
    else match rest with
      | [] => s.noImage
      | m :: _ =>
        let (ok, s) := s.slotJudge m
        if ok then ((s.setBit F.CFC_STAT_FALLBACK true).raise 244).putInForce m true 0 else s.noImage

/-- BOOT_IMAGE_SELECT (R373, R402); no image is loaded in MANUFACTURE and in DECOMMISSIONED (Table 17.12). -/
def execBootImageSelect (t : Nat) (s : State) : Host.Outcome State Fault Refusal :=
  .next (s.onDie t fun s =>
    if s.sys.booting then
      let s : State := { s.genShow with sys := { s.sys with booting := false } }
      let st := s.fld F.SYS_LC_STATE
      (if st = 0 ∨ st = 3 then s.noImage else s.bootSelect).storeReady
    else s)

end Sys2Proof.Machine
end

