-- ==== Sys2Proof/Machine/TimeStep.lean ====
section
/-! DEFINITION. The step of the time base (10_time_station.md, R247, R248): the count jumps, sessions restart, host-scheduled actions end
with status LATE. -/

namespace Sys2Proof.Machine

/-- A pending Equinox ends with status LATE (R248). -/
def State.eqxCancel (s : State) : State :=
  if s.rdu.eqxN.isSome then
    (((({ s with rdu := { s.rdu with eqxN := none } } : State).setBit F.RDU_EQX_CTL_GO false).eqSt 2).raise 189)
  else s

/-- Every pending host-scheduled action ends with status LATE (R248). -/
def State.schedCancel (s : State) : State := s.tsoCancel.cluCancel.swapCancel.eqxCancel.switchCancel

/-- Cycles after a jump of the count: none before the first multiple of Tc at or after it, and no down frame in between. -/
def State.cycStep (s : State) : State :=
  let r := (s.now + s.tc - 1) / s.tc * s.tc
  let c := r / s.tc
  { s with cyc := { s.cyc with comps := [], frame := none, switchAt := none, resume := r, blockTill := min s.cyc.blockTill (c + 3) },
           rdu := { s.rdu with sendFrom := min s.rdu.sendFrom c },
           ports := spMap {} (fun (p : Port) => { p with origin := p.origin.map (fun o => min o (c + 6)) }) s.ports }

/-- The EVR records the offset `d` of a step, whatever TO_EVR of source 149 says. -/
def State.stepRecord (s : State) (d : Int) : State :=
  let x : BitVec 64 := BitVec.ofInt 64 d
  let v : BitVec 32 := x.setWidth 32
  let q : BitVec 32 := (x >>> 32).setWidth 32
  let told := s.bit (F.INT_SRC_CFG_TO_EVR 149)
  let s := s.raiseWith 149 v q 0xFF
  if told then s else s.evRecord { time := s.now, code := 149, src := 149, value := v, qual := q, flags := s.evFlags 0xFF }

/-- The count steps by the offset `d` in 1/16 ns. -/
def State.timeStep (s : State) (d : Int) : State :=
  let s : State := { s with now := (Int.ofNat s.now - roundNear d 16).toNat, tbu := { s.tbu with step := none, lastPartner := none } }
  let s := (s.inc F.TBU_STEP_CNT_STEPS).cycStep
  let s := s.resessionAll.schedCancel.apwStep
  (s.stepRecord d).setLock false

/-- The step that is due: the unit's own, or that of the lease holder for a unit that follows the partner source. -/
def State.stepDue (s : State) (byPartner : Option Int) : Option Int :=
  match s.tbu.step with
  | some d => some d
  | none => if s.role != roleActive && s.tbu.sel == 3 then byPartner else none

/-- TIME_STEP (R247): at a cycle start on the old count. -/
def execTimeStep (t : Nat) (byPartner : Option Int) (s : State) : Host.Outcome State Fault Refusal :=
  .next (s.onDie t fun s => match s.stepDue byPartner with
    | some d => if t % s.tc = 0 then s.timeStep d else s
    | none => s)

end Sys2Proof.Machine
end

