-- ==== Sys2Proof/Machine/Access.lean ====
section
/-! DEFINITION. Register access by the host and the MGC (00_scope.md R3 to R5, 01_architecture.md R24 to R26, 17_configuration.md R380):
what a write and a read of each register do, privileged bits, INT_PEND. -/

namespace Sys2Proof.Machine

/-! ## Decoding an offset -/

/-- Index of the register at offset `a` in the family `f` of `n`. -/
def fam (a : Nat) (f : Nat → Nat) (n : Nat) : Option Nat :=
  let st := f 1 - f 0
  if f 0 ≤ a ∧ (a - f 0) % st = 0 ∧ (a - f 0) / st < n then some ((a - f 0) / st) else none

/-- A register of its own. -/
def one (a r : Nat) : Option Nat := if a = r then some 0 else none

/-- Actions of registers: which index the offset names in a family, and what follows. -/
abbrev Acts (α : Type) := List (Option Nat × (Nat → α))

/-- The action of the first family that the offset names. -/
def Acts.pick {α : Type} : Acts α → Option α
  | [] => none
  | (some i, f) :: _ => some (f i)
  | (none, _) :: l => Acts.pick l

/-! ## INT block (R24 to R26) -/

/-- A write of `mask` to INT_PENDw, meeting new events of the sources in `coinc` in the same D3 cycle. -/
def State.pendClear (s : State) (w : Nat) (mask coinc : BitVec 32) : State :=
  (List.range 32).foldl (fun s b =>
    let n := 32 * w + b
    if mask.getLsbD b then
      if coinc.getLsbD b then s.raise n
      else (s.setFbit (F.INT_PEND_PEND w) b false).setFld (F.INT_SRC_CFG_CNT n) 0
    else s) s

/-- INT_PEND_CLEAR (R24). -/
def execIntPendClear (t : Nat) (w : Fin 8) (mask coinc : BitVec 32) (s : State) : Host.Outcome State Fault Refusal :=
  .next (s.onDie t (·.pendClear w mask coinc))

/-- Source `n` contributes to pin `m` (R25). -/
def State.hintSrc (s : State) (m n : Nat) : Bool :=
  s.fbit (F.INT_PEND_PEND (n / 32)) (n % 32) && s.fbit (F.INT_ENA_ENA (n / 32)) (n % 32) &&
    s.bit (F.INT_SRC_CFG_HINT_EN n) && s.fld (F.INT_SRC_CFG_HINT_SEL n) == m

/-- INT_HINTm_STAT. -/
def State.hintStat (s : State) (m : Nat) : BitVec 32 :=
  match (List.range 256).find? (s.hintSrc m) with
  | some n => BitVec.ofNat 32 (2 ^ 31 + n)
  | none => 0

/-- HINT_N[m] is driven low (R25); released in reset (Table 18.9). -/
def State.hintLow (s : State) (m : Nat) : Bool :=
  !s.held && s.bit F.INT_CTL_HINT_GLOBAL_EN && (s.hintStat m).getLsbD 31

/-! ## Writes with an effect of their own -/

/-- SYS, INT, RPU, LPH, SPU, TBU. -/
def State.writesNet (s : State) (m : Acc) (a : Nat) (v : BitVec 32) : Acts State := [
  (fam a R.INT_PEND 8, fun w => s.pendClear w v 0),
  (fam a R.INT_SRC_CFG 256, fun n => if neverPending n then s else s.plain a v),
  (fam a R.RPU_PORT_CTL 64, fun n => ((s.plain a v).when (v.getLsbD 2) (·.reidentPort n)).when (v.getLsbD 1) (·.resessionPort n)),
  (fam a R.RPU_PORT_QUAR_LO 64, fun n => s.quarClear n false v),
  (fam a R.RPU_PORT_QUAR_HI 64, fun n => s.quarClear n true v),
  (fam a R.LPH_LANE_PWR 72, fun l => (s.pwrWrite l v).linkCheck),
  (fam a R.LPH_LANE_TXEQ 72, fun l => s.txeq l v),
  (fam a R.LPH_LANE_RXEQ 72, fun l => (s.plain a v).when (v.getLsbD 30) (·.adapt l)),
  (fam a R.LPH_LANE_EYE 72, fun l => s.eyeWrite l v),
  (fam a R.LPH_LANE_TEST 72, fun l => s.testWrite l v),
  (fam a R.LPH_QUAD_CTL 18, fun q => (s.plain a (v &&& 0xFFFFFFFE)).quadWrite q (v.getLsbD 0) |>.linkCheck),
  (fam a (R.SPU_PAIR_TX_TAIL 0) 4, fun q => s.txTail 0 q (v.toNat % 4096)),
  (fam a (R.SPU_PAIR_TX_TAIL 1) 4, fun q => s.txTail 1 q (v.toNat % 4096)),
  (fam a (R.SPU_PAIR_RX_TAIL 0) 3, fun q => s.rxTail 0 q (v.toNat % 4096)),
  (fam a (R.SPU_PAIR_RX_TAIL 1) 3, fun q => s.rxTail 1 q (v.toNat % 4096)),
  (one a R.TBU_CTL, fun _ => (s.plain a v).when (v.getLsbD 31) (·.stepRearm m)),
  (one a R.TBU_OFS_IN_LO, fun _ => if m = .mgc then s.wr a v else s),
  (one a R.TBU_OFS_IN_HI, fun _ => if m = .mgc then s.ofsIn v else s),
  (fam a R.TBU_TSO_CMD 8, fun o => (s.plain a v).when (v.getLsbD 31) (·.tsoGo o (v.getLsbD 0)))]

/-- A write of RDU_EQX_CTL: LATE_OK, and GO with privilege (R290). -/
def State.eqxWrite (s : State) (m : Acc) (v : BitVec 32) : State :=
  let s := s.plain R.RDU_EQX_CTL v
  if v.getLsbD 31 && s.priv m then s.touchPriv.eqxRequest (fullCycle s.cycNow (s.rd R.RDU_EQX_CYC)) (v.getLsbD 30) else s

/-- A write of RDU_CTL (R283, R288, R289). -/
def State.rduCtlWrite (s : State) (m : Acc) (v : BitVec 32) : State :=
  let s := s.plain R.RDU_CTL v
  let s := s.when (v.getLsbD 30) (·.relClear m)
  s.when (v.getLsbD 29 && s.priv m) (·.touchPriv.giveUpControl)

/-- A write of MDU_ARMm_CTL: in BLOCK a 1 to RUN has no effect (R257). -/
def State.armCtlWrite (s : State) (a : Nat) (v : BitVec 32) : State :=
  s.plain a (if s.sfiState = stBlock then v &&& 0xFFFFFF7F else v)

/-- A write of TDS_CLc_CTL (R207, R209). -/
def State.clCtlWrite (s : State) (c : Nat) (v : BitVec 32) : State :=
  let s := s.plain (R.TDS_CL_CTL c) v
  (s.when (v.getLsbD 31) (·.swapReq c (v.getLsbD 30))).when (v.getLsbD 26) (·.admitCluster c)

/-- RDU, MDU, CLU, TDS, SE. -/
def State.writesCtl (s : State) (m : Acc) (a : Nat) (v : BitVec 32) : Acts State := [
  (one a R.RDU_CTL, fun _ => s.rduCtlWrite m v),
  (one a R.RDU_EQX_CTL, fun _ => s.eqxWrite m v),
  (one a R.MDU_AUX, fun _ => s.auxWrite v),
  (fam a R.MDU_ARM_CTL 12, fun _ => s.armCtlWrite a v),
  (one a R.CLU_COMMIT_LO, fun _ => s.cluCommitReq false v),
  (one a R.CLU_COMMIT_HI, fun _ => s.cluCommitReq true v),
  (fam a R.CLU_SLOT_SP 64, fun i => s.cluSpWrite i v),
  (fam a R.CLU_SLOT_MODE 64, fun i => s.cluModeWrite i v),
  (fam a R.CLU_SLOT_SCH_CTL 64, fun i => s.schCtlWrite i v),
  (fam a R.TDS_CL_CTL 8, fun c => s.clCtlWrite c v),
  (fam a R.SE_PDATA 32, fun n => s.pdataWrite n v)]

/-- A write of MSU_SVs_CFG: SV_TMO 0 is ignored (Table 9.12). -/
def State.svCfgWrite (s : State) (i : Nat) (v : BitVec 32) : State :=
  if (F.MSU_SV_CFG_SV_TMO i).get v = 0 then
    (s.plain (R.MSU_SV_CFG i) ((F.MSU_SV_CFG_SV_TMO i).put v (s.fld (F.MSU_SV_CFG_SV_TMO i)))).cfgErr.svSync i
  else (s.plain (R.MSU_SV_CFG i) v).svSync i

/-- A write of MSU_SARa_URG: INPUT, and the request (R222). -/
def State.urgWrite (s : State) (i : Nat) (v : BitVec 32) : State :=
  (s.plain (R.MSU_SAR_URG i) v).when (v.getLsbD 31) (·.urgReq i true)

/-- MSU, APW. -/
def State.writesMeas (s : State) (a : Nat) (v : BitVec 32) : Acts State := [
  (one a R.MSU_CAL_CTL, fun _ => if v.getLsbD 31 then s.recalReq (v.toNat % 16) else s.plain a v),
  (one a R.MSU_CAL_STAT, fun _ => s.calStep.plain a v),
  (one a R.MSU_MDX_CLK, fun _ => if s.locked then s else s.mdxClkWrite v),
  (fam a R.MSU_MD_CFG 12, fun c => s.dsCfgWrite c v),
  (fam a R.MSU_MDX_CFG 8, fun c => s.dsCfgWrite (12 + c) v),
  (fam a R.MSU_MD_GCAL 12, fun c => s.factorWrite c true v),
  (fam a R.MSU_MD_OCAL 12, fun c => s.factorWrite c false v),
  (fam a R.MSU_MDX_GCAL 8, fun c => s.factorWrite (12 + c) true v),
  (fam a R.MSU_MDX_OCAL 8, fun c => s.factorWrite (12 + c) false v),
  (fam a R.MSU_SAR_GCAL 2, fun c => s.factorWrite (20 + c) true v),
  (fam a R.MSU_SAR_OCAL 2, fun c => s.factorWrite (20 + c) false v),
  (fam a R.MSU_SAR_CTL 2, fun i => (s.plain a v).when (v.getLsbD 31) (·.sarStartReq i)),
  (fam a R.MSU_SAR_URG 2, fun i => s.urgWrite i v),
  (fam a R.MSU_SV_CFG 16, fun i => s.svCfgWrite i v),
  (fam a R.MSU_PSI_CFG 4, fun i => s.psiCfgWrite i v),
  (one a R.APW_CTL, fun _ => s.when (v.getLsbD 31) State.fltClr),
  (one a R.APW_UPDLK, fun _ => s.updlkWrite v),
  (one a R.APW_FORCE_MASK, fun _ => (s.apwAll.plain a v).apwAll),
  (one a R.APW_FORCE_CTL, fun _ => s.forceCtlWrite v),
  (fam a R.APW_TRIP_CFG 8, fun i => s.tripCfgWrite i v),
  (fam a R.APW_CH_CTL 12, fun c => s.apwCtlWrite c v),
  (fam a R.APW_CH_PERIOD 12, fun c => s.apwPeriodWrite c v),
  (fam a R.APW_CH_DUTY 12, fun c => s.apwDutyWrite c v),
  (fam a R.APW_CH_PHASE 12, fun c => s.apwPhaseWrite c v),
  (fam a R.APW_CH_DT 12, fun c => ((s.apwNow c).plain a v).apwNow c),
  (fam a R.APW_CH_TRIP_CLR 12, fun c => s.when (v.getLsbD 0) (·.tripClr c))]

/-- A write of SFI_CTL: acknowledgements, release, then orders. -/
def State.sfiCtlWrite (s : State) (m : Acc) (v : BitVec 32) : State :=
  let ack : BitVec 8 := v.setWidth 8
  let s := (s.when (ack != 0) (·.sfiAck m ack)).when (v.getLsbD 31) (·.sfiRelease m)
  (s.when (v.getLsbD 30) (·.sfiStopReq m)).when (v.getLsbD 29) (·.sfiBlockReq m)

/-- A write of MEM_WIN_TILE (`cb` false) or MEM_WIN_CB: bits that set ask for Winter, bits that clear wake (R361, R362). -/
def State.winWrite (s : State) (cb : Bool) (n : Nat) (v : BitVec 32) : State :=
  (List.range n).foldl (fun s i =>
    if v.getLsbD i && !s.winBit cb i then s.winReq cb i
    else if !v.getLsbD i && s.winBit cb i then s.winWake cb i else s) s

/-- A write of EVR_CTL (R322, R324). -/
def State.evrCtlWrite (s : State) (m : Acc) (v : BitVec 32) : State :=
  (if v.getLsbD 31 then s.frostOn else s.frostWrite0).when (v.getLsbD 30) (·.rsvEmpty m)

/-- A write of AON_CAL_SET_LO: privileged. -/
def State.calSetLo (s : State) (m : Acc) (v : BitVec 32) : State := if s.priv m then s.touchPriv.wr R.AON_CAL_SET_LO v else s

/-- SAVE written through a register: whether the save succeeds is a free value. -/
def State.saveWrite (s : State) : State :=
  let (ok, s) := s.freeBool
  s.ltSave ok

/-- SFI, FCO, EVR, DRC, MEM, AON. -/
def State.writesSys (s : State) (m : Acc) (a : Nat) (v : BitVec 32) : Acts State := [
  (one a R.SFI_CTL, fun _ => s.sfiCtlWrite m v),
  (one a R.FCO_ACK, fun _ => s.ackKind m (v.toNat % 256)),
  (one a R.FCO_INJ_LO, fun _ => s.wr a v),
  (one a R.FCO_INJ_HI, fun _ => s.inject v),
  (one a R.EVR_CTL, fun _ => s.evrCtlWrite m v),
  (one a R.EVR_FROST_TMO, fun _ => if frostTmoOk v then s.plain a v else s),
  (one a R.DRC_CTL, fun _ => s.drcCtlWrite v),
  (one a R.DRC_REL, fun _ => s.drcRel (v.toNat % 1024)),
  (one a R.DRC_EXP_CTL, fun _ => (s.plain a v).when (v.getLsbD 31) State.exportDone),
  (fam a R.DRC_TRG_CFG 32, fun u => s.trgCfgWrite u v),
  (fam a R.DRC_MSK_CFG 16, fun _ => s.mskWrite m (·.plain a v)),
  (fam a R.DRC_MSK_OFS 16, fun _ => s.mskWrite m (·.plain a v)),
  (fam a R.DRC_MSK_PADDR 16, fun _ => s.mskWrite m (·.plain a v)),
  (fam a R.DRC_MSK_PDATA 16, fun k => s.mskWrite m (·.mskPdata k v)),
  (one a R.MEM_WIN_TILE, fun _ => s.winWrite false 32 v),
  (one a R.MEM_WIN_CB, fun _ => s.winWrite true 8 v),
  (one a R.MEM_TAMP_STAT, fun _ => s.tampClear m v),
  (one a R.AON_CAL_SET_LO, fun _ => s.calSetLo m v),
  (one a R.AON_CAL_SET_HI, fun _ => s.calSet m v),
  (one a R.AON_LT_CTL, fun _ => s.when (v.getLsbD 31) State.saveWrite)]

/-- The write actions of the block that holds offset `a` (Table 17.9). -/
def State.writes (s : State) (m : Acc) (a : Nat) (v : BitVec 32) : Acts State :=
  if a < 0x380000 then s.writesNet m a v
  else if a < 0x600000 then s.writesCtl m a v
  else if a < 0x700000 then s.writesMeas a v
  else if a < 0x880000 then s.writesSys m a v
  else s.writesNet m a v

/-- A write of `v` to the register at offset `a`; an offset that names none writes nothing (R380). -/
def State.regWrite (s : State) (m : Acc) (a : Nat) (v : BitVec 32) : State := ((s.writes m a v).pick).getD (s.plain a v)

/-- The write touches a privileged field, so that an unprivileged writer gets status PRIV. -/
def State.privField (s : State) (a : Nat) (v : BitVec 32) : Bool :=
  (a == R.TBU_CTL && v.getLsbD 31) || (a == R.SFI_CTL && v &&& 0xE00000FF != 0) || (a == R.RDU_CTL && v &&& 0x60000000 != 0) ||
    (a == R.RDU_EQX_CTL && v.getLsbD 31) || (a == R.FCO_ACK && decide (3 ≤ s.fcoClass (v.toNat % 256))) ||
    (a == R.EVR_CTL && v.getLsbD 30) || (decide (R.DRC_MSK_CFG 0 ≤ a) && decide (a < R.DRC_MSK_CFG 16)) ||
    a == R.MEM_TAMP_STAT || a == R.AON_CAL_SET_LO || a == R.AON_CAL_SET_HI

/-! ## Reads -/

/-- SYS_PRIV as it reads: REMAIN in seconds (rounding: log entry 7). -/
def State.privRead (s : State) : BitVec 32 :=
  let left := s.hcp.lastPriv + s.fld F.SYS_PRIV_TMO_V * 10 ^ 9 - s.mono
  let q := left / 10 ^ 9 + (if left % 10 ^ 9 ≠ 0 ∧ Config.roundUp (Int.ofNat left) (10 ^ 9) = true then 1 else 0)
  F.SYS_PRIV_REMAIN.put (s.rd R.SYS_PRIV) (if s.bit F.SYS_PRIV_OPEN then q else 0)

/-- SFI_STAT as it reads: the pins at the ball (R258). -/
def State.sfiStatRead (s : State) : BitVec 32 :=
  let n (b : Bool) : Nat := if b then 1 else 0
  F.SFI_STAT_BLKOUT_B.put (F.SFI_STAT_BLKOUT_A.put (s.rd R.SFI_STAT) (n s.blkOut)) (n s.blkOut)

/-- SFI_SIN_STAT. -/
def State.sinStat (s : State) : BitVec 32 :=
  let dem : BitVec 8 := (List.range 8).foldl (fun v p => if s.demand p then v ||| (1#8 <<< p) else v) 0
  s.sfi.disc ++ dem ++ s.sfi.bAct ++ s.sfi.aAct

/-- MEM_RS_STAT: slots that no master owns (R356). -/
def State.rsFree (s : State) : BitVec 32 :=
  BitVec.ofNat 32 (768 - (List.range 6).foldl (fun n i => n + s.fld (F.MEM_RS_A_V i)) 0)

/-- Reads that show more than a stored word. -/
def State.reads (s : State) (a : Nat) : Acts (BitVec 32 × State) := [
  (one a R.SYS_ID, fun _ => (0x4096#16 ++ Config.revision, s)),
  (one a R.SYS_SERIAL_LO, fun _ => (Config.serial.setWidth 32, s)),
  (one a R.SYS_SERIAL_HI, fun _ => ((Config.serial >>> 32).setWidth 32, s)),
  (one a R.SYS_PRIV, fun _ => (s.privRead, s)),
  (fam a R.INT_HINT_STAT 4, fun m => (s.hintStat m, s)),
  (one a R.TBU_TIME_LO, fun _ => s.timeLoRead),
  (one a R.TBU_RATE, fun _ => (BitVec.ofInt 32 s.tbuRate, s)),
  (fam a R.TBU_TSI_POP 32, fun i => s.tsiPop i),
  (fam a R.MDU_SM_STATE 4096, fun x => (s.smStateWord x, s)),
  (one a R.CLU_FLAG_LO, fun _ => (s.cluFlagView false, s)),
  (one a R.CLU_FLAG_HI, fun _ => (s.cluFlagView true, s)),
  (one a R.TDS_CYC_WIN, fun _ => (BitVec.ofNat 32 (s.tc - 140 - s.p0Ofs), s)),
  (fam a R.TDS_Q_STAT 8, fun q => s.qStatRead q),
  (one a R.TDS_ENG_MASK, fun _ => (s.engMask, s)),
  (fam a R.TDS_TT_DATA 6, fun i => (s.ttDataView i, s)),
  (fam a R.SE_STAT 32, fun n => (s.seStatView n, s)),
  (fam a R.SE_PDATA 32, fun n => s.pdataRead n),
  (fam a R.MSU_PSI_X 4, fun i => ((s.psiShow i).rd a, s.psiShow i)),
  (one a R.MSU_CAL_STAT, fun _ => (s.calStep.rd a, s.calStep)),
  (fam a R.MSU_MD_GCAL 12, fun _ => (s.calStep.rd a, s.calStep)),
  (fam a R.MSU_MD_OCAL 12, fun _ => (s.calStep.rd a, s.calStep)),
  (fam a R.APW_CH_STAT 12, fun c => (s.apwStatView c, s)),
  (one a R.SFI_STAT, fun _ => (s.sfiStatRead, s)),
  (one a R.SFI_SIN_STAT, fun _ => (s.sinStat, s)),
  (one a R.EVR_RD_STAT, fun _ => (s.rdStat, s)),
  (one a (R.EVR_RDW 7), fun _ => s.readRdw7),
  (fam a R.EVR_RDW 7, fun n => (s.rdw n, s)),
  (fam a R.DRC_MSK_PDATA 16, fun k => (s.mskPoint k (s.bit (F.DRC_MSK_PADDR_SIDE k)) (s.fld (F.DRC_MSK_PADDR_POINT k)), s)),
  (fam a R.MEM_CONF 16, fun k => s.confRead k),
  (one a R.MEM_RS_STAT, fun _ => (s.rsFree, s)),
  (one a R.AON_CAL_SUB, fun _ => (s.calSub, s))]

/-- A read of the register at offset `a`; an offset that names none reads zero (R380). -/
def State.regRead (s : State) (a : Nat) : BitVec 32 × State := ((s.reads a).pick).getD (s.plainRead a, s)

/-! ## REGISTER_WRITE -/

/-- The register range (R380), as an offset; R4: an access that is not aligned names none. -/
def regOffset (a : Nat) : Option Nat :=
  if regBase ≤ a ∧ a < regBase + 0x8C0000 then some (a - regBase) else none

/-- REGISTER_WRITE (R3 to R5, R380): an aligned 32-bit write by the host or the MGC. -/
def execRegisterWrite (t : Nat) (by' : Acc) (addr : BitVec 40) (v : BitVec 32) (s : State) : Host.Outcome State Fault Refusal :=
  .next (s.onDie t fun s => match regOffset addr.toNat with
    | some a => s.regWrite by' a v
    | none => s)

end Sys2Proof.Machine
end

