-- ==== Sys2Proof/Machine/Hcp.lean ====
section
/-! DEFINITION. The host command port (17_configuration.md, R380 to R389): transactions and their CRC, reads and writes of the address
space, EXECs, life cycle, privilege; the patrol scrub, which meets the same memory errors (16_memory.md, R349, R351). -/

namespace Sys2Proof.Machine

/-! ## Errors of a memory word (R349, R351, Table 16.2) -/

/-- What the memory controller does with the error that a read of address `a` meets. -/
def State.eccHit (s : State) (a : Nat) : EccErr → State
  | .ok => s
  | .single =>
    if a < 0x200000000 then
      let c := s.fld F.MEM_RS_CORR_CNT_V
      (s.inc F.MEM_RS_CORR_CNT_V).raiseIf (decide (c + 1 < 2 ^ 32) && (c + 1) % 256 == 0) 228
    else if nvBase ≤ a then s.inc F.MEM_NV_CORR_CNT_V
    else s.sramCorr
  | .double =>
    if a < 0x200000000 then (s.sendFco 2 (a / 64 % 2) 2 0x41 none (some a)).raise 230
    else if nvBase ≤ a then (s.sendFco 2 0 5 0x42 none (some a)).raise 236
    else if a < 0x201000000 then s.tileUnc ((a - 0x200000000) / 0x40000)
    else if a < dpramBase then s.bankUnc ((a - 0x201000000) / 0x200000)
    else if a < secBase then
      let s := s.dpUnc
      if a < dpramBase + 0x40000 then { s with reports := spSet none s.reports ((a - dpramBase) / 32) none }
      else if a < dpramBase + 0x50000 then s.sigBreak ((a - dpramBase - 0x40000) / 4) else s
    else
      let s := s.raise 229
      if s.imageOn then s.loadKeys s.activeKeys else s

/-- Tile memories, cluster banks, staging DPRAM, secure store, record store. -/
def scrubbed (a : Nat) : Bool :=
  a < 0x200800000 || (0x201000000 ≤ a && a < 0x202200000) || (secBase ≤ a && a < secBase + 0x40000)

/-- The tile memory or cluster bank that holds address `a` is in Winter or still waking. -/
def State.wintered (s : State) (a : Nat) : Bool :=
  if 0x200000000 ≤ a ∧ a < 0x200800000 then !s.winRdy false ((a - 0x200000000) / 0x40000)
  else if 0x201000000 ≤ a ∧ a < 0x202000000 then !s.winRdy true ((a - 0x201000000) / 0x200000)
  else false

/-- PATROL_SCRUB (R351): a word of a memory in Winter is skipped. -/
def execPatrolScrub (t : Nat) (addr : BitVec 40) (err : EccErr) (s : State) : Host.Outcome State Fault Refusal :=
  .next (s.onDie t fun s => if scrubbed addr.toNat && !s.wintered addr.toNat then s.eccHit addr.toNat err else s)

/-! ## Words of memory as the host sees them (Tables 16.3, 16.5 and 17.8) -/

/-- The byte at address `a`: signal map, event log and lifetime store stand in fields of their own. -/
def State.hostByte (s : State) (a : Nat) : Byte :=
  if dpramBase + 0x40000 ≤ a ∧ a < dpramBase + 0x50000 then
    (s.sigNow ((a - dpramBase - 0x40000) / 4)).extractLsb' (8 * (a % 4)) 8
  else if nvBase + 0x1800000 ≤ a ∧ a < nvBase + 0x1C00000 then
    (s.slot ((a - nvBase - 0x1800000) / 32)).extractLsb' (8 * (a % 32)) 8
  else if nvBase + 0x1C00000 ≤ a ∧ a < nvBase + 0x1D00000 then s.aon.nvByte (a - nvBase - 0x1C00000)
  else s.mb a

/-- The 32-bit word from address `a`. -/
def State.hostWord (s : State) (a : Nat) : BitVec 32 := BitVec.ofNat 32 (leNat ([a, a + 1, a + 2, a + 3].map s.hostByte))

/-- Memory of Table 17.8 that the host reaches. -/
def hostMem (a : Nat) : Bool :=
  a < 0x200800000 || (0x201000000 ≤ a && a < 0x202200000) || (nvBase ≤ a && a < nvEnd)

def inSecure (a : Nat) : Bool := secBase ≤ a && a < secBase + 0x40000

/-- Report table and command-slot staging: the spec places them and does not lay out their words. -/
def unlaid (a : Nat) : Bool :=
  (dpramBase ≤ a && a < dpramBase + 0x40000) || (dpramBase + 0x50000 ≤ a && a < dpramBase + 0x60000)

/-- What a reader receives for an uncorrectable word, and its status: of the error that goes to the requester the spec gives
neither (free values), but for the staging DPRAM. -/
def State.badWord (s : State) (a : Nat) : BitVec 8 × BitVec 32 × State :=
  if dpramBase ≤ a ∧ a < secBase then
    (hsOk, dpValue (decide (dpramBase + 0x40000 ≤ a) && decide (a < dpramBase + 0x50000) &&
      s.sigType ((a - dpramBase - 0x40000) / 4) == 1), s)
  else
    let (x, s) := s.free32
    let (v, s) := s.free32
    (x.setWidth 8, v, s)

/-- A READ of one word by the host. -/
def State.hostRead (s : State) (a : Nat) (err : EccErr) : BitVec 8 × BitVec 32 × State :=
  if hostMem a then
    if s.wintered a then (hsOk, 0, s.accErr)
    else
      let s := s.eccHit a err
      if err = .double then s.badWord a
      else if unlaid a then
        let (v, s) := s.free32
        (hsOk, v, s)
      else (hsOk, s.hostWord a, s)
  else if inSecure a then (hsOk, 0, s.accErr)
  else match regOffset a with
    | some o => let (v, s) := s.regRead o; (hsOk, v, s)
    | none => (hsAddr, 0, s)

/-- A report whose fields a host write has left open. -/
def State.reportFree (s : State) (x : Nat) : State :=
  let (here, s) := s.freeBool
  let (k, s) := s.freeNat
  let (v, s) := s.free64
  let (w, s) := s.free64
  { s with reports := spSet none s.reports x (if here then some (reportOf k v w) else none) }

/-- Bytes `a` to `a + 3` of signal entry `i` take those of `v`. -/
def State.sigBytes (s : State) (a : Nat) (v : BitVec 32) (i : Nat) : BitVec 32 :=
  BitVec.ofNat 32 (leNat ([0, 1, 2, 3].map fun j =>
    let b := dpramBase + 0x40000 + 4 * i + j
    if a ≤ b ∧ b < a + 4 then v.extractLsb' (8 * (b - a)) 8 else (s.sigNow i).extractLsb' (8 * j) 8))

/-- A host write of `v` into the signal map from address `a`. -/
def State.hostSig (s : State) (a : Nat) (v : BitVec 32) : State :=
  let i := (a - dpramBase - 0x40000) / 4
  let w := s.sigBytes a v i
  if a % 4 = 0 then s.sigHostPut i w else (s.sigHostPut i w).sigHostPut (i + 1) (s.sigBytes a v (i + 1))

/-- A host write of one word of memory. -/
def State.memWrite (s : State) (a : Nat) (v : BitVec 32) : State :=
  if s.wintered a || decide (nvBase ≤ a) then s.accErr
  else if dpramBase ≤ a ∧ a < dpramBase + 0x40000 then
    let x := (a - dpramBase) / 32
    let y := (a + 3 - dpramBase) / 32
    let s := s.reportFree x
    if x = y then s else s.reportFree y
  else if dpramBase + 0x40000 ≤ a ∧ a < dpramBase + 0x50000 then s.hostSig a v
  else if unlaid a then s
  else s.setMw a v

/-- A WRITE of one word by the host: its status and the state. -/
def State.hostWrite (s : State) (a : Nat) (v : BitVec 32) : BitVec 8 × State :=
  if hostMem a then (hsOk, s.memWrite a v)
  else if inSecure a then (hsOk, s.accErr)
  else match regOffset a with
    | some o =>
      if o % 4 ≠ 0 then (hsOk, s)
      else
        let bar := s.privField o v && !s.bit F.SYS_PRIV_OPEN
        (if bar then hsPriv else hsOk, s.regWrite .host o v)
    | none => (hsAddr, s)

/-! ## Transactions (R386 to R388) -/

/-- The first status that is not OK. -/
def worst (a b : BitVec 8) : BitVec 8 := if a = hsOk then b else a

/-- Data words as they pass on HCP_D, most significant byte first. -/
def wordBytes (ws : List (BitVec 32)) : List Byte := ws.flatMap (fun w => beBytes 4 w.toNat)

/-- The response that the device drives. -/
def State.respond (s : State) (st : BitVec 8) (ws : List (BitVec 32)) : State :=
  { s with hcp := { s.hcp with resp := { status := st, words := ws, crc := crc8 (st :: wordBytes ws) } } }

/-- A transaction of the bytes `bs` that ends in the CRC-8 `crc` (R387, R388): while a long EXEC runs it is answered BUSY; one
that does not verify changes nothing else. -/
def State.transact (s : State) (bs : List Byte) (crc : BitVec 8) (f : State → State) : State :=
  if s.hcp.long.isSome then ((s.inc F.HCP_BUSY_CNT_V).raise 247).respond hsBusy []
  else if crc8 bs ≠ crc then ((s.inc F.HCP_CRC_CNT_V).raise 247).respond hsCrc []
  else f (s.when (s.bit F.SYS_PRIV_OPEN) State.touchPriv)

/-- Bytes of a READ or WRITE before its data: command, address. -/
def headBytes (code n : Nat) (addr : BitVec 40) : List Byte := BitVec.ofNat 8 (code + n) :: beBytes 5 addr.toNat

/-- The words from address `a`, `n` of them: worst status, words, state. -/
def State.readWords : Nat → State → Nat → List EccErr → BitVec 8 × List (BitVec 32) × State
  | 0, s, _, _ => (hsOk, [], s)
  | n + 1, s, a, es =>
    let (st, v, s) := s.hostRead a (es.headD .ok)
    let (st', vs, s) := State.readWords n s (a + 4) es.tail
    (worst st st', v :: vs, s)

/-- READ (R386, R358, R362, R380): n + 1 words. -/
def execRead (t : Nat) (addr : BitVec 40) (n : Fin 64) (errs : List EccErr) (crc : BitVec 8) (s : State) : Host.Outcome State Fault Refusal :=
  .next (s.onDie t fun s => s.transact (headBytes 0x40 n addr) crc fun s =>
    let (st, ws, s) := State.readWords (n.val + 1) s addr.toNat errs
    s.respond st ws)

/-- An address where port A of the staging DPRAM writes besides the host: report table, signal entries of the RPU (R354). -/
def portA (a : Nat) : Bool := dpramBase ≤ a && a < dpramBase + 0x44000

/-- The words `ws` from address `a`; with `lost`, the first word that can meet a port-A write is lost, and its status is LOST_WRITE, to which
Table 17.13 gives no code: a free value (R354; log entry 117). -/
def State.writeWords : List (BitVec 32) → State → Nat → Bool → BitVec 8 × State
  | [], s, _, _ => (hsOk, s)
  | w :: ws, s, a, lost =>
    if lost && portA a then
      let (x, s) := s.lostWrite.free32
      (x.setWidth 8, (State.writeWords ws s (a + 4) false).2)
    else
      let (st, s) := s.hostWrite a w
      let (st', s) := State.writeWords ws s (a + 4) lost
      (worst st st', s)

/-- WRITE (R386, R387): 1 to 64 words. -/
def execWrite (t : Nat) (addr : BitVec 40) (ws : List (BitVec 32)) (lost : Bool) (crc : BitVec 8) (s : State) : Host.Outcome State Fault Refusal :=
  .next (s.onDie t fun s =>
    if ws.isEmpty || decide (64 < ws.length) then s
    else s.transact (headBytes 0x80 (ws.length - 1) addr ++ wordBytes ws) crc fun s =>
      let (st, s) := State.writeWords ws s addr.toNat lost
      s.respond st [])

/-- CS_N_EARLY_RISE (R387). -/
def execCsEarlyRise (t : Nat) (s : State) : Host.Outcome State Fault Refusal := .next (s.onDie t (·.inc F.HCP_CRC_CNT_V))

/-! ## EXEC (Table 17.14) -/

/-- An EXEC of code `code` with `n` argument bytes of value `arg`; `f` gives its status. -/
def State.execCmd (s : State) (code n arg : Nat) (crc : BitVec 8) (f : State → BitVec 8 × State) : State :=
  s.transact (BitVec.ofNat 8 (0xC0 + code) :: beBytes n arg) crc fun s => (f s).2.respond (f s).1 []

/-- A privileged EXEC; `free` where it needs no privilege. -/
def State.privExec (s : State) (free : Bool) (f : State → BitVec 8 × State) : BitVec 8 × State :=
  if free || s.bit F.SYS_PRIV_OPEN then f s else (hsPriv, s)

/-- LOAD (R372). -/
def execLoad (t : Nat) (arg : BitVec 64) (crc : BitVec 8) (s : State) : Host.Outcome State Fault Refusal :=
  .next (s.onDie t (·.execCmd 1 8 arg.toNat crc fun s => s.privExec (s.bit F.CFC_STAT_NOIMG) (·.loadReq arg)))

/-- SWITCH (R375). -/
def execSwitch (t : Nat) (arg : BitVec 64) (crc : BitVec 8) (s : State) : Host.Outcome State Fault Refusal :=
  .next (s.onDie t (·.execCmd 2 8 arg.toNat crc fun s => s.privExec (s.bit F.CFC_STAT_NOIMG) (·.switchReq arg)))

/-- UPDATE (R378). -/
def execUpdate (t : Nat) (arg : BitVec 64) (crc : BitVec 8) (s : State) : Host.Outcome State Fault Refusal :=
  .next (s.onDie t (·.execCmd 3 8 arg.toNat crc fun s => s.privExec false (·.updateReq arg)))

/-- CAL (R218). -/
def execCal (t : Nat) (x : CalExec) (s : State) : Host.Outcome State Fault Refusal :=
  .next (s.onDie t (·.execCmd 4 0 0 x.crc fun s => (hsOk, (s.calBegin x.raws).longStart 4 0)))

/-- CAL_COMPLETE (R218). -/
def execCalComplete (t : Nat) (raws : List (Int × Int)) (s : State) : Host.Outcome State Fault Refusal :=
  .next (s.onDie t fun s => if (s.longArg 4).isSome && s.calOver then (s.calEnd raws).longEnd hsOk else s)

/-- LOG_CLEAR (R323). -/
def execLogClear (t : Nat) (crc : BitVec 8) (s : State) : Host.Outcome State Fault Refusal :=
  .next (s.onDie t (·.execCmd 6 0 0 crc fun s => s.privExec false fun s => (hsOk, (s.setBit F.EVR_STAT_CLEARING true).longStart 6 0)))

/-- LOG_CLEAR_COMPLETE (R323, R317). -/
def execLogClearComplete (t : Nat) (bad : LogFault) (s : State) : Host.Outcome State Fault Refusal :=
  .next (s.onDie t fun s =>
    if (s.longArg 6).isSome then
      let (ok, s) := s.logClearEnd bad
      s.longEnd (if ok then hsOk else hsRefused)
    else s)

/-- EXEC EXPORT: an entry that is not closed, or whose data are lost, is refused. -/
def State.exportReq (s : State) (arg : BitVec 64) : BitVec 8 × State :=
  let e := s.dir (arg.toNat % 1024)
  if !e.has fClosed || e.has fLost then (hsRefused, s.setBit F.DRC_EXP_STAT_REFUSED true) else (hsOk, s.longStart 7 arg)

/-- EXPORT (R334). -/
def execExportExec (t : Nat) (arg : BitVec 64) (crc : BitVec 8) (s : State) : Host.Outcome State Fault Refusal :=
  .next (s.onDie t (·.execCmd 7 8 arg.toNat crc (·.exportReq arg)))

/-- EXPORT_COMPLETE (R334). -/
def execExportComplete (t : Nat) (s : State) : Host.Outcome State Fault Refusal :=
  .next (s.onDie t fun s => match s.longArg 7 with
    | some a =>
      let (ok, s) := s.drcExport (a.toNat % 1024)
      s.longEnd (if ok then hsOk else hsRefused)
    | none => s)

/-- EXEC_NOP (R386). -/
def execExecNop (t : Nat) (crc : BitVec 8) (s : State) : Host.Outcome State Fault Refusal :=
  .next (s.onDie t (·.execCmd 0x12 0 0 crc fun s => (hsOk, s)))

/-! ## Life cycle (R384, R385, Tables 16.6 and 17.12) -/

/-- Transitions of Table 17.12. -/
def lcAllowed (a b : Nat) : Bool := [(0, 1), (0, 3), (1, 2), (1, 3), (2, 1), (2, 3)].contains (a, b)

/-- The provisioning record goes from the staging buffer into the fuses, once. -/
def State.provision (s : State) : State :=
  let b := s.mbytes stagingBase 128
  { s with aon := { s.aon with signerHash := some (BitVec.ofNat 384 (beNat (b.take 48))),
                               safetyHash := some (BitVec.ofNat 384 (beNat (keyPart b 48 48))),
                               kDev := some (BitVec.ofNat 256 (beNat (keyPart b 96 32))) } }

/-- Nothing of an image is in force any more: role INIT, every RWL field at its reset value, ports and links off. -/
def State.unload (s : State) : State :=
  let s := (s.dropLease roleInit).imgApply {}
  let s := (s.setBit F.CFC_STAT_NOIMG true).portsLoad
  let s := [64, 65, 66, 67, 68, 69, 70, 71].foldl (fun s l => s.txStop l) s
  let s : State := { s with cyc := { s.cyc with comps := [], frame := none, slots := [] }, cfc := {} }
  s.safetyLoad none

/-- Volatile memory and both configuration slots are wiped (Table 16.6). -/
def State.lcWipe (s : State) (dec : Bool) : State :=
  let s : State := { s with mem := if dec then [] else s.mem.filter (fun c => decide (nvBase + 0x1800000 ≤ c.1)), reports := [], sig := [], sigNext := [], sigHost := [], sigUnc := [],
                            tds := { s.tds with prog := [], shadow := [], queue := [], spawned := [], eng := [] },
                            evr := { s.evr with order := [], buf := [] }, drc := { nvPend := false },
                            spu := { s.spu with dup := [] },
                            memu := { s.memu with wipe := if dec then .decommission else .lifeCycle } }
  let s := ((s.setBit F.DRC_STAT_ARMED false).setBit F.DRC_CTL_ARM false).setFld F.DRC_STAT_NDIR 0
  let s := [0, 1].foldl (fun s n => (s.wr (R.CFC_SLOT_GEN n) 0).wr (R.CFC_SLOT_STAT n) 0) (s.setFld F.DRC_WPTR_V 0)
  s.setBit F.MEM_STAT_WIPING true

/-- Entry to DECOMMISSIONED wipes AON SRAM and the NV store but for the lifetime store. -/
def State.decWipe (s : State) : State :=
  let aon (a : Nat) : Bool := a == R.AON_EVT_WPTR || (decide (R.AON_EVT_W 0 0 ≤ a) && decide (a < R.AON_EVT_W 64 0)) ||
    a == R.EVR_SEQ_NEXT || a == R.EVR_RSV_STAT || (decide (R.EVR_RSV_W 0 0 ≤ a) && decide (a < R.EVR_RSV_W 16 0))
  let s : State := { s with regs := s.regs.filter (fun c => !aon c.1), evr := { s.evr with log := [] } }
  (s.setFld F.EVR_WPTR_V 0).setBit F.EVR_STAT_FULL false

/-- An accepted life-cycle change to state `b`. -/
def State.lcStart (s : State) (b : Nat) (arg : BitVec 64) : State :=
  let s := s.when (s.fld F.SYS_LC_STATE = 0) State.provision
  let s := (s.when (s.sfiState != stBlock) State.blockUnnamed).unload
  let s := ((s.lcWipe (b == 3)).when (b == 3) State.decWipe).privClose
  s.longStart 5 arg

/-- EXEC LC. -/
def State.lcReq (s : State) (arg : BitVec 64) : BitVec 8 × State :=
  let b := arg.toNat % 4
  if lcAllowed (s.fld F.SYS_LC_STATE) b then (hsOk, s.lcStart b arg) else (hsRefused, s)

/-- LC (R384, R385, R389). -/
def execLc (t : Nat) (arg : BitVec 64) (crc : BitVec 8) (s : State) : Host.Outcome State Fault Refusal :=
  .next (s.onDie t (·.execCmd 5 8 arg.toNat crc fun s =>
    s.privExec (s.bit F.CFC_STAT_NOIMG || s.fld F.SYS_LC_STATE == 0) (·.lcReq arg)))

/-- The change is complete: the new state, source 246; in DECOMMISSIONED no lane carries traffic. -/
def State.lcEnd (s : State) (b : Nat) : State :=
  let s := s.setFld F.SYS_LC_STATE b
  let s := s.when (b == 3) (fun s => (List.range 72).foldl (fun s l => s.txStop l) s)
  (s.raise 246).longEnd hsOk

/-- LC_COMPLETE (R384). -/
def execLcComplete (t : Nat) (s : State) : Host.Outcome State Fault Refusal :=
  .next (s.onDie t fun s => match s.longArg 5 with
    | some a => if s.memu.wipe = .none then s.lcEnd (a.toNat % 4) else s
    | none => s)

/-! ## Privilege (R389) -/

/-- The tag that opens privilege now. -/
def State.privTag (s : State) : BitVec 128 :=
  (hmacSha384 (beBytes 32 (s.key256 (secBase + 0x820)).toNat)
    (beBytes 4 (s.rd R.SYS_PRIV_NONCE_HI).toNat ++ beBytes 4 (s.rd R.SYS_PRIV_NONCE_LO).toNat ++ beBytes 7 Config.serial.toNat ++ [1])).extractLsb' 256 128

/-- A failed attempt; the fifth in a row locks out. -/
def State.privFail (s : State) : State :=
  let s := s.inc F.SYS_PRIV_FAILS
  if 5 ≤ s.fld F.SYS_PRIV_FAILS then
    let s := ({ s with hcp := { s.hcp with lockAt := s.mono } } : State).setBit F.SYS_PRIV_LOCKOUT true
    (s.aonEvent 245).raise 245
  else s

/-- EXEC PRIV_OPEN. -/
def State.privOpen (s : State) (tag : BitVec 128) : BitVec 8 × State :=
  let want := s.privTag
  let s := s.newNonce
  if s.bit F.SYS_PRIV_LOCKOUT then (hsLockout, s)
  else if tag = want then
    let s := ((s.setBit F.SYS_PRIV_OPEN true).setFld F.SYS_PRIV_FAILS 0).touchPriv
    (hsOk, s.raise 245)
  else (hsRefused, s.privFail)

/-- PRIV_OPEN (R389). -/
def execPrivOpen (t : Nat) (tag : BitVec 128) (crc : BitVec 8) (s : State) : Host.Outcome State Fault Refusal :=
  .next (s.onDie t (·.execCmd 0x10 16 tag.toNat crc (·.privOpen tag)))

/-- PRIV_CLOSE (R389). -/
def execPrivClose (t : Nat) (crc : BitVec 8) (s : State) : Host.Outcome State Fault Refusal :=
  .next (s.onDie t (·.execCmd 0x11 0 0 crc fun s => (hsOk, s.privClose)))

/-- PRIV_TIMEOUT (R389). -/
def execPrivTimeout (t : Nat) (s : State) : Host.Outcome State Fault Refusal :=
  .next (s.onDie t fun s =>
    if s.bit F.SYS_PRIV_OPEN && decide (s.hcp.lastPriv + s.fld F.SYS_PRIV_TMO_V * 10 ^ 9 ≤ s.mono) then s.privClose else s)

/-- LOCKOUT_EXPIRY (R389): 60 s. -/
def execLockoutExpiry (t : Nat) (s : State) : Host.Outcome State Fault Refusal :=
  .next (s.onDie t fun s =>
    if s.bit F.SYS_PRIV_LOCKOUT && decide (s.hcp.lockAt + 60 * 10 ^ 9 ≤ s.mono) then
      (s.setBit F.SYS_PRIV_LOCKOUT false).setFld F.SYS_PRIV_FAILS 0
    else s)

end Sys2Proof.Machine
end

