-- ==== Sys2Proof/Machine/Dispatch.lean ====
section
/-! DEFINITION. The dispatch: one arm per command. -/

namespace Sys2Proof.Machine

def exec (i : Instr) (s : State) : Host.Outcome State Fault Refusal :=
  match i with
  | .powerOnReset t causes => Sys2Proof.Machine.execPowerOnReset t causes s
  | .porstAssert t => Sys2Proof.Machine.execPorstAssert t s
  | .porstRelease t uid => Sys2Proof.Machine.execPorstRelease t uid s
  | .bootImageSelect t => Sys2Proof.Machine.execBootImageSelect t s
  | .logRecovery t bad => Sys2Proof.Machine.execLogRecovery t bad s
  | .wipeComplete t => Sys2Proof.Machine.execWipeComplete t s
  | .buttonPress t => Sys2Proof.Machine.execButtonPress t s
  | .buttonRelease t saveOk => Sys2Proof.Machine.execButtonRelease t saveOk s
  | .buttonStuck t => Sys2Proof.Machine.execButtonStuck t s
  | .buttonUnstuck t => Sys2Proof.Machine.execButtonUnstuck t s
  | .thermalTrip t => Sys2Proof.Machine.execThermalTrip t s
  | .mgcWatchdog t saveOk => Sys2Proof.Machine.execMgcWatchdog t saveOk s
  | .jtagReset t saveOk => Sys2Proof.Machine.execJtagReset t saveOk s
  | .vcoreLoss t => Sys2Proof.Machine.execVcoreLoss t s
  | .vsafLoss t => Sys2Proof.Machine.execVsafLoss t s
  | .d3Loss t => Sys2Proof.Machine.execD3Loss t s
  | .d9Loss t => Sys2Proof.Machine.execD9Loss t s
  | .pfailFall t bad saveOk => Sys2Proof.Machine.execPfailFall t bad saveOk s
  | .pfailAcceptEnd t => Sys2Proof.Machine.execPfailAcceptEnd t s
  | .pfailRecovered t saveOk => Sys2Proof.Machine.execPfailRecovered t saveOk s
  | .vbatLow t => Sys2Proof.Machine.execVbatLow t s
  | .cycleStart t => Sys2Proof.Machine.execCycleStart t s
  | .timeBlockSend t port early => Sys2Proof.Machine.execTimeBlockSend t port early s
  | .p0Release t => Sys2Proof.Machine.execP0Release t s
  | .rankComplete t arm => Sys2Proof.Machine.execRankComplete t arm s
  | .phaseRelease t n => Sys2Proof.Machine.execPhaseRelease t n s
  | .phaseComplete t n => Sys2Proof.Machine.execPhaseComplete t n s
  | .sendPoint t => Sys2Proof.Machine.execSendPoint t s
  | .downFrameSend t => Sys2Proof.Machine.execDownFrameSend t s
  | .blockReceived t tenth lane line off ofs => Sys2Proof.Machine.execBlockReceived t tenth lane line off ofs s
  | .blockLockAcquired t lane => Sys2Proof.Machine.execBlockLockAcquired t lane s
  | .blockLockLost t lane => Sys2Proof.Machine.execBlockLockLost t lane s
  | .rateMatch t lane => Sys2Proof.Machine.execRateMatch t lane s
  | .blockSetReceived t lane => Sys2Proof.Machine.execBlockSetReceived t lane s
  | .collectFrame t port via fs => Sys2Proof.Machine.execCollectFrame t port via fs s
  | .downFrame t port fs => Sys2Proof.Machine.execDownFrame t port fs s
  | .identFrame t port fs => Sys2Proof.Machine.execIdentFrame t port fs s
  | .tstampFrame t port refStamps fs => Sys2Proof.Machine.execTstampFrame t port refStamps fs s
  | .identifyRetry t port => Sys2Proof.Machine.execIdentifyRetry t port s
  | .sessionStart t port => Sys2Proof.Machine.execSessionStart t port s
  | .relayFrame t port fs => Sys2Proof.Machine.execRelayFrame t port fs s
  | .partnerFrame t fs => Sys2Proof.Machine.execPartnerFrame t fs s
  | .cycleJudgement t => Sys2Proof.Machine.execCycleJudgement t s
  | .partnerLinkUp t skew partnerUid => Sys2Proof.Machine.execPartnerLinkUp t skew partnerUid s
  | .partnerLinkDown t skew => Sys2Proof.Machine.execPartnerLinkDown t skew s
  | .partnerLinkDown64 t => Sys2Proof.Machine.execPartnerLinkDown64 t s
  | .claimWaitExpiry t => Sys2Proof.Machine.execClaimWaitExpiry t s
  | .reclaimSettle t => Sys2Proof.Machine.execReclaimSettle t s
  | .nop n p => Sys2Proof.Machine.execNop n p s
  | .fadd n p d a b => Sys2Proof.Machine.execFadd n p d a b s
  | .fsub n p d a b => Sys2Proof.Machine.execFsub n p d a b s
  | .fmul n p d a b => Sys2Proof.Machine.execFmul n p d a b s
  | .fma n p d a b c => Sys2Proof.Machine.execFma n p d a b c s
  | .fms n p d a b c => Sys2Proof.Machine.execFms n p d a b c s
  | .fmin n p d a b => Sys2Proof.Machine.execFmin n p d a b s
  | .fmax n p d a b => Sys2Proof.Machine.execFmax n p d a b s
  | .fabs n p d a => Sys2Proof.Machine.execFabs n p d a s
  | .fneg n p d a => Sys2Proof.Machine.execFneg n p d a s
  | .fclamp n p d a b c => Sys2Proof.Machine.execFclamp n p d a b c s
  | .fslt n p d a b => Sys2Proof.Machine.execFslt n p d a b s
  | .fseq n p d a b => Sys2Proof.Machine.execFseq n p d a b s
  | .f2i n p d a => Sys2Proof.Machine.execF2i n p d a s
  | .i2f n p d a => Sys2Proof.Machine.execI2f n p d a s
  | .frcpe n p d a => Sys2Proof.Machine.execFrcpe n p d a s
  | .frsqe n p d a => Sys2Proof.Machine.execFrsqe n p d a s
  | .tap n p d a b err => Sys2Proof.Machine.execTap n p d a b err s
  | .mac n p d a b => Sys2Proof.Machine.execMac n p d a b s
  | .macu n p d a b => Sys2Proof.Machine.execMacu n p d a b s
  | .mul64 n p d a b => Sys2Proof.Machine.execMul64 n p d a b s
  | .accrd n p d a imm => Sys2Proof.Machine.execAccrd n p d a imm s
  | .mul n p d a b => Sys2Proof.Machine.execMul n p d a b s
  | .add n p d a b => Sys2Proof.Machine.execAdd n p d a b s
  | .sub n p d a b => Sys2Proof.Machine.execSub n p d a b s
  | .andW n p d a b => Sys2Proof.Machine.execAndW n p d a b s
  | .orW n p d a b => Sys2Proof.Machine.execOrW n p d a b s
  | .xorW n p d a b => Sys2Proof.Machine.execXorW n p d a b s
  | .shl n p d a b => Sys2Proof.Machine.execShl n p d a b s
  | .shr n p d a b => Sys2Proof.Machine.execShr n p d a b s
  | .sar n p d a b => Sys2Proof.Machine.execSar n p d a b s
  | .addi n p d a imm => Sys2Proof.Machine.execAddi n p d a imm s
  | .slt n p d a b => Sys2Proof.Machine.execSlt n p d a b s
  | .sel n p d a b c => Sys2Proof.Machine.execSel n p d a b c s
  | .lil n p d imm => Sys2Proof.Machine.execLil n p d imm s
  | .lih n p d imm => Sys2Proof.Machine.execLih n p d imm s
  | .lw n p d a imm err => Sys2Proof.Machine.execLw n p d a imm err s
  | .sw n p d a imm err => Sys2Proof.Machine.execSw n p d a imm err s
  | .lwi n p d a imm err => Sys2Proof.Machine.execLwi n p d a imm err s
  | .swi n p d a imm err => Sys2Proof.Machine.execSwi n p d a imm err s
  | .lw2 n p d a imm err => Sys2Proof.Machine.execLw2 n p d a imm err s
  | .sw2 n p d a imm err => Sys2Proof.Machine.execSw2 n p d a imm err s
  | .lds n p d a imm err => Sys2Proof.Machine.execLds n p d a imm err s
  | .ldsi n p d a imm err => Sys2Proof.Machine.execLdsi n p d a imm err s
  | .sts n p d a imm => Sys2Proof.Machine.execSts n p d a imm s
  | .ldc n p d a imm err => Sys2Proof.Machine.execLdc n p d a imm err s
  | .stc n p d a imm err => Sys2Proof.Machine.execStc n p d a imm err s
  | .fence n p => Sys2Proof.Machine.execFence n p s
  | .bnz n p a ofs => Sys2Proof.Machine.execBnz n p a ofs s
  | .bz n p a ofs => Sys2Proof.Machine.execBz n p a ofs s
  | .loop n p ofs => Sys2Proof.Machine.execLoop n p ofs s
  | .loopn n p ofs => Sys2Proof.Machine.execLoopn n p ofs s
  | .setlc n p a imm => Sys2Proof.Machine.execSetlc n p a imm s
  | .dlx n p a => Sys2Proof.Machine.execDlx n p a s
  | .spawn n p a b => Sys2Proof.Machine.execSpawn n p a b s
  | .endTask n p => Sys2Proof.Machine.execEndTask n p s
  | .outstandingComplete t n o => Sys2Proof.Machine.execOutstandingComplete t n o s
  | .taskComplete t n donor => Sys2Proof.Machine.execTaskComplete t n donor s
  | .descriptorDispatch t n pick => Sys2Proof.Machine.execDescriptorDispatch t n pick s
  | .boundExceeded t n => Sys2Proof.Machine.execBoundExceeded t n s
  | .admissionComplete t c bad => Sys2Proof.Machine.execAdmissionComplete t c bad s
  | .dsWord t ch raw ovr stuck => Sys2Proof.Machine.execDsWord t ch raw ovr stuck s
  | .mdxLoss t x => Sys2Proof.Machine.execMdxLoss t x s
  | .sarTrigger t a trig => Sys2Proof.Machine.execSarTrigger t a trig s
  | .sarConversion t a code => Sys2Proof.Machine.execSarConversion t a code s
  | .sarStart t a => Sys2Proof.Machine.execSarStart t a s
  | .sarUrgent t a req => Sys2Proof.Machine.execSarUrgent t a req s
  | .svLost t ix => Sys2Proof.Machine.execSvLost t ix s
  | .psiEdge t ix high => Sys2Proof.Machine.execPsiEdge t ix high s
  | .psiTimeout t ix => Sys2Proof.Machine.execPsiTimeout t ix s
  | .cal t x => Sys2Proof.Machine.execCal t x s
  | .calComplete t raws => Sys2Proof.Machine.execCalComplete t raws s
  | .recal t ch => Sys2Proof.Machine.execRecal t ch s
  | .recalComplete t raw0 raw1 => Sys2Proof.Machine.execRecalComplete t raw0 raw1 s
  | .calFactorWrite t ch gain v => Sys2Proof.Machine.execCalFactorWrite t ch gain v s
  | .stationFrame t port f => Sys2Proof.Machine.execStationFrame t port f s
  | .ringTailWrite t pair tx q tail => Sys2Proof.Machine.execRingTailWrite t pair tx q tail s
  | .txFrameSent t port => Sys2Proof.Machine.execTxFrameSent t port s
  | .dupExpiry t pair => Sys2Proof.Machine.execDupExpiry t pair s
  | .lanSilent t port => Sys2Proof.Machine.execLanSilent t port s
  | .stationLink t port locked => Sys2Proof.Machine.execStationLink t port locked s
  | .ofsIn t hi => Sys2Proof.Machine.execOfsIn t hi s
  | .timeStep t byPartner => Sys2Proof.Machine.execTimeStep t byPartner s
  | .sourceLost t src => Sys2Proof.Machine.execSourceLost t src s
  | .ppsInEdge t => Sys2Proof.Machine.execPpsInEdge t s
  | .ppsInMissing t => Sys2Proof.Machine.execPpsInMissing t s
  | .ppsOutStart t => Sys2Proof.Machine.execPpsOutStart t s
  | .ppsOutEnd t => Sys2Proof.Machine.execPpsOutEnd t s
  | .stepRearm t who => Sys2Proof.Machine.execStepRearm t who s
  | .tsiEdge t ix falling pulse => Sys2Proof.Machine.execTsiEdge t ix falling pulse s
  | .tsiPop t ix => Sys2Proof.Machine.execTsiPop t ix s
  | .timeLoRead t => Sys2Proof.Machine.execTimeLoRead t s
  | .tsoGo t o level => Sys2Proof.Machine.execTsoGo t o level s
  | .tsoAction t o => Sys2Proof.Machine.execTsoAction t o s
  | .tsoPeriodicEdge t o => Sys2Proof.Machine.execTsoPeriodicEdge t o s
  | .sinChange t p chB active band => Sys2Proof.Machine.execSinChange t p chB active band s
  | .discrepancyLatch t p => Sys2Proof.Machine.execDiscrepancyLatch t p s
  | .stopComplete t => Sys2Proof.Machine.execStopComplete t s
  | .tstopExpiry t => Sys2Proof.Machine.execTstopExpiry t s
  | .release t who => Sys2Proof.Machine.execRelease t who s
  | .ack t who mask => Sys2Proof.Machine.execAck t who mask s
  | .stopReq t who => Sys2Proof.Machine.execStopReq t who s
  | .blockReq t who => Sys2Proof.Machine.execBlockReq t who s
  | .selfTestFailure t test => Sys2Proof.Machine.execSelfTestFailure t test s
  | .releaseReq t who => Sys2Proof.Machine.execReleaseReq t who s
  | .relClr t who => Sys2Proof.Machine.execRelClr t who s
  | .eqxGo t who lateOk => Sys2Proof.Machine.execEqxGo t who lateOk s
  | .fcoMessage t ms => Sys2Proof.Machine.execFcoMessage t ms s
  | .thaw t kind => Sys2Proof.Machine.execThaw t kind s
  | .fcoAck t who kind => Sys2Proof.Machine.execFcoAck t who kind s
  | .fcoInj t hi => Sys2Proof.Machine.execFcoInj t hi s
  | .intPendClear t w mask coinc => Sys2Proof.Machine.execIntPendClear t w mask coinc s
  | .eventArrival t => Sys2Proof.Machine.execEventArrival t s
  | .bucketRefill t ix => Sys2Proof.Machine.execBucketRefill t ix s
  | .orderingRelease t => Sys2Proof.Machine.execOrderingRelease t s
  | .commitTimeout t => Sys2Proof.Machine.execCommitTimeout t s
  | .evrCommit t bad => Sys2Proof.Machine.execEvrCommit t bad s
  | .frostStart t => Sys2Proof.Machine.execFrostStart t s
  | .frostEnd t => Sys2Proof.Machine.execFrostEnd t s
  | .frostTmo t => Sys2Proof.Machine.execFrostTmo t s
  | .rsvClr t who => Sys2Proof.Machine.execRsvClr t who s
  | .rdw7Read t => Sys2Proof.Machine.execRdw7Read t s
  | .logClear t crc => Sys2Proof.Machine.execLogClear t crc s
  | .logClearComplete t bad => Sys2Proof.Machine.execLogClearComplete t bad s
  | .recordClose t => Sys2Proof.Machine.execRecordClose t s
  | .drcArm t => Sys2Proof.Machine.execDrcArm t s
  | .drcDisarm t => Sys2Proof.Machine.execDrcDisarm t s
  | .drcRel t entry => Sys2Proof.Machine.execDrcRel t entry s
  | .mskPdataWrite t who m v => Sys2Proof.Machine.execMskPdataWrite t who m v s
  | .exportExec t arg crc => Sys2Proof.Machine.execExportExec t arg crc s
  | .exportComplete t => Sys2Proof.Machine.execExportComplete t s
  | .exportDone t => Sys2Proof.Machine.execExportDone t s
  | .apwBoundary t c => Sys2Proof.Machine.execApwBoundary t c s
  | .apwTrip t ix active => Sys2Proof.Machine.execApwTrip t ix active s
  | .blankEnd t ix => Sys2Proof.Machine.execBlankEnd t ix s
  | .apwFltLow t => Sys2Proof.Machine.execApwFltLow t s
  | .fltClr t => Sys2Proof.Machine.execFltClr t s
  | .tripClr t c => Sys2Proof.Machine.execTripClr t c s
  | .forceGo t atBnd => Sys2Proof.Machine.execForceGo t atBnd s
  | .tamper t ix => Sys2Proof.Machine.execTamper t ix s
  | .privKeyReload t => Sys2Proof.Machine.execPrivKeyReload t s
  | .tampClear t who v => Sys2Proof.Machine.execTampClear t who v s
  | .unpoweredTamper t ix => Sys2Proof.Machine.execUnpoweredTamper t ix s
  | .winterRequest t cb ix => Sys2Proof.Machine.execWinterRequest t cb ix s
  | .winterWake t cb ix => Sys2Proof.Machine.execWinterWake t cb ix s
  | .winterReady t cb ix => Sys2Proof.Machine.execWinterReady t cb ix s
  | .read t addr n errs crc => Sys2Proof.Machine.execRead t addr n errs crc s
  | .write t addr ws lost crc => Sys2Proof.Machine.execWrite t addr ws lost crc s
  | .csEarlyRise t => Sys2Proof.Machine.execCsEarlyRise t s
  | .load t arg crc => Sys2Proof.Machine.execLoad t arg crc s
  | .loadComplete t => Sys2Proof.Machine.execLoadComplete t s
  | .switch t arg crc => Sys2Proof.Machine.execSwitch t arg crc s
  | .switchVerified t => Sys2Proof.Machine.execSwitchVerified t s
  | .switchInstant t => Sys2Proof.Machine.execSwitchInstant t s
  | .activationWordWritten t => Sys2Proof.Machine.execActivationWordWritten t s
  | .update t arg crc => Sys2Proof.Machine.execUpdate t arg crc s
  | .updateComplete t => Sys2Proof.Machine.execUpdateComplete t s
  | .lc t arg crc => Sys2Proof.Machine.execLc t arg crc s
  | .lcComplete t => Sys2Proof.Machine.execLcComplete t s
  | .privOpen t tag crc => Sys2Proof.Machine.execPrivOpen t tag crc s
  | .privClose t crc => Sys2Proof.Machine.execPrivClose t crc s
  | .execNop t crc => Sys2Proof.Machine.execExecNop t crc s
  | .privTimeout t => Sys2Proof.Machine.execPrivTimeout t s
  | .lockoutExpiry t => Sys2Proof.Machine.execLockoutExpiry t s
  | .lifetimeSaveTimer t saveOk => Sys2Proof.Machine.execLifetimeSaveTimer t saveOk s
  | .save t saveOk => Sys2Proof.Machine.execSave t saveOk s
  | .calendarSecond t => Sys2Proof.Machine.execCalendarSecond t s
  | .calSet t who hi => Sys2Proof.Machine.execCalSet t who hi s
  | .quadPd t q pd => Sys2Proof.Machine.execQuadPd t q pd s
  | .quadPllLocked t q => Sys2Proof.Machine.execQuadPllLocked t q s
  | .sleepRequest t lane v => Sys2Proof.Machine.execSleepRequest t lane v s
  | .signalDetectRise t lane => Sys2Proof.Machine.execSignalDetectRise t lane s
  | .txeqWrite t lane v => Sys2Proof.Machine.execTxeqWrite t lane v s
  | .adaptRestart t lane => Sys2Proof.Machine.execAdaptRestart t lane s
  | .eyeScanRun t lane v => Sys2Proof.Machine.execEyeScanRun t lane v s
  | .eyeScanDone t lane h v => Sys2Proof.Machine.execEyeScanDone t lane h v s
  | .loopPatternWrite t lane v => Sys2Proof.Machine.execLoopPatternWrite t lane v s
  | .reident t port => Sys2Proof.Machine.execReident t port s
  | .resession t port => Sys2Proof.Machine.execResession t port s
  | .quarClear t port hi v => Sys2Proof.Machine.execQuarClear t port hi v s
  | .mduAux t v => Sys2Proof.Machine.execMduAux t v s
  | .cluCommit t hi mask => Sys2Proof.Machine.execCluCommit t hi mask s
  | .preset t slot => Sys2Proof.Machine.execPreset t slot s
  | .schArm t slot lateOk => Sys2Proof.Machine.execSchArm t slot lateOk s
  | .swap t c lateOk => Sys2Proof.Machine.execSwap t c lateOk s
  | .admitCluster t c => Sys2Proof.Machine.execAdmitCluster t c s
  | .qStatRead t q => Sys2Proof.Machine.execQStatRead t q s
  | .confRead t m => Sys2Proof.Machine.execConfRead t m s
  | .sePdataWrite t n v => Sys2Proof.Machine.execSePdataWrite t n v s
  | .sePdataRead t n => Sys2Proof.Machine.execSePdataRead t n s
  | .registerWrite t who addr v => Sys2Proof.Machine.execRegisterWrite t who addr v s
  | .thermalTripEnd t uid => Sys2Proof.Machine.execThermalTripEnd t uid s
  | .supplyRecovery t r uid => Sys2Proof.Machine.execSupplyRecovery t r uid s
  | .apwFltHigh t => Sys2Proof.Machine.execApwFltHigh t s
  | .patrolScrub t addr err => Sys2Proof.Machine.execPatrolScrub t addr err s
  | .monitorWordGap t c => Sys2Proof.Machine.execMonitorWordGap t c s
  | .scpRestartComplete t => Sys2Proof.Machine.execScpRestartComplete t s

end Sys2Proof.Machine
end

