-- ==== Sys2Proof/Safety.lean ====
section
/-! DEFINITION. What claims speak of: stores in their canonical form, a controller die that is not held in reset, a pending source,
and the frame of a command: the registers, sources and fault kinds outside of which it leaves everything as it was. -/

namespace Sys2Proof.Machine

/-- Canonical form of memory: addresses strictly rising, no entry equal to what an unlisted address reads as. -/
def Memory.wf (m : List Host.Cell) : Bool := spWf memDefault m

/-- Canonical form of the registers: offsets strictly rising, no entry equal to its reset value. -/
def Registers.wf (m : Sparse (BitVec 32)) : Bool := spWf resetOf m

/-- Memory and registers are in canonical form. -/
def State.Canonical (s : State) : Prop := Memory.wf s.mem = true ∧ Registers.wf s.regs = true

/-- The controller die runs: nothing holds it in reset (R397 to R399). -/
def State.Live (s : State) : Prop := s.held = false

/-- Interrupt source `n` is pending (R24). -/
def State.pends (s : State) (n : Nat) : Bool := s.fbit (F.INT_PEND_PEND (n / 32)) (n % 32)

/-- The registers that an event of source `n` changes: its word of INT_PEND and its INT_SRC_CFG (R24, Table 1.11). -/
def evRegs (n : Nat) : List Nat := [R.INT_PEND (n / 32), R.INT_SRC_CFG n]

/-- The state without registers, memory, records on their way to the EVR, notices to the MGC, messages on their way to the
FCO, and without the number of the next free value. -/
def State.bare (s : State) : State :=
  { s with regs := [], mem := [], freeCtr := 0, evr := { s.evr with inbox := [] }, sys := { s.sys with mgcNotes := [] },
           fco := { s.fco with inFlight := [] } }

/-- The frame of a command that takes `s` to `t`: besides the registers `rs`, events of the sources `es` and fault messages of
the kinds `ks` it changes no register, no byte of memory and no other part of the state. -/
structure Frame (rs es ks : List Nat) (s t : State) : Prop where
  regs : ∀ a, a ∉ rs → (∀ n ∈ es, a ∉ evRegs n) → t.rd a = s.rd a
  mem : ∀ a, t.mb a = s.mb a
  inbox : ∃ l, t.evr.inbox = s.evr.inbox ++ l ∧ ∀ r ∈ l, r.src ∈ es
  notes : ∃ l, t.sys.mgcNotes = s.sys.mgcNotes ++ l ∧ ∀ n ∈ l, n ∈ es
  msgs : ∃ l, t.fco.inFlight = s.fco.inFlight ++ l ∧ ∀ m ∈ l, msgKind m ∈ ks
  bare : t.bare = s.bare

/-- Command `c`, which occurs at time `time`, completes on a die that runs: it answers a next state, of which `P` holds together with the
state at that time. -/
def State.Answers (s : State) (c : Instr) (time : Nat) (P : State → State → Prop) : Prop :=
  s.Live → ∃ t, exec c s = .next t ∧ P (s.tick time) t

/-- As `State.Answers`, for a command that acts whether or not the die is held in reset. -/
def State.Always (s : State) (c : Instr) (time : Nat) (P : State → State → Prop) : Prop := ∃ t, exec c s = .next t ∧ P (s.tick time) t

/-- No byte of memory changes from `u` to `t`. -/
def SameMem (u t : State) : Prop := ∀ a, t.mb a = u.mb a

/-- A fault message of kind `k` has gone out between `u` and `t`. -/
def Sent (k : Nat) (u t : State) : Prop := ∃ l m l', t.fco.inFlight = u.fco.inFlight ++ l ++ m :: l' ∧ msgKind m = k

/-- A saturating counter has grown by one. -/
def Counted (f : RF) (u t : State) : Prop := t.fld f = min (u.fld f + 1) (2 ^ f.w - 1)

/-- `u` with `v` as the value that the last read with a side effect returned. -/
def State.gave (u : State) (v : BitVec 32) : State := { u with hcp := { u.hcp with readVal := v } }

/-! ## Signal engines -/

/-- Engine `n` executes instruction `i` alone and at once when it is given it: the die runs, the engine's task has neither ended nor
failed, nothing waits in it, `i` is not the first of a pair, needs no outstanding load, and is what the engine fetches. -/
def State.Executes (s : State) (n : Nat) (i : SeIns) : Prop :=
  s.held = false ∧ (s.eng n).ended = false ∧ (s.eng n).failed = false ∧ (s.eng n).waiting = [] ∧ i.p = false ∧
    (s.eng n).mustWait i = false ∧ s.seFetches n [⟨i, .ok⟩] = true

/-- The engine at its next instruction index. -/
def Eng.advance (x : Eng) : Eng := { x with pc := (x.pc + 1) % 8192 }

/-- The state without the engines' own states. -/
def State.sansEng (s : State) : State := { s with tds := { s.tds with eng := [] } }

/-- From `s` to `u`, engine `n` becomes `x`, no other engine changes, and `Frame` holds of all the rest. -/
structure EngStep (n : Nat) (x : Eng) (rs es ks : List Nat) (s u : State) : Prop where
  own : u.eng n = x
  others : ∀ m, m ≠ n → u.eng m = s.eng m
  frame : Frame rs es ks s.sansEng u.sansEng

/-- The bits of SE_STAT that the flags set (Table 8.7). -/
def SeFlags.mask (f : SeFlags) : BitVec 32 :=
  (if f.inv then 0x40000000 else 0) ||| (if f.ovf then 0x20000000 else 0) ||| (if f.unf then 0x10000000 else 0) |||
    (if f.sat then 0x08000000 else 0)

/-- Command `c` has engine `n` execute instruction `i`: given to the engine when it executes `i` at once, it answers a state in which
that engine is `y`, SE_STAT has gained the flags `f`, and nothing else has changed. -/
def State.Runs (s : State) (n : Nat) (c : Instr) (i : SeIns) (y : Eng) (f : SeFlags) : Prop :=
  s.Executes n i → ∃ t, exec c s = .next t ∧ EngStep n y [R.SE_STAT n] [] [] s t ∧ t.rd (R.SE_STAT n) = s.rd (R.SE_STAT n) ||| f.mask

/-- As `State.Runs`, for an instruction whose result is the word `v` in register `d`. -/
def State.Writes (s : State) (n : Nat) (c : Instr) (i : SeIns) (d : Nat) (v : BitVec 32) (f : SeFlags) : Prop :=
  s.Runs n c i ((s.eng n).put d v).advance f

/-- As `State.Runs`, for an instruction that stores the words `st` (byte address in the tile, word): it changes no byte of memory outside
of them. -/
def State.Stores (s : State) (n : Nat) (c : Instr) (i : SeIns) (y : Eng) (f : SeFlags) (st : List (Nat × BitVec 32)) : Prop :=
  s.Executes n i → ∃ t, exec c s = .next t ∧ EngStep n y [R.SE_STAT n] [] [] { s with mem := t.mem } t ∧
    t.rd (R.SE_STAT n) = s.rd (R.SE_STAT n) ||| f.mask ∧ (∀ p ∈ st, t.mw (tileBase n + p.1) = p.2) ∧
    ∀ b, (∀ p ∈ st, b < tileBase n + p.1 ∨ tileBase n + p.1 + 4 ≤ b) → t.mb b = s.mb b

/-- From `s` to `t`, engine `n` abandons its task with error `code` at the handshake that starts at its index (R197): nothing is written but
SE_ERR, TASK_ERR and SE_ERR_CNT, source 72 + n is pending, a message of kind 0x22 is on its way to the FCO. -/
def State.TaskError (s : State) (n code : Nat) (t : State) : Prop :=
  EngStep n { s.eng n with failed := (s.eng n).run.isSome, waiting := [] } [R.SE_STAT n, R.SE_ERR n, R.SE_ERR_CNT n] [72 + n] [0x22] s t ∧
    t.rd (R.SE_ERR n) = BitVec.ofNat 32 (code % 16 * 2 ^ 28 + (s.eng n).task % 8192 * 2 ^ 13 + (s.eng n).pc % 8192) ∧
    t.rd (R.SE_STAT n) = s.rd (R.SE_STAT n) ||| 0x80000000 ∧
    t.fld (F.SE_ERR_CNT_V n) = min (s.fld (F.SE_ERR_CNT_V n) + 1) (2 ^ 32 - 1) ∧ t.pends (72 + n) = true ∧
    t.fco.inFlight = s.fco.inFlight ++ [fmsg 1 (seInst n) 0 0x22 1 0 (t.rd (R.SE_ERR n)).toNat]

/-- Command `c` has engine `n` abandon its task with error `code` where it executes `i` alone. -/
def State.Fails (s : State) (n : Nat) (c : Instr) (i : SeIns) (code : Nat) : Prop :=
  s.Executes n i → ∃ t, exec c s = .next t ∧ s.TaskError n code t

/-- Command `c`, with an uncorrectable error in a word of the tile, has engine `n` abandon its task with error code 5 where it executes `i`
alone, and isolates its tile (R15, R197, R349): messages of the kinds 0x20 and 0x22 go to the FCO, no byte of memory changes. -/
def State.TileBreaks (s : State) (n : Nat) (c : Instr) (i : SeIns) : Prop :=
  s.Executes n i → ∃ t, exec c s = .next t ∧ (t.eng n).failed = (s.eng n).run.isSome ∧ (t.eng n).waiting = [] ∧ (t.eng n).v = (s.eng n).v ∧
    t.rd (R.SE_ERR n) = BitVec.ofNat 32 (5 * 2 ^ 28 + (s.eng n).task % 8192 * 2 ^ 13 + (s.eng n).pc % 8192) ∧
    t.bit (F.SE_STAT_TASK_ERR n) = true ∧ t.pends (72 + n) = true ∧ t.fbit (F.TDS_CL_CTL_ISOL (n / 4)) (n % 4) = true ∧
    t.engMask.getLsbD n = true ∧ (∃ m, t.fco.inFlight = s.fco.inFlight ++ [m, fmsg 1 (seInst n) 0 0x22 1 0 (t.rd (R.SE_ERR n)).toNat] ∧
      msgKind m = 0x20) ∧ ∀ q, t.mb q = s.mb q

/-- `Frame` but for the bytes of memory in `ms`. -/
def StoreFrame (ms : Nat → Prop) (rs es ks : List Nat) (s t : State) : Prop :=
  Frame rs es ks { s with mem := t.mem } t ∧ ∀ a, ¬ ms a → t.mb a = s.mb a

/-! ## Resets -/

/-- The EVR writes nothing at this moment that a reset could cut off (R315, R319, R323): no clear runs, and the records written last are
written whole. -/
def State.LogQuiet (u : State) : Prop :=
  u.bit F.EVR_STAT_CLEARING = false ∧ u.evr.cutAt + 160 * u.evr.cutN ≤ u.mono

/-- The event log through a reset or a loss of power: what is being written may be cut off, nothing else changes (R310, R315, R323). -/
def LogKept (u t : State) : Prop :=
  (u.LogQuiet → t.evr.log = u.evr.log ∧ t.rd R.EVR_SEQ_NEXT = u.rd R.EVR_SEQ_NEXT) ∧
    (u.bit F.EVR_STAT_CLEARING = false → ∀ i, i < u.evr.cutFrom ∨ u.evr.cutFrom + u.evr.cutN ≤ i → t.slot i = u.slot i)

/-- The units after a reset are as State.reset has them, but for the records on their way to the EVR, the levels at the trip inputs and at
APW_FLT_N, and the present time where a timer starts at the reset. -/
def Afresh (u t : State) : Prop :=
  t.lanes = [] ∧ t.ltx = [] ∧ t.ports = [] ∧ t.reports = [] ∧ t.cyc = {} ∧ t.sig = [] ∧ t.sigNext = [] ∧ t.sigHost = [] ∧ t.sigUnc = [] ∧
    t.mdu = {} ∧ t.cfg = {} ∧ t.clu = {} ∧ t.tds = {} ∧ t.msu = {} ∧ t.cfc = {} ∧ t.hcp = {} ∧ t.fco = {} ∧
    t.evr = { log := t.evr.log, inbox := t.evr.inbox } ∧ t.rdu = { lastActive := u.mono, linkDownAt := u.mono } ∧ t.tbu = { lastPps := u.mono } ∧
    t.spu = { ports := if u.mono = 0 then [] else stPorts u.mono } ∧
    t.apw = { trip := u.apw.trip, tripAt := u.apw.tripAt, fltLow := u.apw.fltLow }

/-- NV through a reset or a loss of power: but for what the CFC is just writing, which leaves the image of the active slot alone, and but for the
bytes in `ms`, it stays (R372, R374). -/
def NvKept (ms : Nat → Prop) (u t : State) : Prop :=
  ∀ a, nvBase ≤ a → ¬ ms a →
    (u.held = true ∨ (u.cfc.act = none ∧ u.longArg 1 = none ∧ u.longArg 3 = none) ∨ nvBase + 0x1800000 ≤ a ∨
      (slotBase u.activeSlot ≤ a ∧ a < actWord u.activeSlot)) → t.mb a = u.mb a

/-- The always-on domain through a loss of power: a lifetime copy whose save is under way may stay invalid (R390, R407). -/
def AonKept (u t : State) : Prop :=
  t.aon = u.aon ∨ (u.held = false ∧ t.aon = u.aon.tear ∧ ∃ t0, u.aon.savedAt = some t0 ∧ u.mono < t0 + 5000000)

/-- A power-on reset of cause `code` takes `u` to `t` (R398, Table 16.6): the die is held; registers read their reset values but for the
always-on domain's, the cause and CAL_VALID; memory below the NV store is wiped; NV, the event log and the always-on domain stay. -/
def PowerReset (code : Nat) (u t : State) : Prop :=
  t.fld F.SYS_RST_CAUSE_V = code ∧ t.held = true ∧ t.bit F.AON_STAT_CAL_VALID = u.bit F.AON_STAT_CAL_VALID ∧
    (∀ a, a ≠ R.SYS_RST_CAUSE → a ≠ R.AON_STAT → a ≠ R.EVR_SEQ_NEXT → t.rd a = if keepsPowerOn a then u.rd a else resetOf a) ∧
    (∀ a, a < nvBase → t.mb a = memDefault a) ∧ NvKept (fun _ => False) u t ∧ (u.held = false → LogKept u t) ∧ (u.held = true → t.evr.log = u.evr.log) ∧
    AonKept u t ∧ t.memu = { wipe := .por } ∧ t.drc = {} ∧ t.sys.booting = true ∧ Afresh u t

/-- Nothing holds the die any more after a power-on reset (R6, R244, R398): it samples its strap, the count starts from the calendar, the
lifetime store is loaded and counts the cause; memory changes in the NV copy of the recorder's directory alone. -/
def Started (uid : Bool) (u t : State) : Prop :=
  t.held = false ∧ t.sys.uid = uid ∧ t.bit F.RDU_STAT_UID = uid ∧ t.bit F.AON_STAT_BTN_STUCK = u.aon.stuck ∧
    t.bit F.TBU_STAT_STEP_ARM = true ∧ (u.bit F.AON_STAT_CAL_VALID = true → t.now = u.calSec * 10 ^ 9) ∧
    (u.bit F.AON_STAT_CAL_VALID = false → t.now = 0 ∧ t.bit F.TBU_STAT_CAL_INV = true ∧ t.pends 252 = true) ∧
    (∀ c, u.aon.newest = some c →
      spGet 0 t.aon.lt.resets (u.fld F.SYS_RST_CAUSE_V) = spGet 0 c.body.resets (u.fld F.SYS_RST_CAUSE_V) + 1) ∧
    ∀ a, a < nvDirBase ∨ nvDirBase + 65536 ≤ a → t.mb a = u.mb a

/-- Bytes of the directory entry of the open disturbance record, in the record store and in its NV copy (R335). -/
def dirEntry (u : State) (a : Nat) : Prop :=
  ∃ o, u.drc.open' = some o ∧ ∃ d ∈ [u.drcBase, nvDirBase], d + 64 * o.entry ≤ a ∧ a < d + 64 * o.entry + 64

/-- A warm reset of cause `code` takes `u` to `t` (R398, Table 16.6): registers keep their ST fields and what the always-on domain holds, and
read their reset values else, but for what the reset and the start write themselves; a UID conflict holds, and APW_FLT_N shows as it is (R8,
R9, R345); SRAM is wiped, the record store and NV stay, but for the directory entry of an open disturbance record and its NV copy; the event
log stays. -/
def WarmReset (code : Nat) (u t : State) : Prop :=
  t.fld F.SYS_RST_CAUSE_V = code ∧ t.held = false ∧ t.sys.booting = true ∧
    t.bit F.RDU_STAT_UID = u.sys.uid ∧ t.bit F.RDU_STAT_UID_CONF = (u.sys.uidEnum || u.sys.strapConf) ∧ t.bit F.APW_STAT_FLT = u.apw.fltLow ∧
    (∀ a, a ∉ [R.SYS_RST_CAUSE, R.AON_STAT, R.AON_LT_SEQ, R.RDU_STAT, R.SYS_PRIV_NONCE_LO, R.SYS_PRIV_NONCE_HI, R.DRC_WPTR, R.DRC_STAT,
        R.EVR_SEQ_NEXT, R.APW_STAT] →
      a ∉ evRegs 250 → a ∉ evRegs 253 → (u.sfi.hblIdle = true → ∀ l, l < 72 → a ≠ R.LPH_LANE_STAT l) →
      t.rd a = if keepsPowerOn a then u.rd a else warmWord a (u.rd a)) ∧
    (∀ a, 0x200000000 ≤ a → a < nvBase → t.mb a = memDefault a) ∧
    (∀ a, a < 0x200000000 → ¬ dirEntry u a → t.mb a = u.mb a) ∧ NvKept (dirEntry u) u t ∧
    LogKept u t ∧ Afresh u t

/-- Every ring and partner transmitter is in the electrical idle that the HBL forces (R66). -/
def State.HblIdle (t : State) : Prop :=
  ∀ l, l < 72 → isGimen l = true →
    t.bit (F.LPH_LANE_STAT_HBL_IDLE l) = true ∧ t.bit (F.LPH_LANE_STAT_TX_ACTIVE l) = false ∧ t.bit (F.LPH_LANE_STAT_INJECT l) = false

/-! ## The host port -/

/-- The bytes of a transaction that its CRC-8 covers, and the CRC-8 with which it ends (R386); none for a command that is no transaction. -/
def hostBytes (c : Instr) : Option (List Byte × BitVec 8) :=
  match c with
  | .read _ addr n _ crc => some (headBytes 0x40 n addr, crc)
  | .write _ addr ws _ crc => some (headBytes 0x80 (ws.length - 1) addr ++ wordBytes ws, crc)
  | .load _ arg crc => some (0xC1 :: beBytes 8 arg.toNat, crc)
  | .switch _ arg crc => some (0xC2 :: beBytes 8 arg.toNat, crc)
  | .update _ arg crc => some (0xC3 :: beBytes 8 arg.toNat, crc)
  | .cal _ x => some ([0xC4], x.crc)
  | .lc _ arg crc => some (0xC5 :: beBytes 8 arg.toNat, crc)
  | .logClear _ crc => some ([0xC6], crc)
  | .exportExec _ arg crc => some (0xC7 :: beBytes 8 arg.toNat, crc)
  | .privOpen _ tag crc => some (0xD0 :: beBytes 16 tag.toNat, crc)
  | .privClose _ crc => some ([0xD1], crc)
  | .execNop _ crc => some ([0xD2], crc)
  | _ => none

/-- The state in which a verified transaction acts: one under open privilege renews the timeout (R389). -/
def State.opened (u : State) : State := u.when (u.bit F.SYS_PRIV_OPEN) State.touchPriv

/-- The port takes transaction `c`: where no long EXEC runs and its CRC-8 verifies, it completes, and `P` holds of the state in which it acts
and of the state that it answers. -/
def State.Takes (s : State) (c : Instr) (time : Nat) (P : State → State → Prop) : Prop :=
  s.hcp.long = none → (∀ bs crc, hostBytes c = some (bs, crc) → crc8 bs = crc) → s.Answers c time fun u t => P u.opened t

/-- A long EXEC has started (R388): status OK, HCP_BUSY. -/
def LongStarted (code : Nat) (arg : BitVec 64) (t : State) : Prop :=
  t.hcp.long = some { code := code, arg := arg } ∧ t.bit F.HCP_STAT_BUSY = true ∧ t.hcp.resp.status = hsOk

/-- A long EXEC has ended with status `st` (R388, Table 17.14): HCP_BUSY low, result kept, source 240. -/
def LongEnded (code : Nat) (st : BitVec 8) (t : State) : Prop :=
  t.hcp.long = none ∧ t.bit F.HCP_STAT_BUSY = false ∧ t.fld F.HCP_STAT_LAST_EXEC = code ∧ t.fld F.HCP_STAT_LAST_RESULT = st.toNat ∧
    t.pends 240 = true

end Sys2Proof.Machine
end

