-- ==== Sys2Proof/Certificates/Slice0/Obligations.lean ====
section
/-! DEFINITION. The statements about the model, for the provers. Where a statement rests on a choice of the model, its docstring names
the log entry. -/

open Sys2Proof Sys2Proof.Machine

/-- For every command c and state s, a step of s with c put at the front of its queue is exec of c on s. A step of a state
whose queue is empty answers that state: that the block idles there is the model's choice (log entry 1), as is the
queue itself. -/
def Obligations.StepRunsTheFrontCommand : Prop :=
  (∀ (c : Instr) (s : State), step { s with pending := c :: s.pending } = exec c s) ∧ ∀ s : State, s.pending = [] → step s = .next s

/-- For every command and every state exec answers a next state; the queue of commands that wait is the same in it. The
spec describes every error of the unit as an effect on its state, so no command of the model ends in a fault or a
refusal. -/
def Obligations.CommandsCompleteAndLeaveTheQueue : Prop :=
  ∀ (c : Instr) (s : State), ∃ t, exec c s = .next t ∧ t.pending = s.pending

/-- For every state whose memory and register lists are in canonical form (indices strictly rising, no entry equal to what
an unlisted index reads as), a step that answers a next state answers one in canonical form, so that equal memories
are equal data. -/
def Obligations.StepsKeepTheCanonicalForm : Prop :=
  ∀ s t : State, s.Canonical → step s = .next t → t.Canonical

/-- State.reset has memory and registers in canonical form and no command waiting. -/
def Obligations.ResetMeetsTheInvariant : Prop :=
  State.reset.Canonical ∧ State.reset.pending = []

/-- An event of source n sets bit n mod 32 of INT_PEND(n div 32) (sources that the spec never lets become pending apart,
which an event leaves as they are). A write of 1 to that bit that meets a new event of the source leaves it set and
INT_SRCn_CFG.CNT counts the event (saturating). HINT_N[m] of a die that is not in reset is low if and only if
HINT_GLOBAL_EN is 1 and some source has its pending bit and its enable bit set, HINT_EN = 1 and HINT_SEL = m. -/
def Obligations.EventsPendAndDriveTheInterruptPins : Prop :=
  (∀ (s : State) (n k : Nat) (v q : BitVec 32), n < 256 →
    (neverPending n = false → (s.raiseWith n v q k).pends n = true) ∧ (neverPending n = true → s.raiseWith n v q k = s)) ∧
  (∀ (s : State) (time : Nat) (w : Fin 8) (mask coinc : BitVec 32) (b : Fin 32),
    mask.getLsbD b = true → coinc.getLsbD b = true → neverPending (32 * w + b) = false →
    s.Answers (.intPendClear time w mask coinc) time fun u t =>
      t.pends (32 * w + b) = true ∧ Counted (F.INT_SRC_CFG_CNT (32 * w + b)) u t) ∧
  ∀ (s : State) (m : Nat), s.Live → m < 4 →
    (s.hintLow m = true ↔ s.bit F.INT_CTL_HINT_GLOBAL_EN = true ∧ ∃ n, n < 256 ∧ s.pends n = true ∧
      s.fbit (F.INT_ENA_ENA (n / 32)) (n % 32) = true ∧ s.bit (F.INT_SRC_CFG_HINT_EN n) = true ∧ s.fld (F.INT_SRC_CFG_HINT_SEL n) = m)

/-- REGISTER_WRITE at an address that is not a multiple of 4 leaves the state as it was (its time apart). A word that the
host reads at such an address of the register block is 0x0000_0000, and a word that it writes there changes nothing.
(Every access of the model has 32 bits, as the host port has no other.) -/
def Obligations.UnalignedRegisterAccessesDoNothing : Prop :=
  (∀ (s : State) (time : Nat) (m : Acc) (addr : BitVec 40) (v : BitVec 32), addr.toNat % 4 ≠ 0 →
    exec (.registerWrite time m addr v) s = .next (s.tick time)) ∧
  (∀ (s : State) (a : Nat), a % 4 ≠ 0 → s.regRead a = (0, s)) ∧
  ∀ (s : State) (a : Nat) (e : EccErr) (v : BitVec 32), regOffset a ≠ none → a % 4 ≠ 0 →
    s.hostRead a e = (hsOk, 0, s) ∧ s.hostWrite a v = (hsOk, s)

/-- REGISTER_WRITE of v to a register whose write has no effect of its own: an RW field takes its bits of v, an RWL field
too while no image is committed and keeps its value once one is, a W1C field clears the bits that v has set, a field
of any other type keeps its value; nothing but that register changes. REGISTER_WRITE at an address that names no
register leaves the state as it was (its time apart). -/
def Obligations.RegisterWritesFollowTheFieldTypes : Prop :=
  ∀ (s : State) (time : Nat) (m : Acc) (addr : BitVec 40) (v : BitVec 32),
    ((∀ a, regOffset addr.toNat = some a → rowOf a = none) → exec (.registerWrite time m addr v) s = .next (s.tick time)) ∧
    ∀ a r, regOffset addr.toNat = some a → rowOf a = some r → (s.writes m a v).pick.isNone = true →
      s.Answers (.registerWrite time m addr v) time fun u t => Frame [a] [] [] u t ∧
        ∀ f ∈ r.fields, ∀ j, f.lo ≤ j → j < f.lo + f.w →
          (t.rd a).getLsbD j = match f.ty with
            | .rw => v.getLsbD j
            | .rwl => if s.bit F.CFC_STAT_NOIMG then v.getLsbD j else (u.rd a).getLsbD j
            | .w1c => (u.rd a).getLsbD j && !v.getLsbD j
            | _ => (u.rd a).getLsbD j

/-- Each of MUL, ADD, SUB, AND, OR, XOR, SHL, SHR, SAR, ADDI, SLT, SEL, LIL, LIH, FABS, FNEG and I2F, given to an engine
that executes it at once, completes: D (as ROT names it; v0 takes no write) holds the word of Table 8.2, the engine
stands at its next instruction, no flag is set, and no other part of the state changes. FABS and FNEG of a NaN give
0x7FC0_0000. -/
def Obligations.IntegerInstructionsWriteTheirResult : Prop :=
  ∀ (s : State) (n : Fin 32) (d a b c : Fin 64) (imm : BitVec 13) (w : BitVec 16),
    let x := s.eng n
    s.Writes n (.mul n false d a b) { op := 0x16, d := d, a := a, b := b } d (x.get a * x.get b) {} ∧
    s.Writes n (.add n false d a b) { op := 0x18, d := d, a := a, b := b } d (x.get a + x.get b) {} ∧
    s.Writes n (.sub n false d a b) { op := 0x19, d := d, a := a, b := b } d (x.get a - x.get b) {} ∧
    s.Writes n (.andW n false d a b) { op := 0x1A, d := d, a := a, b := b } d (x.get a &&& x.get b) {} ∧
    s.Writes n (.orW n false d a b) { op := 0x1B, d := d, a := a, b := b } d (x.get a ||| x.get b) {} ∧
    s.Writes n (.xorW n false d a b) { op := 0x1C, d := d, a := a, b := b } d (x.get a ^^^ x.get b) {} ∧
    s.Writes n (.shl n false d a b) { op := 0x1D, d := d, a := a, b := b } d (x.get a <<< ((x.get b).toNat % 32)) {} ∧
    s.Writes n (.shr n false d a b) { op := 0x1E, d := d, a := a, b := b } d (x.get a >>> ((x.get b).toNat % 32)) {} ∧
    s.Writes n (.sar n false d a b) { op := 0x1F, d := d, a := a, b := b } d ((x.get a).sshiftRight ((x.get b).toNat % 32)) {} ∧
    s.Writes n (.addi n false d a imm) { op := 0x20, d := d, a := a, imm := imm13 imm } d (x.get a + imm.signExtend 32) {} ∧
    s.Writes n (.slt n false d a b) { op := 0x21, d := d, a := a, b := b } d (if (x.get a).toInt < (x.get b).toInt then 1 else 0) {} ∧
    s.Writes n (.sel n false d a b c) { op := 0x22, d := d, a := a, b := b, c := c } d (if x.get c = 0 then x.get b else x.get a) {} ∧
    s.Writes n (.lil n false d w) { op := 0x23, d := d, imm := imm16 w } d (w.signExtend 32) {} ∧
    s.Writes n (.lih n false d w) { op := 0x24, d := d, imm := imm16 w } d (w ++ (x.get d).extractLsb' 0 16) {} ∧
    s.Writes n (.fabs n false d a) { op := 0x08, d := d, a := a } d (if fnan32 (x.get a) then 0x7FC00000 else x.get a &&& 0x7FFFFFFF) {} ∧
    s.Writes n (.fneg n false d a) { op := 0x09, d := d, a := a } d (if fnan32 (x.get a) then 0x7FC00000 else x.get a ^^^ 0x80000000) {} ∧
    s.Writes n (.i2f n false d a) { op := 0x0E, d := d, a := a } d (fint32 (x.get a).toInt) {}

/-- Each of FADD, FSUB, FMUL, FMA, FMS (c - a x b), FMIN, FMAX, FCLAMP (min(max(a, b), c)), FSLT, FSEQ, F2I, FRCPE, FRSQE
and ACCRD (with an even A), given to an engine that executes it at once, completes: D holds the binary32 (or int32)
result, INV, OVF, UNF and SAT of SE_STAT gain what the operation signals, no flag is cleared, and no other part of the
state changes. FRCPE and FRSQE hold either an estimate within the bound of Table 8.2 or the rounded quotient (log
entry 6). ACCRD rounds half up, shifts by IMM13[5:0] and saturates to int32; F2I saturates with SAT. -/
def Obligations.FloatInstructionsWriteResultAndFlags : Prop :=
  ∀ (s : State) (n : Fin 32) (d a b c : Fin 64) (imm : BitVec 13),
    let x := s.eng n
    let va := x.get a
    let vb := x.get b
    let vc := x.get c
    let i (op : Nat) : SeIns := { op := op, d := d, a := a, b := b }
    let sum := fAdd fmt32 va.toNat vb.toNat
    let diff := fSub fmt32 va.toNat vb.toNat
    let prod := fMul fmt32 va.toNat vb.toNat
    let low := fMin fmt32 va.toNat vb.toNat
    let high := fMax fmt32 va.toNat vb.toNat
    s.Writes n (.fadd n false d a b) (i 0x01) d (w32 sum) sum.flags ∧
    s.Writes n (.fsub n false d a b) (i 0x02) d (w32 diff) diff.flags ∧
    s.Writes n (.fmul n false d a b) (i 0x03) d (w32 prod) prod.flags ∧
    s.Writes n (.fma n false d a b c) { op := 0x04, d := d, a := a, b := b, c := c } d (w32 (fFma fmt32 va.toNat vb.toNat vc.toNat))
      (fFma fmt32 va.toNat vb.toNat vc.toNat).flags ∧
    s.Writes n (.fms n false d a b c) { op := 0x05, d := d, a := a, b := b, c := c } d (w32 (fFms fmt32 va.toNat vb.toNat vc.toNat))
      (fFms fmt32 va.toNat vb.toNat vc.toNat).flags ∧
    s.Writes n (.fmin n false d a b) (i 0x06) d (w32 low) low.flags ∧
    s.Writes n (.fmax n false d a b) (i 0x07) d (w32 high) high.flags ∧
    (let q := fMin fmt32 high.bits vc.toNat
     s.Writes n (.fclamp n false d a b c) { op := 0x0A, d := d, a := a, b := b, c := c } d (w32 q) (high.flags.join q.flags)) ∧
    s.Writes n (.fslt n false d a b) { op := 0x0B, d := d, a := a, b := b } d (if fCmp fmt32 va.toNat vb.toNat = some .lt then 1 else 0)
      { inv := cmpInv va vb } ∧
    s.Writes n (.fseq n false d a b) { op := 0x0C, d := d, a := a, b := b } d (if fCmp fmt32 va.toNat vb.toNat = some .eq then 1 else 0)
      { inv := cmpInv va vb } ∧
    s.Writes n (.f2i n false d a) { op := 0x0D, d := d, a := a } d (f2i32 va).1 (f2iFlags va) ∧
    (∃ v, s.Writes n (.frcpe n false d a) { op := 0x0F, d := d, a := a } d v (fDiv fmt32 0x3F800000 va.toNat).flags ∧
      (rcpOk v va = true ∨ v = w32 (fDiv fmt32 0x3F800000 va.toNat))) ∧
    (∃ v f, s.Writes n (.frsqe n false d a) { op := 0x10, d := d, a := a } d v f ∧ f.inv = (fSqrt fmt32 va.toNat).inv ∧
      (rsqOk v va = true ∨ v = w32 (fDiv fmt32 0x3F800000 (fSqrt fmt32 va.toNat).bits))) ∧
    (a.val % 2 = 0 →
      let sh := imm.toNat % 64
      let r := ((x.pair a).toInt + (if sh = 0 then 0 else 2 ^ (sh - 1))) / 2 ^ sh
      s.Writes n (.accrd n false d a imm) { op := 0x15, d := d, a := a, imm := imm13 imm } d
        (if r < -2147483648 then 0x80000000 else if 2147483647 < r then 0x7FFFFFFF else BitVec.ofInt 32 r)
        { sat := decide (r < -2147483648 ∨ 2147483647 < r) })

/-- MAC, MACU and MUL64 with an even D, given to an engine that executes them at once, complete: pair(D) := pair(D) + a x
b signed, pair(D) + a x b unsigned, a x b signed, modulo 2^64, low word in the even register; no flag is set and
nothing else changes. With an odd D of MAC, MACU, MUL64, LW2, SW2, LDC or STC, or an odd A of ACCRD, the engine
abandons its task with error ILLEGAL and writes nothing. -/
def Obligations.AccumulatorPairsWrite : Prop :=
  ∀ (s : State) (n : Fin 32) (d a b : Fin 64) (imm : BitVec 13) (err : EccErr),
    let x := s.eng n
    let y (v : BitVec 64) : Eng := ((x.put d (v.setWidth 32)).put (d + 1) ((v >>> 32).setWidth 32)).advance
    let op (o : Nat) : SeIns := { op := o, d := d, a := a, b := b }
    let opI (o : Nat) : SeIns := { op := o, d := d, a := a, imm := imm13 imm }
    (d.val % 2 = 0 →
      s.Runs n (.mac n false d a b) (op 0x12) (y (x.pair d + (x.get a).signExtend 64 * (x.get b).signExtend 64)) {} ∧
      s.Runs n (.macu n false d a b) (op 0x13) (y (x.pair d + (x.get a).setWidth 64 * (x.get b).setWidth 64)) {} ∧
      s.Runs n (.mul64 n false d a b) (op 0x14) (y ((x.get a).signExtend 64 * (x.get b).signExtend 64)) {}) ∧
    (d.val % 2 = 1 →
      s.Fails n (.mac n false d a b) (op 0x12) 1 ∧ s.Fails n (.macu n false d a b) (op 0x13) 1 ∧ s.Fails n (.mul64 n false d a b) (op 0x14) 1 ∧
      s.Fails n (.lw2 n false d a imm err) (opI 0x29) 1 ∧ s.Fails n (.sw2 n false d a imm err) (opI 0x2A) 1 ∧
      s.Fails n (.ldc n false d a imm err) (opI 0x2E) 1 ∧ s.Fails n (.stc n false d a imm err) (opI 0x2F) 1) ∧
    (a.val % 2 = 1 → s.Fails n (.accrd n false d a imm) (opI 0x15) 1)

/-- LW, LWI and LW2, given to an engine that executes them at once, whose addresses are multiples of 4 in 0x0_0000 to
0x3_FFFC and whose words show no error, complete: D (or pair(D), D even) holds the words at a + imm (LWI: at a, and a
:= a + imm; with A as its D the spec gives that register no single value, and it holds a free one, log entry 22), no
flag is set and nothing else changes, no byte of memory among it. Of each, a misaligned address inside the tile fails
the task with ALIGN, an aligned one outside with RANGE, and an uncorrectable word isolates the tile and fails the task
with code 5. -/
def Obligations.TileLoadsReadTheTile : Prop :=
  ∀ (s : State) (n : Fin 32) (d a : Fin 64) (imm : BitVec 13) (err : EccErr),
    let x := s.eng n
    let va := (x.get a).toNat
    let ad := (x.get a + imm.signExtend 32).toNat
    let m (q : Nat) : BitVec 32 := s.mw (tileBase n + q)
    let op (o : Nat) : SeIns := { op := o, d := d, a := a, imm := imm13 imm }
    (ad < 0x40000 → ad % 4 = 0 → s.Writes n (.lw n false d a imm .ok) (op 0x25) d (m ad) {}) ∧
    (va < 0x40000 → va % 4 = 0 → d ≠ a →
      s.Runs n (.lwi n false d a imm .ok) (op 0x27) ((x.put d (m va)).put a (x.get a + imm.signExtend 32)).advance {}) ∧
    (va < 0x40000 → va % 4 = 0 → d = a → ∃ v, s.Runs n (.lwi n false d a imm .ok) (op 0x27) (x.put a v).advance {}) ∧
    (ad + 4 < 0x40000 → ad % 4 = 0 → d.val % 2 = 0 →
      s.Runs n (.lw2 n false d a imm .ok) (op 0x29) ((x.put d (m ad)).put (d + 1) (m (ad + 4))).advance {}) ∧
    (ad < 0x40000 → ad % 4 ≠ 0 → s.Fails n (.lw n false d a imm err) (op 0x25) 2) ∧
    (va < 0x40000 → va % 4 ≠ 0 → s.Fails n (.lwi n false d a imm err) (op 0x27) 2) ∧
    (ad + 4 < 0x40000 → ad % 4 ≠ 0 → d.val % 2 = 0 → s.Fails n (.lw2 n false d a imm err) (op 0x29) 2) ∧
    (0x40000 ≤ ad → ad % 4 = 0 → s.Fails n (.lw n false d a imm err) (op 0x25) 3) ∧
    (0x40000 ≤ va → va % 4 = 0 → s.Fails n (.lwi n false d a imm err) (op 0x27) 3) ∧
    (0x40000 ≤ ad + 4 → ad % 4 = 0 → d.val % 2 = 0 → s.Fails n (.lw2 n false d a imm err) (op 0x29) 3) ∧
    (ad < 0x40000 → ad % 4 = 0 → s.TileBreaks n (.lw n false d a imm .double) (op 0x25)) ∧
    (va < 0x40000 → va % 4 = 0 → s.TileBreaks n (.lwi n false d a imm .double) (op 0x27)) ∧
    (ad + 4 < 0x40000 → ad % 4 = 0 → d.val % 2 = 0 → s.TileBreaks n (.lw2 n false d a imm .double) (op 0x29))

/-- SW, SWI, SW2 and TAP, given to an engine that executes them at once, whose addresses are multiples of 4 in the tile
and whose words show no error, complete. SW and SW2 (D even) store D, or pair(D), at a + imm; SWI stores D at a, then
a := a + imm. TAP: d := d + h x DLX with one rounding, h the word at a; the word at b becomes the old DLX, DLX the old
word at b; a and b grow by 4 (last, so that D, where it is A or B, ends as that address; DEDUCED, log entry 22); the
flags are those of the one operation. Every byte outside the stored words, every other register and the rest of the
state stay as they were. An aligned address of SW, SWI or SW2 outside the tile fails with RANGE, a misaligned one
inside with ALIGN. -/
def Obligations.TileStoresWriteTheTile : Prop :=
  ∀ (s : State) (n : Fin 32) (d a b : Fin 64) (imm : BitVec 13) (err : EccErr),
    let x := s.eng n
    let va := (x.get a).toNat
    let vb := (x.get b).toNat
    let ad := (x.get a + imm.signExtend 32).toNat
    let m (q : Nat) : BitVec 32 := s.mw (tileBase n + q)
    let op (o : Nat) : SeIns := { op := o, d := d, a := a, imm := imm13 imm }
    (ad < 0x40000 → ad % 4 = 0 → s.Stores n (.sw n false d a imm .ok) (op 0x26) x.advance {} [(ad, x.get d)]) ∧
    (va < 0x40000 → va % 4 = 0 →
      s.Stores n (.swi n false d a imm .ok) (op 0x28) (x.put a (x.get a + imm.signExtend 32)).advance {} [(va, x.get d)]) ∧
    (ad + 4 < 0x40000 → ad % 4 = 0 → d.val % 2 = 0 →
      s.Stores n (.sw2 n false d a imm .ok) (op 0x2A) x.advance {} [(ad, x.get d), (ad + 4, x.get (d + 1))]) ∧
    (va < 0x40000 → va % 4 = 0 → vb < 0x40000 → vb % 4 = 0 →
      let r := fFma fmt32 (m va).toNat x.dlx.toNat (x.get d).toNat
      let y := if d = a ∨ d = b then x else x.put d (w32 r)
      let z := if a = b then y.put a (x.get a + 4) else (y.put a (x.get a + 4)).put b (x.get b + 4)
      s.Stores n (.tap n false d a b .ok) { op := 0x11, d := d, a := a, b := b } { z.advance with dlx := m vb } r.flags [(vb, x.dlx)]) ∧
    (ad < 0x40000 → ad % 4 ≠ 0 → s.Fails n (.sw n false d a imm err) (op 0x26) 2) ∧
    (va < 0x40000 → va % 4 ≠ 0 → s.Fails n (.swi n false d a imm err) (op 0x28) 2) ∧
    (ad + 4 < 0x40000 → ad % 4 ≠ 0 → d.val % 2 = 0 → s.Fails n (.sw2 n false d a imm err) (op 0x2A) 2) ∧
    (0x40000 ≤ ad → ad % 4 = 0 → s.Fails n (.sw n false d a imm err) (op 0x26) 3) ∧
    (0x40000 ≤ va → va % 4 = 0 → s.Fails n (.swi n false d a imm err) (op 0x28) 3) ∧
    (0x40000 ≤ ad + 4 → ad % 4 = 0 → d.val % 2 = 0 → s.Fails n (.sw2 n false d a imm err) (op 0x2A) 3)

/-- LDS, LDSI, STS, LDC and STC, given to an engine that executes them at once, with an index of the signal map, for STS
one inside the write window of the running task, for LDC and STC an even D and a multiple of 8 in the cluster bank,
complete their handshake: an outstanding operation stands last in the engine's list, with the physical destination of
a load or the value of a store, LDSI adds its immediate to A, and nothing else changes. An STS outside the window
fails with WINDOW; an LDS outside the map with RANGE. -/
def Obligations.MapAndBankAccessesAreOutstanding : Prop :=
  ∀ (s : State) (n : Fin 32) (d a : Fin 64) (imm : BitVec 13) (err : EccErr),
    let x := s.eng n
    let e := s.task x.task
    let ad := (x.get a + imm.signExtend 32).toNat
    let op (o : Nat) : SeIns := { op := o, d := d, a := a, imm := imm13 imm }
    let y (o : Outst) : Eng := { x.advance with out := x.out ++ [o] }
    (ad < 0x4000 → s.Runs n (.lds n false d a imm err) (op 0x2B) (y { kind := .lds, addr := ad, dst := [x.phys d], err := err }) {}) ∧
    ((x.get a).toNat < 0x4000 →
      s.Runs n (.ldsi n false d a imm err) (op 0x2C)
        { (x.put a (x.get a + imm.signExtend 32)).advance with
          out := x.out ++ [{ kind := .lds, addr := (x.get a).toNat, dst := [x.phys d], err := err }] } {}) ∧
    (x.run.isSome = true → tWbase e ≤ ad → ad < tWbase e + tWlen e →
      s.Runs n (.sts n false d a imm) (op 0x2D) (y { kind := .sts, addr := ad, val := (x.get d).setWidth 64 }) {}) ∧
    (ad < 0x200000 → ad % 8 = 0 → d.val % 2 = 0 →
      s.Runs n (.ldc n false d a imm err) (op 0x2E) (y { kind := .ldc, addr := ad, dst := [x.phys d, x.phys (d + 1)], err := err }) {} ∧
      s.Runs n (.stc n false d a imm err) (op 0x2F) (y { kind := .stc, addr := ad, val := x.get (d + 1) ++ x.get d, err := err }) {}) ∧
    ((x.run = none ∨ ad < tWbase e ∨ tWbase e + tWlen e ≤ ad) → s.Fails n (.sts n false d a imm) (op 0x2D) 4) ∧
    (0x4000 ≤ ad → s.Fails n (.lds n false d a imm err) (op 0x2B) 3)

/-- OUTSTANDING_COMPLETE of an engine in which nothing waits takes the i-th oldest operation off its list: a load from or
a store to the map at once, one to the cluster bank where no position between the one granted last and this engine, in
round-robin order, has an access waiting at the same sub-bank; that position is then the one granted last. Where one
has, nothing changes. A load from the map (no error) writes what consumers of the running phase see; a load from the
bank (no error) writes the two words of the doubleword; a store to a map entry that is not reserved stands among the
values written in the running phase; a store to the bank (no error) writes its eight bytes and no other. Engines other
than n, and for the loads everything but engine n and the arbiter, stay as they were. -/
def Obligations.OutstandingOperationsComplete : Prop :=
  ∀ (s : State) (time : Nat) (n : Fin 32) (i : Fin 8) (o : Outst), s.Live → (s.eng n).waiting = [] → (s.eng n).out[i.val]? = some o →
    let x := s.eng n
    let y : Eng := { x with out := x.out.eraseIdx i }
    let sb := o.addr / 8 % 16
    let last := spGet 4 s.tds.rr (n / 4 * 16 + sb) % 5
    let others : Prop := ∃ p, p < 4 ∧ (p + 4 - last) % 5 < (n % 4 + 4 - last) % 5 ∧
      ∃ o' ∈ (s.eng (4 * (n / 4) + p)).out, (o'.kind = .ldc ∨ o'.kind = .stc) ∧ o'.addr / 8 % 16 = sb
    let granted (t : State) : State := { s.tick time with tds := { s.tds with rr := t.tds.rr } }
    (o.kind = .lds → o.err = .ok → ∃ t, exec (.outstandingComplete time n i) s = .next t ∧
      EngStep n (y.putPhys (o.dst.getD 0 0) (s.sigGet o.addr)) [] [] [] (s.tick time) t) ∧
    (o.kind = .sts → sigReserved o.addr = false → ∃ t, exec (.outstandingComplete time n i) s = .next t ∧
      EngStep n y [] [] [] { s.tick time with sigNext := t.sigNext, sigHost := t.sigHost } t ∧
        spGet none t.sigNext o.addr = some (o.val.setWidth 32) ∧ ∀ q, q ≠ o.addr → t.sigNow q = s.sigNow q) ∧
    (o.kind = .ldc → o.err = .ok → ¬ others → ∃ t, exec (.outstandingComplete time n i) s = .next t ∧
      (let v := s.md (bankBase (n / 4) + o.addr)
       EngStep n ((y.putPhys (o.dst.getD 0 0) (v.setWidth 32)).putPhys (o.dst.getD 1 0) ((v >>> 32).setWidth 32)) [] [] [] (granted t) t) ∧
      spGet 4 t.tds.rr (n / 4 * 16 + sb) = n % 4) ∧
    (o.kind = .stc → o.err = .ok → ¬ others → ∃ t, exec (.outstandingComplete time n i) s = .next t ∧
      EngStep n y [] [] [] { granted t with mem := t.mem } t ∧ t.md (bankBase (n / 4) + o.addr) = o.val ∧
      (∀ q, (q < bankBase (n / 4) + o.addr ∨ bankBase (n / 4) + o.addr + 8 ≤ q) → t.mb q = s.mb q) ∧
      spGet 4 t.tds.rr (n / 4 * 16 + sb) = n % 4) ∧
    (o.kind = .ldc ∨ o.kind = .stc → others → exec (.outstandingComplete time n i) s = .next (s.tick time))

/-- NOP, FENCE (nothing outstanding), BNZ, BZ, LOOP, LOOPN, SETLC, DLX and END, given to an engine that executes them at
once, with a branch target in 0 to 8,191 where they branch, complete. BNZ and BZ go to the index plus the offset where
a is nonzero, or zero, else to the next index. LOOP and LOOPN subtract 1 from LC and branch where it is then above 0
(as a signed number, log entry 51); LOOP also takes 1 from ROT modulo 32. SETLC sets LC to a + imm, DLX the latch to
a. END marks the end of a running task. A BNZ, BZ, LOOP or LOOPN that branches outside is ILLEGAL. A FENCE with
operations outstanding waits. -/
def Obligations.ControlInstructionsSteerTheEngine : Prop :=
  ∀ (s : State) (n : Fin 32) (a : Fin 64) (ofs : BitVec 19) (imm : BitVec 13),
    let x := s.eng n
    let tgt : Int := x.pc + ofs.toInt
    let inside : Prop := 0 ≤ tgt ∧ tgt ≤ 8191
    let lc := x.lc - 1
    let rot := (x.rot + 31) % 32
    let go (y : Eng) : Eng := { y with pc := tgt.toNat }
    let j (o : Nat) : SeIns := { op := o, a := a, imm := ofs19 ofs }
    let l (o : Nat) : SeIns := { op := o, imm := ofs19 ofs }
    s.Runs n (.nop n false) { op := 0x00 } x.advance {} ∧
    s.Runs n (.fence n false) { op := 0x30 } x.advance {} ∧
    (x.get a = 0 ∨ inside → s.Runs n (.bnz n false a ofs) (j 0x38) (if x.get a = 0 then x.advance else go x) {}) ∧
    (x.get a ≠ 0 ∨ inside → s.Runs n (.bz n false a ofs) (j 0x39) (if x.get a = 0 then go x else x.advance) {}) ∧
    (lc.toInt ≤ 0 ∨ inside → s.Runs n (.loop n false ofs) (l 0x3A)
      (if 0 < lc.toInt then { go x with lc := lc, rot := rot } else { x.advance with lc := lc, rot := rot }) {}) ∧
    (lc.toInt ≤ 0 ∨ inside → s.Runs n (.loopn n false ofs) (l 0x3B) (if 0 < lc.toInt then { go x with lc := lc } else { x.advance with lc := lc }) {}) ∧
    s.Runs n (.setlc n false a imm) { op := 0x3C, a := a, imm := imm13 imm } { x.advance with lc := x.get a + imm.signExtend 32 } {} ∧
    s.Runs n (.dlx n false a) { op := 0x3D, a := a } { x.advance with dlx := x.get a } {} ∧
    s.Runs n (.endTask n false) { op := 0x3F } { x.advance with ended := x.run.isSome } {} ∧
    (¬ inside →
      (x.get a ≠ 0 → s.Fails n (.bnz n false a ofs) (j 0x38) 1) ∧ (x.get a = 0 → s.Fails n (.bz n false a ofs) (j 0x39) 1) ∧
      (0 < lc.toInt → s.Fails n (.loop n false ofs) (l 0x3A) 1 ∧ s.Fails n (.loopn n false ofs) (l 0x3B) 1)) ∧
    (s.Live → x.ended = false → x.failed = false → x.waiting = [] → x.out ≠ [] →
      ∃ t, exec (.fence n false) s = .next t ∧ EngStep n { x with waiting := [⟨{ op := 0x30 }, .ok⟩] } [] [] [] s t)

/-- SPAWN a, b, given to an engine that executes it at once, completes. Where entry a is spawnable, its PHASE is later
than the running phase, it has not been spawned in this computation, an engine of its EMASK is unmasked and the
computation still dispatches, its descriptor with ARG replaced by b[12:0] is last in the ready queue. Where one of the
first three conditions fails, no descriptor is enqueued, TDS_SPDROP_CNT grows by one (saturating), SPDROP sets and
source 107 is pending. Either way the engine stands at its next instruction with its registers as they were. -/
def Obligations.SpawnEnqueuesOnce : Prop :=
  ∀ (s : State) (n : Fin 32) (a b : Fin 64), s.Executes n { op := 0x3E, a := a, b := b } →
    let x := s.eng n
    let k := (x.get a).toNat
    let e := if k < 8192 then s.task k else 0
    let ok : Prop := tKind e = 2 ∧ s.fld F.TDS_STAT_PHASE < dPhase (tDesc e) ∧ k ∉ s.tds.spawned
    let d : BitVec 64 := BitVec.ofNat 64 ((tDesc e).toNat / 2 ^ 13 * 2 ^ 13 + (x.get b).toNat % 2 ^ 13)
    ∃ t, exec (.spawn n false a b) s = .next t ∧ t.eng n = x.advance ∧ (∀ m, m ≠ n.val → t.eng m = s.eng m) ∧ (∀ q, t.mb q = s.mb q) ∧
      (ok → dEmask d &&& ~~~s.engMask ≠ 0 → s.tds.closed = false → t.tds.queue = s.tds.queue ++ [d] ∧ k ∈ t.tds.spawned) ∧
      (¬ ok → t.tds.queue = s.tds.queue ∧ t.fld F.TDS_SPDROP_CNT_V = min (s.fld F.TDS_SPDROP_CNT_V + 1) (2 ^ F.TDS_SPDROP_CNT_V.w - 1) ∧
        t.bit F.TDS_STAT_SPDROP = true ∧ t.pends 107 = true ∧
        EngStep n x.advance [R.TDS_STAT, R.TDS_SPDROP_CNT] [107] [] s t)

/-- An instruction with P = 1 waits for its second: nothing else changes. When MUL d, a, b with P = 1 waits in an engine
that is given ADD e, f, g, with e and d different physical registers, the pair executes as one handshake: d holds the
product and e the sum, both of the values before the pair, and the index advances by 2. When ADD waits with P = 1 and
MUL follows (L then M), the task fails with ILLEGAL and neither register is written. -/
def Obligations.PairsReadBeforeTheyWrite : Prop :=
  ∀ (s : State) (n : Fin 32) (d a b e f g : Fin 64) (p : Bool), s.Live →
    let x := s.eng n
    let i : SeIns := { p := true, op := 0x16, d := d, a := a, b := b }
    let j : SeIns := { p := p, op := 0x18, d := e, a := f, b := g }
    let i' : SeIns := { p := true, op := 0x18, d := e, a := f, b := g }
    let j' : SeIns := { p := p, op := 0x16, d := d, a := a, b := b }
    x.ended = false → x.failed = false →
    (x.waiting = [] → ∃ t, exec (.mul n true d a b) s = .next t ∧ EngStep n { x with waiting := [⟨i, .ok⟩] } [] [] [] s t) ∧
    (x.waiting = [⟨i, .ok⟩] → x.mustWait i = false → x.mustWait j = false → s.seFetches n [⟨i, .ok⟩, ⟨j, .ok⟩] = true → x.phys d ≠ x.phys e →
      ∃ t, exec (.add n p e f g) s = .next t ∧
        EngStep n { (x.put d (x.get a * x.get b)).put e (x.get f + x.get g) with pc := (x.pc + 2) % 8192, waiting := [] } [] [] [] s t) ∧
    (x.waiting = [⟨i', .ok⟩] → x.mustWait i' = false → x.mustWait j' = false → s.seFetches n [⟨i', .ok⟩, ⟨j', .ok⟩] = true →
      ∃ t, exec (.mul n p d a b) s = .next t ∧ s.TaskError n 1 t)

/-- For every instruction of a signal engine with a defined opcode, register numbers below 64 and an immediate that its
format can hold, with the fields that its opcode does not use at zero, the word of Table 8.1 that spells it decodes to
it. -/
def Obligations.EngineWordsRoundTrip : Prop :=
  ∀ (i : SeIns) (sh : Shape), i.op < 64 → seShape i.op = some sh → i.d < 64 → i.a < 64 → i.b < 64 → i.c < 64 →
    (match sh with
     | .none => i.d = 0 ∧ i.a = 0 ∧ i.b = 0 ∧ i.c = 0 ∧ i.imm = 0
     | .da => i.b = 0 ∧ i.c = 0 ∧ i.imm = 0
     | .dab => i.c = 0 ∧ i.imm = 0
     | .dabc => i.imm = 0
     | .a => i.d = 0 ∧ i.b = 0 ∧ i.c = 0 ∧ i.imm = 0
     | .ab => i.d = 0 ∧ i.c = 0 ∧ i.imm = 0
     | .dai => i.b = 0 ∧ i.c = 0 ∧ ∃ v : BitVec 13, i.imm = v.signExtend 32
     | .ai => i.d = 0 ∧ i.b = 0 ∧ i.c = 0 ∧ ∃ v : BitVec 13, i.imm = v.signExtend 32
     | .du => i.a = 0 ∧ i.b = 0 ∧ i.c = 0 ∧ ∃ v : BitVec 16, i.imm = v.signExtend 32
     | .aj => i.d = 0 ∧ i.b = 0 ∧ i.c = 0 ∧ ∃ v : BitVec 19, i.imm = v.signExtend 32
     | .j => i.d = 0 ∧ i.a = 0 ∧ i.b = 0 ∧ i.c = 0 ∧ ∃ v : BitVec 19, i.imm = v.signExtend 32) →
    seOfWord i.word = some i

/-- TASK_COMPLETE of engine n, whose task has ended or failed with no operation outstanding, completes; no computation
waits for its P0 release. SE_TASK_CNT grows by one (saturating) for a task that did not fail (log entry 50) and stays
for one that failed. Where no engine has anything prefetched, the engine is left without a task, its registers, LC,
ROT and DLX at 0, and nothing else changes. Where its one prefetched descriptor belongs to a released phase, it starts
that task (a masked engine too, log entry 116), and no other engine and no byte of memory changes: v1 = ARG x 32, v2 =
n, v3 = k mod 2^32, every other register, LC, ROT and DLX 0, at the entry of the task-table. -/
def Obligations.TasksCompleteAndStart : Prop :=
  ∀ (s : State) (time : Nat) (n : Fin 32) (donor : Nat) (r : Run), (s.eng n).run = some r →
    ((s.eng n).ended || (s.eng n).failed) = true → (s.eng n).out = [] →
    s.cyc.comps.all (fun c => c.p0At.isSome) = true →
    s.Answers (.taskComplete time n donor) time fun u t =>
      let x := s.eng n
      t.fld (F.SE_TASK_CNT_V n) = (if x.failed then s.fld (F.SE_TASK_CNT_V n) else min (s.fld (F.SE_TASK_CNT_V n) + 1) (2 ^ 32 - 1)) ∧
      ((∀ m, (s.eng m).pre = []) →
        EngStep n { busy := x.busy + (u.mono - r.at') } [R.SE_TASK_CNT n] [] [] u t) ∧
      ∀ d, x.pre = [d] → dPhase d ≤ s.fld F.TDS_STAT_PHASE →
        let y := t.eng n
        y.run = some { desc := d, at' := u.mono } ∧ y.pre = [] ∧ y.pc = tEntry (s.task (dTask d)) ∧ y.lc = 0 ∧ y.rot = 0 ∧ y.dlx = 0 ∧
          y.out = [] ∧ y.ended = false ∧ y.failed = false ∧ y.get 1 = BitVec.ofNat 32 (dArg d * 32) ∧ y.get 2 = BitVec.ofNat 32 n ∧
          y.get 3 = BitVec.ofNat 32 s.tds.k ∧ (∀ i, 4 ≤ i → i < 64 → y.get i = 0) ∧
          (∀ m, m ≠ n.val → t.eng m = s.eng m) ∧ ∀ a, t.mb a = s.mb a

/-- DESCRIPTOR_DISPATCH of an unmasked engine with a free prefetch slot, while an eligible descriptor (EMASK, released
phase or the next) is queued and the computation still dispatches, takes one eligible descriptor of the highest
priority (the lowest PRIO number) out of the queue; at a busy engine it stands last in the prefetch slots, the running
task untouched; an idle engine with nothing prefetched starts it where its phase is released. BOUND_EXCEEDED of a task
that has run longer than its BOUND and was not yet reported adds one to TDS_BEXC_CNT (saturating), sets BEXC, makes
source 108 pending, and changes nothing else: the task is not stopped. -/
def Obligations.DispatchFillsPrefetchSlots : Prop :=
  ∀ (s : State) (time : Nat) (n : Fin 32) (pick : Nat),
    let x := s.eng n
    (s.tds.closed = false → s.engMask.getLsbD n = false → x.pre.length < 2 → s.eligible n ≠ [] →
      s.Answers (.descriptorDispatch time n pick) time fun _ t =>
        ∃ d ∈ s.eligible n, (∀ e ∈ s.eligible n, dPrio d ≤ dPrio e) ∧ t.tds.queue = s.tds.queue.erase d ∧
          (x.run.isSome = true → t.eng n = { x with pre := x.pre ++ [d] }) ∧
          (x.run = none → x.pre = [] → dPhase d ≤ s.fld F.TDS_STAT_PHASE → (t.eng n).run = some { desc := d, at' := (s.tick time).mono }) ∧
          (∀ m, m ≠ n.val → t.eng m = s.eng m) ∧ ∀ a, t.mb a = s.mb a) ∧
    ∀ r, x.run = some r → r.exc = false → tBound (s.task (dTask r.desc)) < ((s.tick time).mono - r.at') * 10 →
      s.Answers (.boundExceeded time n) time fun u t =>
        EngStep n { x with run := some { r with exc := true } } [R.TDS_BEXC_CNT, R.TDS_STAT] [108] [] u t ∧
        t.fld F.TDS_BEXC_CNT_V = min (s.fld F.TDS_BEXC_CNT_V + 1) (2 ^ F.TDS_BEXC_CNT_V.w - 1) ∧ t.bit F.TDS_STAT_BEXC = true ∧
        t.pends 108 = true

/-- SE_PDATA_WRITE to the slot that is not in force stores the word at SLOT and INDEX and leaves every other program word;
to the active slot it stores nothing and sets PWR_ERR. SE_PDATA_READ gives the word at SLOT and INDEX. Each access
advances INDEX modulo 8,192. Q_STAT_READ gives the word of TDS_Qp_STAT and clears PEAK. Nothing else changes. -/
def Obligations.ProgramWindowAndQueueReads : Prop :=
  ∀ (s : State) (time : Nat) (n : Fin 32) (v : BitVec 32) (q : Fin 8),
    let slot := s.fld (F.SE_PADDR_SLOT n)
    let idx := s.fld (F.SE_PADDR_INDEX n)
    let next (t : State) : Prop := t.fld (F.SE_PADDR_INDEX n) = (idx + 1) % 8192
    (slot ≠ s.psel n → s.Answers (.sePdataWrite time n v) time fun u t =>
      (∀ m k i, i < 8192 → k < 2 → t.progWord m k i = if m = n.val ∧ k = slot ∧ i = idx then v else s.progWord m k i) ∧ next t ∧
        t.bit (F.SE_PADDR_PWR_ERR n) = s.bit (F.SE_PADDR_PWR_ERR n) ∧
        Frame [R.SE_PADDR n] [] [] { u with tds := { u.tds with prog := t.tds.prog } } t) ∧
    (slot = s.psel n → s.Answers (.sePdataWrite time n v) time fun u t =>
      t.bit (F.SE_PADDR_PWR_ERR n) = true ∧ next t ∧ Frame [R.SE_PADDR n] [] [] u t) ∧
    (s.Answers (.sePdataRead time n) time fun u t => next t ∧ Frame [R.SE_PADDR n] [] [] (u.gave (s.progWord n slot idx)) t) ∧
    s.Answers (.qStatRead time q) time fun u t =>
      t.fld (F.TDS_Q_STAT_PEAK q) = 0 ∧ t.fld (F.TDS_Q_STAT_DEPTH q) = s.fld (F.TDS_Q_STAT_DEPTH q) ∧
        Frame [R.TDS_Q_STAT q] [] [] (u.gave (s.rd (R.TDS_Q_STAT q))) t

/-- ADMIT of a cluster that is not being re-admitted sets ADMIT, makes every byte of its tile memories and its bank read 0
and leaves every other byte. ADMISSION_COMPLETE of a re-admission without a failing memory clears ADMIT and notes the
cluster for unmasking at the next P0 release; with one it clears ADMIT, sets ADM_FAIL and isolates the cluster; either
makes source 111 pending. SWAP with SHADOW_OK = 0 sets SW_REF; a request judged late without LATE_OK ends with SW_ST =
2; both make source 110 pending and leave the pending swaps as they were; an accepted one is pending for its cycle
with SWAP = 1. -/
def Obligations.ClusterAdmissionAndSwap : Prop :=
  ∀ (s : State) (time : Nat) (c : Fin 8) (b : Fin 5) (lateOk : Bool),
    (s.bit (F.TDS_CL_CTL_ADMIT c) = false → s.Answers (.admitCluster time c) time fun u t =>
      t.bit (F.TDS_CL_CTL_ADMIT c) = true ∧ ∀ a, t.mb a = if ofCluster c a then 0 else u.mb a) ∧
    (s.bit (F.TDS_CL_CTL_ADMIT c) = true →
      (s.Answers (.admissionComplete time c none) time fun _ t =>
        t.bit (F.TDS_CL_CTL_ADMIT c) = false ∧ t.tds.admitted = s.tds.admitted ||| (1#8 <<< c.val) ∧ t.pends 111 = true) ∧
      s.Answers (.admissionComplete time c (some b)) time fun u t =>
        t.bit (F.TDS_CL_CTL_ADMIT c) = false ∧ t.bit (F.TDS_CL_CTL_ADM_FAIL c) = true ∧ t.memu.cluIso.getLsbD c = true ∧
          t.tds.admitted = s.tds.admitted ∧ t.pends 111 = true ∧ SameMem u t) ∧
    (s.bit (F.TDS_CL_CTL_SHADOW_OK c) = false → s.Answers (.swap time c lateOk) time fun u t =>
      t.bit (F.TDS_CL_CTL_SW_REF c) = true ∧ t.pends 110 = true ∧ Frame [R.TDS_CL_CTL c] [110] [] u t) ∧
    (s.bit (F.TDS_CL_CTL_SHADOW_OK c) = true → s.Answers (.swap time c lateOk) time fun u t =>
      let n := fullCycle u.cycNow (u.rd (R.TDS_CL_SWCYC c))
      let late := decide (n * u.tc < u.now + 2 * u.tc)
      if late && !lateOk then
        t.fld (F.TDS_CL_CTL_SW_ST c) = 2 ∧ t.pends 110 = true ∧ Frame [R.TDS_CL_CTL c] [110] [] u t
      else
        spGet none t.tds.swap c = some (if late then (u.cycNow + 1, true) else (n, false)) ∧ t.bit (F.TDS_CL_CTL_SWAP c) = true ∧
          (late = true → t.fld (F.TDS_CL_CTL_SW_ST c) = 3) ∧
          Frame [R.TDS_CL_CTL c] [] [] { u with tds := { u.tds with swap := t.tds.swap } } t)

/-- An event of a source below 256 that may become pending sets its bit of INT_PEND, adds one to CNT (saturating at 255),
with TO_MGC notifies the MGC, with TO_EVR puts one record of that source and time on its way to the EVR, and changes
nothing else. INT_PEND_CLEAR of a word with no coinciding event clears exactly the named bits of that word, sets CNT
of each named source to zero, and changes no other register and no byte of memory. -/
def Obligations.SourceEventsPendCountAndRecord : Prop :=
  (∀ (s : State) (n : Nat) (v q : BitVec 32) (k : Nat), n < 256 → neverPending n = false →
    let t := s.raiseWith n v q k
    t.pends n = true ∧ (∀ m, m < 256 → m ≠ n → t.pends m = s.pends m) ∧ Counted (F.INT_SRC_CFG_CNT n) s t ∧
      t.sys.mgcNotes = (if s.bit (F.INT_SRC_CFG_TO_MGC n) then s.sys.mgcNotes ++ [n] else s.sys.mgcNotes) ∧
      t.evr.inbox = (if s.bit (F.INT_SRC_CFG_TO_EVR n) then
        s.evr.inbox ++ [{ time := s.now, code := n, src := n, value := v, qual := q, flags := s.evFlags k }] else s.evr.inbox) ∧
      Frame [] [n] [] s t) ∧
  ∀ (s : State) (time : Nat) (w : Fin 8) (mask : BitVec 32),
    s.Answers (.intPendClear time w mask 0) time fun u t =>
      t.rd (R.INT_PEND w) = s.rd (R.INT_PEND w) &&& ~~~mask ∧
        (∀ b : Fin 32, t.fld (F.INT_SRC_CFG_CNT (32 * w + b)) = if mask.getLsbD b then 0 else s.fld (F.INT_SRC_CFG_CNT (32 * w + b))) ∧
        Frame (R.INT_PEND w :: (List.range 32).map (fun b => R.INT_SRC_CFG (32 * w + b))) [] [] u t

/-- EVENT_RECORD_ARRIVAL takes the oldest record of the units (none waits at the FCO). One that bypasses the limiter, or
falls to a default bucket that is off, enters a stage of fewer than 256 records in key order, unless its key is below
that of the last released record; one whose bucket has no token is counted in EVR_SUPP_CNT and enters nothing.
BUCKET_REFILL of a bucket that has refilled ends its suppression. ORDERING_RELEASE leaves a stage whose smallest
record is younger than H as it is; an only record older than H goes to a buffer with room, with the time of its entry.
COMMIT_TIMEOUT asks for a commit where the oldest buffered record has waited 1 s, and changes nothing else. -/
def Obligations.RecordsAreLimitedOrderedAndBuffered : Prop :=
  ∀ (s : State) (time : Nat) (i : Fin 1025) (r : EvRec) (rs : List EvRec),
    let u0 := s.tick time
    (s.fco.recQ = [] → s.evr.inbox = r :: rs → s.evr.accepting = true →
      ((s.bypass r = true ∨ (s.bucketOf r.code = 1024 ∧ s.bit F.EVR_RL_DEF_EN = false)) → s.evr.order.length < 256 →
        (∀ x, s.evr.lastOut = some x → keyLt r.key x.key = false) →
        s.Answers (.eventArrival time) time fun u t =>
          t.evr = { s.evr with inbox := rs, order := insRec r s.evr.order } ∧ (∀ a, t.rd a = s.rd a) ∧ SameMem u t) ∧
      (let b := u0.bucketNow (s.bucketOf r.code)
       s.bypass r = false → (s.bucketOf r.code ≠ 1024 ∨ s.bit F.EVR_RL_DEF_EN = true) →
        s.fld (rlBurst (s.bucketOf r.code)) * 10 ^ 9 < b.debt + 10 ^ 9 →
        s.Answers (.eventArrival time) time fun u t =>
          t.evr.inbox = rs ∧ t.evr.order = s.evr.order ∧ t.evr.buf = s.evr.buf ∧ Counted F.EVR_SUPP_CNT_V u t ∧
            (t.bucket (s.bucketOf r.code)).supp = b.supp + 1 ∧ SameMem u t)) ∧
    ((u0.bucketNow i).debt = 0 → s.Answers (.bucketRefill time i) time fun u t =>
      (t.bucket i).supp = 0 ∧ (t.bucket i).debt = 0 ∧ (t.bucket i).last = u.mono ∧ SameMem u t) ∧
    (s.evr.order = r :: rs → time < r.time + s.evrH → s.Live → exec (.orderingRelease time) s = .next (s.tick time)) ∧
    (s.evr.order = [r] → r.time + s.evrH ≤ time → s.bit F.EVR_STAT_DEGRADED = false → s.evr.lossPend = 0 → s.evr.buf.length < 2048 →
      s.Answers (.orderingRelease time) time fun u t =>
        t.evr.order = [] ∧ t.evr.lastOut = some r ∧ t.evr.buf = s.evr.buf ++ [⟨r, u.mono⟩] ∧
          t.fld F.EVR_STAT_BUF_DEPTH = s.evr.buf.length + 1 ∧ SameMem u t) ∧
    ∀ b bs, s.evr.buf = b :: bs → b.at' + 10 ^ 9 ≤ u0.mono →
      s.Answers (.commitTimeout time) time fun u t => t = { u with evr := { u.evr with commitReq := true } }

/-- EVR_COMMIT that has been asked for, with commits permitted, no power failure and one buffered record, while the write
pointer is more than one slot below the last and the log is not full, writes the record with SEQ_NEXT into the slot at
the pointer and no other slot, advances pointer and sequence (0xFFFF_FFFF is skipped) and empties the buffer.
LOG_RECOVERY ends the recovery; with an empty reserve, outside DEGRADED, and with no write that fails, it erases every
slot from the first one that is not valid, w, up to the one kept for LOG_FULL, keeps those below w, writes the START
record (0xF007, with the number of erased slots and the reset cause) into slot w under the larger of SEQ_NEXT and the
sequence after that of slot w - 1 (0 for 0xFFFF_FFFF) and leaves the pointer at w + 1. No byte of memory changes. -/
def Obligations.CommitsWriteTheLogInOrder : Prop :=
  (∀ (s : State) (time : Nat) (b : BufRec), s.evr.commitReq = true → s.mayCommit = true → s.evr.pfail = none → s.evr.buf = [b] →
    s.bit F.EVR_STAT_FULL = false → s.fld F.EVR_WPTR_V + 1 < lastSlot →
    let w := s.fld F.EVR_WPTR_V
    let q := s.rd R.EVR_SEQ_NEXT
    s.Answers (.evrCommit time none) time fun u t =>
      t.slot w = ({ b.ev with seq := q } : EvRec).word ∧ (∀ i, i ≠ w → t.slot i = s.slot i) ∧ t.fld F.EVR_WPTR_V = w + 1 ∧
        t.rd R.EVR_SEQ_NEXT = (if q = 0xFFFFFFFE then 0 else q + 1) ∧ t.evr.buf = [] ∧ t.evr.commitReq = false ∧ SameMem u t) ∧
  ∀ (s : State) (time : Nat), s.evr.recovered = false →
    (∀ (bad : LogFault), s.Answers (.logRecovery time bad) time fun u t => t.evr.recovered = true ∧ SameMem u t) ∧
    ∀ w, w + 1 < lastSlot → (∀ i, i < w → slotValid (s.slot i) = true) → slotValid (s.slot w) = false →
      s.fld F.EVR_RSV_STAT_COUNT = 0 → s.bit F.EVR_STAT_DEGRADED = false →
      s.Answers (.logRecovery time {}) time fun _ t =>
        let q := max (s.fld F.EVR_SEQ_NEXT_V) (if w = 0 then 0 else (slotSeq (s.slot (w - 1))).toNat + 1)
        t.slot w = ({ time := time, code := 0xF007, src := 205, value := BitVec.ofNat 32 (s.logUsed w (lastSlot - 1)),
                      qual := BitVec.ofNat 32 (s.fld F.SYS_RST_CAUSE_V), seq := if q = 0xFFFFFFFF then 0 else BitVec.ofNat 32 q,
                      flags := s.evFlags 0xFF } : EvRec).word ∧
          (∀ i, i < w → t.slot i = s.slot i) ∧ (∀ i, w < i → i < lastSlot → t.slot i = logErased) ∧ t.fld F.EVR_WPTR_V = w + 1

/-- FROST_START outside Frost sets FROST and FROZEN and notes the time; FROST_END in Frost clears them; FROST_TMO after
EVR_FROST_TMO seconds of Frost clears them, makes source 204 pending and puts a record 0xF009 with the ms since the
start on its way. RSV_CLR with privilege makes every word of the reserve and its COUNT 0 and keeps RSV_LOST; without
it nothing changes. RDW7_READ gives word 7 of the selected record and, with AUTO_INC, advances CUR modulo 2^18.
Nothing else changes. -/
def Obligations.FrostReserveAndReadWindow : Prop :=
  ∀ (s : State) (time : Nat) (m : Acc) (t0 : Nat),
    let frost (on : Bool) (t : State) : Prop := t.bit F.EVR_CTL_FROST = on ∧ t.bit F.EVR_STAT_FROZEN = on
    (s.evr.frostSince = none → s.Answers (.frostStart time) time fun u t =>
      frost true t ∧ Frame [R.EVR_CTL, R.EVR_STAT] [] [] { u with evr := { u.evr with frostSince := some u.mono } } t) ∧
    (s.evr.frostSince = some t0 →
      (s.Answers (.frostEnd time) time fun u t => frost false t ∧
        Frame [R.EVR_CTL, R.EVR_STAT] [] [] { u with evr := { u.evr with frostSince := none, commitReq := u.evr.commitReq || decide (1024 ≤ u.evr.buf.length) } } t) ∧
      (t0 + s.fld F.EVR_FROST_TMO_V * 10 ^ 9 ≤ (s.tick time).mono → s.Answers (.frostTmo time) time fun u t => frost false t ∧ t.pends 204 = true ∧
        (∃ r ∈ t.evr.inbox, r.code = 0xF009 ∧ r.time = time ∧ r.value = BitVec.ofNat 32 ((u.mono - t0) / 10 ^ 6)) ∧
        Frame [R.EVR_CTL, R.EVR_STAT] [204] [] { u with evr := { u.evr with frostSince := none } } t)) ∧
    (s.priv m = false → s.Live → exec (.rsvClr time m) s = .next (s.tick time)) ∧
    (s.priv m = true → s.Answers (.rsvClr time m) time fun u t =>
      (∀ e w, e < 16 → w < 8 → t.rd (R.EVR_RSV_W e w) = 0) ∧ t.fld F.EVR_RSV_STAT_COUNT = 0 ∧
        t.fld F.EVR_RSV_STAT_RSV_LOST = s.fld F.EVR_RSV_STAT_RSV_LOST ∧
        Frame (R.EVR_RSV_STAT :: (List.range 128).map (fun i => R.EVR_RSV_W (i / 8) (i % 8))) [] [] u.touchPriv t) ∧
    s.Answers (.rdw7Read time) time fun u t =>
      t.fld F.EVR_RD_CTL_CUR = (if s.bit F.EVR_RD_CTL_AUTO_INC then (s.fld F.EVR_RD_CTL_CUR + 1) % 2 ^ 18 else s.fld F.EVR_RD_CTL_CUR) ∧
        Frame [R.EVR_RD_CTL] [] [] (u.gave (s.rdw 7)) t

/-- FCO_MESSAGE of one message m of kind k with a class below DEGRADE adds one to FCO_MSG_CNT and to MSGS of the kind
(saturating), shows m and its time in FCO_LAST and k in LAST_KIND, starts the quiet timer, puts a record with code
0x1000 + k behind the record queue (which holds fewer than 64) and, where the kind is not in the fault state, enters
it: ACT is set; class INTERRUPT raises source 192; a Fallow count of 0 latches at once with source 194. Registers
outside the FCO and these sources, and memory, stay. -/
def Obligations.FaultMessagesEnterTheFaultState : Prop :=
  ∀ (s : State) (time : Nat) (m : BitVec 64),
    let k := msgKind m
    let c := s.fcoClass k
    c < 2 → s.fco.recQ.length < 64 →
    s.Answers (.fcoMessage time [m]) time fun u t =>
      Counted F.FCO_MSG_CNT_V u t ∧ Counted (F.FCO_KCNT_MSGS k) u t ∧ t.fld64 F.FCO_LAST_LO_V F.FCO_LAST_HI_V = m.toNat ∧
        t.fld F.FCO_STAT_LAST_KIND = k ∧ (t.kind k).lastMsg = some u.mono ∧ t.fco.inFlight = s.fco.inFlight.erase m ∧
        (∃ r, t.fco.recQ = s.fco.recQ ++ [r] ∧ r.code = 0x1000 + k ∧ r.time = time ∧ r.value = m.extractLsb' 32 32 ∧ r.qual = m.extractLsb' 0 32) ∧
        t.kindAct k = true ∧
        (s.kindAct k = false → (1 ≤ c → t.pends 192 = true) ∧ (s.fallow k = 0 → s.kindLat k = false → t.kindLat k = true ∧ t.pends 194 = true)) ∧
        Frame [R.FCO_MSG_CNT, R.FCO_KCNT k, R.FCO_LAST_LO, R.FCO_LAST_HI, R.FCO_LAST_TSL, R.FCO_LAST_TSH, R.FCO_STAT, R.FCO_ACT (k / 32),
          R.FCO_LAT (k / 32)] [192, 194] [] { u with fco := t.fco } t

/-- THAW of a kind in the fault state, not latched, with a Fallow period that has passed without a message, latches it
with source 194 where this is the K-th Thaw within W, else clears ACT, adds one to THAWS and FCO_THAW_CNT (saturating)
and to its lifetime count and makes source 193 pending. FCO_ACK of a kind that has been quiet (1 ms where its Fallow
count is 0), of a class below RELEASE or with privilege, clears ACT and LAT; else it sets ACK_REF with source 196 and
leaves both. Where a message of the kind arrives at the same time the message comes first: THAW does nothing, FCO_ACK
is refused. FCO_INJ outside MANUFACTURE sets INJ_REF and writes FCO_INJ_HI; in MANUFACTURE it counts a message, shows
it in FCO_LAST and makes source 198 pending. No byte of memory changes, but by an injected kind. -/
def Obligations.FaultKindsThawAndAreAcknowledged : Prop :=
  ∀ (s : State) (time : Nat) (k : Fin 256) (m : Acc) (hi : BitVec 32) (t0 : Nat),
    let u0 := s.tick time
    let recent := (s.kind k).thaws.filter (fun q => decide (u0.mono ≤ q + s.thawW k))
    let kk := s.rt k F.FCO_RT_K
    let latches : Prop := 1 ≤ kk ∧ kk ≤ recent.length + 1
    (s.Live → s.msgDue time k = true → exec (.thaw time k) s = .next u0) ∧
    (s.msgDue time k = false → s.kindAct k = true → s.kindLat k = false → s.fallow k ≠ 0 → (s.kind k).lastMsg = some t0 → t0 + s.fallow k ≤ u0.mono →
      s.Answers (.thaw time k) time fun u t => SameMem u t ∧
        (latches → t.kindAct k = true ∧ t.kindLat k = true ∧ t.pends 194 = true) ∧
        (¬ latches → t.kindAct k = false ∧ t.kindLat k = false ∧ Counted (F.FCO_KCNT_THAWS k) u t ∧ Counted F.FCO_THAW_CNT_V u t ∧
          t.pends 193 = true ∧ spGet 0 t.aon.lt.thaw k = spGet 0 s.aon.lt.thaw k + 1)) ∧
    (let quiet : Prop := ∀ q, (s.kind k).lastMsg = some q → q + (if s.fallow k = 0 then 10 ^ 6 else s.fallow k) ≤ u0.mono
     let ok : Prop := quiet ∧ (s.fcoClass k < 3 ∨ s.priv m = true) ∧ s.msgDue time k = false
     s.Answers (.fcoAck time m k) time fun u t => SameMem u t ∧
      (ok → t.kindAct k = false ∧ t.kindLat k = false) ∧
      (¬ ok → t.kindAct k = s.kindAct k ∧ t.kindLat k = s.kindLat k ∧ t.bit F.FCO_STAT_ACK_REF = true ∧ t.pends 196 = true)) ∧
    (s.fld F.SYS_LC_STATE ≠ 0 → s.Answers (.fcoInj time hi) time fun u t =>
      t.bit F.FCO_STAT_INJ_REF = true ∧ t.rd R.FCO_INJ_HI = hi ∧ Frame [R.FCO_STAT, R.FCO_INJ_HI] [] [] u t) ∧
    (s.fld F.SYS_LC_STATE = 0 → s.Answers (.fcoInj time hi) time fun u t =>
      Counted F.FCO_MSG_CNT_V u t ∧ t.fld64 F.FCO_LAST_LO_V F.FCO_LAST_HI_V = (hi ++ s.rd R.FCO_INJ_LO).toNat ∧ t.pends 198 = true)

/-- LIFETIME_SAVE_TIMER and SAVE that verify make the newest valid copy one of the present contents with the next SEQ,
shown in AON_LT_SEQ; one that fails sets LT_FAIL with source 253 and leaves the newest copy (the two copies never hold
one SEQ). CALENDAR_SECOND gives the calendar the whole seconds of the TBU count while LOCK = 1, else one second more,
modulo 2^48, and counts one operating second; while the die is held it goes on by itself. CAL_SET with privilege gives
the calendar the 48-bit value written, sets CAL_VALID and makes source 252 pending; without it nothing changes.
VBAT_LOW sets VBAT_LOW with source 251. No byte of memory changes. -/
def Obligations.LifetimeStoreAndCalendar : Prop :=
  ∀ (s : State) (time : Nat) (m : Acc) (hi : BitVec 32),
    let saved (t : State) : Prop :=
      (∃ q, t.aon.newest = some { seq := q, body := s.aon.lt } ∧ t.rd R.AON_LT_SEQ = BitVec.ofNat 32 q ∧
        (∀ o, s.aon.newest = some o → q = o.seq + 1)) ∧ Frame [R.AON_LT_SEQ] [] [] { s.tick time with aon := t.aon } t
    let failed (t : State) : Prop :=
      t.bit F.AON_STAT_LT_FAIL = true ∧ t.pends 253 = true ∧ (ltSeq s.aon.copy0 ≠ ltSeq s.aon.copy1 → t.aon.newest = s.aon.newest) ∧
        Frame [R.AON_STAT] [253] [] { s.tick time with aon := t.aon } t
    (s.Live → (∃ t, exec (.lifetimeSaveTimer time true) s = .next t ∧ saved t) ∧ (∃ t, exec (.lifetimeSaveTimer time false) s = .next t ∧ failed t) ∧
      (∃ t, exec (.save time true) s = .next t ∧ saved t) ∧ ∃ t, exec (.save time false) s = .next t ∧ failed t) ∧
    (s.Answers (.calendarSecond time) time fun u t =>
      t.calSec = (if s.bit F.TBU_STAT_LOCK then time / 10 ^ 9 else s.calSec + 1) % 2 ^ 48 ∧ t.aon.lt.opSec = s.aon.lt.opSec + 1 ∧
        Frame [R.AON_CAL_LO, R.AON_CAL_HI] [] [] { u with aon := t.aon } t) ∧
    (s.held = true → s.Always (.calendarSecond time) time fun u t =>
      t.calSec = (s.calSec + 1) % 2 ^ 48 ∧ Frame [R.AON_CAL_LO, R.AON_CAL_HI] [] [] { u with aon := t.aon } t) ∧
    (s.priv m = false → s.Live → exec (.calSet time m hi) s = .next (s.tick time)) ∧
    (s.priv m = true → s.Answers (.calSet time m hi) time fun u t =>
      t.calSec = (s.rd R.AON_CAL_SET_LO).toNat + hi.toNat % 2 ^ 16 * 2 ^ 32 ∧ t.bit F.AON_STAT_CAL_VALID = true ∧ t.pends 252 = true ∧ SameMem u t) ∧
    s.Answers (.vbatLow time) time fun u t => t.bit F.AON_STAT_VBAT_LOW = true ∧ t.pends 251 = true ∧ Frame [R.AON_STAT] [251] [] u t

/-- SIN_FILTERED_CHANGE to another state than the present one, at least T_filt after the last change of that channel,
gives the channel of its pair the new state and leaves every other channel; one that is not due changes nothing. An
active channel of a pair with FUNC BLOCK brings a unit in RUN or STOP to SAFE BLOCK with BLK_CAUSE 1, injection on and
source 177 pending; one with FUNC STOP, while the SCP is not held in reset by self-test 0, brings a unit in RUN to
SAFE STOP with STOP_CAUSE 1, SFI_STOP_CNT grown and source 176 pending; in BLOCK the state stays. With the die held
and VSAF there, the HBL drives BLK_OUT high for FUNC BLOCK and runs its own timer for FUNC STOP, by its own
parameters. DISCREPANCY_LATCH of a pair whose channels have differed for T_disc (within 1 us), not yet latched,
latches it and makes source 178 pending. No byte of memory changes. -/
def Obligations.SafetyDemandsOrderStopAndBlock : Prop :=
  ∀ (s : State) (time : Nat) (p : Fin 8) (chB active band : Bool),
    let u := s.tick time
    let f := s.fld (F.SFI_SIN_CFG_FUNC p)
    let due : Prop := (if chB then s.sfi.bAct.getLsbD p else s.sfi.aAct.getLsbD p) ≠ active ∧
      ∀ t0, spGet none s.sfi.sinAt (2 * p + chB.toNat) = some t0 → t0 + s.tFilt p ≤ u.mono
    let taken (t : State) : Prop :=
      (∀ q : Fin 8, t.sfi.aAct.getLsbD q = (if q = p ∧ chB = false then active else s.sfi.aAct.getLsbD q)) ∧
      (∀ q : Fin 8, t.sfi.bAct.getLsbD q = (if q = p ∧ chB = true then active else s.sfi.bAct.getLsbD q)) ∧ SameMem u t
    (due → s.Live → ∃ t, exec (.sinChange time p chB active band) s = .next t ∧ taken t ∧
      (active = true → f = 2 → s.sfiState ≠ stBlock →
        t.sfiState = stBlock ∧ t.fld F.SFI_STAT_BLK_CAUSE = 1 ∧ t.bit F.SFI_STAT_INJ = true ∧ t.pends 177 = true) ∧
      (active = true → f = 1 → s.sfiState = stRun → s.scpDead = false →
        t.sfiState = stStop ∧ t.fld F.SFI_STAT_STOP_CAUSE = 1 ∧ Counted F.SFI_STOP_CNT_V u t ∧ t.pends 176 = true) ∧
      (s.sfiState = stBlock → t.sfiState = stBlock)) ∧
    (due → s.held = true → s.sys.vsafLost = false → ∃ t, exec (.sinChange time p chB active band) s = .next t ∧ taken t ∧
      (active = true → (F.SFI_SIN_CFG_FUNC p).get (s.hblWord p) = 2 → t.blkOut = true) ∧
      (active = true → (F.SFI_SIN_CFG_FUNC p).get (s.hblWord p) = 1 → t.sfi.hblStop.isSome = true)) ∧
    (¬ due → exec (.sinChange time p chB active band) s = .next u) ∧
    ∀ t0, s.differSince p = some t0 → s.tDisc p ≤ u.mono - t0 + 1000 → s.sfi.disc.getLsbD p = false →
      s.Answers (.discrepancyLatch time p) time fun u t =>
        t.sfi.disc = s.sfi.disc ||| (1#8 <<< p.val) ∧ t.pends 178 = true ∧ Frame [] [178] [] { u with sfi := { u.sfi with disc := t.sfi.disc } } t

/-- In SAFE STOP: STOP_COMPLETE once the stop is at least 1 ms old and every enabled monitor has been within TOL for 1 ms,
TSTOP_EXPIRY once SFI_TSTOP_MAX has passed, and MONITOR_WORD_GAP of an enabled monitor without a word for more than 4
word periods (the first and the last while the SCP is not held in reset by self-test 0) each bring the unit to SAFE
BLOCK with injection on, SFI_BLOCK_CNT grown, source 177 pending and BLK_CAUSE 4, 3 and 2; the second also sets
TSTOP_EXP, the third ENV_EXIT, with source 180 pending. TSTOP_EXPIRY with the die held and the HBL's own timer run out
drives BLK_OUT high. No byte of memory changes. -/
def Obligations.StopEndsInBlock : Prop :=
  ∀ (s : State) (time : Nat) (c : Fin 8),
    let u := s.tick time
    let blocked (cause : Nat) (t : State) : Prop := t.sfiState = stBlock ∧ t.fld F.SFI_STAT_BLK_CAUSE = cause ∧ t.bit F.SFI_STAT_INJ = true ∧
      Counted F.SFI_BLOCK_CNT_V u t ∧ t.pends 177 = true ∧ SameMem u t
    (s.Live → s.sfiState = stStop → s.scpDead = false → s.sfi.stopAt + 10 ^ 6 ≤ u.mono →
      (∀ q : Fin 8, s.bit (F.SFI_MON_CFG_EN q) = true → ∃ t0, (s.mon q).inTol = some t0 ∧ t0 + 10 ^ 6 ≤ u.mono) →
      ∃ t, exec (.stopComplete time) s = .next t ∧ blocked 4 t) ∧
    (s.Live → s.sfiState = stStop → s.sfi.stopAt + s.fld F.SFI_TSTOP_MAX_V * 1000 ≤ u.mono →
      ∃ t, exec (.tstopExpiry time) s = .next t ∧ blocked 3 t ∧ t.bit F.SFI_STAT_TSTOP_EXP = true ∧ t.pends 180 = true) ∧
    (∀ t0, s.held = true → s.sys.vsafLost = false → s.sfi.hblStop = some t0 → t0 + s.sfi.hblTstop * 1000 ≤ u.mono →
      ∃ t, exec (.tstopExpiry time) s = .next t ∧ t = { u with sfi := { u.sfi with hblOrder := true, hblStop := none } } ∧ t.blkOut = true) ∧
    (s.Live → s.sfiState = stStop → s.scpDead = false → s.bit (F.SFI_MON_CFG_EN c) = true → u.monSilent c = true →
      ∃ t, exec (.monitorWordGap time c) s = .next t ∧ blocked 2 t ∧ t.bit F.SFI_STAT_ENV_EXIT = true ∧ t.pends 180 = true)

/-- Without privilege (the host with PRIV open) RELEASE, ACK, STOP_REQ and BLOCK_REQ change nothing. With it: RELEASE in
BLOCK with SFS_OK, no discrepancy latch and no demand returns to RUN with both causes 0, injection off and source 177
pending; otherwise it sets REL_REF with source 183 and STATE stays. ACK clears the latch of each named pair whose
channels are both inactive, and no other; a named pair without a latch or with an active channel sets REL_REF with
source 183. STOP_REQ in RUN orders SAFE STOP with cause 3, BLOCK_REQ outside BLOCK orders SAFE BLOCK with cause 6;
while self-test 0 holds the SCP in reset, either only renews the privilege timeout. No byte of memory changes. -/
def Obligations.SafetyRequestsNeedPrivilege : Prop :=
  ∀ (s : State) (time : Nat) (m : Acc) (mask : BitVec 8),
    (s.priv m = false → s.Live →
      exec (.release time m) s = .next (s.tick time) ∧ exec (.ack time m mask) s = .next (s.tick time) ∧
        exec (.stopReq time m) s = .next (s.tick time) ∧ exec (.blockReq time m) s = .next (s.tick time)) ∧
    (s.priv m = true →
      (let ok : Prop := s.sfiState = stBlock ∧ s.bit F.SFI_STAT_SFS_OK = true ∧ s.sfi.disc = 0 ∧ ∀ p : Fin 8, s.demand p = false
       s.Answers (.release time m) time fun u t => SameMem u t ∧
        (ok → t.sfiState = stRun ∧ t.fld F.SFI_STAT_BLK_CAUSE = 0 ∧ t.fld F.SFI_STAT_STOP_CAUSE = 0 ∧ t.bit F.SFI_STAT_INJ = false ∧
          t.pends 177 = true) ∧
        (¬ ok → t.sfiState = s.sfiState ∧ t.bit F.SFI_STAT_REL_REF = true ∧ t.pends 183 = true)) ∧
      (let may (p : Fin 8) : Prop := s.sfi.disc.getLsbD p = true ∧ s.sfi.aAct.getLsbD p = false ∧ s.sfi.bAct.getLsbD p = false
       s.Answers (.ack time m mask) time fun u t => SameMem u t ∧ t.sfiState = s.sfiState ∧
        (∀ p : Fin 8, t.sfi.disc.getLsbD p = true ↔ s.sfi.disc.getLsbD p = true ∧ ¬ (mask.getLsbD p = true ∧ may p)) ∧
        ((∃ p : Fin 8, mask.getLsbD p = true ∧ ¬ may p) → t.bit F.SFI_STAT_REL_REF = true ∧ t.pends 183 = true)) ∧
      (s.scpDead = true → s.Live →
        exec (.stopReq time m) s = .next (s.tick time).touchPriv ∧ exec (.blockReq time m) s = .next (s.tick time).touchPriv) ∧
      (s.sfiState = stRun → s.scpDead = false → s.Answers (.stopReq time m) time fun u t =>
        t.sfiState = stStop ∧ t.fld F.SFI_STAT_STOP_CAUSE = 3 ∧ t.pends 176 = true ∧ SameMem u t) ∧
      (s.sfiState ≠ stBlock → s.scpDead = false → s.Answers (.blockReq time m) time fun u t =>
        t.sfiState = stBlock ∧ t.fld F.SFI_STAT_BLK_CAUSE = 6 ∧ t.bit F.SFI_STAT_INJ = true ∧ t.pends 177 = true ∧ SameMem u t))

/-- SELF_TEST_FAILURE of test i sets bit i of TEST_FAIL, clears SFS_OK, makes source 181 pending and sends a message of
kind 0xE1 for test 0 and 0xE0 for every other; no byte of memory changes. SCP_RESTART_COMPLETE, while a restart runs,
ends it with SCP_OK = 1 (0 where self-test 0 has failed); besides SFI_STAT it changes something only where SFS_OK
changes. -/
def Obligations.SelfTestFailureDropsSfsOk : Prop :=
  ∀ (s : State) (time : Nat) (i : Fin 8),
    (s.Answers (.selfTestFailure time i) time fun u t =>
      t.fbit F.SFI_STAT_TEST_FAIL i = true ∧ t.bit F.SFI_STAT_SFS_OK = false ∧ t.pends 181 = true ∧
        Sent (if i = 0 then 0xE1 else 0xE0) u t ∧ SameMem u t) ∧
    (s.sfi.scpRestart = true → s.Answers (.scpRestartComplete time) time fun u t =>
      t.bit F.SFI_STAT_SCP_OK = !s.scpDead ∧ t.sfi.scpRestart = false ∧ SameMem u t ∧
        (t.bit F.SFI_STAT_SFS_OK = s.bit F.SFI_STAT_SFS_OK → Frame [R.SFI_STAT] [] [] { u with sfi := { u.sfi with scpRestart := false } } t))

/-- PARTNER_LINK_UP with the four lanes locked, a skew of at most 8 blocks and 16 verified frames in a row sets UP and
PL_UP, SKEW and LINK_CHG with source 186; a partner with the same UID is a strap conflict: UID_CONF, and where it is
new a message of kind 0x01 with source 191. With a condition missing nothing changes. PARTNER_LINK_DOWN of an
established link, with a lane out of lock, a skew above 8 blocks, two frames in a row that failed, or none for more
than two cycles, clears UP and PL_UP, sets LINK_CHG, notes the time, makes source 186 pending and sends a message of
kind 0x05; a skew above 8 blocks sets SKEW_ERR. PARTNER_LINK_DOWN_64, with the link down for 64 cycles, notes it; a
unit in RUN whose SFS_OK is low and whose SCP is not held in reset then enters SAFE STOP with cause 2. No byte of
memory changes. -/
def Obligations.LinkStateFollowsTraining : Prop :=
  ∀ (s : State) (time : Nat) (skew : Fin 16) (uid : Bool),
    let u := s.tick time
    let trained : Prop := s.bit F.PL_STAT_UP = false ∧ s.fld F.PL_STAT_LANE_LOCK = 0xF ∧ skew.val ≤ 8 ∧ 16 ≤ s.rdu.pOk
    let lost : Prop := s.fld F.PL_STAT_LANE_LOCK ≠ 0xF ∨ 8 < skew.val ∨ 2 ≤ s.rdu.pBad ∨ s.rdu.pOkAt + 2 * s.tc < u.mono
    (s.Live → trained → ∃ t, exec (.partnerLinkUp time skew uid) s = .next t ∧
      t.bit F.PL_STAT_UP = true ∧ t.bit F.RDU_STAT_PL_UP = true ∧ t.bit F.PL_STAT_LINK_CHG = true ∧ t.fld F.PL_STAT_SKEW = skew ∧
        t.pends 186 = true ∧ SameMem u t ∧ t.sys.strapConf = decide (uid = s.sys.uid) ∧
        (uid = s.sys.uid → s.sys.strapConf = false → t.bit F.RDU_STAT_UID_CONF = true ∧ Sent 0x01 u t ∧ t.pends 191 = true)) ∧
    (s.Live → ¬ trained → exec (.partnerLinkUp time skew uid) s = .next u) ∧
    (s.Live → s.bit F.PL_STAT_UP = true → lost → ∃ t, exec (.partnerLinkDown time skew) s = .next t ∧
      t.bit F.PL_STAT_UP = false ∧ t.bit F.RDU_STAT_PL_UP = false ∧ t.bit F.PL_STAT_LINK_CHG = true ∧ t.fld F.PL_STAT_SKEW = skew ∧
        (8 < skew.val → t.bit F.PL_STAT_SKEW_ERR = true) ∧ t.rdu.linkDownAt = u.mono ∧ t.pends 186 = true ∧ Sent 0x05 u t ∧ SameMem u t) ∧
    (s.Live → s.bit F.PL_STAT_UP = false → s.rdu.linkDownAt + 64 * s.tc ≤ u.mono → ∃ t, exec (.partnerLinkDown64 time) s = .next t ∧
      t.sfi.linkDown64 = true ∧ SameMem u t ∧
        (s.sfiState = stRun → s.bit F.SFI_STAT_SFS_OK = false → s.scpDead = false →
          t.sfiState = stStop ∧ t.fld F.SFI_STAT_STOP_CAUSE = 2 ∧ t.pends 176 = true))

/-- With PL_CTL.EN, blocks that begin with the SOF of a partner frame: one whose CRC fails adds one to PL_CRC_CNT, one
whose tag fails adds one to PL_AUTH_CNT and sets AUTH_ERR; it ends the run of good frames and does nothing else, but
that the second in a row takes the link down with source 186. A verified one becomes the last lease record, P_READY
and RDU_PTAIL show it, and its BLOCK order brings the unit to SAFE BLOCK. CYCLE_JUDGEMENT at d_j of a cycle j not
judged yet shows its valid tails in RDU_TAIL; in STANDBY without a quorum of tails and without a renewal it counts one
more silent cycle, and where that stays within L leaves the role, else takes the lease of a unit that may hold it,
under the new epoch with source 184. At another time, or judged already, it changes nothing. No byte of memory
changes. -/
def Obligations.PartnerFramesAndJudgement : Prop :=
  ∀ (s : State) (time : Nat),
    let u := s.tick time
    (∀ (fs : List Blk) (f : PFrame), s.Live → s.bit F.PL_CTL_EN = true → s.pframe fs = some f →
      let bad : State := { u with rdu := { u.rdu with pOk := 0, pBad := u.rdu.pBad + 1 } }
      let ends (t : State) : Prop := t.bit F.PL_STAT_UP = false ∧ t.bit F.RDU_STAT_PL_UP = false ∧ t.pends 186 = true ∧ SameMem u t
      let stays : Prop := s.bit F.PL_STAT_UP = false ∨ (s.fld F.PL_STAT_LANE_LOCK = 0xF ∧ s.rdu.pBad = 0)
      (f.crcOk = false → ∃ t, exec (.partnerFrame time fs) s = .next t ∧ Counted F.PL_CRC_CNT_V u t ∧
        (stays → Frame [R.PL_CRC_CNT] [] [] bad t) ∧ (s.bit F.PL_STAT_UP = true → 1 ≤ s.rdu.pBad → ends t)) ∧
      (f.crcOk = true → f.tagOk = false → ∃ t, exec (.partnerFrame time fs) s = .next t ∧ Counted F.PL_AUTH_CNT_V u t ∧
        t.bit F.PL_STAT_AUTH_ERR = true ∧ (stays → Frame [R.PL_AUTH_CNT, R.PL_STAT] [] [] bad t) ∧
        (s.bit F.PL_STAT_UP = true → 1 ≤ s.rdu.pBad → ends t)) ∧
      (f.crcOk = true → f.tagOk = true → ∃ t, exec (.partnerFrame time fs) s = .next t ∧
        t.rdu.partner = some f.lease ∧ t.rdu.pOk = s.rdu.pOk + 1 ∧ t.bit F.RDU_STAT_P_READY = f.lease.ready ∧
          t.fld64 F.RDU_PTAIL_LO_V F.RDU_PTAIL_HI_V = f.lease.tails.toNat ∧
          (f.lease.blockOrd = true → s.scpDead = false → t.sfiState = stBlock) ∧ SameMem u t)) ∧
    (∀ j, s.Live → j = (time - s.tc / 2) / s.tc →
      let rs := s.quorumRings
      let due : Prop := time = j * s.tc + s.tc / 2 ∧ s.rdu.judged ≠ some j
      let silent : Prop := s.role = roleStandby ∧ (rs.filter (s.tailOf j)).length < s.quorum rs.length ∧ j + 1 ∉ s.rdu.renewals
      (due → ∃ t, exec (.cycleJudgement time) s = .next t ∧ t.rdu.judged = some j ∧ SameMem u t ∧
        (∀ n, n < 64 → (t.fld64 F.RDU_TAIL_LO_V F.RDU_TAIL_HI_V).testBit n = (s.enabled n && s.tailOf j n)) ∧
        (silent → s.rdu.silent + 1 ≤ s.fld F.RDU_LEASE_LEASE_L →
          t.rdu.silent = s.rdu.silent + 1 ∧ t.fld F.RDU_STAT_SILENT = min (s.rdu.silent + 1) 15 ∧ t.role = roleStandby) ∧
        (silent → s.fld F.RDU_LEASE_LEASE_L < s.rdu.silent + 1 → s.mayHold = true → ∀ e, s.newEpoch = some e →
          t.role = roleActive ∧ t.rd R.RDU_EPOCH = e ∧ t.pends 184 = true)) ∧
      (¬ due → exec (.cycleJudgement time) s = .next u))

/-- CLAIM_WAIT_EXPIRY in INIT with CLAIM_EN, an image in force, SFS_OK, no UID conflict, OPERATIONAL, the link down and
the claim wait passed takes the lease: ACTIVE, the new epoch in RDU_EPOCH, source 184. With privilege RELEASE_REQ
makes an ACTIVE unit with a READY partner give up at its next send point and changes nothing else, REL_CLR clears
REL_HOLD, and EQX_GO ends with EQ_ST 6 in a unit that is not ACTIVE, 4 without a READY partner, 2 for a late N without
LATE_OK, each with source 189, else is pending with GO = 1. RECLAIM_SETTLE in the settled, not preferred holder with
MODE = 1, a READY partner and no Equinox pending schedules one 1,024 cycles ahead. Without privilege RELEASE_REQ and
REL_CLR change nothing, EQX_GO only LATE_OK. -/
def Obligations.ClaimReleaseAndEquinox : Prop :=
  ∀ (s : State) (time : Nat) (m : Acc) (lateOk : Bool),
    (∀ e, s.mayLeaveInit = true → s.bit F.RDU_STAT_UID_CONF = false → s.bit F.RDU_STAT_PL_UP = false →
      s.rdu.linkDownAt + s.fld F.RDU_CLAIM_WAIT_V * 10 ^ 6 ≤ (s.tick time).mono → s.newEpoch = some e →
      s.Answers (.claimWaitExpiry time) time fun u t =>
        t.role = roleActive ∧ t.rd R.RDU_EPOCH = e ∧ t.pends 184 = true ∧ SameMem u t) ∧
    (s.priv m = false → s.Live → exec (.releaseReq time m) s = .next (s.tick time) ∧ exec (.relClr time m) s = .next (s.tick time) ∧
      exec (.eqxGo time m lateOk) s = .next ((s.tick time).setBit F.RDU_EQX_CTL_LATE_OK lateOk)) ∧
    (s.priv m = true →
      (s.role = roleActive → s.partnerReady = true → s.Answers (.releaseReq time m) time fun u t =>
        t = { u.touchPriv with rdu := { u.rdu with giveUp := true } }) ∧
      (s.Answers (.relClr time m) time fun u t => t.bit F.RDU_STAT_REL_HOLD = false ∧ Frame [R.RDU_STAT] [] [] u.touchPriv t) ∧
      s.Answers (.eqxGo time m lateOk) time fun u t =>
        let n := fullCycle u.cycNow (u.rd R.RDU_EQX_CYC)
        let ends (c : Nat) : Prop := t.fld F.RDU_EQX_CTL_EQ_ST = c ∧ t.pends 189 = true ∧ Frame [R.RDU_EQX_CTL] [189] [] u.touchPriv t
        if s.role ≠ roleActive then ends 6
        else if s.partnerReady = false then ends 4
        else if n * u.tc < u.now + 2 * u.tc then
          if lateOk then t.rdu.eqxN = some ((u.now + 3 * u.tc - 1) / u.tc) ∧ t.fld F.RDU_EQX_CTL_EQ_ST = 3 ∧ t.bit F.RDU_EQX_CTL_GO = true ∧
            Frame [R.RDU_EQX_CTL, R.RDU_EQX_CYC] [] [] { u.touchPriv with rdu := { u.rdu with eqxN := t.rdu.eqxN } } t
          else ends 2
        else t.rdu.eqxN = some n ∧ t.bit F.RDU_EQX_CTL_GO = true ∧
          Frame [R.RDU_EQX_CTL] [] [] { u.touchPriv with rdu := { u.rdu with eqxN := some n } } t) ∧
    (∀ t0, s.role = roleActive → s.bit F.RDU_RET_MODE = true → s.isPref = false → s.partnerReady = true → s.rdu.eqxN = none → 0 < s.tc →
      s.rdu.readySince = some t0 → t0 + s.fld F.RDU_RET_SETTLE * 10 ^ 9 ≤ (s.tick time).mono →
      s.Answers (.reclaimSettle time) time fun u t =>
        t.rdu.eqxN = some (u.cycNow + 1024) ∧ t.rd R.RDU_EQX_CYC = BitVec.ofNat 32 (u.cycNow + 1024) ∧ t.bit F.RDU_EQX_CTL_GO = true ∧
          Frame [R.RDU_EQX_CYC, R.RDU_EQX_CTL] [] [] { u with rdu := { u.rdu with eqxN := t.rdu.eqxN } } t)

/-- POWER_ON_RESET of a list of causes whose lowest code is c, and THERMAL_TRIP with code 5, of a die that is not already
held with its reset done: SYS_RST_CAUSE = c; every other register reads its reset value but for those of the always-on
domain and of the supervisor die, AON_STAT keeping CAL_VALID; memory below the NV store reads as wiped, NV, the event
log and the always-on domain stay (what the EVR, the CFC or a lifetime save is just writing may be cut off); every
unit is as after reset; the die is held. Where the die is held and its reset done, only the cause changes, to the
lower code. That a cause of a later moment in one hold still counts is the model's reading (log entry 75). -/
def Obligations.PowerOnResetsClearAllButWhatSurvives : Prop :=
  ∀ (s : State) (time : Nat) (causes : List PorCause) (code : Nat), code ∈ causes.map porCode → (∀ x ∈ causes, code ≤ porCode x) →
    (s.sys.porDone = false ∨ s.held = false →
      (∃ t, exec (.powerOnReset time causes) s = .next t ∧ t.held = true ∧ PowerReset code (s.tick time) t) ∧
      ∃ t, exec (.thermalTrip time) s = .next t ∧ t.held = true ∧ t.sys.thermal = true ∧ PowerReset 5 (s.tick time) t) ∧
    (s.sys.porDone = true → s.held = true →
      (∃ t, exec (.powerOnReset time causes) s = .next t ∧ t.held = true ∧ t.fld F.SYS_RST_CAUSE_V = min (s.fld F.SYS_RST_CAUSE_V) code ∧
        Frame [R.SYS_RST_CAUSE] [] [] { s.tick time with sys := t.sys, sfi := t.sfi } t) ∧
      ∃ t, exec (.thermalTrip time) s = .next t ∧ t.held = true ∧ t.sys.thermal = true ∧
        t.fld F.SYS_RST_CAUSE_V = min (s.fld F.SYS_RST_CAUSE_V) 5 ∧ Frame [R.SYS_RST_CAUSE] [] [] { s.tick time with sys := t.sys } t)

/-- On a die that runs, PORST_N_ASSERT, VCORE_LOSS and VSAF_LOSS hold it: SFS_OK low at the pin, every ring and partner
transmitter in forced idle, no register changed but the lanes' status (and SEQ_NEXT, where a write of the event log is
cut off), no memory but what the CFC is just writing into NV. BLK_OUT is then high where D9 was lost, the HBL's own
order of SAFE BLOCK stands, or it sees a demand for SAFE BLOCK, and low without VSAF, which also clears the HBL's
parameters and its order. D3_LOSS forces the idle and SFS_OK low, with source 181 where it was high. D9_LOSS brings
SAFE BLOCK, HBL_OK 0, SFS_OK 0 and BLK_OUT high. No byte of memory changes. -/
def Obligations.PinsAndSuppliesHoldTheDie : Prop :=
  ∀ (s : State) (time : Nat), s.Live →
    let u := s.tick time
    let holds (t : State) : Prop := t.held = true ∧ t.sys.porDone = false ∧ t.sfsPin = false ∧ t.HblIdle ∧ LogKept u t ∧
      AonKept u t ∧ NvKept (fun _ => False) u t ∧ (∀ a, a < nvBase → t.mb a = u.mb a) ∧
      Frame (R.EVR_SEQ_NEXT :: (List.range 72).map R.LPH_LANE_STAT) [] []
        { u with sfi := t.sfi, sys := t.sys, aon := t.aon, mem := t.mem, evr := { u.evr with log := t.evr.log, cutN := t.evr.cutN } } t
    let out : Bool := s.sfi.d9Lost || s.sfi.hblOrder || (List.range 8).any s.hblWants
    (∃ t, exec (.porstAssert time) s = .next t ∧ holds t ∧ t.sys.porstLow = true ∧ t.sys.porstAt = u.mono ∧ t.blkOut = out) ∧
    (∃ t, exec (.vcoreLoss time) s = .next t ∧ holds t ∧ t.sys.vcoreLost = true ∧ t.blkOut = out) ∧
    (∃ t, exec (.vsafLoss time) s = .next t ∧ holds t ∧ t.sys.vsafLost = true ∧ t.blkOut = false ∧ t.sfi.hblPar = [] ∧ t.sfi.hblOrder = false) ∧
    (∃ t, exec (.d3Loss time) s = .next t ∧ t.sfi.d3Lost = true ∧ t.HblIdle ∧ t.bit F.SFI_STAT_SFS_OK = false ∧
      (s.bit F.SFI_STAT_SFS_OK = true → t.pends 181 = true) ∧
      Frame ([R.SFI_STAT, R.RDU_STAT, R.SFI_STOP_CNT] ++ (List.range 72).map R.LPH_LANE_STAT) [181, 176] []
        { u with sfi := t.sfi, drc := t.drc } t) ∧
    ∃ t, exec (.d9Loss time) s = .next t ∧ t.sfi.d9Lost = true ∧ t.sfiState = stBlock ∧ t.bit F.SFI_STAT_HBL_OK = false ∧
      t.bit F.SFI_STAT_SFS_OK = false ∧ t.blkOut = true ∧ SameMem u t

/-- PORST_N_RELEASE of a pin that was low for at least 10 us performs the power-on reset of this hold with cause 1 where
it is still to come; with nothing else holding the die the unit then starts: it samples the strap, takes its count
from the AON calendar (or 0 with CAL_INV and source 252), sets STEP_ARM, loads the lifetime store and counts the cause
there. A shorter pulse that has brought no reset yet either does the same or leaves registers and memory (free value).
THERMAL_TRIP_END and SUPPLY_RECOVERY of the last cause that holds the die start it likewise. -/
def Obligations.EndsOfHoldsStartTheUnit : Prop :=
  ∀ (s : State) (time : Nat) (uid : Bool) (r : Rail),
    (s.sys.porstLow = true → ({ s with sys := { s.sys with porstLow := false } } : State).Live →
      (s.sys.porDone = true → s.Always (.porstRelease time uid) time (Started uid)) ∧
      (s.sys.porDone = false → s.Always (.porstRelease time uid) time fun u t =>
        (∃ v, PowerReset 1 u v ∧ Started uid v t) ∨
          (u.mono < s.sys.porstAt + 10000 ∧ t.held = false ∧ t.regs = u.regs ∧ t.mem = u.mem))) ∧
    (s.sys.thermal = true → ({ s with sys := { s.sys with thermal := false } } : State).Live → s.sys.porDone = true →
      s.Always (.thermalTripEnd time uid) time (Started uid)) ∧
    (s.railLost r = true → (s.railBack r).Live → s.sys.porDone = true → s.Always (.supplyRecovery time r uid) time (Started uid)) ∧
    (s.railLost r = true → (s.railBack r).Live → s.sys.porDone = false →
      s.Always (.supplyRecovery time r uid) time fun u t => ∃ v, PowerReset (porCode (.drop r)) u v ∧ Started uid v t)

/-- MGC_WATCHDOG (cause 8), JTAG_RESET in MANUFACTURE (9), BUTTON_RELEASE of a press that did not get stuck, outside a
power failure (7), and PFAIL_RECOVERED (6), on a die that runs: registers keep their ST fields and what the always-on
domain holds, SRAM is wiped, record store, NV and event log stay (the entry of an open disturbance record, and what
the EVR or the CFC is just writing, apart), every unit is as after reset, a UID conflict holds, the cause is recorded
and, where the lifetime save verifies, counted in the lifetime store. JTAG_RESET outside MANUFACTURE, and
PFAIL_RECOVERED without a power failure, change nothing. -/
def Obligations.WarmResetsKeepWhatTheSpecKeeps : Prop :=
  ∀ (s : State) (time : Nat) (ok : Bool), s.Canonical → s.Live →
    let u := s.tick time
    let warm (code : Nat) (t : State) : Prop :=
      WarmReset code u t ∧ (ok = true → spGet 0 t.aon.lt.resets code = spGet 0 s.aon.lt.resets code + 1)
    (∃ t, exec (.mgcWatchdog time ok) s = .next t ∧ warm 8 t) ∧
    (s.fld F.SYS_LC_STATE = 0 → ∃ t, exec (.jtagReset time ok) s = .next t ∧ warm 9 t) ∧
    (s.fld F.SYS_LC_STATE ≠ 0 → exec (.jtagReset time ok) s = .next u) ∧
    (s.aon.pressed = true → s.aon.stuck = false → s.sys.pfailLow = false → ∃ t, exec (.buttonRelease time ok) s = .next t ∧ warm 7 t) ∧
    (s.sys.pfailLow = true → ∃ t, exec (.pfailRecovered time ok) s = .next t ∧ warm 6 t) ∧
    (s.sys.pfailLow = false → exec (.pfailRecovered time ok) s = .next u)

/-- BUTTON_PRESS of a button that is not stuck notes the press, and always the low level; BUTTON_RELEASE of one that got
stuck, or during a power failure, only ends it. BUTTON_STUCK of a low level sets BTN_STUCK with source 249 and an AON
event; BUTTON_UNSTUCK of a high one clears it. PFAIL_FALL makes source 248 pending, saves the lifetime store where the
save verifies, closes the open disturbance record, copies the recorder's directory to NV and gives up control: an
ACTIVE unit with a READY partner at its next send point. PFAIL_ACCEPT_END, 0.8 ms or more after it, ends the
acceptance of records that are stamped later and changes nothing else. -/
def Obligations.ButtonAndPowerFailure : Prop :=
  ∀ (s : State) (time : Nat) (bad : Option Nat) (ok : Bool),
    (s.aon.stuck = false → s.Answers (.buttonPress time) time fun u t => t = { u with aon := { u.aon with pressed := true, low := true } }) ∧
    (s.aon.pressed = true → s.aon.stuck = true ∨ s.sys.pfailLow = true →
      s.Answers (.buttonRelease time ok) time fun u t => t = { u with aon := { u.aon with pressed := false, low := false } }) ∧
    (s.aon.stuck = false → s.aon.low = true → s.Answers (.buttonStuck time) time fun u t =>
      t.aon = { u.aon with stuck := true } ∧ t.bit F.AON_STAT_BTN_STUCK = true ∧ t.pends 249 = true ∧
        t.fld F.AON_EVT_WPTR_V = (u.fld F.AON_EVT_WPTR_V + 1) % 64 ∧
        Frame ([R.AON_STAT, R.AON_EVT_WPTR] ++ (List.range 8).map (R.AON_EVT_W (u.fld F.AON_EVT_WPTR_V))) [249] [] { u with aon := t.aon } t) ∧
    (s.aon.stuck = true → s.aon.low = false → s.Always (.buttonUnstuck time) time fun u t =>
      t.aon = { u.aon with stuck := false, pressed := false } ∧ t.bit F.AON_STAT_BTN_STUCK = false ∧ Frame [R.AON_STAT] [] [] { u with aon := t.aon } t) ∧
    (s.sys.pfailLow = false → s.Answers (.pfailFall time bad ok) time fun u t =>
      t.sys.pfailLow = true ∧ t.pends 248 = true ∧ t.drc.open' = none ∧ (∀ i, i < 65536 → t.mb (nvDirBase + i) = t.mb (t.drcBase + i)) ∧
        (ok = true → ∃ q, t.aon.newest = some { seq := q, body := u.aon.lt }) ∧
        (u.role = roleActive → u.partnerReady = true → t.rdu.giveUp = true)) ∧
    (s.sys.pfailLow = true → ∀ t0, s.evr.pfail = some t0 → t0 + 800000 ≤ time →
      s.Answers (.pfailAcceptEnd time) time fun u t => t = { u with evr := { u.evr with accepting := false } })

/-- WIPE_COMPLETE of a wipe that runs clears WIPING, makes source 235 pending and lets the recorder start; while the unit
has not selected its image nothing else changes. BOOT_IMAGE_SELECT of a unit that has not selected yet: in MANUFACTURE
and DECOMMISSIONED, without a valid activation word, or where every slot with one fails its verification, no image:
NOIMG with source 244; else the slot with the higher generation that verifies is VALID and ACTIVE and NOIMG is clear,
with FALLBACK and source 244 where it is the second one tried. -/
def Obligations.WipeEndsAndAnImageComesIntoForce : Prop :=
  ∀ (s : State) (time : Nat),
    (s.memu.wipe ≠ .none → s.Answers (.wipeComplete time) time fun u t =>
      t.memu.wipe = .none ∧ t.bit F.MEM_STAT_WIPING = false ∧ t.pends 235 = true ∧ t.drc.ready = true ∧
        (s.sys.booting = true → Frame [R.MEM_STAT] [235] [] { u with memu := t.memu, drc := t.drc } t)) ∧
    (s.sys.booting = true → s.Answers (.bootImageSelect time) time fun u t =>
      let v : State := { u.genShow with sys := { u.sys with booting := false } }
      let none' : Prop := t.bit F.CFC_STAT_NOIMG = true ∧ t.pends 244 = true
      let slot (n : Nat) : Prop := t.bit F.CFC_STAT_NOIMG = false ∧ t.fld F.CFC_STAT_ACTIVE_SLOT = n ∧
        t.bit (F.CFC_SLOT_STAT_ACTIVE n) = true ∧ t.fld (F.CFC_SLOT_STAT_ST n) = 1
      t.sys.booting = false ∧
        (u.fld F.SYS_LC_STATE = 0 ∨ u.fld F.SYS_LC_STATE = 3 ∨ v.bootOrder = [] → none') ∧
        (u.fld F.SYS_LC_STATE = 1 ∨ u.fld F.SYS_LC_STATE = 2 → ∀ n l, v.bootOrder = n :: l →
          (v.verifySlot n = none → slot n) ∧
          (v.verifySlot n ≠ none → l = [] → none') ∧
          (v.verifySlot n ≠ none → ∀ m l', l = m :: l' →
            ((v.slotJudge n).2.verifySlot m = none → slot m ∧ t.bit F.CFC_STAT_FALLBACK = true ∧ t.pends 244 = true) ∧
            ((v.slotJudge n).2.verifySlot m ≠ none → none'))))

/-- WINTER_REQUEST of tile i or cluster bank i whose bit is clear: where the cluster is being re-admitted, an engine that
works on the memory is not masked, or the mirror list names the tile, WIN_REF with source 233; else its bit sets and
the request waits for the next P0 release. WINTER_WAKE of a set bit clears it; a memory in Winter starts to wake.
WINTER_READY of a waking memory sets RDY with source 232. CONF_READ clears MEM_CONFm. PATROL_SCRUB of a word outside
its memories or in Winter changes nothing; a single error counts, an uncorrectable one acts as Table 16.2 says:
message 0x41 with source 230 (record store), tile isolated with message 0x20, cluster isolated with source 226 and
message 0x21, DP_UNC with source 225 (a report is lost, a signal-map word stays uncorrectable until it is written),
source 229 and the keys of the image in force loaded anew (secure store). -/
def Obligations.WinterRequestsWakesAndScrubs : Prop :=
  ∀ (s : State) (time : Nat) (cb : Bool) (i : Fin 32) (m : Fin 16) (addr : BitVec 40), (cb = true → i.val < 8) →
    let c := if cb then i.val else i.val / 4
    let refused : Prop := s.bit (F.TDS_CL_CTL_ADMIT c) = true ∨
      if cb then ∃ e, e < 4 ∧ s.engMask.getLsbD (4 * i.val + e) = false
      else s.engMask.getLsbD i.val = false ∨ ∃ r ∈ s.cfg.mirror.tiles, r.1 = i.val
    let a := addr.toNat
    (s.winBit cb i = false →
      (refused → s.Answers (.winterRequest time cb i) time fun u t =>
        t.bit F.MEM_STAT_WIN_REF = true ∧ t.pends 233 = true ∧ Frame [R.MEM_STAT] [233] [] u t) ∧
      (¬ refused → s.Answers (.winterRequest time cb i) time fun u t =>
        t.winBit cb i = true ∧ (if cb then t.memu.winReqC.getLsbD i.val = true else t.memu.winReqT.getLsbD i.val = true) ∧
          Frame [if cb then R.MEM_WIN_CB else R.MEM_WIN_TILE] [] [] { u with memu := t.memu } t)) ∧
    (s.winBit cb i = true → s.Answers (.winterWake time cb i) time fun u t =>
      t.winBit cb i = false ∧
        (if cb then t.memu.wakingC.getLsbD i.val = (u.memu.wakingC.getLsbD i.val || u.memu.inWinC.getLsbD i.val) ∧ t.memu.inWinC.getLsbD i.val = false
         else t.memu.wakingT.getLsbD i.val = (u.memu.wakingT.getLsbD i.val || u.memu.inWinT.getLsbD i.val) ∧ t.memu.inWinT.getLsbD i.val = false) ∧
        Frame [if cb then R.MEM_WIN_CB else R.MEM_WIN_TILE] [] [] { u with memu := t.memu } t) ∧
    ((if cb then s.memu.wakingC.getLsbD i.val else s.memu.wakingT.getLsbD i.val) = true → s.Answers (.winterReady time cb i) time fun u t =>
      t.winRdy cb i = true ∧ t.pends 232 = true ∧
        Frame [if cb then R.MEM_WIN_RDY_CB else R.MEM_WIN_RDY_TILE] [232] [] { u with memu := t.memu } t) ∧
    (s.Answers (.confRead time m) time fun u t => t.rd (R.MEM_CONF m) = 0 ∧ Frame [R.MEM_CONF m] [] [] { u with hcp := t.hcp } t) ∧
    (∀ e, scrubbed a = false ∨ s.wintered a = true → s.Live → exec (.patrolScrub time addr e) s = .next (s.tick time)) ∧
    (scrubbed a = true → s.wintered a = false →
      (s.Live → exec (.patrolScrub time addr .ok) s = .next (s.tick time)) ∧
      (s.Answers (.patrolScrub time addr .single) time fun u t =>
        if a < 0x200000000 then Counted F.MEM_RS_CORR_CNT_V u t ∧ Frame [R.MEM_RS_CORR_CNT] [228] [] u t
        else Counted F.MEM_SRAM_CORR_CNT_V u t ∧ Frame [R.MEM_SRAM_CORR_CNT] [227] [] u t) ∧
      (s.Answers (.patrolScrub time addr .double) time fun u t =>
        if a < 0x200000000 then t.pends 230 = true ∧ Sent 0x41 u t ∧ Frame [] [230] [0x41] u t
        else if a < 0x201000000 then
          let n := (a - 0x200000000) / 0x40000
          t.fbit (F.TDS_CL_CTL_ISOL (n / 4)) (n % 4) = true ∧ t.engMask.getLsbD n = true ∧ Sent 0x20 u t ∧
            Frame (R.TDS_CL_CTL (n / 4) :: (List.range 8).map R.TDS_Q_STAT) [] [0x20] { u with memu := t.memu, tds := t.tds } t
        else if a < dpramBase then
          t.memu.cluIso.getLsbD ((a - 0x201000000) / 0x200000) = true ∧ t.pends 226 = true ∧ Sent 0x21 u t ∧
            Frame ((List.range 8).map R.TDS_Q_STAT) [226] [0x21] { u with memu := t.memu, tds := t.tds } t
        else if a < secBase then
          Counted F.MEM_DP_UNC_CNT_V u t ∧ t.bit F.MEM_STAT_DP_UNC = true ∧ t.pends 225 = true ∧
            (a < dpramBase + 0x40000 → spGet none t.reports ((a - dpramBase) / 32) = none) ∧
            (dpramBase + 0x40000 ≤ a → a < dpramBase + 0x50000 → spGet false t.sigUnc ((a - dpramBase - 0x40000) / 4) = true) ∧
            Frame [R.MEM_DP_UNC_CNT, R.MEM_STAT] [225] [] { u with reports := t.reports, sigUnc := t.sigUnc } t
        else t.pends 229 = true ∧ (s.imageOn = true → s.memu.keysWiped = false → t.mbytes secBase (u.activeKeys.take 0x40000).length = u.activeKeys.take 0x40000)))

/-- TAMPER of an enabled input on a die that runs sets its latch, wipes the secure store and nothing else of memory, sets
WIPING, closes privilege and makes source 234 pending; of an input that is not enabled it changes nothing.
PRIV_KEY_RELOAD after it writes K_PRIV of the image in force and nothing else of memory. TAMP_CLEAR with privilege
clears the bits written; once no latch bit is left, with an image in force, the secure store holds that image's keys
again; without privilege it changes nothing. UNPOWERED_TAMPER with the supplies absent sets the latch and UNPWR. -/
def Obligations.TamperWipesKeysAndPrivilege : Prop :=
  ∀ (s : State) (time : Nat) (i : Fin 4) (m : Acc) (v : BitVec 32),
    let loads (bs : List Byte) (a : Nat) (u t : State) : Prop :=
      t.mbytes a bs.length = bs ∧ ∀ b, b < a ∨ a + bs.length ≤ b → t.mb b = u.mb b
    (s.fbit F.MEM_TAMP_CFG_EN i = false → s.Always (.tamper time i) time fun u t => t = u) ∧
    (s.fbit F.MEM_TAMP_CFG_EN i = true → s.Answers (.tamper time i) time fun u t =>
      t.fbit F.MEM_TAMP_STAT_LATCH i = true ∧ t.bit F.MEM_STAT_WIPING = true ∧ t.bit F.SYS_PRIV_OPEN = false ∧ t.pends 234 = true ∧
        t.memu.keysWiped = true ∧ (∀ a, t.mb a = if secBase ≤ a ∧ a < secBase + 0x40000 then memDefault a else u.mb a)) ∧
    (s.memu.privPend = true → s.imageOn = true → s.Answers (.privKeyReload time) time fun u t =>
      loads (keyPart u.activeKeys 0x820 32) (secBase + 0x820) u t ∧ t.memu.privPend = false ∧
        Frame [] [] [] { u with mem := t.mem, memu := t.memu } t) ∧
    (s.priv m = false → s.Live → exec (.tampClear time m v) s = .next (s.tick time)) ∧
    (s.priv m = true → s.Answers (.tampClear time m v) time fun u t =>
      let x := u.rd R.MEM_TAMP_STAT &&& ~~~v
      t.rd R.MEM_TAMP_STAT = x ∧
        (F.MEM_TAMP_STAT_LATCH.get x ≠ 0 → Frame [R.MEM_TAMP_STAT] [] [] u.touchPriv t) ∧
        (F.MEM_TAMP_STAT_LATCH.get x = 0 → u.memu.keysWiped = true → t.memu.keysWiped = false ∧
          (u.imageOn = true → loads (u.activeKeys.take 0x40000) secBase u t))) ∧
    (s.unpowered = true → s.Always (.unpoweredTamper time i) time fun u t =>
      t.fbit F.MEM_TAMP_STAT_LATCH i = true ∧ t.bit F.MEM_TAMP_STAT_UNPWR = true ∧ Frame [R.MEM_TAMP_STAT] [] [] u t)

/-- Of every transaction of the host port (a WRITE has 1 to 64 words): while a long EXEC runs it is answered BUSY, counted
in HCP_BUSY_CNT with source 247; one whose CRC-8 does not verify is counted in HCP_CRC_CNT with source 247; nothing
else changes. CS_N_EARLY_RISE counts in HCP_CRC_CNT alone. A verified READ of readable memory without errors answers
its words, and of a register its value; a verified WRITE stores its words in memory that the host owns and nowhere
else, or writes the register; PRIV answers an unprivileged write that touches a privileged field. An access to the
secure store reads 0, sets ACC_ERR and counts with source 237; one outside every range is answered ADDR. A WRITE that
loses its word to a port-A write leaves it, counts in MEM_DP_LOST_CNT and sets LOST_WRITE with source 224. EXEC_NOP
answers OK. -/
def Obligations.TransactionsVerifyBeforeTheyAct : Prop :=
  ∀ (s : State) (time : Nat) (addr : BitVec 40) (n : Fin 64) (crc : BitVec 8) (w : BitVec 32) (ws : List (BitVec 32)),
    let a := addr.toNat
    let refused (cnt : RF) (st : BitVec 8) (u t : State) : Prop := Counted cnt u t ∧ t.pends 247 = true ∧ t.hcp.resp.status = st ∧
      t.hcp.resp.words = [] ∧ Frame [cnt.addr] [247] [] { u with hcp := { u.hcp with resp := t.hcp.resp } } t
    let readable (v : State) (b : Nat) : Prop := hostMem b = true ∧ v.wintered b = false ∧ unlaid b = false
    let owned (v : State) (b : Nat) : Prop := hostMem b = true ∧ v.wintered b = false ∧ b < nvBase ∧ (b < dpramBase ∨ dpramBase + 0x60000 ≤ b)
    (∀ c bs x, hostBytes c = some (bs, x) → operandsOk c = true → c.time = some time →
      (s.hcp.long.isSome = true → s.Answers c time (refused F.HCP_BUSY_CNT_V hsBusy)) ∧
      (s.hcp.long = none → crc8 bs ≠ x → s.Answers c time (refused F.HCP_CRC_CNT_V hsCrc))) ∧
    (s.Answers (.csEarlyRise time) time fun u t => Counted F.HCP_CRC_CNT_V u t ∧ Frame [R.HCP_CRC_CNT] [] [] u t) ∧
    (s.Takes (.execNop time crc) time fun v t => t = v.respond hsOk []) ∧
    (s.Takes (.read time addr n [] crc) time fun v t =>
      ((∀ i, i ≤ n.val → readable v (a + 4 * i)) → t = v.respond hsOk ((List.range (n.val + 1)).map fun i => v.hostWord (a + 4 * i))) ∧
      (n = 0 → ∀ o, regOffset a = some o → t = (v.regRead o).2.respond hsOk [(v.regRead o).1]) ∧
      (n = 0 → inSecure a = true → t.hcp.resp.words = [0] ∧ Counted F.MEM_ACC_ERR_CNT_V v t ∧ t.bit F.MEM_STAT_ACC_ERR = true ∧ t.pends 237 = true) ∧
      (n = 0 → hostMem a = false → inSecure a = false → regOffset a = none → t = v.respond hsAddr [0])) ∧
    (ws ≠ [] → ws.length ≤ 64 → s.Takes (.write time addr ws false crc) time fun v t =>
      (∀ i, i < ws.length → owned v (a + 4 * i)) → t.hcp.resp.status = hsOk ∧ (∀ i, i < ws.length → t.mw (a + 4 * i) = ws.getD i 0) ∧
        StoreFrame (fun b => a ≤ b ∧ b < a + 4 * ws.length) [] [] [] { v with hcp := t.hcp } t) ∧
    (s.Takes (.write time addr [w] false crc) time fun v t =>
      (∀ o, regOffset a = some o → o % 4 = 0 →
        t = (v.regWrite .host o w).respond (if v.privField o w && !v.bit F.SYS_PRIV_OPEN then hsPriv else hsOk) []) ∧
      (inSecure a = true → SameMem v t ∧ Counted F.MEM_ACC_ERR_CNT_V v t ∧ t.bit F.MEM_STAT_ACC_ERR = true ∧ t.pends 237 = true) ∧
      (hostMem a = false → inSecure a = false → regOffset a = none → t = v.respond hsAddr [])) ∧
    (s.Takes (.write time addr [w] true crc) time fun v t => portA a = true → Counted F.MEM_DP_LOST_CNT_V v t ∧
      t.bit F.MEM_STAT_LOST_WRITE = true ∧ t.pends 224 = true ∧ SameMem v t ∧ t.sigHost = v.sigHost ∧ t.reports = v.reports)

/-- Without privilege (LOAD and SWITCH need none without an image) the EXECs answer PRIV and change nothing; a LOAD of a
wrong length is REFUSED with CODE 15; otherwise in PROVISIONED and OPERATIONAL each starts as a long EXEC (UPDATE with
an image, no bar and the DRC not armed by it). LOAD_COMPLETE copies the staging buffer into the inactive slot, no
other byte but that slot's, marks it VALID or INVALID and ends. SWITCH_VERIFIED of a slot that fails, or that R375
bars, ends REFUSED; a late N without LATE_OK ends LATE; else the switch is pending, a late one for the next cycle.
SWITCH_INSTANT in its cycle puts the slot in force; ACTIVATION_WORD_WRITTEN writes its generation and complement,
source 242, and ends the EXEC. UPDATE_COMPLETE of a slot that verifies and is not barred activates it, waits for the
P0 release and ends OK with source 243; of one that fails it ends REFUSED. -/
def Obligations.ImageExecsLoadSwitchAndUpdate : Prop :=
  ∀ (s : State) (time : Nat) (arg : BitVec 64) (crc : BitVec 8),
    let open' (v : State) : Prop := v.bit F.SYS_PRIV_OPEN = true
    let noimg (v : State) : Prop := v.bit F.CFC_STAT_NOIMG = true
    let lcOk (v : State) : Prop := v.fld F.SYS_LC_STATE ≠ 0 ∧ v.fld F.SYS_LC_STATE ≠ 3
    (s.Takes (.load time arg crc) time fun v t =>
      (¬ noimg v → ¬ open' v → t = v.respond hsPriv []) ∧
      (noimg v ∨ open' v → (¬ lcOk v → t = v.respond hsRefused []) ∧
        (lcOk v → (imgMax < arg.toNat ∨ arg.toNat ≠ v.imgLen stagingBase) → t.hcp.resp.status = hsRefused ∧ t.fld F.CFC_ERR_CODE = 15 ∧ t.hcp.long = none) ∧
        (lcOk v → arg.toNat ≤ imgMax → arg.toNat = v.imgLen stagingBase →
          LongStarted 1 arg t ∧ Frame [R.HCP_STAT] [] [] { v with hcp := t.hcp } t))) ∧
    (s.Takes (.switch time arg crc) time fun v t =>
      (¬ noimg v → ¬ open' v → t = v.respond hsPriv []) ∧
      (noimg v ∨ open' v → (¬ lcOk v → t = v.respond hsRefused []) ∧
        (lcOk v → LongStarted 2 arg t ∧ Frame [R.HCP_STAT] [] [] { v with hcp := t.hcp } t))) ∧
    (s.Takes (.update time arg crc) time fun v t =>
      (¬ open' v → t = v.respond hsPriv []) ∧
      (open' v → lcOk v → ¬ noimg v → v.imgLen (slotBase v.activeSlot) + arg.toNat ≤ imgMax → arg.toNat = v.imgLen stagingBase →
        v.updateBar stagingBase = none → v.updateArmed stagingBase = false →
        LongStarted 3 arg t ∧ Frame [R.HCP_STAT] [] [] { v with hcp := t.hcp } t)) ∧
    (s.longArg 1 = some arg → arg.toNat ≤ imgMax → s.Answers (.loadComplete time) time fun u t =>
      let n := u.otherSlot
      let w := (u.eraseSlot n).copyMem stagingBase (slotBase n) arg.toNat
      (∀ i, i < arg.toNat → t.mb (slotBase n + i) = u.mb (stagingBase + i)) ∧
        (∀ a, a < slotBase n ∨ actWord n ≤ a → t.mb a = u.mb a) ∧ t.activeSlot = u.activeSlot ∧
        (w.verifySlot n = none → t.fld (F.CFC_SLOT_STAT_ST n) = 1 ∧ LongEnded 1 hsOk t) ∧
        (∀ e, w.verifySlot n = some e → t.fld (F.CFC_SLOT_STAT_ST n) = 2 ∧ t.fld F.CFC_ERR_CODE = e.code % 256 ∧ t.pends 241 = true ∧ LongEnded 1 hsRefused t)) ∧
    (s.longArg 2 = some arg → s.cfc.pend = none → s.cfc.act = none → s.Answers (.switchVerified time) time fun u t =>
      let n := u.otherSlot
      let w := (u.slotJudge n).2
      let k := fullCycle w.cycNow (arg.extractLsb' 32 32)
      SameMem u t ∧
        (u.verifySlot n ≠ none → t.fld (F.CFC_SLOT_STAT_ST n) = 2 ∧ t.cfc.pend = none ∧ LongEnded 2 hsRefused t) ∧
        (u.verifySlot n = none → t.fld (F.CFC_SLOT_STAT_ST n) = 1 ∧
          (∀ c, w.switchBar (w.slotImg n) k = some c → t.fld F.CFC_ERR_CODE = c % 256 ∧ t.cfc.pend = none ∧ LongEnded 2 hsRefused t) ∧
          (w.switchBar (w.slotImg n) k = none → k * u.tc < u.now + 2 * u.tc → arg.getLsbD 0 = false →
            t.fld F.CFC_STAT_SW_ST = 2 ∧ t.cfc.pend = none ∧ LongEnded 2 hsLate t) ∧
          (w.switchBar (w.slotImg n) k = none → k * u.tc < u.now + 2 * u.tc → arg.getLsbD 0 = true →
            t.cfc.pend = some (u.cycNow + 1, true) ∧ t.bit F.CFC_STAT_SW_PEND = true ∧ t.fld F.CFC_STAT_SW_ST = 3) ∧
          (w.switchBar (w.slotImg n) k = none → u.now + 2 * u.tc ≤ k * u.tc →
            t.cfc.pend = some (k, false) ∧ t.bit F.CFC_STAT_SW_PEND = true ∧ t.rd R.CFC_SW_CYC = BitVec.ofNat 32 k))) ∧
    (∀ k late, s.cfc.pend = some (k, late) → time = k * s.tc + s.p0Ofs → s.Answers (.switchInstant time) time fun u t =>
      t.activeSlot = u.otherSlot ∧ t.bit F.CFC_STAT_NOIMG = false ∧ t.bit F.CFC_STAT_SW_PEND = false ∧ t.cfc.pend = none ∧
        t.fld F.CFC_STAT_SW_ST = (if late then 3 else 1) ∧ t.cfc.act = some (if late then hsLateExec else hsOk)) ∧
    (∀ st l, s.cfc.act = some st → s.hcp.long = some l → s.Answers (.activationWordWritten time) time fun u t =>
      t.genOf u.activeSlot = some ((u.maxGen + 1) % 2 ^ 64) ∧ t.pends 242 = true ∧ t.cfc.act = none ∧ LongEnded (l.code % 256) st t ∧
        ∀ a, a < actWord u.activeSlot ∨ actWord u.activeSlot + 16 ≤ a → t.mb a = u.mb a) ∧
    (s.longArg 3 = some arg → s.Answers (.updateComplete time) time fun u t =>
      let n := u.otherSlot
      let base := u.imgLen (slotBase u.activeSlot)
      let w := ((u.eraseSlot n).copyMem (slotBase u.activeSlot) (slotBase n) base).copyMem stagingBase (slotBase n + base) arg.toNat
      (∀ e, w.updateErr n = some e → t.activeSlot = u.activeSlot ∧ t.fld (F.CFC_SLOT_STAT_ST n) = 2 ∧ t.fld F.CFC_ERR_CODE = e.code % 256 ∧
        t.pends 241 = true ∧ LongEnded 3 hsRefused t) ∧
      (w.updateErr n = none → w.updateBar (slotBase n + base) = none → w.updateArmed (slotBase n + base) = false →
        t.activeSlot = n ∧ t.cfc.live = true ∧ t.pends 243 = true ∧ LongEnded 3 hsOk t))

/-- CAL starts the self-calibration. CAL_COMPLETE after 18 ms ends it OK with source 132: each enabled channel whose slot
has not been judged yet, and each SAR, whose offset is within 41,943 and whose gain factor lies in 0.98 to 1.02 takes
OCAL := -raw and its GCAL with CAL_VALID; one that fails keeps its factors, loses CAL_VALID and sets CAL_FAIL.
LOG_CLEAR needs privilege and sets CLEARING; LOG_CLEAR_COMPLETE without a failed erase clears it with DEGRADED and
FULL, leaves one record and nothing behind it, source 206, OK; with one it sets DEGRADED with source 200 and ends
REFUSED. EXPORT of an entry that is not closed, or lost, is REFUSED; else EXPORT_COMPLETE marks the entry EXPORTING,
shows its first segment and measurement block with READY, and ends OK. RECAL of an enabled channel 0 to 11 while
nothing is calibrated starts it, else sets CFG_ERR; RECAL_COMPLETE after 1.5 ms judges the channel in the same way
with source 133. -/
def Obligations.CalibrationLogAndExportExecs : Prop :=
  ∀ (s : State) (time : Nat) (arg : BitVec 64) (crc : BitVec 8) (raws sars : List (Int × Int)) (bad : Nat) (badMark : Bool) (ch : Fin 16) (r : Int × Int),
    let gain (r : Int × Int) : BitVec 32 := frat32 (if r.2 - r.1 < 0 then -6710886 else 6710886) (r.2 - r.1).natAbs
    let passes (r : Int × Int) : Prop := r.1.natAbs ≤ 41943 ∧ r.2 ≠ r.1 ∧ fltRat (gain r) 98 100 = false ∧ fltRat (fneg32 (gain r)) (-102) 100 = false
    let judged (c : Nat) (r : Int × Int) (u t : State) : Prop :=
      (passes r → t.rd (gcalReg c) = gain r ∧ t.rd (ocalReg c) = (BitVec.ofInt 24 (-r.1)).setWidth 32 ∧ t.fbit F.MSU_CAL_STAT_CAL_VALID c = true) ∧
      (¬ passes r → t.rd (gcalReg c) = u.rd (gcalReg c) ∧ t.rd (ocalReg c) = u.rd (ocalReg c) ∧ t.fbit F.MSU_CAL_STAT_CAL_VALID c = false ∧
        t.bit F.MSU_CAL_STAT_CAL_FAIL = true)
    let e (v : State) : DirEnt := v.dir (arg.toNat % 1024)
    (s.Takes (.cal time ⟨crc, raws⟩) time fun v t =>
      LongStarted 4 0 t ∧ t.msu = { v.msu with cal := some v.mono, calRaws := raws, calDone := 0 } ∧ t.bit F.MSU_CAL_STAT_BUSY = true ∧
      Frame [R.HCP_STAT, R.MSU_CAL_STAT] [] [] { v with hcp := t.hcp, msu := t.msu } t) ∧
    (∀ t0, (s.longArg 4).isSome = true → s.msu.cal = some t0 → t0 + 18000000 ≤ (s.tick time).mono → s.Answers (.calComplete time sars) time fun u t =>
      LongEnded 4 hsOk t ∧ t.msu.cal = none ∧ t.bit F.MSU_CAL_STAT_BUSY = false ∧ t.pends 132 = true ∧ SameMem u t ∧
        ∀ c, c < 14 → (12 ≤ c ∨ (s.msu.calDone ≤ c ∧ cfgEn (u.rd (dsCfg c)) = true)) → judged c (if c < 12 then s.msu.calRaws.getD c (0, 0) else sars.getD (c - 12) (0, 0)) u t) ∧
    (s.Takes (.logClear time crc) time fun v t =>
      (v.bit F.SYS_PRIV_OPEN = false → t = v.respond hsPriv []) ∧
      (v.bit F.SYS_PRIV_OPEN = true → LongStarted 6 0 t ∧ t.bit F.EVR_STAT_CLEARING = true ∧
        Frame [R.HCP_STAT, R.EVR_STAT] [] [] { v with hcp := t.hcp } t)) ∧
    ((s.longArg 6).isSome = true → s.Answers (.logClearComplete time {}) time fun u t =>
      LongEnded 6 hsOk t ∧ t.bit F.EVR_STAT_CLEARING = false ∧ t.bit F.EVR_STAT_DEGRADED = false ∧ t.bit F.EVR_STAT_FULL = false ∧
        t.fld F.EVR_WPTR_V = 1 ∧ (∀ i, 1 ≤ i → i ≤ lastSlot → t.slot i = logErased) ∧ t.pends 206 = true ∧ SameMem u t) ∧
    ((s.longArg 6).isSome = true → s.Answers (.logClearComplete time ⟨some bad, badMark⟩) time fun u t =>
      LongEnded 6 hsRefused t ∧ t.bit F.EVR_STAT_CLEARING = false ∧ t.bit F.EVR_STAT_DEGRADED = true ∧ t.pends 200 = true ∧
        (∀ i, bad < i → i ≤ lastSlot → t.slot i = logErased) ∧ SameMem u t) ∧
    (s.Takes (.exportExec time arg crc) time fun v t =>
      ((e v).has fClosed = false ∨ (e v).has fLost = true → t = (v.setBit F.DRC_EXP_STAT_REFUSED true).respond hsRefused []) ∧
      ((e v).has fClosed = true → (e v).has fLost = false → LongStarted 7 arg t ∧ Frame [R.HCP_STAT] [] [] { v with hcp := t.hcp } t)) ∧
    (s.longArg 7 = some arg → (e s).has fClosed = true → (e s).has fLost = false → s.Answers (.exportComplete time) time fun u t =>
      let i := arg.toNat % 1024
      LongEnded 7 hsOk t ∧ t.mbytes (u.drcBase + 64 * i) 64 = (((e u).with' fExporting true).with' fTorn false).bytes ∧ t.bit F.DRC_EXP_STAT_READY = true ∧
        t.fld F.DRC_EXP_STAT_ENTRY = i ∧ t.fld (F.DRC_EXP_SEG_ADDR_V 0) = (u.drcStream + (e u).startOfs) / 8 % 2 ^ 30 ∧
        ((e u).startOfs ≤ (e u).stopOfs → t.fld (F.DRC_EXP_SEG_LEN_V 0) = ((e u).stopOfs - (e u).startOfs) / 8 % 2 ^ 30 ∧ t.fld (F.DRC_EXP_SEG_LEN_V 1) = 0) ∧
        t.fld F.DRC_EXP_MEAS_V = u.drcMeas i / 8 % 2 ^ 30) ∧
    (s.Answers (.recal time ch) time fun u t => t.fld F.MSU_CAL_CTL_CH = ch ∧
      (let ok : Prop := ch.val ≤ 11 ∧ u.msu.cal = none ∧ u.msu.recal = none ∧ cfgEn (u.rd (dsCfg ch)) = true
       (ok → t.msu.recal = some (ch.val, u.mono) ∧ t.bit F.MSU_CAL_STAT_BUSY = true ∧
          Frame [R.MSU_CAL_CTL, R.MSU_CAL_STAT] [] [] { u with msu := t.msu } t) ∧
       (¬ ok → t.bit F.MSU_STAT_CFG_ERR = true ∧ Frame [R.MSU_CAL_CTL, R.MSU_STAT] [144] [] u t))) ∧
    ∀ c t0, s.msu.recal = some (c, t0) → c < 12 → t0 + 1500000 ≤ (s.tick time).mono → s.Answers (.recalComplete time r.1 r.2) time fun u t =>
      judged c r u t ∧ t.msu.recal = none ∧ t.bit F.MSU_CAL_STAT_BUSY = false ∧ t.pends 133 = true ∧ cfgOrder (u.ds c).eff ≤ (t.ds c).settle ∧ SameMem u t

/-- EXEC LC without privilege, an image and outside MANUFACTURE answers PRIV; a transition that Table 17.12 does not have
is REFUSED; an allowed one brings SAFE BLOCK, role INIT, no image, privilege closed, WIPING, volatile memory and both
configuration slots wiped (all of NV too on the way to DECOMMISSIONED), and starts as a long EXEC; leaving MANUFACTURE
writes the fuses. LC_COMPLETE after the wipe enters the state with source 246. PRIV_OPEN with the tag of the present
nonce opens privilege and clears FAILS with source 245; a wrong one is REFUSED and counts, the fifth in a row sets
LOCKOUT with source 245; under LOCKOUT it is answered so. PRIV_CLOSE and a PRIV_TIMEOUT that is due close it with
source 245; LOCKOUT_EXPIRY after 60 s ends LOCKOUT and clears FAILS. -/
def Obligations.LifeCycleAndPrivilege : Prop :=
  ∀ (s : State) (time : Nat) (arg : BitVec 64) (tag : BitVec 128) (crc : BitVec 8),
    let b := arg.toNat % 4
    (s.Takes (.lc time arg crc) time fun v t =>
      let st := v.fld F.SYS_LC_STATE
      let may : Prop := v.bit F.CFC_STAT_NOIMG = true ∨ st = 0 ∨ v.bit F.SYS_PRIV_OPEN = true
      (¬ may → t = v.respond hsPriv []) ∧ (may → lcAllowed st b = false → t = v.respond hsRefused []) ∧
      (may → lcAllowed st b = true →
        LongStarted 5 arg t ∧ t.sfiState = stBlock ∧ t.role = roleInit ∧ t.bit F.CFC_STAT_NOIMG = true ∧ t.bit F.SYS_PRIV_OPEN = false ∧
          t.bit F.MEM_STAT_WIPING = true ∧ t.fld F.SYS_LC_STATE = st ∧
          (∀ a, t.mb a = if b = 3 ∨ a < nvBase + 0x1800000 then memDefault a else v.mb a) ∧
          (st = 0 → t.aon.signerHash = some (BitVec.ofNat 384 (beNat (v.mbytes stagingBase 48))) ∧
            t.aon.safetyHash = some (BitVec.ofNat 384 (beNat (v.mbytes (stagingBase + 48) 48))) ∧
            t.aon.kDev = some (BitVec.ofNat 256 (beNat (v.mbytes (stagingBase + 96) 32)))))) ∧
    (s.longArg 5 = some arg → s.Answers (.lcComplete time) time fun u t =>
      (u.memu.wipe ≠ .none → t = u) ∧
      (u.memu.wipe = .none → t.fld F.SYS_LC_STATE = b ∧ t.pends 246 = true ∧ LongEnded 5 hsOk t ∧ SameMem u t ∧
        (b = 3 → ∀ l, l < 72 → t.bit (F.LPH_LANE_STAT_TX_ACTIVE l) = false))) ∧
    (s.Takes (.privOpen time tag crc) time fun v t =>
      let regs := [R.SYS_PRIV, R.SYS_PRIV_NONCE_LO, R.SYS_PRIV_NONCE_HI]
      (v.bit F.SYS_PRIV_LOCKOUT = true → t.hcp.resp.status = hsLockout ∧ Frame regs [] [] { v with hcp := t.hcp } t ∧ t.rd R.SYS_PRIV = v.rd R.SYS_PRIV) ∧
      (v.bit F.SYS_PRIV_LOCKOUT = false → tag = v.privTag → t.hcp.resp.status = hsOk ∧ t.bit F.SYS_PRIV_OPEN = true ∧ t.fld F.SYS_PRIV_FAILS = 0 ∧
        t.hcp.lastPriv = v.mono ∧ t.pends 245 = true ∧ Frame regs [245] [] { v with hcp := t.hcp } t) ∧
      (v.bit F.SYS_PRIV_LOCKOUT = false → tag ≠ v.privTag → t.hcp.resp.status = hsRefused ∧ Counted F.SYS_PRIV_FAILS v t ∧
        t.bit F.SYS_PRIV_OPEN = v.bit F.SYS_PRIV_OPEN ∧ (v.fld F.SYS_PRIV_FAILS < 4 → t.bit F.SYS_PRIV_LOCKOUT = false) ∧
        (4 ≤ v.fld F.SYS_PRIV_FAILS → t.bit F.SYS_PRIV_LOCKOUT = true ∧ t.pends 245 = true))) ∧
    (s.Takes (.privClose time crc) time fun v t => t.hcp.resp.status = hsOk ∧ t.bit F.SYS_PRIV_OPEN = false ∧
      (v.bit F.SYS_PRIV_OPEN = true → t.pends 245 = true) ∧ Frame [R.SYS_PRIV] [245] [] { v with hcp := t.hcp } t) ∧
    (s.bit F.SYS_PRIV_OPEN = true → s.hcp.lastPriv + s.fld F.SYS_PRIV_TMO_V * 10 ^ 9 ≤ (s.tick time).mono →
      s.Answers (.privTimeout time) time fun u t => t.bit F.SYS_PRIV_OPEN = false ∧ t.pends 245 = true ∧ Frame [R.SYS_PRIV] [245] [] u t) ∧
    (s.bit F.SYS_PRIV_LOCKOUT = true → s.hcp.lockAt + 60 * 10 ^ 9 ≤ (s.tick time).mono →
      s.Answers (.lockoutExpiry time) time fun u t => t.bit F.SYS_PRIV_LOCKOUT = false ∧ t.fld F.SYS_PRIV_FAILS = 0 ∧ Frame [R.SYS_PRIV] [] [] u t)

/-- CYCLE_START at a multiple of Tc of a started unit whose cycles run shows the cycle number in TBU_CYCLE and the lease
it starts with; a port that originates in the cycle sends its collect frame, behind it IDENT where one was asked for,
else TSTAMP in every fourth cycle, and the others send nothing upstream. At another moment it has no effect.
P0_RELEASE at the P0 of a cycle that has no computation yet releases P0 where the fabric is idle (PH_DONE 0xFFFF,
RANK_DONE 0); where it is busy the computation waits and a phase-late event for phase 0 counts, with source 105.
PHASE_RELEASE at a boundary whose previous phase was complete in time releases the phase; where not, that phase is
late once, with source 105. PHASE_COMPLETE of the running phase with nothing left in it records min(0xFFFF, time since
P0) and completes it. At the send point before t_n the computation of sample n - 2 ends: RUN of overruns is 0 where P7
was complete in time, else OVR, OVR_CNT and RUN count, source 104; a holder decides its frame for cycle n + 1.
DOWN_FRAME_SEND at t_(j-1) sends the frames decided for cycle j once, on rings with a key session for it (without one
nothing leaves: log entry 114), a relayed one as built at the send point. -/
def Obligations.CyclesPhasesAndSendPoints : Prop :=
  ∀ (s : State) (time : Nat) (n : Fin 8),
    (s.Answers (.cycleStart time) time fun u t =>
      let due : Prop := time % u.tc = 0 ∧ u.cyc.resume ≤ time ∧ u.sys.booting = false
      (¬ due → t = u) ∧
      (due → t.cyc = { u.cyc with started := time / u.tc } ∧ t.rd R.TBU_CYCLE = cyc32 (time / u.tc) ∧ t.apw.lease = u.leaseHeld ∧
        Frame [R.TBU_CYCLE, R.TBU_STAT] [150, 151, 152] [] { u with cyc := t.cyc, tbu := t.tbu, ports := t.ports, ltx := t.ltx, apw := t.apw } t ∧
        ∀ r, r < 64 → (t.port r).askedIdent = none ∧
          (u.originates r (time / u.tc) = false → (t.port r).txUp = [] ∧ (t.port r).txOp = []) ∧
          (u.originates r (time / u.tc) = true → (t.port r).txUp = u.buildUp r (time / u.tc) ftCollect (u.ncfg r) ∧
            (∀ m, (u.port r).askedIdent = some m → (t.port r).txOp = u.buildUp r (time / u.tc) ftIdent m) ∧
            ((u.port r).askedIdent = none → (t.port r).txOp =
              if time / u.tc % 4 = 0 then u.buildUp r (time / u.tc) ftTstamp (u.ncfg r) else [])))) ∧
    (s.Answers (.p0Release time) time fun u t =>
      let k := time / u.tc - 1
      let due : Prop := u.imageOn = true ∧ u.tc ≤ time ∧ u.p0Due time k = true ∧ u.cyc.resume ≤ k * u.tc ∧ ∀ c ∈ u.cyc.comps, c.k ≠ k
      (¬ due → t = u) ∧
      (due → u.role = roleInit → t.sigGet 0x1160 = BitVec.ofNat 32 k ∧ t.cyc.comps = u.cyc.comps) ∧
      (due → u.role ≠ roleInit → u.fabricIdle = true → t.fld F.TDS_RANK_DONE_T = 0 ∧ (∀ i, i < 8 → t.fld (F.TDS_PH_DONE_T_DONE i) = 0xFFFF) ∧
        ∃ c ∈ t.cyc.comps, c.k = k ∧ c.p0 = time ∧ c.p0At = some time ∧ c.rel = 1 ∧ c.done = 0) ∧
      (due → u.role ≠ roleInit → u.fabricIdle = false → Counted F.TDS_PLATE_CNT_V u t ∧ t.bit F.TDS_DLM_STAT_PLATE = true ∧
        t.fld F.TDS_DLM_STAT_LATE_PHASE = 0 ∧ t.pends 105 = true ∧
        Frame [R.TDS_PLATE_CNT, R.TDS_DLM_STAT] [105] [0x23] { u with cyc := { u.cyc with comps := u.cyc.comps ++ [{ k := k, p0 := time }] } } t)) ∧
    (∀ c, n.val ≠ 0 → s.cyc.comps.find? (fun c => time == c.p0 + s.bOfs n) = some c → s.Answers (.phaseRelease time n) time fun u t =>
      let inTime : Prop := c.p0At.isSome = true ∧ c.done = n.val ∧ c.doneAt < time
      let v := if n.val = 6 then u.rankLate else u
      (n.val < c.rel → t = v) ∧
      (c.rel ≤ n.val → inTime → ∃ c' ∈ t.cyc.comps, c'.k = c.k ∧ c'.rel = n.val + 1 ∧ c'.done = c.done) ∧
      (c.rel ≤ n.val → ¬ inTime → n.val ≤ c.late → t = v) ∧
      (c.rel ≤ n.val → ¬ inTime → c.late < n.val → Counted F.TDS_PLATE_CNT_V u t ∧ t.bit F.TDS_DLM_STAT_PLATE = true ∧
        t.fld F.TDS_DLM_STAT_LATE_PHASE = n.val - 1 ∧ t.pends 105 = true ∧
        Frame [R.TDS_PLATE_CNT, R.TDS_DLM_STAT] [105] [0x23] { u with cyc := t.cyc } t)) ∧
    (∀ c, s.curComp = some c → c.rel = n.val + 1 → c.done = n.val → s.phaseIdle n = true → s.Answers (.phaseComplete time n) time fun _ t =>
      t.fld (F.TDS_PH_DONE_T_DONE n) = min 0xFFFF (time - c.p0At.getD time) ∧
        ∃ c' ∈ t.cyc.comps, c'.k = c.k ∧ c'.done = n.val + 1 ∧ c'.doneAt = time) ∧
    (s.Answers (.sendPoint time) time fun u t =>
      let m := (time + 140) / u.tc
      let due : Prop := (time + 140) % u.tc = 0 ∧ 2 ≤ m ∧ u.cyc.resume ≤ time ∧ u.sys.booting = false
      let good (c : Comp) : Bool := c.done == 8 && decide (c.doneAt < time) && !c.masked
      let found := u.cyc.comps.find? (fun c => c.k == m - 2)
      (¬ due → t = u) ∧
      (due → (∀ c ∈ t.cyc.comps, c.k ≠ m - 2) ∧
        (∀ c, found = some c → good c = true → t.fld F.TDS_DLM_STAT_RUN = 0) ∧
        (∀ c, found = some c → good c = false →
          t.bit F.TDS_DLM_STAT_OVR = true ∧ Counted F.TDS_OVR_CNT_V u t ∧ Counted F.TDS_DLM_STAT_RUN u t ∧ t.pends 104 = true) ∧
        (u.role = roleActive → u.rdu.backToInit = false → u.rdu.giveUp = false → u.rdu.eqxN ≠ some m → u.rdu.sendFrom ≤ m →
          t.cyc.frame = some (m + 1, found.any (fun c => !good c))))) ∧
    s.Answers (.downFrameSend time) time fun u t =>
      (u.cyc.frame = none → t = u) ∧
      ∀ j ovr, u.cyc.frame = some (j, ovr) →
        (time ≠ (j - 1) * u.tc ∨ u.role = roleInit → t = u) ∧
        (time = (j - 1) * u.tc → u.role ≠ roleInit →
          Frame [] [] [] { u with cyc := { u.cyc with frame := none }, ports := t.ports, ltx := t.ltx } t ∧
          ∀ r, r ∈ u.rings → u.sendsTime r = true → (t.port r).txDown =
            if ((u.port r).sessFor j).isNone then []
            else match u.rdu.txRelay.find? (fun x => x.1 == r) with
              | some x => x.2.drop 1
              | none => (u.buildDown r j ovr).1)

/-- RANK_COMPLETE while a computation runs whose P7 is not released notes whether the arm was ranked before B6, and shows
the latest completion in RANK_DONE. A write to MDU_AUX with a CMDX other than NONE or 5 to 7, for a configured
position, while the queue is not full, joins the queue, with DEPTH and FULL; any other sets AUX_REJ. CLU_COMMIT marks
the slots of its mask and sets COMMIT_PEND, PRESET marks its slot. SCH_ARM of a cycle less than 2 Tc ahead without
LATE_OK ends with SCH_ST 2 and source 117; else the step waits with ARM set, for the cycle asked for or, late, for the
next one. TIME_STEP at a cycle start, with a step due, moves the count by the offset rounded to ns (log entry 7 at the
half), counts it, ends LOCK, with sources 149 and (where LOCK was set) 152; pending actions end and the cycles start
anew at the first multiple of Tc; without one, or elsewhere, it has no effect. -/
def Obligations.RankersTheAuxQueueAndTheCluTakeCommands : Prop :=
  ∀ (s : State) (time : Nat) (v mask : BitVec 32) (arm : Fin 12) (hi lateOk : Bool) (slot : Fin 64) (o : Option Int),
    (∀ c, s.cyc.comps.find? (fun c => c.p0At.isSome && decide (c.rel ≤ 6)) = some c → s.Answers (.rankComplete time arm) time fun u t =>
      (t.armSt arm).rankDone = decide (time < c.p0 + u.fld (F.TDS_CYC_B_BN_Q 5) * 4) ∧ (∀ m, m ≠ arm.val → t.armSt m = u.armSt m) ∧
        t.fld F.TDS_RANK_DONE_T = max (min 0xFFFF (time - c.p0At.getD time)) (u.fld F.TDS_RANK_DONE_T) ∧
        Frame [R.TDS_RANK_DONE] [] [] { u with mdu := t.mdu } t) ∧
    (s.Answers (.mduAux time v) time fun u t =>
      let a := F.MDU_AUX_ADDR.get v
      let c := F.MDU_AUX_CMDX.get v
      let ok : Prop := c ≠ 0 ∧ (c < 5 ∨ 7 < c) ∧ u.configured a = true ∧ u.mdu.aux.length < 16
      (ok → t.mdu = { u.mdu with aux := u.mdu.aux ++ [⟨a, c, none⟩] } ∧ t.fld F.MDU_AUX_STAT_DEPTH = u.mdu.aux.length + 1 ∧
        t.bit F.MDU_AUX_STAT_FULL = decide (u.mdu.aux.length = 15) ∧ Frame [R.MDU_AUX_STAT] [] [] { u with mdu := t.mdu } t) ∧
      (¬ ok → t.bit F.MDU_AUX_STAT_AUX_REJ = true ∧ Frame [R.MDU_AUX_STAT] [] [] u t)) ∧
    (s.Answers (.cluCommit time hi mask) time fun u t =>
      (∀ b, b < 32 → (t.clus (b + if hi then 32 else 0)).commit = (mask.getLsbD b || (u.clus (b + if hi then 32 else 0)).commit)) ∧
        (∀ b, b < 32 → t.clus (b + if hi then 0 else 32) = u.clus (b + if hi then 0 else 32)) ∧
        t.bit F.CLU_STAT_COMMIT_PEND = (decide (mask ≠ 0) || u.bit F.CLU_STAT_COMMIT_PEND) ∧ Frame [R.CLU_STAT] [] [] { u with clu := t.clu } t) ∧
    (s.Answers (.preset time slot) time fun u t =>
      t.clus slot = { u.clus slot with preset := true } ∧ (∀ i, i ≠ slot.val → t.clus i = u.clus i) ∧ Frame [] [] [] { u with clu := t.clu } t) ∧
    (s.Answers (.schArm time slot lateOk) time fun u t =>
      let n := fullCycle u.cycNow (u.rd (R.CLU_SLOT_SCH_CYC slot))
      let late : Prop := n * u.tc < u.now + 2 * u.tc
      t.bit (F.CLU_SLOT_SCH_CTL_LATE_OK slot) = lateOk ∧
      (late → lateOk = false → t.fld (F.CLU_SLOT_SCH_CTL_SCH_ST slot) = 2 ∧ t.pends 117 = true ∧ Frame [R.CLU_SLOT_SCH_CTL slot] [117] [] u t) ∧
      (late → lateOk = true → (t.clus slot).sch = some (u.cycNow + 1, true) ∧ t.fld (F.CLU_SLOT_SCH_CTL_SCH_ST slot) = 3) ∧
      (¬ late → (t.clus slot).sch = some (n, false)) ∧
      ((¬ late ∨ lateOk = true) → t.bit (F.CLU_SLOT_SCH_CTL_ARM slot) = true ∧ ((u.clus slot).sch.isSome = true → t.bit (F.CLU_SLOT_SCH_CTL_REPL slot) = true) ∧
        Frame [R.CLU_SLOT_SCH_CTL slot] [] [] { u with clu := t.clu } t)) ∧
    s.Answers (.timeStep time o) time fun u t =>
      (u.stepDue o = none ∨ time % u.tc ≠ 0 → t = u) ∧
      ∀ d, u.stepDue o = some d → time % u.tc = 0 →
        t.now = (Int.ofNat u.now - roundNear d 16).toNat ∧ t.mono = u.mono ∧ Counted F.TBU_STEP_CNT_STEPS u t ∧ t.bit F.TBU_STAT_LOCK = false ∧
          t.pends 149 = true ∧ (u.bit F.TBU_STAT_LOCK = true → t.pends 152 = true) ∧ t.cyc.comps = [] ∧ t.cyc.frame = none ∧ t.tbu.step = none ∧
          t.rdu.eqxN = none ∧ t.cyc.resume = (t.now + u.tc - 1) / u.tc * u.tc ∧ (∀ i, i < 64 → (t.clus i).sch = none) ∧ (∀ i, i < 8 → (t.tso i).queue = [])

/-- Line bits that reach a GimenLink receiver that runs: unlocked, the header counts at its candidate; locked, a block of
the BLOCK set counts toward the set and any other ends the run and BLOCK_RX, an invalid header adds one to HDR_ERR and
an unknown control type to UNK_CNT; an offset of 2 blocks or more sets RM_OVF. A receiver that does not run takes
nothing, one in a near-end loop ignores what is at the ball, one on a station lane counts the headers of its own block
code. BLOCK_LOCK_ACQUIRED after 64 valid headers sets BLOCK_LOCK, BLOCK_LOCK_LOST after 24 invalid ones in a window
clears it with LOCK_LOST and LOCK_CNT; on a partner lane LANE_LOCK follows, and a loss takes the link down with source
186. RATE_MATCH deletes or inserts one block between frames or in a BLOCK stream, counted. BLOCK_SET_RECEIVED after 4
BLOCK blocks in a row sets BLOCK_RX. SIGNAL_DETECT_RISE sets SIG_DET and wakes a sleeping receiver with RX_AUTO_WAKE. -/
def Obligations.LanesReceiveAndLock : Prop :=
  ∀ (s : State) (time : Nat) (tenth : Fin 10) (lane : Fin 72) (line : BitVec 66) (off : Int) (ofs : Option Int),
    (s.Answers (.blockReceived time tenth lane line off ofs) time fun u t =>
      let x := u.lane lane
      let locked := u.bit (F.LPH_LANE_STAT_BLOCK_LOCK lane)
      let takes : Prop := u.rxRuns lane = true ∧ u.nearLoop lane = false
      let bx := u.lineDecode lane x line
      let b := bx.1
      let hp := pcsDecode x.rxScr line
      let rest (l : State) : Prop := Frame [R.LPH_LANE_STAT lane, R.LPH_LANE_TEST lane, R.LPH_LANE_PRBS_ERR lane] [] [] { u with lanes := l.lanes } l
      (u.rxRuns lane = false → t = u) ∧
      (u.nearLoop lane = true → ∀ line' off', exec (.blockReceived time tenth lane line' off' ofs) s = .next t) ∧
      SameMem u t ∧ (∀ m, m ≠ lane.val → t.lane m = u.lane m) ∧
      (takes → t.bit (F.LPH_LANE_STAT_SIG_DET lane) = true ∧ t.bit (F.LPH_LANE_STAT_CDR_LOCK lane) = true) ∧
      (takes → isGimen lane = false → rest t ∧
        ∃ c, t.lane lane = { x.pcs locked (hp.1 == 1 || hp.1 == 2) with rxScr := hp.2.2, chk := c }) ∧
      (takes → isGimen lane = true → locked = false → rest t ∧ ∃ c, t.lane lane = { bx.2.hunt lane (!b.errored) with chk := c }) ∧
      (takes → isGimen lane = true → locked = true →
        (t.lane lane).run = (if b.isBlockSet then x.run + 1 else 0) ∧
          (b.isBlockSet = false → t.bit (F.LPH_LANE_STAT_BLOCK_RX lane) = false) ∧
          (if b.errored then Counted (F.LPH_LANE_HDR_ERR_V lane) u t else t.rd (R.LPH_LANE_HDR_ERR lane) = u.rd (R.LPH_LANE_HDR_ERR lane)) ∧
          (if b.isCtl && !knownCt b.ct then Counted (F.LPH_LANE_UNK_CNT_V lane) u t
            else t.rd (R.LPH_LANE_UNK_CNT lane) = u.rd (R.LPH_LANE_UNK_CNT lane)) ∧
          (2 ≤ off.natAbs → t.bit (F.LPH_LANE_STAT_RM_OVF lane) = true))) ∧
    (s.Answers (.blockLockAcquired time lane) time fun u t =>
      let due : Prop := isGimen lane = true ∧ u.bit (F.LPH_LANE_STAT_BLOCK_LOCK lane) = false ∧ 64 ≤ (u.lane lane).good
      (¬ due → t = u) ∧
      (due → t.bit (F.LPH_LANE_STAT_BLOCK_LOCK lane) = true ∧ t.lane lane = { u.lane lane with winCnt := 0, winBad := 0 } ∧
        (68 ≤ lane.val → t.fbit F.PL_STAT_LANE_LOCK (lane.val - 68) = true) ∧
        Frame (R.LPH_LANE_STAT lane :: if 68 ≤ lane.val then [R.PL_STAT] else []) [] [] { u with lanes := t.lanes } t)) ∧
    (s.Answers (.blockLockLost time lane) time fun u t =>
      let due : Prop := isGimen lane = true ∧ u.bit (F.LPH_LANE_STAT_BLOCK_LOCK lane) = true ∧ 24 ≤ (u.lane lane).winBad
      let calm : Prop := u.bit F.PL_STAT_UP = false ∨ (u.fld F.PL_STAT_LANE_LOCK = 0xF ∧ u.rdu.pBad < 2)
      (¬ due → calm → t = u) ∧
      (due → t.bit (F.LPH_LANE_STAT_BLOCK_LOCK lane) = false ∧ t.bit (F.LPH_LANE_STAT_LOCK_LOST lane) = true ∧
        t.bit (F.LPH_LANE_STAT_BLOCK_RX lane) = false ∧ Counted (F.LPH_LANE_LOCK_CNT_V lane) u t ∧ (t.lane lane).good = 0 ∧ (t.lane lane).run = 0 ∧
        (68 ≤ lane.val → t.fbit F.PL_STAT_LANE_LOCK (lane.val - 68) = false ∧ t.bit F.PL_STAT_UP = false ∧
          (u.bit F.PL_STAT_UP = true → t.bit F.RDU_STAT_PL_UP = false ∧ t.pends 186 = true)) ∧
        (u.bit F.PL_STAT_UP = false ∨ (lane.val < 68 ∧ calm) →
          Frame (R.LPH_LANE_STAT lane :: R.LPH_LANE_LOCK_CNT lane :: if 68 ≤ lane.val then [R.PL_STAT] else []) [] [] { u with lanes := t.lanes } t))) ∧
    (s.Answers (.rateMatch time lane) time fun u t =>
      let x := u.lane lane
      let may : Prop := isGimen lane = true ∧ (x.inFrame = false ∨ 0 < x.run)
      (¬ may ∨ x.elastic = 0 → t = u) ∧
      (may → 1 ≤ x.elastic → t.lane lane = { x with elastic := x.elastic - 1 } ∧ Counted (F.LPH_LANE_RM_CNT_DEL lane) u t ∧
        Frame [R.LPH_LANE_RM_CNT lane] [] [] { u with lanes := t.lanes } t) ∧
      (may → x.elastic ≤ -1 → t.lane lane = { x with elastic := x.elastic + 1 } ∧ Counted (F.LPH_LANE_RM_CNT_INS lane) u t ∧
        Frame [R.LPH_LANE_RM_CNT lane] [] [] { u with lanes := t.lanes } t)) ∧
    (s.Answers (.blockSetReceived time lane) time fun u t =>
      ((u.lane lane).run < 4 → t = u) ∧
      (4 ≤ (u.lane lane).run → t.bit (F.LPH_LANE_STAT_BLOCK_RX lane) = true ∧ Frame [R.LPH_LANE_STAT lane] [] [] u t)) ∧
    s.Answers (.signalDetectRise time lane) time fun u t =>
      let wakes := u.bit (F.LPH_LANE_PWR_RX_SLEEP lane) && u.bit (F.LPH_LANE_PWR_RX_AUTO_WAKE lane)
      t.bit (F.LPH_LANE_STAT_SIG_DET lane) = true ∧ Frame [R.LPH_LANE_STAT lane] [] [] { u with lanes := t.lanes } t ∧
        (wakes = true → t.lane lane = { u.lane lane with rxWoken := true }) ∧ (wakes = false → t.lanes = u.lanes)

/-- SLEEP_REQUEST sets RX_AUTO_WAKE; each sleep bit takes its value where the lane is not in use; on a lane in use a
request for sleep keeps the bit and sets SLEEP_REFUSED. A transmitter asleep is not active, a receiver that goes to
sleep loses its locks; on a partner lane that ends an established link. QUAD_PD of a quad with a lane in use sets
Q_REFUSED alone, else it powers down: PLL unlocked, transmitters inactive, receivers unlocked; QUAD_PLL_LOCKED sets
PLL_LOCK of a powered quad, whose lanes in use start to send. A TXEQ write whose sum exceeds 63 sets TXEQ_ERR alone,
else it takes its fields. ADAPT_RESTART writes adapted codes (free values) unless ADAPT_FREEZE holds them. An eye scan
starts with RUN and clears DONE; its end stores both margins with DONE. A loop or generator is refused with
LOOP_REFUSED on a lane in use, and a code that the lane has not is by itself; else they are taken, a changed checker
starts at 0, the pattern of a generator is sent, and a near-end loop stops the transmitter. -/
def Obligations.LanesSleepAndAreTested : Prop :=
  ∀ (s : State) (time : Nat) (lane : Fin 72) (q : Fin 18) (pd : Bool) (v : BitVec 32) (h w : BitVec 8),
    (s.Answers (.sleepRequest time lane v) time fun u t =>
      let use := u.laneInUse lane
      t.bit (F.LPH_LANE_PWR_RX_AUTO_WAKE lane) = v.getLsbD 2 ∧
        t.bit (F.LPH_LANE_PWR_TX_SLEEP lane) = (v.getLsbD 1 && (!use || u.bit (F.LPH_LANE_PWR_TX_SLEEP lane))) ∧
        t.bit (F.LPH_LANE_PWR_RX_SLEEP lane) = (v.getLsbD 0 && (!use || u.bit (F.LPH_LANE_PWR_RX_SLEEP lane))) ∧
        (use = true → v.getLsbD 1 = true ∨ v.getLsbD 0 = true → t.bit (F.LPH_LANE_STAT_SLEEP_REFUSED lane) = true) ∧
        (t.bit (F.LPH_LANE_PWR_TX_SLEEP lane) = true → t.bit (F.LPH_LANE_STAT_TX_ACTIVE lane) = false) ∧
        (t.bit (F.LPH_LANE_PWR_RX_SLEEP lane) = true → u.bit (F.LPH_LANE_PWR_RX_SLEEP lane) = false →
          t.bit (F.LPH_LANE_STAT_BLOCK_LOCK lane) = false ∧ t.bit (F.LPH_LANE_STAT_CDR_LOCK lane) = false) ∧
        (u.bit F.PL_STAT_UP = true → 68 ≤ lane.val → t.bit (F.LPH_LANE_PWR_RX_SLEEP lane) = true → u.bit (F.LPH_LANE_PWR_RX_SLEEP lane) = false →
          t.bit F.PL_STAT_UP = false ∧ t.pends 186 = true) ∧
        (u.bit F.PL_STAT_UP = false → Frame [R.LPH_LANE_PWR lane, R.LPH_LANE_STAT lane, R.PL_STAT] [] [] { u with lanes := t.lanes, ltx := t.ltx } t) ∧
        (lane.val < 68 ∨ v.getLsbD 0 = false ∨ use = true → u.bit F.PL_STAT_UP = false ∨ (u.fld F.PL_STAT_LANE_LOCK = 0xF ∧ u.rdu.pBad < 2) →
          Frame [R.LPH_LANE_PWR lane, R.LPH_LANE_STAT lane] [] [] { u with lanes := t.lanes, ltx := t.ltx } t)) ∧
    (s.Answers (.quadPd time q pd) time fun u t =>
      let ls := [4 * q.val, 4 * q.val + 1, 4 * q.val + 2, 4 * q.val + 3]
      let calm : Prop := u.bit F.PL_STAT_UP = false ∨ (u.fld F.PL_STAT_LANE_LOCK = 0xF ∧ u.rdu.pBad < 2)
      (pd = false → t.bit (F.LPH_QUAD_CTL_PD q) = false ∧ (calm → Frame [R.LPH_QUAD_CTL q] [] [] u t)) ∧
      (pd = true → (∃ l ∈ ls, u.laneInUse l = true) → t.bit (F.LPH_QUAD_CTL_Q_REFUSED q) = true ∧
        t.bit (F.LPH_QUAD_CTL_PD q) = u.bit (F.LPH_QUAD_CTL_PD q) ∧ (calm → Frame [R.LPH_QUAD_CTL q] [] [] u t)) ∧
      (pd = true → (∀ l ∈ ls, u.laneInUse l = false) → t.bit (F.LPH_QUAD_CTL_PD q) = true ∧ t.bit (F.LPH_QUAD_CTL_PLL_LOCK q) = false ∧
        (∀ l ∈ ls, t.bit (F.LPH_LANE_STAT_TX_ACTIVE l) = false ∧ t.bit (F.LPH_LANE_STAT_BLOCK_LOCK l) = false ∧
          t.bit (F.LPH_LANE_STAT_SIG_DET l) = false) ∧
        (q.val = 17 → t.bit F.PL_STAT_UP = false) ∧
        (u.bit F.PL_STAT_UP = false ∨ (q.val < 17 ∧ calm) →
          Frame (R.LPH_QUAD_CTL q :: ls.map R.LPH_LANE_STAT ++ (if q.val = 17 then [R.PL_STAT] else [])) [] [] { u with lanes := t.lanes } t))) ∧
    (s.Answers (.quadPllLocked time q) time fun u t =>
      (u.bit (F.LPH_QUAD_CTL_PD q) = true → t = u) ∧
      (u.bit (F.LPH_QUAD_CTL_PD q) = false → t.bit (F.LPH_QUAD_CTL_PLL_LOCK q) = true ∧
        (∀ l ∈ [4 * q.val, 4 * q.val + 1, 4 * q.val + 2, 4 * q.val + 3], u.laneInUse l = true → u.txIdle l = false → u.fld F.SYS_LC_STATE = 2 →
          t.bit (F.LPH_LANE_STAT_TX_ACTIVE l) = true) ∧
        Frame (R.LPH_QUAD_CTL q :: [4 * q.val, 4 * q.val + 1, 4 * q.val + 2, 4 * q.val + 3].map R.LPH_LANE_STAT) [] []
          { u with lanes := t.lanes, ltx := t.ltx } t)) ∧
    (s.Answers (.txeqWrite time lane v) time fun u t =>
      let pre := (F.LPH_LANE_TXEQ_PRE lane).get v
      let main := (F.LPH_LANE_TXEQ_MAIN lane).get v
      let post := (F.LPH_LANE_TXEQ_POST lane).get v
      (63 < pre + main + post → t.bit (F.LPH_LANE_STAT_TXEQ_ERR lane) = true ∧ Frame [R.LPH_LANE_STAT lane] [] [] u t) ∧
      (pre + main + post ≤ 63 → t.fld (F.LPH_LANE_TXEQ_PRE lane) = pre ∧ t.fld (F.LPH_LANE_TXEQ_MAIN lane) = main ∧
        t.fld (F.LPH_LANE_TXEQ_POST lane) = post ∧ Frame [R.LPH_LANE_TXEQ lane] [] [] u t)) ∧
    (s.Answers (.adaptRestart time lane) time fun u t =>
      (u.bit (F.LPH_LANE_RXEQ_ADAPT_FREEZE lane) = true → t = u) ∧
      (u.bit (F.LPH_LANE_RXEQ_ADAPT_FREEZE lane) = false →
        t.bit (F.LPH_LANE_RXEQ_ADAPT_FREEZE lane) = false ∧ Frame [R.LPH_LANE_RXEQ lane] [] [] u t)) ∧
    (s.Answers (.eyeScanRun time lane v) time fun u t =>
      t.fld (F.LPH_LANE_EYE_EYE_SEL lane) = (F.LPH_LANE_EYE_EYE_SEL lane).get v ∧
        t.bit (F.LPH_LANE_EYE_RUN lane) = (v.getLsbD 31 || u.bit (F.LPH_LANE_EYE_RUN lane)) ∧
        t.bit (F.LPH_LANE_EYE_DONE lane) = (!v.getLsbD 31 && u.bit (F.LPH_LANE_EYE_DONE lane)) ∧
        t.fld (F.LPH_LANE_EYE_HMARGIN lane) = u.fld (F.LPH_LANE_EYE_HMARGIN lane) ∧
        t.fld (F.LPH_LANE_EYE_VMARGIN lane) = u.fld (F.LPH_LANE_EYE_VMARGIN lane) ∧ Frame [R.LPH_LANE_EYE lane] [] [] u t) ∧
    (s.Answers (.eyeScanDone time lane h w) time fun u t =>
      (u.bit (F.LPH_LANE_EYE_RUN lane) = false → t = u) ∧
      (u.bit (F.LPH_LANE_EYE_RUN lane) = true → t.bit (F.LPH_LANE_EYE_RUN lane) = false ∧ t.bit (F.LPH_LANE_EYE_DONE lane) = true ∧
        t.fld (F.LPH_LANE_EYE_HMARGIN lane) = h.toNat ∧ t.fld (F.LPH_LANE_EYE_VMARGIN lane) = w.toNat ∧
        t.fld (F.LPH_LANE_EYE_EYE_SEL lane) = u.fld (F.LPH_LANE_EYE_EYE_SEL lane) ∧ Frame [R.LPH_LANE_EYE lane] [] [] u t)) ∧
    s.Answers (.loopPatternWrite time lane v) time fun u t =>
      let loop := (F.LPH_LANE_TEST_LOOP lane).get v
      let gen := (F.LPH_LANE_TEST_GEN lane).get v
      let chk := (F.LPH_LANE_TEST_CHK lane).get v
      let badGen : Bool := decide (64 ≤ lane.val) && gen == 2
      let badChk : Bool := (decide (64 ≤ lane.val) && chk == 2) || chk == 3
      let gen' := if badGen then u.fld (F.LPH_LANE_TEST_GEN lane) else gen
      let chk' := if badChk then u.fld (F.LPH_LANE_TEST_CHK lane) else chk
      let refused : Prop := u.laneInUse lane = true ∧ (1 ≤ loop ∧ loop ≤ 3 ∨ (gen ≠ 0 ∧ badGen = false))
      (refused → t.bit (F.LPH_LANE_STAT_LOOP_REFUSED lane) = true ∧ Frame [R.LPH_LANE_STAT lane] [] [] u t) ∧
      (¬ refused → t.fld (F.LPH_LANE_TEST_LOOP lane) = loop ∧ t.fld (F.LPH_LANE_TEST_GEN lane) = gen' ∧ t.fld (F.LPH_LANE_TEST_CHK lane) = chk' ∧
        (badGen = true ∨ badChk = true → t.bit (F.LPH_LANE_STAT_LOOP_REFUSED lane) = true) ∧
        (chk' ≠ u.fld (F.LPH_LANE_TEST_CHK lane) → t.fld (F.LPH_LANE_PRBS_ERR_V lane) = 0 ∧ t.bit (F.LPH_LANE_TEST_CHK_LOCK lane) = false) ∧
        (loop = 1 ∨ loop = 2 → u.bit (F.LPH_LANE_STAT_INJECT lane) = false → t.bit (F.LPH_LANE_STAT_TX_ACTIVE lane) = false) ∧
        (gen' ≠ 0 → ∃ f, (t.txOf lane).line = [(patternLine lane gen' (Config.prbsSeed f)).1]) ∧
        Frame [R.LPH_LANE_TEST lane, R.LPH_LANE_PRBS_ERR lane, R.LPH_LANE_STAT lane] [] [] { u with lanes := t.lanes, ltx := t.ltx } t)

/-- TIME_BLOCK_SEND of a port that sends, at its instant and once per cycle, notes the departure of the round and sends
ENUM and TIME with EARLY. At a port that does not relay: a collect frame whose header fails R99 adds one to FDISC_CNT
and acts no further; one that passes as cycle k writes the report of each slot that verifies, is in time and not
quarantined into bank k mod 2, and no other report. In the holder: an IDENT frame of the wrong cycle or length is
asked for again, the right one shows NFOUND and, with SMs found and no join, leads to a new session that starts 64
cycles after the next; a TSTAMP frame adds a hop delay from its reference end on. A down frame that passes R100 with a
higher epoch fences the holder with source 190; in the other unit its epoch is noted, and by d_j it counts as a tail
of its cycle; one that fails changes nothing. A relaying port hands collect, IDENT and TSTAMP frames on, the last with
its own stamps; in another unit without the lease IDENT and TSTAMP frames change nothing. A relayed frame goes out
behind a RELAY block and puts the port into RELAY. -/
def Obligations.RingPortsSendAndReceiveFrames : Prop :=
  ∀ (s : State) (time : Nat) (port : Fin 64) (early : Fin 410) (via : Bool) (fs : List Blk) (ref : Option (Nat × Nat)),
    let body := bodyOf fs
    let head := nthBlk body 0
    let own (ft : Nat) : Bool := (sofOf fs).isSof && (sofOf fs).f 55 48 == ft && (sofOf fs).f 47 40 == port.val && head.f 31 24 == port.val
    let stamps (u : State) : Nat × Nat :=
      (spGet 0 (u.port port).dep ((head.f 63 32 + 254) % 256), spGet 0 (u.port port).arr ((head.f 63 32 + 254) % 256))
    let handed (u : State) (x : Option (Nat × Nat)) : State :=
      if (u.port port).relaying then { u with rdu := { u.rdu with txFwd := u.rdu.txFwd ++ [(port.val, fs, x)] } } else u
    (s.Answers (.timeBlockSend time port early) time fun u t =>
      let k := u.cycNow
      let due : Prop := u.sendsTime port = true ∧ time = (64 * ((k + 1) * u.tc - 64) - early.val) / 64 ∧ (u.port port).timeAt ≠ some k
      let lit : Prop := u.phase port = phLight ∧ u.bit (F.LPH_LANE_STAT_BLOCK_LOCK port) = true
      (¬ due → t = u) ∧
      (due →
        (t.port port).txTime = some (ctlBlk ctTime (port.val * 2 ^ 48 + u.ownEnd * 2 ^ 40 + k % 256 * 2 ^ 32 + early.val * 2 ^ 16)) ∧
          spGet 0 (t.port port).dep (k % 256) = (64 * ((k + 1) * u.tc - 64) - early.val) % 2 ^ 24 ∧ (t.port port).timeAt = some k ∧
          (u.role ≠ roleActive ∨ ((u.port port).reqIdent = false ∧ ¬ lit) →
            (t.port port).txEnum = some (ctlBlk ctEnum (port.val * 2 ^ 48 + u.ownEnd * 2 ^ 40))) ∧
          (u.role = roleActive → (u.port port).reqIdent = true ∨ lit → (t.port port).identDue = some (k + 1) ∧
            (t.port port).txEnum = some (ctlBlk ctEnum (port.val * 2 ^ 48 + u.ownEnd * 2 ^ 40 + 2 ^ 32 + u.islot port * 2 ^ 24))) ∧
          (∀ m, m ≠ port.val → t.port m = u.port m) ∧
          Frame [R.RPU_PORT_STAT port] [port.val] [] { u with ports := t.ports, ltx := t.ltx } t)) ∧
    (s.enabled port = true → (s.port port).relaying = false → s.Answers (.collectFrame time port via fs) time fun u t =>
      (own ftCollect = false ∨ u.collectCyc fs.length (head.f 63 32) = none →
        Counted (F.RPU_PORT_FDISC_CNT_V port) u t ∧ Frame [R.RPU_PORT_FDISC_CNT port] [] [] u t) ∧
      (own ftCollect = true → ∀ k, u.collectCyc fs.length (head.f 63 32) = some k → SameMem u t ∧ ∀ p, p < 64 →
        let cell := k % 2 * 4096 + smAddr port p
        let took (hi lo : Blk) : Prop := (pairUp (body.drop 1))[p]? = some (hi, lo) ∧ p < u.ncfg port ∧ u.slotOk 0xC0 port p k hi lo = true ∧
          u.bit (F.RPU_PORT_POS_QUAR port p) = false ∧ u.p0Past k = false
        (∀ hi lo, took hi lo → spGet none t.reports cell = some (reportOf k hi.pl lo.pl)) ∧
          ((∀ hi lo, ¬ took hi lo) → spGet none t.reports cell = spGet none u.reports cell))) ∧
    (s.enabled port = true → (s.port port).relaying = true → s.Answers (.collectFrame time port via fs) time fun u t =>
      t = { u with rdu := { u.rdu with txFwd := u.rdu.txFwd ++ [(port.val, fs, none)] } }) ∧
    (s.enabled port = true → (sofOf fs).f 55 48 ≠ ftSession → s.Answers (.downFrame time port fs) time fun u t =>
      (u.downCheck port fs = none → t = u) ∧
      ∀ j ep, u.downCheck port fs = some (j, ep) →
        (u.role ≠ roleActive → ep < u.rd R.RDU_EPOCH_MAX → t = u) ∧
        (u.role ≠ roleActive → u.rd R.RDU_EPOCH_MAX ≤ ep → t.rd R.RDU_EPOCH_MAX = ep ∧
          (time ≤ u.judgeAt j → (t.port port).tails.head? = some j ∧
            Frame [R.RDU_EPOCH_MAX, R.RDU_STAT] [] [] { u with aon := t.aon, ports := t.ports } t) ∧
          (u.judgeAt j < time → Frame [R.RDU_EPOCH_MAX] [] [] { u with aon := t.aon } t)) ∧
        (u.role = roleActive → u.rd R.RDU_EPOCH < ep → t.role = roleStandby ∧ t.bit F.RDU_STAT_REL_HOLD = true ∧ t.bit F.RDU_STAT_FENCED = true ∧
          Counted F.RDU_FENCE_CNT_V u t ∧ t.pends 190 = true ∧ Sent 0x04 u t ∧ SameMem u t) ∧
        (u.role = roleActive → ep ≤ u.rd R.RDU_EPOCH → Frame [R.RDU_EPOCH_MAX] [] [] { u with aon := t.aon } t)) ∧
    (s.role = roleActive → s.Answers (.identFrame time port fs) time fun u t =>
      ((u.port port).identDue = none → t = u) ∧
      ∀ k, (u.port port).identDue = some k →
        let right : Prop := head.f 63 32 = (cyc32 k).toNat ∧ body.length = 2 * u.islot port + 1
        let found := ((pairUp (body.drop 1)).filter (fun e => e.1.pl != BitVec.allOnes 64)).length
        (t.port port).identDue = none ∧
        (¬ right → (t.port port).reqIdent = true ∧ Frame [] [] [] { u with ports := t.ports } t) ∧
        (right → t.fld (F.RPU_PORT_STAT_NFOUND port) = found ∧ SameMem u t) ∧
        (right → found ≠ 0 → (u.port port).join = false ∨ (u.port port).sess = none →
          t.phase port = phSession ∧ ∃ x, (t.port port).next = some x ∧ x.start = u.cycNow + 65) ∧
        (right → (u.port port).join = true → (u.port port).sess ≠ none → (t.port port).join = false ∧ (t.port port).sess = (u.port port).sess ∧
          (t.port port).next = (u.port port).next ∧ t.phase port = u.phase port)) ∧
    (s.role = roleActive → s.Answers (.tstampFrame time port ref fs) time fun u t =>
      let fromB := u.sys.uid != ref.isSome
      let order := if fromB then (List.range (u.ncfg port)).reverse else List.range (u.ncfg port)
      let ok (k : Nat) : Prop := own ftTstamp = true ∧ k % 4 = 0
      (u.collectCyc fs.length (head.f 63 32) = none → t = u) ∧
      ∀ k, u.collectCyc fs.length (head.f 63 32) = some k → (¬ ok k → t = u) ∧
        (ok k → SameMem u t ∧ ∀ p hi lo, order.head? = some p → (pairUp (body.drop 1))[p]? = some (hi, lo) → u.slotOk 0xC2 port p k hi lo = true →
          let v := stampsOf hi.pl lo.pl
          let da := ref.getD (stamps u)
          let l := ((stampDiff v.aRef da.1 + stampDiff da.2 v.dRef) :: (spGet {} (u.port port).hops p).rounds fromB).take 16
          (spGet {} (t.port port).hops p).rounds fromB = l ∧
            (spGet {} (t.port port).hops p).dly = some (divFree (l.foldl (· + ·) 0) (max 1 l.length)))) ∧
    (s.role ≠ roleActive → s.Answers (.identFrame time port fs) time fun u t => t = handed u none) ∧
    (s.role ≠ roleActive → s.Answers (.tstampFrame time port ref fs) time fun u t => t = handed u (some (stamps u))) ∧
    s.Answers (.relayFrame time port fs) time fun u t =>
      let may : Prop := u.enabled port = true ∧ u.role ≠ roleActive ∧ u.bit F.RDU_STAT_PL_UP = true ∧ u.sys.strapConf = false ∧
        u.relayLate port (fullCycle u.cycNow (BitVec.ofNat 32 (head.f 63 32))) = false
      (¬ may → t = u) ∧
      (may → (t.port port).relaying = true ∧ (t.port port).origin = none ∧ t.phase port = phRelay ∧ Counted (F.RPU_PORT_RELAY_CNT_V port) u t ∧
        (t.port port).txDown = (if u.txOpen port then ctlBlk ctRelay (port.val * 2 ^ 48 + u.ownEnd * 2 ^ 40) :: fs else []) ∧
        Frame [R.RPU_PORT_STAT port, R.RPU_PORT_RELAY_CNT port] [port.val] [] { u with ports := t.ports, ltx := t.ltx } t)

/-- SESSION_START from the start cycle of the pending session on: it comes into force, the one before it is kept, every
quarantine of the ring ends, and a holder setting up the session aligns; before it, or without a pending session, it
has no effect. In the holder IDENTIFY_RETRY on a ring that identifies and has found no SM, 1,024 cycles or more after
its last request, and REIDENT, ask for identification (REIDENT for a join where a session is in force); RESESSION of
an enabled port starts identification anew. In the other unit these change nothing. QUAR_CLEAR ends the quarantine of
the positions of its bits and of no other. -/
def Obligations.RingSessionsAndQuarantine : Prop :=
  ∀ (s : State) (time : Nat) (port : Fin 64) (hi : Bool) (v : BitVec 32),
    let p := s.port port
    let poss := (List.range 64).map (R.RPU_PORT_POS port)
    let quar := [R.RPU_PORT_QUAR_LO port, R.RPU_PORT_QUAR_HI port]
    (s.Answers (.sessionStart time port) time fun u t =>
      ((∀ x, p.next = some x → u.cycNow < x.start) → t = u) ∧
      ∀ x, p.next = some x → x.start ≤ u.cycNow →
        (t.port port).sess = some x ∧ (t.port port).prev = p.sess ∧ (t.port port).next = none ∧
          t.fld (F.RPU_PORT_QUAR_LO_V port) = 0 ∧ t.fld (F.RPU_PORT_QUAR_HI_V port) = 0 ∧ (∀ q, q < 64 → t.bit (F.RPU_PORT_POS_QUAR port q) = false) ∧
          (t.phase port = if u.role = roleActive ∧ u.phase port = phSession then phAlign else u.phase port) ∧
          Frame (R.RPU_PORT_STAT port :: quar ++ poss) [port.val] [] { u with ports := t.ports } t) ∧
    (s.Answers (.identifyRetry time port) time fun u t =>
      let due : Prop := u.role = roleActive ∧ u.phase port = phIdent ∧ u.fld (F.RPU_PORT_STAT_NFOUND port) = 0 ∧
        (u.port port).identAt + 1024 ≤ u.cycNow
      (¬ due → t = u) ∧ (due → t.port port = { p with reqIdent := true } ∧ Frame [] [] [] { u with ports := t.ports } t)) ∧
    (s.Answers (.reident time port) time fun u t =>
      (u.role ≠ roleActive → t = u) ∧
      (u.role = roleActive → t.port port = { p with reqIdent := true, join := p.sess.isSome } ∧ Frame [] [] [] { u with ports := t.ports } t)) ∧
    (s.Answers (.resession time port) time fun u t =>
      let may : Prop := u.role = roleActive ∧ u.enabled port = true
      (¬ may → t = u) ∧
      (may → t.port port = { p with reqIdent := true, join := false } ∧ t.phase port = phIdent ∧
        Frame [R.RPU_PORT_STAT port] [port.val] [] { u with ports := t.ports } t)) ∧
    s.Answers (.quarClear time port hi v) time fun u t =>
      let word := if hi then F.RPU_PORT_QUAR_HI_V port else F.RPU_PORT_QUAR_LO_V port
      (∀ b, b < 32 → t.fbit word b = (u.fbit word b && !v.getLsbD b) ∧
        t.bit (F.RPU_PORT_POS_QUAR port (b + if hi then 32 else 0)) = (u.bit (F.RPU_PORT_POS_QUAR port (b + if hi then 32 else 0)) && !v.getLsbD b)) ∧
        Frame (word.addr :: ((List.range 32).map fun b => R.RPU_PORT_POS port (b + if hi then 32 else 0))) [] [] { u with ports := t.ports } t

/-- DS_WORD_COMPLETE at a word instant of a running filter stores round((raw + OCAL) x GCAL), saturated, with its marks
and stamp, and counts overrange and clipping; a change that waits takes effect at a word instant of the new period; at
any other time it has no effect. MDX_LOSS marks a running external filter lost. A SAR trigger of the kind TRIG
selects, or START, starts the sequence, waits for an urgent conversion, or counts in SEQ_OVR while a sequence runs. A
conversion of 100 ns stores its result and goes on with the sequence. An urgent request is taken by an idle SAR, ahead
of a sequence that starts at the idle SAR in the same instant, and, from a TSI edge, in place of one by the host of
the same instant; else it is dropped and counted (source 137 + a). SV_STREAM_LOST and PSI_TIMEOUT act after their
timeouts. A pulse edge joins the measurement, a pulse below the filter vanishes with both its edges; MSU_PSI_X shows
what the edges that the filter has let through give. A factor out of range, or during calibration, sets CFG_ERR; else
it is stored, on-chip ones with CAL_VALID. Which way a half rounds is a free value (log entry 7). -/
def Obligations.MeasurementInputsTakeTheirSamples : Prop :=
  ∀ (s : State) (time : Nat) (ch : Fin 20) (raw : Int) (ovr stuck high gain : Bool) (x : Fin 8) (a : Fin 2) (trig : SarTrig) (code : BitVec 16)
    (req : UrgBy) (i : Fin 16) (p : Fin 4) (f : Fin 22) (v : BitVec 32),
    let went (u t : State) : Prop :=
      let r := u.sar a
      (r.running = true → Counted (F.MSU_SAR_SEQ_OVR_V a) u t ∧ t.bit F.MSU_STAT_SEQ_OVR = true ∧ Frame [R.MSU_SAR_SEQ_OVR a, R.MSU_STAT] [139] [] u t) ∧
      (r.running = false → r.conv.isSome = true → t.sar a = { r with start := true } ∧ Frame [] [] [] { u with msu := t.msu } t) ∧
      (r.running = false → r.conv = none → Frame [] [] [] { u with msu := t.msu } t ∧
        t.sar a = { conv := some { input := u.fld (F.MSU_SAR_SEQ_INPUT a 0), at' := u.mono, stamp := u.now, pos := some 0, idle := true } })
    (s.Answers (.dsWord time ch raw ovr stuck) time fun w t =>
      let u := w.calStep
      let d := u.ds ch
      let md := decide (ch.val < 12)
      let n := if md then ch.val else ch.val - 12
      let reg := u.rd (dsCfg ch)
      let word : Prop := cfgEn d.eff = true ∧ wordInstant (u.dsPeriod ch) u.now = true ∧
        ∀ t0, d.last = some t0 → u.dsPeriod ch < 256 * (u.mono - t0)
      let change : Prop := ∃ t0, d.chg = some t0 ∧ t0 < u.now ∧ wordInstant (wordPeriod ch reg (u.clkDiv4 ch reg)) u.now = true
      let val := dsValue raw ((u.rd (if md then R.MSU_MD_OCAL n else R.MSU_MDX_OCAL n)).setWidth 24) (u.rd (if md then R.MSU_MD_GCAL n else R.MSU_MDX_GCAL n))
      let settling := (md && u.calibrating ch) || decide (0 < d.settle)
      (¬ word → ¬ change → t = u) ∧ SameMem w t ∧
      (word → t.rd (if md then R.MSU_MD_RES n else R.MSU_MDX_RES n) = resWord n (!md) val.2 ovr settling val.1 ∧
        t.rd (if md then R.MSU_MD_TS n else R.MSU_MDX_TS n) = BitVec.ofNat 32 u.now ∧
        (ovr = true → Counted (if md then F.MSU_MD_CNT_OVR n else F.MSU_MDX_CNT_OVR n) u t ∧ t.bit F.MSU_STAT_OVR_ANY = true) ∧
        (val.2 = true → Counted (if md then F.MSU_MD_CNT_CLIP n else F.MSU_MDX_CNT_CLIP n) u t ∧ t.bit F.MSU_STAT_CLIP_ANY = true)) ∧
      (change → (t.ds ch).eff = reg ∧ (t.ds ch).div4 = u.clkDiv4 ch reg ∧ (t.ds ch).chg = none ∧ (t.ds ch).settle = cfgOrder reg)) ∧
    (s.Answers (.mdxLoss time x) time fun u t =>
      let d := u.ds (x.val + 12)
      (cfgEn d.eff = false → t = u) ∧
      (cfgEn d.eff = true → t.ds (x.val + 12) = { d with lost := true, good := 0 } ∧ t.bit F.MSU_STAT_MDX_LOSS = true ∧
        (u.bit F.MSU_STAT_MDX_LOSS = false → t.pends 136 = true) ∧ Frame [R.MSU_STAT] [136] [] { u with msu := t.msu } t)) ∧
    (s.Answers (.sarTrigger time a trig) time fun u t =>
      let due : Prop := match trig with
        | .cycle => u.fld (F.MSU_SAR_CTL_TRIG a) = 1 ∧ u.now % u.tc = u.fld (F.MSU_SAR_CTL_TRG_OFS a) * 4 % u.tc
        | .tsi pin => u.fld (F.MSU_SAR_CTL_TRIG a) = 2 ∧ u.fld (F.MSU_SAR_CTL_TSEL a) = pin.val
        | .cont => u.fld (F.MSU_SAR_CTL_TRIG a) = 4 ∧ (u.sar a).running = false
      (¬ due → t = u) ∧ (due → went u t)) ∧
    (s.Answers (.sarStart time a) time fun u t =>
      (u.fld (F.MSU_SAR_CTL_TRIG a) ≠ 3 → t = u) ∧ (u.fld (F.MSU_SAR_CTL_TRIG a) = 3 → went u t)) ∧
    (s.Answers (.sarConversion time a code) time fun u t =>
      ((∀ c, (u.sar a).conv = some c → u.mono < c.at' + 100) → t = u) ∧
      ∀ c, (u.sar a).conv = some c → c.at' + 100 ≤ u.mono →
        let w := resWord c.input (a.val == 1) false (code == 0 || code == 0xFFFF) (u.calibrating (12 + a.val)) (((code.toNat : Int) - 32768) * 256)
        let entry (q : Nat) : SarSt := { conv := some { input := u.fld (F.MSU_SAR_SEQ_INPUT a q), at' := u.mono, stamp := u.now, pos := some q } }
        (spGet [] t.msu.sarRes (20 + 8 * a.val + c.input)).head? = some ⟨w, u.mono, c.stamp + 30⟩ ∧ SameMem u t ∧
          (c.pos = none → t.rd (R.MSU_SAR_URG_RES a) = w ∧ t.sar a = if (u.sar a).start then entry 0 else {}) ∧
          ∀ q, c.pos = some q → t.sar a = if q < u.fld (F.MSU_SAR_CTL_SEQ_LEN_M1 a) then entry (q + 1)
            else if u.fld (F.MSU_SAR_CTL_TRIG a) = 4 then entry 0 else {}) ∧
    (s.Answers (.sarUrgent time a req) time fun u t =>
      let asked (inp : Nat) (host : Bool) : Prop :=
        let taken (st : Bool) : Prop := t.sar a = { conv := some { input := inp, at' := u.mono, stamp := u.now, pos := none, host := host }, start := st } ∧
          t.fld (F.MSU_SAR_URG_URG_ST a) = 1 ∧ t.fld (F.MSU_SAR_URG_INPUT a) = inp
        let dropped : Prop := Counted (F.MSU_SAR_URG_DROP_V a) u t ∧ t.pends (137 + a.val) = true
        ((u.sar a).conv = none → taken false ∧ Frame [R.MSU_SAR_URG a] [] [] { u with msu := t.msu } t) ∧
        ∀ c, (u.sar a).conv = some c →
          let regular : Prop := c.at' = u.mono ∧ c.pos = some 0 ∧ c.idle = true
          let hosts : Prop := c.at' = u.mono ∧ c.pos = none ∧ c.host = true ∧ host = false
          (regular → taken true ∧ Frame [R.MSU_SAR_URG a] [] [] { u with msu := t.msu } t) ∧
          (hosts → taken (u.sar a).start ∧ dropped ∧ Frame [R.MSU_SAR_URG a, R.MSU_SAR_URG_DROP a] [137 + a.val] [] { u with msu := t.msu } t) ∧
          (¬ regular → ¬ hosts → t.fld (F.MSU_SAR_URG_URG_ST a) = 2 ∧ dropped ∧
            Frame [R.MSU_SAR_URG a, R.MSU_SAR_URG_DROP a] [137 + a.val] [] u t)
      match req with
      | .host inp => asked inp true
      | .tsi pin =>
        if u.bit (F.MSU_SAR_CTL_URG_TSI_EN a) && u.fld (F.MSU_SAR_CTL_URG_TSEL a) == pin.val then asked (u.fld (F.MSU_SAR_URG_INPUT a)) false else t = u) ∧
    (s.Answers (.svLost time i) time fun u t =>
      let due : Prop := u.bit (F.MSU_SV_CFG_EN i) = true ∧ u.bit (F.MSU_SV_STAT_LOST i) = false ∧
        u.fld (F.MSU_SV_CFG_SV_TMO i) * 10 ^ 9 ≤ (u.mono - (u.sv i).since) * u.fld (F.MSU_SV_CFG_RATE i)
      (¬ due → t = u) ∧
      (due → t.bit (F.MSU_SV_STAT_LOST i) = true ∧ t.sv i = { u.sv i with cnt := none } ∧ t.pends 140 = true ∧
        Frame [R.MSU_SV_STAT i] [140] [] { u with msu := t.msu } t)) ∧
    (s.Answers (.psiEdge time p high) time fun u t =>
      let on : Prop := u.fld (F.MSU_PSI_CFG_MODE p) = 1 ∨ u.fld (F.MSU_PSI_CFG_MODE p) = 2
      let up := high != u.bit (F.MSU_PSI_CFG_INV p)
      (¬ on → t = u) ∧
      (on → Frame [R.MSU_PSI_X p, R.MSU_STAT] [143] [] { u with msu := t.msu } t ∧
        (u.psi p = [] → t.psi p = [(u.mono, up)]) ∧
        (∀ t0 u0 l, u.psi p = (t0, u0) :: l → t.psi p = if u0 = up then u.psi p
          else if u.mono < t0 + u.fld (F.MSU_PSI_CFG_FLT p) * 20 then l else ((u.mono, up) :: u.psi p).take 10) ∧
        ∀ w, u.psiX p u.mono = some w → t.rd (R.MSU_PSI_X p) = w ∧ (u.psiOk p u.mono w = false → t.bit F.MSU_STAT_PSI_INV = true))) ∧
    (s.Answers (.psiTimeout time p) time fun u t =>
      let due : Prop := (u.fld (F.MSU_PSI_CFG_MODE p) = 1 ∨ u.fld (F.MSU_PSI_CFG_MODE p) = 2) ∧
        ∀ e, (u.psiEdges p u.mono).find? (·.2) = some e → e.1 + u.fld (F.MSU_PSI_TMO_TMO p) * 1000 ≤ u.mono
      Frame [R.MSU_PSI_X p, R.MSU_STAT] [143] [] { u with msu := t.msu } t ∧ (∀ w, u.psiX p u.mono = some w → t.rd (R.MSU_PSI_X p) = w) ∧
      (¬ due → t.msu = u.msu) ∧ (due → t.psi p = [] ∧ t.bit F.MSU_STAT_PSI_INV = true)) ∧
    s.Answers (.calFactorWrite time f gain v) time fun w t =>
      let u := w.calStep
      let onChip : Option Nat := if f.val < 12 then some f.val else if f.val < 20 then none else some (f.val - 8)
      let reg := if f.val < 12 then (if gain then R.MSU_MD_GCAL f else R.MSU_MD_OCAL f)
        else if f.val < 20 then (if gain then R.MSU_MDX_GCAL (f.val - 12) else R.MSU_MDX_OCAL (f.val - 12))
        else (if gain then R.MSU_SAR_GCAL (f.val - 20) else R.MSU_SAR_OCAL (f.val - 20))
      let bad : Prop := (∃ c, onChip = some c ∧ u.calibrating c = true) ∨
        (gain = true ∧ (fbad32 v = true ∨ fltRat v 9 10 = true ∨ fltRat (fneg32 v) (-11) 10 = true))
      (bad → t.bit F.MSU_STAT_CFG_ERR = true ∧ Frame [R.MSU_STAT] [144] [] u t) ∧
      (¬ bad → t.rd reg = (if gain then v else v &&& 0xFFFFFF) ∧ Frame [reg, R.MSU_CAL_STAT] [] [] u t ∧
        ∀ c, onChip = some c → t.fbit F.MSU_CAL_STAT_CAL_VALID c = true)

/-- STATION_FRAME_RECEIVED on an enabled pair: one with a bad FCS or length counts in RXERR_CNT alone; a sound one counts
in RXOK_CNT and ends its LAN's silence. On a pair without redundancy one whose address no filter accepts goes no
further; a PTP frame that the hardware does not serve counts in IGN_CNT; one that it serves goes into ring 0, where
the head descriptor owned by the unit takes its bytes, LEN, STATUS and time and HEAD advances, or, without one, counts
in NOBUF with source 66 and the ring stops. On a PRP or HSR pair a copy seen within FORGET counts in DUP_CNT. A TAIL
write starts an idle transmit ring whose head descriptor is owned and sound (once the record store is ready) and stops
at one that is not owned; a receive ring of size above 0 runs. A frame sent counts in TXOK_CNT and its bytes have
left, a one-step Sync with its time in them, a forwarded Sync on the PTP pair with its residence and a link delay
(free value, log entry 123) in its correctionField. DUP_ENTRY_EXPIRY drops the oldest entry after FORGET ms.
LAN_SILENT after 1 s flags the LAN with source 65; STATION_LINK_CHANGE follows the lock of the lane with source 64. -/
def Obligations.StationPortsReceiveAndSend : Prop :=
  ∀ (s : State) (time : Nat) (port : Fin 4) (f : StFrame) (pair : Fin 2) (tx locked : Bool) (q : Fin 4) (tail : Fin 4096),
    let p := port.val / 2
    let silentBit := if port.val % 2 = 0 then F.SPU_PAIR_STAT_LAN_A_SILENT p else F.SPU_PAIR_STAT_LAN_B_SILENT p
    (s.Answers (.stationFrame time port f) time fun u t =>
      let sound : Prop := f.fcsOk = true ∧ 64 ≤ f.bytes.length + 4 ∧ f.bytes.length + 4 ≤ 1528
      let red := u.isPrp p || u.isHsr p
      let a := u.rxDesc p 0
      let buf := u.mleFrom a 5
      let data := f.bytes.take (u.descU16 a 8).toNat
      let free : Prop := u.drc.ready = true ∧ u.rxActive p 0 = true ∧ (u.descU16 a 12).getLsbD 15 = true
      let ptp : Prop := u.macAccepts p f.da = true ∧ f.etype = 0x88F7 ∧ u.ptpIgnored p f = false
      (u.bit (F.SPU_PAIR_CTL_EN p) = false → t = u) ∧
      (u.bit (F.SPU_PAIR_CTL_EN p) = true → ¬ sound → Counted (F.SPU_PORT_RXERR_CNT_V port) u t ∧ Frame [R.SPU_PORT_RXERR_CNT port] [] [] u t) ∧
      (u.bit (F.SPU_PAIR_CTL_EN p) = true → sound →
        Counted (F.SPU_PORT_RXOK_CNT_V port) u t ∧ t.bit silentBit = false ∧ (t.stPort port).rx = u.mono ∧
        (red = false → u.macAccepts p f.da = false → Frame [R.SPU_PORT_RXOK_CNT port, R.SPU_PAIR_STAT p] [] [] { u with spu := t.spu } t) ∧
        (∀ n l, red = true → f.red = some (n, l) → u.dupSeen p f.sa n = true → f.sa ≠ u.ownMac p → u.macAccepts p f.da = true →
          Counted (F.SPU_PAIR_DUP_CNT_V p) u t ∧
            Frame [R.SPU_PORT_RXOK_CNT port, R.SPU_PAIR_STAT p, R.SPU_PAIR_WRONG_LAN p, R.SPU_PAIR_DUP_CNT p] [65] [] { u with spu := t.spu } t) ∧
        (red = false → u.macAccepts p f.da = true → f.etype = 0x88F7 → u.ptpIgnored p f = true → Counted F.SPU_PTP_IGN_CNT_V u t ∧
          Frame [R.SPU_PORT_RXOK_CNT port, R.SPU_PAIR_STAT p, R.SPU_PTP_IGN_CNT] [] [] { u with spu := t.spu } t) ∧
        (red = false → ptp → ¬ free → Counted (F.SPU_PAIR_NOBUF_V p) u t ∧ t.rxActive p 0 = false ∧ t.pends 66 = true ∧ SameMem u t) ∧
        (red = false → ptp → free → a + 27 ≤ 0x200000000 →
          t.mleFrom (a + 10) 2 = f.bytes.length ∧ t.mleFrom (a + 12) 2 = rxStatus port 1 f.tag false ∧ t.mleFrom (a + 16) 8 = u.now % 2 ^ 64 ∧
            t.fld (F.SPU_PAIR_RX_HEAD_V p 0) = ringNext (u.fld (F.SPU_PAIR_RX_SIZE_SIZE p 0)) (u.fld (F.SPU_PAIR_RX_HEAD_V p 0)) % 4096 ∧
            (buf + data.length ≤ 0x200000000 → buf + data.length ≤ a + 10 ∨ a + 27 ≤ buf → t.mbytes buf data.length = data) ∧
            ∀ b, (b < buf ∨ buf + data.length ≤ b) → (b < a + 10 ∨ a + 27 ≤ b) → t.mb b = u.mb b))) ∧
    (s.Answers (.ringTailWrite time pair tx q tail) time fun u t =>
      let a := u.txDesc pair q
      let len := (u.descU16 a 8).toNat
      let own := (u.txCtl a).getLsbD 15
      let may : Prop := u.bit (F.SPU_PAIR_CTL_EN pair) = true ∧ u.fld (F.SPU_PAIR_TX_SIZE_SIZE pair q) ≠ 0 ∧ (u.txRing pair q).active = false
      (tx = true → t.fld (F.SPU_PAIR_TX_TAIL_V pair q) = tail ∧
        (¬ may → Frame [R.SPU_PAIR_TX_TAIL pair q] [] [] u t) ∧
        (may → u.drc.ready = false ∨ own = false ∨ (14 ≤ len ∧ len ≤ 1518) → Frame [R.SPU_PAIR_TX_TAIL pair q] [] [] { u with spu := t.spu } t ∧
          (t.txRing pair q).active = (!u.drc.ready || own))) ∧
      (tx = false → q.val = 3 → t = u) ∧
      (tx = false → q.val < 3 → t.fld (F.SPU_PAIR_RX_TAIL_V pair q) = tail ∧ Frame [R.SPU_PAIR_RX_TAIL pair q] [] [] { u with spu := t.spu } t ∧
        t.rxActive pair q = (decide (u.fld (F.SPU_PAIR_RX_SIZE_SIZE pair q) ≠ 0) || u.rxActive pair q))) ∧
    (s.Answers (.txFrameSent time port) time fun u t =>
      let x := u.stPort port
      (x.cur = none → t = u) ∧
      (∀ g m l, x.cur = some .fwd → x.fwd = (g, m) :: l → (t.stPort port).fwd = l ∧ Counted (F.SPU_PORT_TXOK_CNT_V port) u t ∧
        Frame [R.SPU_PORT_TXOK_CNT port] [] [] { u with spu := t.spu } t ∧
        ∃ bs, (t.stPort port).last =
            some { bytes := bs, tag := g.tag, red := g.red, lsdu := g.red.map (fun _ => lsduSize g.bytes), oneStep := none, forwarded := true } ∧
          match (if u.fld F.TBU_CTL_PTP_PAIR = p then ptpSyncAt g.bytes else none) with
          | some o => ∃ d, bs = correctBytes g.bytes o (u.mono - m + d)
          | none => bs = g.bytes) ∧
      ∀ r, r < 4 → x.cur = some (.ring r) →
        let buf := u.mbytes (u.mleFrom (u.txDesc p r) 5) (u.descU16 (u.txDesc p r) 8).toNat
        let sync := if (u.txCtl (u.txDesc p r)).getLsbD 13 then ptpSyncAt buf else none
        Counted (F.SPU_PORT_TXOK_CNT_V port) u t ∧
          (t.stPort port).last.map (·.bytes) = some ((sync.map (fun o => oneStepBytes buf o u.now)).getD buf)) ∧
    (s.Answers (.dupExpiry time pair) time fun u t =>
      (u.dupTable pair = [] → t = u) ∧
      ∀ e l, u.dupTable pair = e :: l → (u.dupLive pair e = true → t = u) ∧
        (u.dupLive pair e = false → t.dupTable pair = l ∧ Frame [] [] [] { u with spu := t.spu } t)) ∧
    (s.Answers (.lanSilent time port) time fun u t =>
      let due : Prop := u.bit (F.SPU_PAIR_CTL_EN p) = true ∧ u.isPrp p = true ∧ u.bit silentBit = false ∧ (u.stPort port).rx + 10 ^ 9 ≤ u.mono
      (¬ due → t = u) ∧ (due → t.bit silentBit = true ∧ t.pends 65 = true ∧ Frame [R.SPU_PAIR_STAT p] [65] [] u t)) ∧
    s.Answers (.stationLink time port locked) time fun u t =>
      let due : Prop := u.bit (F.SPU_PORT_STAT_BLOCK_LOCK port) ≠ locked ∧ u.pcsChange (64 + port) locked = true
      (¬ due → t = u) ∧
      (due → t.bit (F.SPU_PORT_STAT_BLOCK_LOCK port) = locked ∧
        t.bit (F.LPH_LANE_STAT_BLOCK_LOCK (64 + port.val)) = locked ∧ t.bit (F.SPU_PORT_STAT_LINK_CHG port) = true ∧ t.pends 64 = true ∧
        (locked = true → t.bit (F.SPU_PORT_STAT_SIG_DET port) = true) ∧
        Frame [R.SPU_PORT_STAT port, R.LPH_LANE_STAT (64 + port.val)] [64] [] { u with lanes := t.lanes } t)

/-- A write of TBU_OFS_IN_HI commits the offset to source 1: the source counts toward its 4 offsets (source 148 at the
fourth); where it is in use TBU_LAST_OFS shows it; where it is also qualified an armed step is used up and, for a
large offset, waits for a cycle start, a large one in any other state slews at 500 ppm against it, and one beyond 4
times LOCK_THR ends LOCK. A PPS_IN edge commits its distance from the nearest second to source 2; beyond 1 ms it
raises source 157 as well. SOURCE_LOST after 4 s clears the source; of the one in use LOCK ends and holdover starts.
PPS_IN_MISSING after 2 s reports once. PPS_OUT starts at a whole second and ends PPS_W ms later. STEP_REARM with
privilege arms the step, counts and raises source 159; without it has no effect. -/
def Obligations.TimeOffsetsSteerTheTimeBase : Prop :=
  ∀ (s : State) (time : Nat) (hi : BitVec 32) (src : Fin 5) (m : Acc),
    let committed (n : Nat) (d : Int) (u t : State) : Prop :=
      let x := u.timeSrc n
      let large : Prop := 16 * u.fld F.TBU_STEP_THR_V < d.natAbs
      let steps : Prop := u.bit F.TBU_STAT_STEP_ARM = true ∧ u.fld F.MDU_STAT_ARM_RUN = 0
      t.timeSrc n = { n := min 4 (x.n + 1), last := u.mono } ∧ (x.n = 3 → t.pends 148 = true) ∧ SameMem u t ∧
        (u.tbu.sel = n → t.rd R.TBU_LAST_OFS = lastOfs d ∧ (3 ≤ x.n →
          t.bit F.TBU_STAT_HOLD = false ∧ t.fld F.TBU_STAT_ACT_SRC = n ∧ (4 * (16 * u.fld F.TBU_LOCK_THR_LOCK_THR) < d.natAbs → t.bit F.TBU_STAT_LOCK = false) ∧
          (steps → t.bit F.TBU_STAT_STEP_ARM = false ∧ t.bit F.TBU_STAT_SLEW = false ∧ (large → t.tbu.step = some d)) ∧
          (¬ steps → large → t.bit F.TBU_STAT_SLEW = true ∧ t.tbu.target = if 0 < d then -rateMax else rateMax) ∧
          (¬ steps → ¬ large → t.bit F.TBU_STAT_SLEW = false)))
    (s.Answers (.ofsIn time hi) time fun u t =>
      t.rd R.TBU_OFS_IN_HI = hi ∧ committed 1 (hi ++ u.rd R.TBU_OFS_IN_LO : BitVec 64).toInt u t ∧
        Frame [R.TBU_OFS_IN_HI, R.TBU_LAST_OFS, R.TBU_STAT] [148, 150, 151, 152, 158] [] { u with tbu := t.tbu } t) ∧
    (s.Answers (.ppsInEdge time) time fun u t =>
      let r : Nat := (u.now - u.fld F.TBU_PPS_PPS_IN_DLY) % 10 ^ 9
      let d : Int := if r ≤ 500000000 then Int.ofNat r else Int.ofNat r - 1000000000
      t.tbu.lastPps = u.mono ∧ t.tbu.ppsMissing = false ∧ Frame [R.TBU_LAST_OFS, R.TBU_STAT] [148, 150, 151, 152, 157] [] { u with tbu := t.tbu } t ∧
        (1000000 < d.natAbs → t.pends 157 = true) ∧ committed 2 (16 * d) u t) ∧
    (s.Answers (.sourceLost time src) time fun u t =>
      let x := u.timeSrc src
      let due : Prop := x.n ≠ 0 ∧ x.last + 4 * 10 ^ 9 ≤ u.mono
      (¬ due → t = u) ∧
      (due → t.timeSrc src = {} ∧ (u.qualified src = true → t.pends 148 = true) ∧
        Frame [R.TBU_STAT] [148, 150, 151, 152] [0x60] { u with tbu := t.tbu } t ∧
        (u.tbu.sel = src.val → t.bit F.TBU_STAT_LOCK = false ∧ t.bit F.TBU_STAT_HOLD = true ∧ t.fld F.TBU_STAT_ACT_SRC = 0 ∧
          (u.qualified src = true → Sent 0x60 u t)))) ∧
    (s.Answers (.ppsInMissing time) time fun u t =>
      let due : Prop := u.tbu.ppsMissing = false ∧ u.tbu.lastPps + 2 * 10 ^ 9 ≤ u.mono
      (¬ due → t = u) ∧ (due → t.tbu = { u.tbu with ppsMissing := true } ∧ t.pends 157 = true ∧ Frame [] [157] [] { u with tbu := t.tbu } t)) ∧
    (s.Answers (.ppsOutStart time) time fun u t =>
      let due : Prop := (u.now + u.fld F.TBU_PPS_PPS_OUT_DLY) % 10 ^ 9 = 0
      (¬ due → t = u) ∧ (due → t = { u with tbu := { u.tbu with ppsOut := some u.mono } })) ∧
    (s.Answers (.ppsOutEnd time) time fun u t =>
      let due : Prop := ∃ n, u.tbu.ppsOut = some n ∧ n + u.fld F.TBU_PPS_PPS_W * 10 ^ 6 ≤ u.mono
      (¬ due → t = u) ∧ (due → t = { u with tbu := { u.tbu with ppsOut := none } })) ∧
    s.Answers (.stepRearm time m) time fun u t =>
      (u.priv m = false → t = u) ∧
      (u.priv m = true → t.bit F.TBU_STAT_STEP_ARM = true ∧ Counted F.TBU_STEP_CNT_REARM u t ∧ t.pends 159 = true ∧
        Frame [R.TBU_STAT, R.TBU_STEP_CNT] [159] [] u.touchPriv t)

/-- TSI_EDGE ignores a pulse below FLT and an edge that EDGE does not select; a full FIFO counts it in OVF_CNT with source
154; else the stamp, less TSI_DLY, joins the FIFO and the recorder's triggers, and with EVT it makes a record of
source 153. A read of POP gives 0 on an empty FIFO, else VALID, EDGE and N of the oldest stamp, which TSL and TSH
show. A read of TIME_LO gives the low word of the count and latches the high word. GO of a timed output ends with ST 5
for a bad period or an instant not after the queued ones, 2 for one less than 2 Tc ahead without LATE_OK, 4 for a full
queue, each with source 155; else it is accepted, a late one at the next cycle start with ST 3 and source 156.
TSO_ACTION drives the oldest level at its instant, less TSO_DLY; in PERIODIC mode edges follow the grid. -/
def Obligations.TimestampInputsAndTimedOutputs : Prop :=
  ∀ (s : State) (time : Nat) (i : Fin 32) (o : Fin 8) (falling level : Bool) (pulse : Nat),
    (s.Answers (.tsiEdge time i falling pulse) time fun u t =>
      let sel := u.fld (F.TBU_TSI_CFG_EDGE i)
      let taken : Prop := u.fld (F.TBU_TSI_CFG_FLT i) ≤ pulse ∧ (sel = 3 ∨ sel = if falling then 2 else 1)
      let st := u.now - u.fld (F.TBU_TSI_CFG_TSI_DLY i)
      (¬ taken → t = u) ∧
      (taken → 16 ≤ (u.tsi i).length → Counted (F.TBU_TSI_OVF_CNT_V i) u t ∧ t.pends 154 = true ∧ Frame [R.TBU_TSI_OVF_CNT i] [154] [] u t) ∧
      (taken → (u.tsi i).length < 16 →
        t.tsi i = u.tsi i ++ [(st, falling)] ∧ (∀ j, j ≠ i.val → t.tsi j = u.tsi j) ∧
          t.drc = { u.drc with hits := u.drc.hits ++ [⟨5, i.val * 2 + (if falling then 1 else 0), st⟩] } ∧
          Frame [] [153] [] { u with tbu := t.tbu, drc := t.drc } t ∧
          (u.bit (F.TBU_TSI_CFG_EVT i) = true → t.pends 153 = true ∧ ∃ r ∈ t.evr.inbox, r.src = 153 ∧ r.time = u.now ∧ r.value = BitVec.ofNat 32 i) ∧
          (u.bit (F.TBU_TSI_CFG_EVT i) = false → t.regs = u.regs))) ∧
    (s.Answers (.tsiPop time i) time fun u t =>
      (u.tsi i = [] → t = u.gave 0) ∧
      ∀ st f l, u.tsi i = (st, f) :: l →
        let v := t.hcp.readVal
        t.tsi i = l ∧ t.fld64 (F.TBU_TSI_TSL_V i) (F.TBU_TSI_TSH_V i) = st % 2 ^ 64 ∧ (F.TBU_TSI_POP_VALID i).get v = 1 ∧
          (F.TBU_TSI_POP_EDGE i).get v = (if f then 1 else 0) ∧ (F.TBU_TSI_POP_N i).get v = (l.length + 1) % 32 ∧
          Frame [R.TBU_TSI_TSL i, R.TBU_TSI_TSH i] [] [] { u.gave v with tbu := t.tbu } t) ∧
    (s.Answers (.timeLoRead time) time fun u t =>
      t.rd R.TBU_TIME_HI = BitVec.ofNat 32 (u.now / 2 ^ 32) ∧ Frame [R.TBU_TIME_HI] [] [] (u.gave (BitVec.ofNat 32 u.now)) t) ∧
    (s.Answers (.tsoGo time o level) time fun u t =>
      let ts := u.fld64 (F.TBU_TSO_TL_V o) (F.TBU_TSO_TH_V o)
      let late := decide (ts < u.now + 2 * u.tc)
      let at' := if late then (u.cycNow + 1) * u.tc else ts
      let period := u.fld (F.TBU_TSO_PERIOD_V o)
      let high := u.fld (F.TBU_TSO_HIGH_V o)
      let periodic := u.bit (F.TBU_TSO_CTL_MODE o)
      let ends (c : Nat) : Prop := t.fld (F.TBU_TSO_CTL_ST o) = c ∧ t.pends 155 = true ∧ Frame [R.TBU_TSO_CTL o] [155] [] u t
      if periodic = true ∧ (period < 100 ∨ period ≤ high) then ends 5
      else if late = true ∧ u.bit (F.TBU_TSO_CTL_LATE_OK o) = false then ends 2
      else if periodic = false ∧ 4 ≤ (u.tso o).queue.length then ends 4
      else if periodic = false ∧ ∃ a ∈ (u.tso o).queue, at' ≤ a.at' then ends 5
      else
        Frame [R.TBU_TSO_CTL o] [156] [] { u with tbu := t.tbu } t ∧
          (periodic = true → t.tso o = { u.tso o with grid := some (at', period, high) }) ∧
          (periodic = false → t.tso o = { u.tso o with queue := (u.tso o).queue ++ [⟨at', level, late⟩] } ∧
            t.fld (F.TBU_TSO_CTL_DEPTH o) = (u.tso o).queue.length + 1) ∧
          (late = true → t.fld (F.TBU_TSO_CTL_ST o) = 3 ∧ t.pends 156 = true)) ∧
    (s.Answers (.tsoAction time o) time fun u t =>
      ((u.tso o).queue = [] → t = u) ∧
      ∀ a q, (u.tso o).queue = a :: q →
        let due : Prop := u.bit (F.TBU_TSO_CTL_MODE o) = false ∧ a.at' ≤ u.now + u.fld (F.TBU_TSO_CTL_TSO_DLY o)
        (¬ due → t = u) ∧
        (due → t.tso o = { u.tso o with level := some a.level, queue := q } ∧ t.tsoPin o = a.level ∧
          t.fld (F.TBU_TSO_CTL_ST o) = (if a.late then 3 else 1) ∧ t.fld (F.TBU_TSO_CTL_DEPTH o) = q.length % 8 ∧
          Frame [R.TBU_TSO_CTL o] [] [] { u with tbu := t.tbu } t)) ∧
    s.Answers (.tsoPeriodicEdge time o) time fun u t =>
      ((u.tso o).grid = none → t = u) ∧
      ∀ start period high, (u.tso o).grid = some (start, period, high) →
        let x := u.now + u.fld (F.TBU_TSO_CTL_TSO_DLY o)
        let ph := (x - start) % period
        let due : Prop := u.bit (F.TBU_TSO_CTL_MODE o) = true ∧ start ≤ x ∧ (ph = 0 ∨ ph = high)
        (¬ due → t = u) ∧
        (due → t.tso o = { u.tso o with level := some (decide (ph < high)) } ∧ Frame [] [] [] { u with tbu := t.tbu } t)

/-- RECORD_CLOSE, once the last cycle of the open record has been sampled, closes its entry at the last cycle written,
marked BY_MASK where a mask with STOP was violated (the DRC then enters STOPPED with source 213), clears OPEN, source
209; earlier, or without one, it has no effect. DRC_ARM and DRC_DISARM wait for P0 and cancel each other. The release
of an open or EXPORTING entry sets CFG_ERR; of a closed one it empties the entry in the directory and its NV copy; of
any other it has no effect. A write of PDATA without privilege has no effect, with a record open it sets CFG_ERR, else
it sets the point at PADDR (below 1,024) and advances it. DONE of an entry that is being exported ends that, clears
READY where the setup shows that entry, and raises source 214 where what was exported was torn. -/
def Obligations.RecorderCommandsAndRecords : Prop :=
  ∀ (s : State) (time : Nat) (entry : Fin 1024) (by' : Acc) (m : Fin 16) (v : BitVec 32),
    let dirMem (u : State) (i a : Nat) : Prop := (u.drcBase + 64 * i ≤ a ∧ a < u.drcBase + 64 * i + 64) ∨ (nvDirBase + 64 * i ≤ a ∧ a < nvDirBase + 64 * i + 64)
    (s.Answers (.recordClose time) time fun u t =>
      let due : Prop := ∃ o k, u.drc.open' = some o ∧ u.drc.lastK = some k ∧ min o.endT (o.maskEnd.getD o.endT) < (k + 1) * u.tc
      (¬ due → t = u) ∧
      (due → ∀ o, u.drc.open' = some o →
        let byMask := o.maskEnd.isSome
        let e := ((({ u.dir o.entry with stop := o.lastT, stopOfs := o.lastOfs }.with' fOpen false).with' fClosed true).with' fByMask byMask).with' fPfail false
        t.mbytes (u.drcBase + 64 * o.entry) 64 = e.bytes ∧ t.drc = { u.drc with open' := none, meas := [] } ∧ t.bit F.DRC_STAT_OPEN = false ∧
          t.pends 209 = true ∧ (byMask = true → t.bit F.DRC_STAT_STOPPED = true ∧ t.bit F.DRC_STAT_ARMED = false ∧ t.pends 213 = true) ∧
          ((∀ c ∈ u.drc.meas, c.1 < 256) → StoreFrame (fun a => dirMem u o.entry a ∨ (u.drcMeas o.entry ≤ a ∧ a < u.drcMeas o.entry + 6144))
            [R.DRC_STAT, R.DRC_CTL] [209, 213] [] { u with drc := t.drc } t))) ∧
    (s.Answers (.drcArm time) time fun u t => t = { u with drc := { u.drc with armReq := true, disarmReq := false } }) ∧
    (s.Answers (.drcDisarm time) time fun u t => t = { u with drc := { u.drc with disarmReq := true, armReq := false } }) ∧
    (s.Answers (.drcRel time entry) time fun u t =>
      let e := u.dir entry
      (e.has fOpen = true ∨ e.has fExporting = true → t.bit F.DRC_STAT_CFG_ERR = true ∧ Frame [R.DRC_STAT] [] [] u t) ∧
      (e.has fOpen = false → e.has fExporting = false → e.has fClosed = false → t = u) ∧
      (e.has fOpen = false → e.has fExporting = false → e.has fClosed = true →
        t.mbytes (u.drcBase + 64 * entry.val) 64 = DirEnt.bytes {} ∧ t.mbytes (nvDirBase + 64 * entry.val) 64 = DirEnt.bytes {} ∧
          StoreFrame (dirMem u entry) [R.DRC_STAT] [] [] u t)) ∧
    (s.Answers (.mskPdataWrite time by' m v) time fun u t =>
      let p := u.fld (F.DRC_MSK_PADDR_POINT m)
      (u.priv by' = false → t = u) ∧
      (u.priv by' = true → u.drc.open'.isSome = true → t.bit F.DRC_STAT_CFG_ERR = true ∧ Frame [R.DRC_STAT] [] [] u.touchPriv t) ∧
      (u.priv by' = true → u.drc.open' = none → t.fld (F.DRC_MSK_PADDR_POINT m) = (p + 1) % 2048 ∧
        (p < 1024 → t.mskPoint m (u.fld (F.DRC_MSK_PADDR_SIDE m) != 0) p = v) ∧
        (1024 ≤ p → t.drc = u.drc) ∧ Frame [R.DRC_MSK_PADDR m] [] [] { u.touchPriv with drc := t.drc } t)) ∧
    s.Answers (.exportDone time) time fun u t =>
      let i := u.fld F.DRC_EXP_CTL_ENTRY
      let e := u.dir i
      (e.has fExporting = false → t = u) ∧
      (e.has fExporting = true → t.mbytes (u.drcBase + 64 * i) 64 = (e.with' fExporting false).bytes ∧
        t.bit F.DRC_EXP_STAT_READY = (decide (u.fld F.DRC_EXP_STAT_ENTRY ≠ i) && u.bit F.DRC_EXP_STAT_READY) ∧
        (e.has fTorn = true → t.pends 214 = true) ∧ StoreFrame (dirMem u i) [R.DRC_STAT, R.DRC_EXP_STAT] [214] [] u t)

/-- APW_PERIOD_BOUNDARY at the next boundary of a channel takes the staged values that reached it 8 ns before (PHASE with
PERIOD, or after UPDLK cleared; none while UPDLK holds or where it cleared later than that), the force that waits for
it, and starts a period of ACTP ticks (of an ALIGN = 0 channel); before it there is no effect. A filtered trip input
that becomes active, TFLT or more after its last change, outside its blanking, or is active when that ends, trips
every channel that masks it: TRIPPED, TRIP_CNT, carry 0, source 165. APW_FLT_N low sets FLT with source 166, clears
the carries and puts every channel's pins into high impedance; high again it stays set until FLT_CLR with the input
high. TRIP_CLR releases a latching channel with no masked input active. FORCE_GO applies FORCE_VAL to the masked
channels at once or at their next boundary (GO), source 167. -/
def Obligations.ApwBoundariesTripsAndForces : Prop :=
  ∀ (s : State) (time : Nat) (c : Fin 12) (i : Fin 8) (active atBnd : Bool),
    let trips (u t : State) : Prop :=
      (∀ d, d < 12 → u.fbit (F.APW_CH_CTL_TRIP_MASK d) i = true → t.bit (F.APW_CH_STAT_TRIPPED d) = true ∧ t.fbit F.APW_STAT_TRIPPED d = true ∧
        Counted (F.APW_CH_TRIP_CNT_V d) u t ∧ t.fld (F.APW_CH_CARRY_V d) = 0 ∧ t.pends 165 = true) ∧
      (∀ d, d < 12 → u.fbit (F.APW_CH_CTL_TRIP_MASK d) i = false → t.rd (R.APW_CH_STAT d) = u.rd (R.APW_CH_STAT d) ∧ t.apwCh d = u.apwCh d) ∧
      t.apw.trip = u.apw.trip ∧
      Frame (R.APW_STAT :: (List.range 12).flatMap fun d => [R.APW_CH_STAT d, R.APW_CH_TRIP_CNT d, R.APW_CH_CARRY d]) [165] [] { u with apw := t.apw } t
    (s.Answers (.apwBoundary time c) time fun u t =>
      let x := u.apwCh c
      let locked := u.fbit F.APW_UPDLK_V c
      ((∀ b, x.nextBoundary = some b → u.mono < b) → t = u) ∧
      ∀ b, x.nextBoundary = some b → b ≤ u.mono →
        let opens : Prop := locked = false ∧ ∀ w, x.unlock = some w → w + 8 ≤ b
        let takes (w : Option Nat) : Prop := opens ∧ inTime w b = true
        let phased : Prop := takes x.wPhase ∧ (inTime x.wPeriod b = true ∨ x.unlock.isSome = true ∨ x.phaseDue = true)
        (t.apwCh c).run.map (·.1) = some b ∧ (t.apwCh c).first = none ∧ (t.apwCh c).wait = none ∧ (t.apwCh c).force = x.wait.getD x.force ∧
          (u.bit (F.APW_CH_CTL_ALIGN c) = false → (t.apwCh c).run = some (b, max 1 (t.fld (F.APW_CH_ACTP_V c) * 2))) ∧
          (takes x.wPeriod → t.rd (R.APW_CH_ACTP c) = u.rd (R.APW_CH_PERIOD c)) ∧
          (¬ takes x.wPeriod → t.rd (R.APW_CH_ACTP c) = u.rd (R.APW_CH_ACTP c)) ∧
          (takes x.wDuty → t.rd (R.APW_CH_ACTD c) = u.rd (R.APW_CH_DUTY c)) ∧
          (¬ takes x.wDuty → t.rd (R.APW_CH_ACTD c) = u.rd (R.APW_CH_ACTD c)) ∧
          (phased → (t.apwCh c).phase = u.fld (F.APW_CH_PHASE_V c)) ∧ (¬ phased → (t.apwCh c).phase = x.phase) ∧ (∀ d, d ≠ c.val → t.apwCh d = u.apwCh d) ∧
          Frame [R.APW_CH_ACTP c, R.APW_CH_ACTD c, R.APW_CH_CARRY c, R.APW_CH_STAT c, R.APW_CH_CNT c, R.APW_STAT, R.APW_FORCE_CTL] [164, 168, 169] []
            { u with apw := t.apw } t) ∧
    (s.Answers (.apwTrip time i active) time fun u t =>
      let due : Prop := active ≠ u.tripOn i ∧ ∀ t0, spGet none u.apw.tripAt i = some t0 → t0 + u.fld (F.APW_TRIP_CFG_TFLT i) * 2 ≤ u.mono
      let v : State := { u with apw := { u.apw with trip := u.apw.trip ^^^ (1#8 <<< i.val), tripAt := spSet none u.apw.tripAt i (some u.mono) } }
      let acts := active && !v.blanked i
      (¬ due → t = u) ∧ (due → acts = false → t = v) ∧ (due → acts = true → trips v t)) ∧
    (s.Answers (.blankEnd time i) time fun u t =>
      let acts : Prop := u.tripOn i = true ∧ ∃ e, u.blankEnd i = some e ∧ e ≤ u.mono * 4 ∧ u.mono * 4 < e + 4
      (¬ acts → t = u) ∧ (acts → trips u t)) ∧
    (s.Answers (.apwFltLow time) time fun u t =>
      (u.apw.fltLow = true → t = u) ∧
      (u.apw.fltLow = false → t.apw.fltLow = true ∧ t.bit F.APW_STAT_FLT = true ∧ t.pends 166 = true ∧
        (∀ d, d < 12 → t.apwPins d = none ∧ t.fld (F.APW_CH_CARRY_V d) = 0) ∧
        Frame (R.APW_STAT :: (List.range 12).map R.APW_CH_CARRY) [166] [] { u with apw := t.apw } t)) ∧
    (s.Answers (.apwFltHigh time) time fun u t =>
      (u.apw.fltLow = false → t = u) ∧
      (u.apw.fltLow = true → t.bit F.APW_STAT_FLT = true ∧ t.pends 166 = true ∧
        Frame [R.APW_STAT] [166] [] { u with apw := { u.apw with fltLow := false } } t)) ∧
    (s.Answers (.fltClr time) time fun u t =>
      (u.apw.fltLow = true → t = u) ∧
      (u.apw.fltLow = false → t.bit F.APW_STAT_FLT = false ∧ Frame [R.APW_STAT] [] [] { u with apw := t.apw } t)) ∧
    (s.Answers (.tripClr time c) time fun u t =>
      let may : Prop := u.bit (F.APW_CH_CTL_TMODE c) = false ∧ u.tripHeld c = false
      (¬ may → t = u) ∧
      (may → t.bit (F.APW_CH_STAT_TRIPPED c) = false ∧ t.fbit F.APW_STAT_TRIPPED c = false ∧
        Frame [R.APW_CH_STAT c, R.APW_STAT] [] [] { u with apw := t.apw } t)) ∧
    s.Answers (.forceGo time atBnd) time fun u t =>
      t.pends 167 = true ∧ t.bit F.APW_FORCE_CTL_AT_BND = atBnd ∧
        t.bit F.APW_FORCE_CTL_GO = (List.range 12).any (fun d => (t.apwCh d).wait.isSome) ∧
        (∀ d, d < 12 →
          let val := u.fld F.APW_FORCE_VAL_V / 2 ^ (2 * d) % 4
          if u.fbit F.APW_FORCE_MASK_V d = false then (t.apwCh d).wait = none ∧ (t.apwCh d).force = (u.apwCh d).force
          else if atBnd then (t.apwCh d).wait = some val ∧ (t.apwCh d).force = (u.apwCh d).force
          else (t.apwCh d).wait = none ∧ (t.apwCh d).force = val) ∧
        Frame (R.APW_FORCE_CTL :: (List.range 12).map R.APW_CH_CARRY) [167] [] { u with apw := t.apw } t
end

