-- ==== Sys2Proof/Laws/Sparse.lean ====
section
/-! SUPPORT. Laws of sparse maps: what a read gives after a write, and the canonical form. -/

namespace Sys2Proof.Machine

variable {α : Type}

theorem spGet_spIns_self (d v : α) (m : Sparse α) (i : Nat) : spGet d (spIns m i v) i = v := by
  induction m with
  | nil => simp [spIns, spGet]
  | cons c m ih =>
    obtain ⟨k, w⟩ := c
    simp only [spIns]
    split
    · simp [spGet]
    · split <;> simp_all [spGet]

theorem spGet_spIns_ne (d v : α) (m : Sparse α) (i j : Nat) (h : j ≠ i) : spGet d (spIns m i v) j = spGet d m j := by
  induction m with
  | nil => simp [spIns, spGet, h]
  | cons c m ih =>
    obtain ⟨k, w⟩ := c
    simp only [spIns]
    split
    · subst_vars; simp [spGet, h]
    · split <;> simp_all [spGet]

theorem spGet_spDel_self (d : α) (m : Sparse α) (i : Nat) : spGet d (spDel m i) i = d := by
  induction m with
  | nil => simp [spDel, spGet]
  | cons c m ih =>
    obtain ⟨k, w⟩ := c
    by_cases hk : k = i
    · simpa [spDel, hk, List.filter_cons] using ih
    · have : i ≠ k := fun e => hk e.symm
      simpa [spDel, hk, List.filter_cons, spGet, this] using ih

theorem spGet_spDel_ne (d : α) (m : Sparse α) (i j : Nat) (h : j ≠ i) : spGet d (spDel m i) j = spGet d m j := by
  induction m with
  | nil => simp [spDel, spGet]
  | cons c m ih =>
    obtain ⟨k, w⟩ := c
    by_cases hk : k = i
    · have : j ≠ k := fun e => h (e.trans hk)
      simpa [spDel, hk, List.filter_cons, spGet, this, h] using ih
    · simp only [spDel, List.filter_cons, hk, decide_false, Bool.not_false, if_true, spGet] at ih ⊢
      split
      · rfl
      · exact ih

variable [DecidableEq α]

/-- A read after a write to the same index gives what was written. -/
@[simp] theorem spGet_spSet_self (d v : α) (m : Sparse α) (i : Nat) : spGet d (spSet d m i v) i = v := by
  unfold spSet
  split
  · rename_i h; simp [spGet_spDel_self, h]
  · exact spGet_spIns_self d v m i

/-- A write leaves every other index alone; the two defaults may differ by index. -/
theorem spGet_spSet_ne (d e v : α) (m : Sparse α) (i j : Nat) (h : j ≠ i) : spGet e (spSet d m i v) j = spGet e m j := by
  unfold spSet
  split
  · exact spGet_spDel_ne e m i j h
  · exact spGet_spIns_ne e v m i j h

/-! ## The canonical form -/

theorem spWfFrom_mono (d : Nat → α) {lo lo' : Nat} (h : lo' ≤ lo) : ∀ {m : Sparse α}, spWfFrom d lo m = true → spWfFrom d lo' m = true
  | [], _ => rfl
  | (k, v) :: m, hw => by
    simp only [spWfFrom, Bool.and_eq_true, decide_eq_true_eq] at hw ⊢
    exact ⟨⟨h.trans hw.1.1, hw.1.2⟩, hw.2⟩

theorem spWfFrom_filter (d : Nat → α) (p : Nat × α → Bool) : ∀ {lo : Nat} {m : Sparse α}, spWfFrom d lo m = true → spWfFrom d lo (m.filter p) = true
  | _, [], _ => rfl
  | lo, (k, v) :: m, hw => by
    simp only [spWfFrom, Bool.and_eq_true, decide_eq_true_eq] at hw
    have ih := spWfFrom_filter d p hw.2
    rw [List.filter_cons]
    split
    · simp only [spWfFrom, Bool.and_eq_true, decide_eq_true_eq]; exact ⟨hw.1, ih⟩
    · exact spWfFrom_mono d (by omega) ih

theorem spWfFrom_spIns (d : Nat → α) (i : Nat) (v : α) (hv : v ≠ d i) :
    ∀ {lo : Nat} {m : Sparse α}, lo ≤ i → spWfFrom d lo m = true → spWfFrom d lo (spIns m i v) = true
  | lo, [], hl, _ => by simp [spIns, spWfFrom, hl, hv]
  | lo, (k, w) :: m, hl, hw => by
    simp only [spWfFrom, Bool.and_eq_true, decide_eq_true_eq] at hw
    simp only [spIns]
    split
    · subst_vars; simp [spWfFrom, hl, hv, hw.2]
    · split
      · simp only [spWfFrom, Bool.and_eq_true, decide_eq_true_eq]
        exact ⟨⟨hl, by simp [hv]⟩, ⟨by omega, hw.1.2⟩, hw.2⟩
      · simp only [spWfFrom, Bool.and_eq_true, decide_eq_true_eq]
        exact ⟨hw.1, spWfFrom_spIns d i v hv (by omega) hw.2⟩

/-- A write keeps the canonical form. -/
theorem spWf_spSet (d : Nat → α) (m : Sparse α) (i : Nat) (v : α) (h : spWf d m = true) : spWf d (spSet (d i) m i v) = true := by
  unfold spSet
  split
  · exact spWfFrom_filter d _ h
  · rename_i hv; exact spWfFrom_spIns d i v hv (Nat.zero_le i) h

theorem spWf_filter (d : Nat → α) (p : Nat × α → Bool) (m : Sparse α) (h : spWf d m = true) : spWf d (m.filter p) = true :=
  spWfFrom_filter d p h

end Sys2Proof.Machine
end

