-- ==== Sys2Proof/Laws/Registers.lean ====
section
/-! SUPPORT. Laws of registers and their fields: what each named operation of Machine/Ops.lean on registers does, once. -/

namespace Sys2Proof.Machine

/-! ## Words -/

/-- A register read after a write to it. -/
@[simp] theorem rd_wr_self (s : State) (a : Nat) (v : BitVec 32) : (s.wr a v).rd a = v := by simp [State.rd, State.wr]

/-- A write leaves every other register alone. -/
theorem rd_wr_ne (s : State) (a b : Nat) (v : BitVec 32) (h : b ≠ a) : (s.wr a v).rd b = s.rd b := by
  simp [State.rd, State.wr, spGet_spSet_ne _ _ _ _ _ _ h]

/-! ## Fields as bits of a word -/

/-- A field that lies within its word. -/
abbrev RF.ok (f : RF) : Prop := f.lo + f.w ≤ 32

/-- Two fields that share no bit of a word. -/
abbrev RF.apart (f g : RF) : Prop := f.lo + f.w ≤ g.lo ∨ g.lo + g.w ≤ f.lo

theorem RF.testBit_get (f : RF) (v : BitVec 32) (i : Nat) : (f.get v).testBit i = (decide (i < f.w) && v.getLsbD (f.lo + i)) := by
  simp [RF.get, Nat.testBit_mod_two_pow, Nat.testBit_div_two_pow, BitVec.getLsbD, Nat.add_comm]

theorem RF.getLsbD_put (f : RF) (v : BitVec 32) (x i : Nat) :
    (f.put v x).getLsbD i = (decide (i < 32) && if f.lo ≤ i ∧ i < f.lo + f.w then x.testBit (i - f.lo) else v.getLsbD i) := by
  by_cases hi : i < 32
  · simp only [RF.put, BitVec.getLsbD_or, BitVec.getLsbD_and, BitVec.getLsbD_not, hi, decide_true, Bool.true_and,
      BitVec.getLsbD_ofNat, BitVec.getLsbD_shiftLeft, Nat.testBit_mul_two_pow, Nat.testBit_two_pow_sub_one, Nat.testBit_mod_two_pow]
    by_cases h1 : f.lo ≤ i
    · by_cases h2 : i < f.lo + f.w
      · have h3 : i - f.lo < f.w := by omega
        have h4 : ¬ i < f.lo := by omega
        have h5 : i - f.lo < 32 := by omega
        simp [h1, h2, h3, h4, h5]
      · have h3 : ¬ i - f.lo < f.w := by omega
        simp [h1, h2, h3]
    · have h4 : i < f.lo := by omega
      simp [h1, h4]
  · simp [hi, BitVec.getLsbD_of_ge _ _ (by omega : 32 ≤ i)]

/-- A field read from a word in which it has been replaced. -/
theorem RF.get_put (f : RF) (v : BitVec 32) (x : Nat) (h : f.ok) : f.get (f.put v x) = x % 2 ^ f.w := by
  apply Nat.eq_of_testBit_eq
  intro i
  rw [RF.testBit_get, RF.getLsbD_put, Nat.testBit_mod_two_pow]
  by_cases hi : i < f.w
  · have h1 : f.lo + i < 32 := by simp only [RF.ok] at h; omega
    simp [hi, h1]
  · simp [hi]

/-- Replacing one field leaves the others of the word alone. -/
theorem RF.get_put_apart (f g : RF) (v : BitVec 32) (x : Nat) (h : g.ok) (ha : f.apart g) : g.get (f.put v x) = g.get v := by
  apply Nat.eq_of_testBit_eq
  intro i
  rw [RF.testBit_get, RF.testBit_get, RF.getLsbD_put]
  by_cases hi : i < g.w
  · have h1 : g.lo + i < 32 := by simp only [RF.ok] at h; omega
    have h2 : ¬ (f.lo ≤ g.lo + i ∧ g.lo + i < f.lo + f.w) := by simp only [RF.apart] at ha; omega
    simp [hi, h1, h2]
  · simp [hi]

/-! ## Fields of the state -/

/-- A field read after it has been set. -/
theorem fld_setFld_self (s : State) (f : RF) (x : Nat) (h : f.ok) : (s.setFld f x).fld f = x % 2 ^ f.w := by
  simp [State.fld, State.setFld, RF.get_put f _ x h]

/-- Setting a field leaves every field of another register alone. -/
theorem fld_setFld_ne (s : State) (f g : RF) (x : Nat) (h : g.addr ≠ f.addr) : (s.setFld f x).fld g = s.fld g := by
  simp [State.fld, State.setFld, rd_wr_ne _ _ _ _ h]

/-- Setting a field leaves the other fields of its register alone. -/
theorem fld_setFld_apart (s : State) (f g : RF) (x : Nat) (h : g.ok) (ha : f.apart g) : (s.setFld f x).fld g = s.fld g := by
  by_cases he : g.addr = f.addr
  · simp [State.fld, State.setFld, he, RF.get_put_apart f g _ x h ha]
  · exact fld_setFld_ne s f g x he

/-- A register read after another register's field has been set. -/
theorem rd_setFld_ne (s : State) (f : RF) (a x : Nat) (h : a ≠ f.addr) : (s.setFld f x).rd a = s.rd a := rd_wr_ne _ _ _ _ h

/-- A one-bit field read after it has been set. -/
theorem bit_setBit_self (s : State) (f : RF) (b : Bool) (h : f.ok) (hw : f.w = 1) : (s.setBit f b).bit f = b := by
  cases b <;> simp [State.bit, State.setBit, fld_setFld_self _ _ _ h, hw]

theorem bit_setFld_ne (s : State) (f g : RF) (x : Nat) (h : g.addr ≠ f.addr) : (s.setFld f x).bit g = s.bit g := by
  simp [State.bit, fld_setFld_ne _ _ _ _ h]

theorem bit_setBit_ne (s : State) (f g : RF) (b : Bool) (h : g.addr ≠ f.addr) : (s.setBit f b).bit g = s.bit g :=
  bit_setFld_ne s f g _ h

theorem bit_setBit_apart (s : State) (f g : RF) (b : Bool) (h : g.ok) (ha : f.apart g) : (s.setBit f b).bit g = s.bit g := by
  simp [State.bit, State.setBit, fld_setFld_apart _ _ _ _ h ha]

theorem fld_setBit_ne (s : State) (f g : RF) (b : Bool) (h : g.addr ≠ f.addr) : (s.setBit f b).fld g = s.fld g :=
  fld_setFld_ne s f g _ h

theorem fld_setBit_apart (s : State) (f g : RF) (b : Bool) (h : g.ok) (ha : f.apart g) : (s.setBit f b).fld g = s.fld g :=
  fld_setFld_apart s f g _ h ha

/-- A saturating counter after an increment. -/
theorem fld_addFld_self (s : State) (f : RF) (n : Nat) (h : f.ok) : (s.addFld f n).fld f = min (s.fld f + n) (2 ^ f.w - 1) := by
  rw [State.addFld, fld_setFld_self _ _ _ h]
  exact Nat.mod_eq_of_lt (by have := Nat.two_pow_pos f.w; omega)

theorem fld_inc_self (s : State) (f : RF) (h : f.ok) : (s.inc f).fld f = min (s.fld f + 1) (2 ^ f.w - 1) := fld_addFld_self s f 1 h

theorem fld_addFld_ne (s : State) (f g : RF) (n : Nat) (h : g.addr ≠ f.addr) : (s.addFld f n).fld g = s.fld g :=
  fld_setFld_ne s f g _ h

theorem fld_inc_ne (s : State) (f g : RF) (h : g.addr ≠ f.addr) : (s.inc f).fld g = s.fld g := fld_setFld_ne s f g _ h

theorem fld_setFbit_ne (s : State) (f g : RF) (b : Nat) (v : Bool) (h : g.addr ≠ f.addr) : (s.setFbit f b v).fld g = s.fld g :=
  fld_setFld_ne s f g _ h

end Sys2Proof.Machine
end

