-- ==== Sys2Proof/Laws/State.lean ====
section
/-! SUPPORT. What each basic update of the state leaves alone: one lemma per field and update, each true by unfolding, so that no proof
unfolds a record update. -/

namespace Sys2Proof.Machine

variable (s : State)

@[simp] theorem tick_pending (t : Nat) : (s.tick t).pending = s.pending := rfl
@[simp] theorem tick_freeCtr (t : Nat) : (s.tick t).freeCtr = s.freeCtr := rfl
@[simp] theorem tick_regs (t : Nat) : (s.tick t).regs = s.regs := rfl
@[simp] theorem tick_mem (t : Nat) : (s.tick t).mem = s.mem := rfl
@[simp] theorem tick_evr (t : Nat) : (s.tick t).evr = s.evr := rfl
@[simp] theorem tick_fco (t : Nat) : (s.tick t).fco = s.fco := rfl
@[simp] theorem tick_drc (t : Nat) : (s.tick t).drc = s.drc := rfl
@[simp] theorem tick_aon (t : Nat) : (s.tick t).aon = s.aon := rfl
@[simp] theorem tick_memu (t : Nat) : (s.tick t).memu = s.memu := rfl
@[simp] theorem tick_hcp (t : Nat) : (s.tick t).hcp = s.hcp := rfl
@[simp] theorem tick_sys (t : Nat) : (s.tick t).sys = s.sys := rfl
@[simp] theorem tick_lanes (t : Nat) : (s.tick t).lanes = s.lanes := rfl
@[simp] theorem tick_ports (t : Nat) : (s.tick t).ports = s.ports := rfl
@[simp] theorem tick_reports (t : Nat) : (s.tick t).reports = s.reports := rfl
@[simp] theorem tick_rdu (t : Nat) : (s.tick t).rdu = s.rdu := rfl
@[simp] theorem tick_cyc (t : Nat) : (s.tick t).cyc = s.cyc := rfl
@[simp] theorem tick_ltx (t : Nat) : (s.tick t).ltx = s.ltx := rfl
@[simp] theorem tick_sig (t : Nat) : (s.tick t).sig = s.sig := rfl
@[simp] theorem tick_sigNext (t : Nat) : (s.tick t).sigNext = s.sigNext := rfl
@[simp] theorem tick_sigHost (t : Nat) : (s.tick t).sigHost = s.sigHost := rfl
@[simp] theorem tick_sigUnc (t : Nat) : (s.tick t).sigUnc = s.sigUnc := rfl
@[simp] theorem tick_mdu (t : Nat) : (s.tick t).mdu = s.mdu := rfl
@[simp] theorem tick_cfg (t : Nat) : (s.tick t).cfg = s.cfg := rfl
@[simp] theorem tick_clu (t : Nat) : (s.tick t).clu = s.clu := rfl
@[simp] theorem tick_tds (t : Nat) : (s.tick t).tds = s.tds := rfl
@[simp] theorem tick_msu (t : Nat) : (s.tick t).msu = s.msu := rfl
@[simp] theorem tick_sfi (t : Nat) : (s.tick t).sfi = s.sfi := rfl
@[simp] theorem tick_tbu (t : Nat) : (s.tick t).tbu = s.tbu := rfl
@[simp] theorem tick_spu (t : Nat) : (s.tick t).spu = s.spu := rfl
@[simp] theorem tick_apw (t : Nat) : (s.tick t).apw = s.apw := rfl
@[simp] theorem tick_cfc (t : Nat) : (s.tick t).cfc = s.cfc := rfl

@[simp] theorem wr_pending (a : Nat) (v : BitVec 32) : (s.wr a v).pending = s.pending := rfl
@[simp] theorem wr_now (a : Nat) (v : BitVec 32) : (s.wr a v).now = s.now := rfl
@[simp] theorem wr_mono (a : Nat) (v : BitVec 32) : (s.wr a v).mono = s.mono := rfl
@[simp] theorem wr_freeCtr (a : Nat) (v : BitVec 32) : (s.wr a v).freeCtr = s.freeCtr := rfl
@[simp] theorem wr_mem (a : Nat) (v : BitVec 32) : (s.wr a v).mem = s.mem := rfl
@[simp] theorem wr_evr (a : Nat) (v : BitVec 32) : (s.wr a v).evr = s.evr := rfl
@[simp] theorem wr_fco (a : Nat) (v : BitVec 32) : (s.wr a v).fco = s.fco := rfl
@[simp] theorem wr_drc (a : Nat) (v : BitVec 32) : (s.wr a v).drc = s.drc := rfl
@[simp] theorem wr_aon (a : Nat) (v : BitVec 32) : (s.wr a v).aon = s.aon := rfl
@[simp] theorem wr_memu (a : Nat) (v : BitVec 32) : (s.wr a v).memu = s.memu := rfl
@[simp] theorem wr_hcp (a : Nat) (v : BitVec 32) : (s.wr a v).hcp = s.hcp := rfl
@[simp] theorem wr_sys (a : Nat) (v : BitVec 32) : (s.wr a v).sys = s.sys := rfl
@[simp] theorem wr_lanes (a : Nat) (v : BitVec 32) : (s.wr a v).lanes = s.lanes := rfl
@[simp] theorem wr_ports (a : Nat) (v : BitVec 32) : (s.wr a v).ports = s.ports := rfl
@[simp] theorem wr_reports (a : Nat) (v : BitVec 32) : (s.wr a v).reports = s.reports := rfl
@[simp] theorem wr_rdu (a : Nat) (v : BitVec 32) : (s.wr a v).rdu = s.rdu := rfl
@[simp] theorem wr_cyc (a : Nat) (v : BitVec 32) : (s.wr a v).cyc = s.cyc := rfl
@[simp] theorem wr_ltx (a : Nat) (v : BitVec 32) : (s.wr a v).ltx = s.ltx := rfl
@[simp] theorem wr_sig (a : Nat) (v : BitVec 32) : (s.wr a v).sig = s.sig := rfl
@[simp] theorem wr_sigNext (a : Nat) (v : BitVec 32) : (s.wr a v).sigNext = s.sigNext := rfl
@[simp] theorem wr_sigHost (a : Nat) (v : BitVec 32) : (s.wr a v).sigHost = s.sigHost := rfl
@[simp] theorem wr_sigUnc (a : Nat) (v : BitVec 32) : (s.wr a v).sigUnc = s.sigUnc := rfl
@[simp] theorem wr_mdu (a : Nat) (v : BitVec 32) : (s.wr a v).mdu = s.mdu := rfl
@[simp] theorem wr_cfg (a : Nat) (v : BitVec 32) : (s.wr a v).cfg = s.cfg := rfl
@[simp] theorem wr_clu (a : Nat) (v : BitVec 32) : (s.wr a v).clu = s.clu := rfl
@[simp] theorem wr_tds (a : Nat) (v : BitVec 32) : (s.wr a v).tds = s.tds := rfl
@[simp] theorem wr_msu (a : Nat) (v : BitVec 32) : (s.wr a v).msu = s.msu := rfl
@[simp] theorem wr_sfi (a : Nat) (v : BitVec 32) : (s.wr a v).sfi = s.sfi := rfl
@[simp] theorem wr_tbu (a : Nat) (v : BitVec 32) : (s.wr a v).tbu = s.tbu := rfl
@[simp] theorem wr_spu (a : Nat) (v : BitVec 32) : (s.wr a v).spu = s.spu := rfl
@[simp] theorem wr_apw (a : Nat) (v : BitVec 32) : (s.wr a v).apw = s.apw := rfl
@[simp] theorem wr_cfc (a : Nat) (v : BitVec 32) : (s.wr a v).cfc = s.cfc := rfl

@[simp] theorem setFld_pending (f : RF) (x : Nat) : (s.setFld f x).pending = s.pending := rfl
@[simp] theorem setFld_now (f : RF) (x : Nat) : (s.setFld f x).now = s.now := rfl
@[simp] theorem setFld_mono (f : RF) (x : Nat) : (s.setFld f x).mono = s.mono := rfl
@[simp] theorem setFld_freeCtr (f : RF) (x : Nat) : (s.setFld f x).freeCtr = s.freeCtr := rfl
@[simp] theorem setFld_mem (f : RF) (x : Nat) : (s.setFld f x).mem = s.mem := rfl
@[simp] theorem setFld_evr (f : RF) (x : Nat) : (s.setFld f x).evr = s.evr := rfl
@[simp] theorem setFld_fco (f : RF) (x : Nat) : (s.setFld f x).fco = s.fco := rfl
@[simp] theorem setFld_drc (f : RF) (x : Nat) : (s.setFld f x).drc = s.drc := rfl
@[simp] theorem setFld_aon (f : RF) (x : Nat) : (s.setFld f x).aon = s.aon := rfl
@[simp] theorem setFld_memu (f : RF) (x : Nat) : (s.setFld f x).memu = s.memu := rfl
@[simp] theorem setFld_hcp (f : RF) (x : Nat) : (s.setFld f x).hcp = s.hcp := rfl
@[simp] theorem setFld_sys (f : RF) (x : Nat) : (s.setFld f x).sys = s.sys := rfl
@[simp] theorem setFld_lanes (f : RF) (x : Nat) : (s.setFld f x).lanes = s.lanes := rfl
@[simp] theorem setFld_ports (f : RF) (x : Nat) : (s.setFld f x).ports = s.ports := rfl
@[simp] theorem setFld_reports (f : RF) (x : Nat) : (s.setFld f x).reports = s.reports := rfl
@[simp] theorem setFld_rdu (f : RF) (x : Nat) : (s.setFld f x).rdu = s.rdu := rfl
@[simp] theorem setFld_cyc (f : RF) (x : Nat) : (s.setFld f x).cyc = s.cyc := rfl
@[simp] theorem setFld_ltx (f : RF) (x : Nat) : (s.setFld f x).ltx = s.ltx := rfl
@[simp] theorem setFld_sig (f : RF) (x : Nat) : (s.setFld f x).sig = s.sig := rfl
@[simp] theorem setFld_sigNext (f : RF) (x : Nat) : (s.setFld f x).sigNext = s.sigNext := rfl
@[simp] theorem setFld_sigHost (f : RF) (x : Nat) : (s.setFld f x).sigHost = s.sigHost := rfl
@[simp] theorem setFld_sigUnc (f : RF) (x : Nat) : (s.setFld f x).sigUnc = s.sigUnc := rfl
@[simp] theorem setFld_mdu (f : RF) (x : Nat) : (s.setFld f x).mdu = s.mdu := rfl
@[simp] theorem setFld_cfg (f : RF) (x : Nat) : (s.setFld f x).cfg = s.cfg := rfl
@[simp] theorem setFld_clu (f : RF) (x : Nat) : (s.setFld f x).clu = s.clu := rfl
@[simp] theorem setFld_tds (f : RF) (x : Nat) : (s.setFld f x).tds = s.tds := rfl
@[simp] theorem setFld_msu (f : RF) (x : Nat) : (s.setFld f x).msu = s.msu := rfl
@[simp] theorem setFld_sfi (f : RF) (x : Nat) : (s.setFld f x).sfi = s.sfi := rfl
@[simp] theorem setFld_tbu (f : RF) (x : Nat) : (s.setFld f x).tbu = s.tbu := rfl
@[simp] theorem setFld_spu (f : RF) (x : Nat) : (s.setFld f x).spu = s.spu := rfl
@[simp] theorem setFld_apw (f : RF) (x : Nat) : (s.setFld f x).apw = s.apw := rfl
@[simp] theorem setFld_cfc (f : RF) (x : Nat) : (s.setFld f x).cfc = s.cfc := rfl

@[simp] theorem setBit_pending (f : RF) (b : Bool) : (s.setBit f b).pending = s.pending := rfl
@[simp] theorem setBit_now (f : RF) (b : Bool) : (s.setBit f b).now = s.now := rfl
@[simp] theorem setBit_mono (f : RF) (b : Bool) : (s.setBit f b).mono = s.mono := rfl
@[simp] theorem setBit_freeCtr (f : RF) (b : Bool) : (s.setBit f b).freeCtr = s.freeCtr := rfl
@[simp] theorem setBit_mem (f : RF) (b : Bool) : (s.setBit f b).mem = s.mem := rfl
@[simp] theorem setBit_evr (f : RF) (b : Bool) : (s.setBit f b).evr = s.evr := rfl
@[simp] theorem setBit_fco (f : RF) (b : Bool) : (s.setBit f b).fco = s.fco := rfl
@[simp] theorem setBit_drc (f : RF) (b : Bool) : (s.setBit f b).drc = s.drc := rfl
@[simp] theorem setBit_aon (f : RF) (b : Bool) : (s.setBit f b).aon = s.aon := rfl
@[simp] theorem setBit_memu (f : RF) (b : Bool) : (s.setBit f b).memu = s.memu := rfl
@[simp] theorem setBit_hcp (f : RF) (b : Bool) : (s.setBit f b).hcp = s.hcp := rfl
@[simp] theorem setBit_sys (f : RF) (b : Bool) : (s.setBit f b).sys = s.sys := rfl
@[simp] theorem setBit_lanes (f : RF) (b : Bool) : (s.setBit f b).lanes = s.lanes := rfl
@[simp] theorem setBit_ports (f : RF) (b : Bool) : (s.setBit f b).ports = s.ports := rfl
@[simp] theorem setBit_reports (f : RF) (b : Bool) : (s.setBit f b).reports = s.reports := rfl
@[simp] theorem setBit_rdu (f : RF) (b : Bool) : (s.setBit f b).rdu = s.rdu := rfl
@[simp] theorem setBit_cyc (f : RF) (b : Bool) : (s.setBit f b).cyc = s.cyc := rfl
@[simp] theorem setBit_ltx (f : RF) (b : Bool) : (s.setBit f b).ltx = s.ltx := rfl
@[simp] theorem setBit_sig (f : RF) (b : Bool) : (s.setBit f b).sig = s.sig := rfl
@[simp] theorem setBit_sigNext (f : RF) (b : Bool) : (s.setBit f b).sigNext = s.sigNext := rfl
@[simp] theorem setBit_sigHost (f : RF) (b : Bool) : (s.setBit f b).sigHost = s.sigHost := rfl
@[simp] theorem setBit_sigUnc (f : RF) (b : Bool) : (s.setBit f b).sigUnc = s.sigUnc := rfl
@[simp] theorem setBit_mdu (f : RF) (b : Bool) : (s.setBit f b).mdu = s.mdu := rfl
@[simp] theorem setBit_cfg (f : RF) (b : Bool) : (s.setBit f b).cfg = s.cfg := rfl
@[simp] theorem setBit_clu (f : RF) (b : Bool) : (s.setBit f b).clu = s.clu := rfl
@[simp] theorem setBit_tds (f : RF) (b : Bool) : (s.setBit f b).tds = s.tds := rfl
@[simp] theorem setBit_msu (f : RF) (b : Bool) : (s.setBit f b).msu = s.msu := rfl
@[simp] theorem setBit_sfi (f : RF) (b : Bool) : (s.setBit f b).sfi = s.sfi := rfl
@[simp] theorem setBit_tbu (f : RF) (b : Bool) : (s.setBit f b).tbu = s.tbu := rfl
@[simp] theorem setBit_spu (f : RF) (b : Bool) : (s.setBit f b).spu = s.spu := rfl
@[simp] theorem setBit_apw (f : RF) (b : Bool) : (s.setBit f b).apw = s.apw := rfl
@[simp] theorem setBit_cfc (f : RF) (b : Bool) : (s.setBit f b).cfc = s.cfc := rfl

@[simp] theorem inc_pending (f : RF) : (s.inc f).pending = s.pending := rfl
@[simp] theorem inc_now (f : RF) : (s.inc f).now = s.now := rfl
@[simp] theorem inc_mono (f : RF) : (s.inc f).mono = s.mono := rfl
@[simp] theorem inc_freeCtr (f : RF) : (s.inc f).freeCtr = s.freeCtr := rfl
@[simp] theorem inc_mem (f : RF) : (s.inc f).mem = s.mem := rfl
@[simp] theorem inc_evr (f : RF) : (s.inc f).evr = s.evr := rfl
@[simp] theorem inc_fco (f : RF) : (s.inc f).fco = s.fco := rfl
@[simp] theorem inc_drc (f : RF) : (s.inc f).drc = s.drc := rfl
@[simp] theorem inc_aon (f : RF) : (s.inc f).aon = s.aon := rfl
@[simp] theorem inc_memu (f : RF) : (s.inc f).memu = s.memu := rfl
@[simp] theorem inc_hcp (f : RF) : (s.inc f).hcp = s.hcp := rfl
@[simp] theorem inc_sys (f : RF) : (s.inc f).sys = s.sys := rfl
@[simp] theorem inc_lanes (f : RF) : (s.inc f).lanes = s.lanes := rfl
@[simp] theorem inc_ports (f : RF) : (s.inc f).ports = s.ports := rfl
@[simp] theorem inc_reports (f : RF) : (s.inc f).reports = s.reports := rfl
@[simp] theorem inc_rdu (f : RF) : (s.inc f).rdu = s.rdu := rfl
@[simp] theorem inc_cyc (f : RF) : (s.inc f).cyc = s.cyc := rfl
@[simp] theorem inc_ltx (f : RF) : (s.inc f).ltx = s.ltx := rfl
@[simp] theorem inc_sig (f : RF) : (s.inc f).sig = s.sig := rfl
@[simp] theorem inc_sigNext (f : RF) : (s.inc f).sigNext = s.sigNext := rfl
@[simp] theorem inc_sigHost (f : RF) : (s.inc f).sigHost = s.sigHost := rfl
@[simp] theorem inc_sigUnc (f : RF) : (s.inc f).sigUnc = s.sigUnc := rfl
@[simp] theorem inc_mdu (f : RF) : (s.inc f).mdu = s.mdu := rfl
@[simp] theorem inc_cfg (f : RF) : (s.inc f).cfg = s.cfg := rfl
@[simp] theorem inc_clu (f : RF) : (s.inc f).clu = s.clu := rfl
@[simp] theorem inc_tds (f : RF) : (s.inc f).tds = s.tds := rfl
@[simp] theorem inc_msu (f : RF) : (s.inc f).msu = s.msu := rfl
@[simp] theorem inc_sfi (f : RF) : (s.inc f).sfi = s.sfi := rfl
@[simp] theorem inc_tbu (f : RF) : (s.inc f).tbu = s.tbu := rfl
@[simp] theorem inc_spu (f : RF) : (s.inc f).spu = s.spu := rfl
@[simp] theorem inc_apw (f : RF) : (s.inc f).apw = s.apw := rfl
@[simp] theorem inc_cfc (f : RF) : (s.inc f).cfc = s.cfc := rfl

@[simp] theorem setFbit_pending (f : RF) (b : Nat) (v : Bool) : (s.setFbit f b v).pending = s.pending := rfl
@[simp] theorem setFbit_now (f : RF) (b : Nat) (v : Bool) : (s.setFbit f b v).now = s.now := rfl
@[simp] theorem setFbit_mono (f : RF) (b : Nat) (v : Bool) : (s.setFbit f b v).mono = s.mono := rfl
@[simp] theorem setFbit_freeCtr (f : RF) (b : Nat) (v : Bool) : (s.setFbit f b v).freeCtr = s.freeCtr := rfl
@[simp] theorem setFbit_mem (f : RF) (b : Nat) (v : Bool) : (s.setFbit f b v).mem = s.mem := rfl
@[simp] theorem setFbit_evr (f : RF) (b : Nat) (v : Bool) : (s.setFbit f b v).evr = s.evr := rfl
@[simp] theorem setFbit_fco (f : RF) (b : Nat) (v : Bool) : (s.setFbit f b v).fco = s.fco := rfl
@[simp] theorem setFbit_drc (f : RF) (b : Nat) (v : Bool) : (s.setFbit f b v).drc = s.drc := rfl
@[simp] theorem setFbit_aon (f : RF) (b : Nat) (v : Bool) : (s.setFbit f b v).aon = s.aon := rfl
@[simp] theorem setFbit_memu (f : RF) (b : Nat) (v : Bool) : (s.setFbit f b v).memu = s.memu := rfl
@[simp] theorem setFbit_hcp (f : RF) (b : Nat) (v : Bool) : (s.setFbit f b v).hcp = s.hcp := rfl
@[simp] theorem setFbit_sys (f : RF) (b : Nat) (v : Bool) : (s.setFbit f b v).sys = s.sys := rfl
@[simp] theorem setFbit_lanes (f : RF) (b : Nat) (v : Bool) : (s.setFbit f b v).lanes = s.lanes := rfl
@[simp] theorem setFbit_ports (f : RF) (b : Nat) (v : Bool) : (s.setFbit f b v).ports = s.ports := rfl
@[simp] theorem setFbit_reports (f : RF) (b : Nat) (v : Bool) : (s.setFbit f b v).reports = s.reports := rfl
@[simp] theorem setFbit_rdu (f : RF) (b : Nat) (v : Bool) : (s.setFbit f b v).rdu = s.rdu := rfl
@[simp] theorem setFbit_cyc (f : RF) (b : Nat) (v : Bool) : (s.setFbit f b v).cyc = s.cyc := rfl
@[simp] theorem setFbit_ltx (f : RF) (b : Nat) (v : Bool) : (s.setFbit f b v).ltx = s.ltx := rfl
@[simp] theorem setFbit_sig (f : RF) (b : Nat) (v : Bool) : (s.setFbit f b v).sig = s.sig := rfl
@[simp] theorem setFbit_sigNext (f : RF) (b : Nat) (v : Bool) : (s.setFbit f b v).sigNext = s.sigNext := rfl
@[simp] theorem setFbit_sigHost (f : RF) (b : Nat) (v : Bool) : (s.setFbit f b v).sigHost = s.sigHost := rfl
@[simp] theorem setFbit_sigUnc (f : RF) (b : Nat) (v : Bool) : (s.setFbit f b v).sigUnc = s.sigUnc := rfl
@[simp] theorem setFbit_mdu (f : RF) (b : Nat) (v : Bool) : (s.setFbit f b v).mdu = s.mdu := rfl
@[simp] theorem setFbit_cfg (f : RF) (b : Nat) (v : Bool) : (s.setFbit f b v).cfg = s.cfg := rfl
@[simp] theorem setFbit_clu (f : RF) (b : Nat) (v : Bool) : (s.setFbit f b v).clu = s.clu := rfl
@[simp] theorem setFbit_tds (f : RF) (b : Nat) (v : Bool) : (s.setFbit f b v).tds = s.tds := rfl
@[simp] theorem setFbit_msu (f : RF) (b : Nat) (v : Bool) : (s.setFbit f b v).msu = s.msu := rfl
@[simp] theorem setFbit_sfi (f : RF) (b : Nat) (v : Bool) : (s.setFbit f b v).sfi = s.sfi := rfl
@[simp] theorem setFbit_tbu (f : RF) (b : Nat) (v : Bool) : (s.setFbit f b v).tbu = s.tbu := rfl
@[simp] theorem setFbit_spu (f : RF) (b : Nat) (v : Bool) : (s.setFbit f b v).spu = s.spu := rfl
@[simp] theorem setFbit_apw (f : RF) (b : Nat) (v : Bool) : (s.setFbit f b v).apw = s.apw := rfl
@[simp] theorem setFbit_cfc (f : RF) (b : Nat) (v : Bool) : (s.setFbit f b v).cfc = s.cfc := rfl

@[simp] theorem setMb_pending (a : Nat) (v : Byte) : (s.setMb a v).pending = s.pending := rfl
@[simp] theorem setMb_now (a : Nat) (v : Byte) : (s.setMb a v).now = s.now := rfl
@[simp] theorem setMb_mono (a : Nat) (v : Byte) : (s.setMb a v).mono = s.mono := rfl
@[simp] theorem setMb_freeCtr (a : Nat) (v : Byte) : (s.setMb a v).freeCtr = s.freeCtr := rfl
@[simp] theorem setMb_regs (a : Nat) (v : Byte) : (s.setMb a v).regs = s.regs := rfl
@[simp] theorem setMb_evr (a : Nat) (v : Byte) : (s.setMb a v).evr = s.evr := rfl
@[simp] theorem setMb_fco (a : Nat) (v : Byte) : (s.setMb a v).fco = s.fco := rfl
@[simp] theorem setMb_drc (a : Nat) (v : Byte) : (s.setMb a v).drc = s.drc := rfl
@[simp] theorem setMb_aon (a : Nat) (v : Byte) : (s.setMb a v).aon = s.aon := rfl
@[simp] theorem setMb_memu (a : Nat) (v : Byte) : (s.setMb a v).memu = s.memu := rfl
@[simp] theorem setMb_hcp (a : Nat) (v : Byte) : (s.setMb a v).hcp = s.hcp := rfl
@[simp] theorem setMb_sys (a : Nat) (v : Byte) : (s.setMb a v).sys = s.sys := rfl
@[simp] theorem setMb_lanes (a : Nat) (v : Byte) : (s.setMb a v).lanes = s.lanes := rfl
@[simp] theorem setMb_ports (a : Nat) (v : Byte) : (s.setMb a v).ports = s.ports := rfl
@[simp] theorem setMb_reports (a : Nat) (v : Byte) : (s.setMb a v).reports = s.reports := rfl
@[simp] theorem setMb_rdu (a : Nat) (v : Byte) : (s.setMb a v).rdu = s.rdu := rfl
@[simp] theorem setMb_cyc (a : Nat) (v : Byte) : (s.setMb a v).cyc = s.cyc := rfl
@[simp] theorem setMb_ltx (a : Nat) (v : Byte) : (s.setMb a v).ltx = s.ltx := rfl
@[simp] theorem setMb_sig (a : Nat) (v : Byte) : (s.setMb a v).sig = s.sig := rfl
@[simp] theorem setMb_sigNext (a : Nat) (v : Byte) : (s.setMb a v).sigNext = s.sigNext := rfl
@[simp] theorem setMb_sigHost (a : Nat) (v : Byte) : (s.setMb a v).sigHost = s.sigHost := rfl
@[simp] theorem setMb_sigUnc (a : Nat) (v : Byte) : (s.setMb a v).sigUnc = s.sigUnc := rfl
@[simp] theorem setMb_mdu (a : Nat) (v : Byte) : (s.setMb a v).mdu = s.mdu := rfl
@[simp] theorem setMb_cfg (a : Nat) (v : Byte) : (s.setMb a v).cfg = s.cfg := rfl
@[simp] theorem setMb_clu (a : Nat) (v : Byte) : (s.setMb a v).clu = s.clu := rfl
@[simp] theorem setMb_tds (a : Nat) (v : Byte) : (s.setMb a v).tds = s.tds := rfl
@[simp] theorem setMb_msu (a : Nat) (v : Byte) : (s.setMb a v).msu = s.msu := rfl
@[simp] theorem setMb_sfi (a : Nat) (v : Byte) : (s.setMb a v).sfi = s.sfi := rfl
@[simp] theorem setMb_tbu (a : Nat) (v : Byte) : (s.setMb a v).tbu = s.tbu := rfl
@[simp] theorem setMb_spu (a : Nat) (v : Byte) : (s.setMb a v).spu = s.spu := rfl
@[simp] theorem setMb_apw (a : Nat) (v : Byte) : (s.setMb a v).apw = s.apw := rfl
@[simp] theorem setMb_cfc (a : Nat) (v : Byte) : (s.setMb a v).cfc = s.cfc := rfl

@[simp] theorem memWipe_pending (lo hi : Nat) : (s.memWipe lo hi).pending = s.pending := rfl
@[simp] theorem memWipe_now (lo hi : Nat) : (s.memWipe lo hi).now = s.now := rfl
@[simp] theorem memWipe_mono (lo hi : Nat) : (s.memWipe lo hi).mono = s.mono := rfl
@[simp] theorem memWipe_freeCtr (lo hi : Nat) : (s.memWipe lo hi).freeCtr = s.freeCtr := rfl
@[simp] theorem memWipe_regs (lo hi : Nat) : (s.memWipe lo hi).regs = s.regs := rfl
@[simp] theorem memWipe_evr (lo hi : Nat) : (s.memWipe lo hi).evr = s.evr := rfl
@[simp] theorem memWipe_fco (lo hi : Nat) : (s.memWipe lo hi).fco = s.fco := rfl
@[simp] theorem memWipe_drc (lo hi : Nat) : (s.memWipe lo hi).drc = s.drc := rfl
@[simp] theorem memWipe_aon (lo hi : Nat) : (s.memWipe lo hi).aon = s.aon := rfl
@[simp] theorem memWipe_memu (lo hi : Nat) : (s.memWipe lo hi).memu = s.memu := rfl
@[simp] theorem memWipe_hcp (lo hi : Nat) : (s.memWipe lo hi).hcp = s.hcp := rfl
@[simp] theorem memWipe_sys (lo hi : Nat) : (s.memWipe lo hi).sys = s.sys := rfl
@[simp] theorem memWipe_lanes (lo hi : Nat) : (s.memWipe lo hi).lanes = s.lanes := rfl
@[simp] theorem memWipe_ports (lo hi : Nat) : (s.memWipe lo hi).ports = s.ports := rfl
@[simp] theorem memWipe_reports (lo hi : Nat) : (s.memWipe lo hi).reports = s.reports := rfl
@[simp] theorem memWipe_rdu (lo hi : Nat) : (s.memWipe lo hi).rdu = s.rdu := rfl
@[simp] theorem memWipe_cyc (lo hi : Nat) : (s.memWipe lo hi).cyc = s.cyc := rfl
@[simp] theorem memWipe_ltx (lo hi : Nat) : (s.memWipe lo hi).ltx = s.ltx := rfl
@[simp] theorem memWipe_sig (lo hi : Nat) : (s.memWipe lo hi).sig = s.sig := rfl
@[simp] theorem memWipe_sigNext (lo hi : Nat) : (s.memWipe lo hi).sigNext = s.sigNext := rfl
@[simp] theorem memWipe_sigHost (lo hi : Nat) : (s.memWipe lo hi).sigHost = s.sigHost := rfl
@[simp] theorem memWipe_sigUnc (lo hi : Nat) : (s.memWipe lo hi).sigUnc = s.sigUnc := rfl
@[simp] theorem memWipe_mdu (lo hi : Nat) : (s.memWipe lo hi).mdu = s.mdu := rfl
@[simp] theorem memWipe_cfg (lo hi : Nat) : (s.memWipe lo hi).cfg = s.cfg := rfl
@[simp] theorem memWipe_clu (lo hi : Nat) : (s.memWipe lo hi).clu = s.clu := rfl
@[simp] theorem memWipe_tds (lo hi : Nat) : (s.memWipe lo hi).tds = s.tds := rfl
@[simp] theorem memWipe_msu (lo hi : Nat) : (s.memWipe lo hi).msu = s.msu := rfl
@[simp] theorem memWipe_sfi (lo hi : Nat) : (s.memWipe lo hi).sfi = s.sfi := rfl
@[simp] theorem memWipe_tbu (lo hi : Nat) : (s.memWipe lo hi).tbu = s.tbu := rfl
@[simp] theorem memWipe_spu (lo hi : Nat) : (s.memWipe lo hi).spu = s.spu := rfl
@[simp] theorem memWipe_apw (lo hi : Nat) : (s.memWipe lo hi).apw = s.apw := rfl
@[simp] theorem memWipe_cfc (lo hi : Nat) : (s.memWipe lo hi).cfc = s.cfc := rfl

@[simp] theorem setMbytes_pending (a : Nat) (bs : List Byte) : (s.setMbytes a bs).pending = s.pending := rfl
@[simp] theorem setMbytes_now (a : Nat) (bs : List Byte) : (s.setMbytes a bs).now = s.now := rfl
@[simp] theorem setMbytes_mono (a : Nat) (bs : List Byte) : (s.setMbytes a bs).mono = s.mono := rfl
@[simp] theorem setMbytes_freeCtr (a : Nat) (bs : List Byte) : (s.setMbytes a bs).freeCtr = s.freeCtr := rfl
@[simp] theorem setMbytes_regs (a : Nat) (bs : List Byte) : (s.setMbytes a bs).regs = s.regs := rfl
@[simp] theorem setMbytes_evr (a : Nat) (bs : List Byte) : (s.setMbytes a bs).evr = s.evr := rfl
@[simp] theorem setMbytes_fco (a : Nat) (bs : List Byte) : (s.setMbytes a bs).fco = s.fco := rfl
@[simp] theorem setMbytes_drc (a : Nat) (bs : List Byte) : (s.setMbytes a bs).drc = s.drc := rfl
@[simp] theorem setMbytes_aon (a : Nat) (bs : List Byte) : (s.setMbytes a bs).aon = s.aon := rfl
@[simp] theorem setMbytes_memu (a : Nat) (bs : List Byte) : (s.setMbytes a bs).memu = s.memu := rfl
@[simp] theorem setMbytes_hcp (a : Nat) (bs : List Byte) : (s.setMbytes a bs).hcp = s.hcp := rfl
@[simp] theorem setMbytes_sys (a : Nat) (bs : List Byte) : (s.setMbytes a bs).sys = s.sys := rfl
@[simp] theorem setMbytes_lanes (a : Nat) (bs : List Byte) : (s.setMbytes a bs).lanes = s.lanes := rfl
@[simp] theorem setMbytes_ports (a : Nat) (bs : List Byte) : (s.setMbytes a bs).ports = s.ports := rfl
@[simp] theorem setMbytes_reports (a : Nat) (bs : List Byte) : (s.setMbytes a bs).reports = s.reports := rfl
@[simp] theorem setMbytes_rdu (a : Nat) (bs : List Byte) : (s.setMbytes a bs).rdu = s.rdu := rfl
@[simp] theorem setMbytes_cyc (a : Nat) (bs : List Byte) : (s.setMbytes a bs).cyc = s.cyc := rfl
@[simp] theorem setMbytes_ltx (a : Nat) (bs : List Byte) : (s.setMbytes a bs).ltx = s.ltx := rfl
@[simp] theorem setMbytes_sig (a : Nat) (bs : List Byte) : (s.setMbytes a bs).sig = s.sig := rfl
@[simp] theorem setMbytes_sigNext (a : Nat) (bs : List Byte) : (s.setMbytes a bs).sigNext = s.sigNext := rfl
@[simp] theorem setMbytes_sigHost (a : Nat) (bs : List Byte) : (s.setMbytes a bs).sigHost = s.sigHost := rfl
@[simp] theorem setMbytes_sigUnc (a : Nat) (bs : List Byte) : (s.setMbytes a bs).sigUnc = s.sigUnc := rfl
@[simp] theorem setMbytes_mdu (a : Nat) (bs : List Byte) : (s.setMbytes a bs).mdu = s.mdu := rfl
@[simp] theorem setMbytes_cfg (a : Nat) (bs : List Byte) : (s.setMbytes a bs).cfg = s.cfg := rfl
@[simp] theorem setMbytes_clu (a : Nat) (bs : List Byte) : (s.setMbytes a bs).clu = s.clu := rfl
@[simp] theorem setMbytes_tds (a : Nat) (bs : List Byte) : (s.setMbytes a bs).tds = s.tds := rfl
@[simp] theorem setMbytes_msu (a : Nat) (bs : List Byte) : (s.setMbytes a bs).msu = s.msu := rfl
@[simp] theorem setMbytes_sfi (a : Nat) (bs : List Byte) : (s.setMbytes a bs).sfi = s.sfi := rfl
@[simp] theorem setMbytes_tbu (a : Nat) (bs : List Byte) : (s.setMbytes a bs).tbu = s.tbu := rfl
@[simp] theorem setMbytes_spu (a : Nat) (bs : List Byte) : (s.setMbytes a bs).spu = s.spu := rfl
@[simp] theorem setMbytes_apw (a : Nat) (bs : List Byte) : (s.setMbytes a bs).apw = s.apw := rfl
@[simp] theorem setMbytes_cfc (a : Nat) (bs : List Byte) : (s.setMbytes a bs).cfc = s.cfc := rfl

@[simp] theorem free32_pending : (s.free32.2).pending = s.pending := rfl
@[simp] theorem free32_now : (s.free32.2).now = s.now := rfl
@[simp] theorem free32_mono : (s.free32.2).mono = s.mono := rfl
@[simp] theorem free32_regs : (s.free32.2).regs = s.regs := rfl
@[simp] theorem free32_mem : (s.free32.2).mem = s.mem := rfl
@[simp] theorem free32_evr : (s.free32.2).evr = s.evr := rfl
@[simp] theorem free32_fco : (s.free32.2).fco = s.fco := rfl
@[simp] theorem free32_drc : (s.free32.2).drc = s.drc := rfl
@[simp] theorem free32_aon : (s.free32.2).aon = s.aon := rfl
@[simp] theorem free32_memu : (s.free32.2).memu = s.memu := rfl
@[simp] theorem free32_hcp : (s.free32.2).hcp = s.hcp := rfl
@[simp] theorem free32_sys : (s.free32.2).sys = s.sys := rfl
@[simp] theorem free32_lanes : (s.free32.2).lanes = s.lanes := rfl
@[simp] theorem free32_ports : (s.free32.2).ports = s.ports := rfl
@[simp] theorem free32_reports : (s.free32.2).reports = s.reports := rfl
@[simp] theorem free32_rdu : (s.free32.2).rdu = s.rdu := rfl
@[simp] theorem free32_cyc : (s.free32.2).cyc = s.cyc := rfl
@[simp] theorem free32_ltx : (s.free32.2).ltx = s.ltx := rfl
@[simp] theorem free32_sig : (s.free32.2).sig = s.sig := rfl
@[simp] theorem free32_sigNext : (s.free32.2).sigNext = s.sigNext := rfl
@[simp] theorem free32_sigHost : (s.free32.2).sigHost = s.sigHost := rfl
@[simp] theorem free32_sigUnc : (s.free32.2).sigUnc = s.sigUnc := rfl
@[simp] theorem free32_mdu : (s.free32.2).mdu = s.mdu := rfl
@[simp] theorem free32_cfg : (s.free32.2).cfg = s.cfg := rfl
@[simp] theorem free32_clu : (s.free32.2).clu = s.clu := rfl
@[simp] theorem free32_tds : (s.free32.2).tds = s.tds := rfl
@[simp] theorem free32_msu : (s.free32.2).msu = s.msu := rfl
@[simp] theorem free32_sfi : (s.free32.2).sfi = s.sfi := rfl
@[simp] theorem free32_tbu : (s.free32.2).tbu = s.tbu := rfl
@[simp] theorem free32_spu : (s.free32.2).spu = s.spu := rfl
@[simp] theorem free32_apw : (s.free32.2).apw = s.apw := rfl
@[simp] theorem free32_cfc : (s.free32.2).cfc = s.cfc := rfl

@[simp] theorem freeNat_pending : (s.freeNat.2).pending = s.pending := rfl
@[simp] theorem freeNat_now : (s.freeNat.2).now = s.now := rfl
@[simp] theorem freeNat_mono : (s.freeNat.2).mono = s.mono := rfl
@[simp] theorem freeNat_regs : (s.freeNat.2).regs = s.regs := rfl
@[simp] theorem freeNat_mem : (s.freeNat.2).mem = s.mem := rfl
@[simp] theorem freeNat_evr : (s.freeNat.2).evr = s.evr := rfl
@[simp] theorem freeNat_fco : (s.freeNat.2).fco = s.fco := rfl
@[simp] theorem freeNat_drc : (s.freeNat.2).drc = s.drc := rfl
@[simp] theorem freeNat_aon : (s.freeNat.2).aon = s.aon := rfl
@[simp] theorem freeNat_memu : (s.freeNat.2).memu = s.memu := rfl
@[simp] theorem freeNat_hcp : (s.freeNat.2).hcp = s.hcp := rfl
@[simp] theorem freeNat_sys : (s.freeNat.2).sys = s.sys := rfl
@[simp] theorem freeNat_lanes : (s.freeNat.2).lanes = s.lanes := rfl
@[simp] theorem freeNat_ports : (s.freeNat.2).ports = s.ports := rfl
@[simp] theorem freeNat_reports : (s.freeNat.2).reports = s.reports := rfl
@[simp] theorem freeNat_rdu : (s.freeNat.2).rdu = s.rdu := rfl
@[simp] theorem freeNat_cyc : (s.freeNat.2).cyc = s.cyc := rfl
@[simp] theorem freeNat_ltx : (s.freeNat.2).ltx = s.ltx := rfl
@[simp] theorem freeNat_sig : (s.freeNat.2).sig = s.sig := rfl
@[simp] theorem freeNat_sigNext : (s.freeNat.2).sigNext = s.sigNext := rfl
@[simp] theorem freeNat_sigHost : (s.freeNat.2).sigHost = s.sigHost := rfl
@[simp] theorem freeNat_sigUnc : (s.freeNat.2).sigUnc = s.sigUnc := rfl
@[simp] theorem freeNat_mdu : (s.freeNat.2).mdu = s.mdu := rfl
@[simp] theorem freeNat_cfg : (s.freeNat.2).cfg = s.cfg := rfl
@[simp] theorem freeNat_clu : (s.freeNat.2).clu = s.clu := rfl
@[simp] theorem freeNat_tds : (s.freeNat.2).tds = s.tds := rfl
@[simp] theorem freeNat_msu : (s.freeNat.2).msu = s.msu := rfl
@[simp] theorem freeNat_sfi : (s.freeNat.2).sfi = s.sfi := rfl
@[simp] theorem freeNat_tbu : (s.freeNat.2).tbu = s.tbu := rfl
@[simp] theorem freeNat_spu : (s.freeNat.2).spu = s.spu := rfl
@[simp] theorem freeNat_apw : (s.freeNat.2).apw = s.apw := rfl
@[simp] theorem freeNat_cfc : (s.freeNat.2).cfc = s.cfc := rfl

@[simp] theorem evRecord_pending (r : EvRec) : (s.evRecord r).pending = s.pending := rfl
@[simp] theorem evRecord_now (r : EvRec) : (s.evRecord r).now = s.now := rfl
@[simp] theorem evRecord_mono (r : EvRec) : (s.evRecord r).mono = s.mono := rfl
@[simp] theorem evRecord_freeCtr (r : EvRec) : (s.evRecord r).freeCtr = s.freeCtr := rfl
@[simp] theorem evRecord_regs (r : EvRec) : (s.evRecord r).regs = s.regs := rfl
@[simp] theorem evRecord_mem (r : EvRec) : (s.evRecord r).mem = s.mem := rfl
@[simp] theorem evRecord_fco (r : EvRec) : (s.evRecord r).fco = s.fco := rfl
@[simp] theorem evRecord_drc (r : EvRec) : (s.evRecord r).drc = s.drc := rfl
@[simp] theorem evRecord_aon (r : EvRec) : (s.evRecord r).aon = s.aon := rfl
@[simp] theorem evRecord_memu (r : EvRec) : (s.evRecord r).memu = s.memu := rfl
@[simp] theorem evRecord_hcp (r : EvRec) : (s.evRecord r).hcp = s.hcp := rfl
@[simp] theorem evRecord_sys (r : EvRec) : (s.evRecord r).sys = s.sys := rfl
@[simp] theorem evRecord_lanes (r : EvRec) : (s.evRecord r).lanes = s.lanes := rfl
@[simp] theorem evRecord_ports (r : EvRec) : (s.evRecord r).ports = s.ports := rfl
@[simp] theorem evRecord_reports (r : EvRec) : (s.evRecord r).reports = s.reports := rfl
@[simp] theorem evRecord_rdu (r : EvRec) : (s.evRecord r).rdu = s.rdu := rfl
@[simp] theorem evRecord_cyc (r : EvRec) : (s.evRecord r).cyc = s.cyc := rfl
@[simp] theorem evRecord_ltx (r : EvRec) : (s.evRecord r).ltx = s.ltx := rfl
@[simp] theorem evRecord_sig (r : EvRec) : (s.evRecord r).sig = s.sig := rfl
@[simp] theorem evRecord_sigNext (r : EvRec) : (s.evRecord r).sigNext = s.sigNext := rfl
@[simp] theorem evRecord_sigHost (r : EvRec) : (s.evRecord r).sigHost = s.sigHost := rfl
@[simp] theorem evRecord_sigUnc (r : EvRec) : (s.evRecord r).sigUnc = s.sigUnc := rfl
@[simp] theorem evRecord_mdu (r : EvRec) : (s.evRecord r).mdu = s.mdu := rfl
@[simp] theorem evRecord_cfg (r : EvRec) : (s.evRecord r).cfg = s.cfg := rfl
@[simp] theorem evRecord_clu (r : EvRec) : (s.evRecord r).clu = s.clu := rfl
@[simp] theorem evRecord_tds (r : EvRec) : (s.evRecord r).tds = s.tds := rfl
@[simp] theorem evRecord_msu (r : EvRec) : (s.evRecord r).msu = s.msu := rfl
@[simp] theorem evRecord_sfi (r : EvRec) : (s.evRecord r).sfi = s.sfi := rfl
@[simp] theorem evRecord_tbu (r : EvRec) : (s.evRecord r).tbu = s.tbu := rfl
@[simp] theorem evRecord_spu (r : EvRec) : (s.evRecord r).spu = s.spu := rfl
@[simp] theorem evRecord_apw (r : EvRec) : (s.evRecord r).apw = s.apw := rfl
@[simp] theorem evRecord_cfc (r : EvRec) : (s.evRecord r).cfc = s.cfc := rfl

@[simp] theorem setEng_pending (n : Nat) (x : Eng) : (s.setEng n x).pending = s.pending := rfl
@[simp] theorem setEng_now (n : Nat) (x : Eng) : (s.setEng n x).now = s.now := rfl
@[simp] theorem setEng_mono (n : Nat) (x : Eng) : (s.setEng n x).mono = s.mono := rfl
@[simp] theorem setEng_freeCtr (n : Nat) (x : Eng) : (s.setEng n x).freeCtr = s.freeCtr := rfl
@[simp] theorem setEng_regs (n : Nat) (x : Eng) : (s.setEng n x).regs = s.regs := rfl
@[simp] theorem setEng_mem (n : Nat) (x : Eng) : (s.setEng n x).mem = s.mem := rfl
@[simp] theorem setEng_evr (n : Nat) (x : Eng) : (s.setEng n x).evr = s.evr := rfl
@[simp] theorem setEng_fco (n : Nat) (x : Eng) : (s.setEng n x).fco = s.fco := rfl
@[simp] theorem setEng_drc (n : Nat) (x : Eng) : (s.setEng n x).drc = s.drc := rfl
@[simp] theorem setEng_aon (n : Nat) (x : Eng) : (s.setEng n x).aon = s.aon := rfl
@[simp] theorem setEng_memu (n : Nat) (x : Eng) : (s.setEng n x).memu = s.memu := rfl
@[simp] theorem setEng_hcp (n : Nat) (x : Eng) : (s.setEng n x).hcp = s.hcp := rfl
@[simp] theorem setEng_sys (n : Nat) (x : Eng) : (s.setEng n x).sys = s.sys := rfl
@[simp] theorem setEng_lanes (n : Nat) (x : Eng) : (s.setEng n x).lanes = s.lanes := rfl
@[simp] theorem setEng_ports (n : Nat) (x : Eng) : (s.setEng n x).ports = s.ports := rfl
@[simp] theorem setEng_reports (n : Nat) (x : Eng) : (s.setEng n x).reports = s.reports := rfl
@[simp] theorem setEng_rdu (n : Nat) (x : Eng) : (s.setEng n x).rdu = s.rdu := rfl
@[simp] theorem setEng_cyc (n : Nat) (x : Eng) : (s.setEng n x).cyc = s.cyc := rfl
@[simp] theorem setEng_ltx (n : Nat) (x : Eng) : (s.setEng n x).ltx = s.ltx := rfl
@[simp] theorem setEng_sig (n : Nat) (x : Eng) : (s.setEng n x).sig = s.sig := rfl
@[simp] theorem setEng_sigNext (n : Nat) (x : Eng) : (s.setEng n x).sigNext = s.sigNext := rfl
@[simp] theorem setEng_sigHost (n : Nat) (x : Eng) : (s.setEng n x).sigHost = s.sigHost := rfl
@[simp] theorem setEng_sigUnc (n : Nat) (x : Eng) : (s.setEng n x).sigUnc = s.sigUnc := rfl
@[simp] theorem setEng_mdu (n : Nat) (x : Eng) : (s.setEng n x).mdu = s.mdu := rfl
@[simp] theorem setEng_cfg (n : Nat) (x : Eng) : (s.setEng n x).cfg = s.cfg := rfl
@[simp] theorem setEng_clu (n : Nat) (x : Eng) : (s.setEng n x).clu = s.clu := rfl
@[simp] theorem setEng_msu (n : Nat) (x : Eng) : (s.setEng n x).msu = s.msu := rfl
@[simp] theorem setEng_sfi (n : Nat) (x : Eng) : (s.setEng n x).sfi = s.sfi := rfl
@[simp] theorem setEng_tbu (n : Nat) (x : Eng) : (s.setEng n x).tbu = s.tbu := rfl
@[simp] theorem setEng_spu (n : Nat) (x : Eng) : (s.setEng n x).spu = s.spu := rfl
@[simp] theorem setEng_apw (n : Nat) (x : Eng) : (s.setEng n x).apw = s.apw := rfl
@[simp] theorem setEng_cfc (n : Nat) (x : Eng) : (s.setEng n x).cfc = s.cfc := rfl

/-! What each of them changes. -/

@[simp] theorem tick_now_eq (t : Nat) : (s.tick t).now = t := rfl
@[simp] theorem tick_mono_eq (t : Nat) : (s.tick t).mono = s.mono + (t - s.now) := rfl
@[simp] theorem evRecord_inbox (r : EvRec) : (s.evRecord r).evr.inbox = s.evr.inbox ++ [r] := rfl
@[simp] theorem tick_held (t : Nat) : (s.tick t).held = s.held := rfl
@[simp] theorem wr_held (a : Nat) (v : BitVec 32) : (s.wr a v).held = s.held := rfl
@[simp] theorem setFld_held (f : RF) (x : Nat) : (s.setFld f x).held = s.held := rfl
@[simp] theorem setBit_held (f : RF) (b : Bool) : (s.setBit f b).held = s.held := rfl

/-- A command on a die that runs is its effect at its time. -/
theorem onDie_live (t : Nat) (f : State → State) (h : s.held = false) : s.onDie t f = f (s.tick t) := by simp [State.onDie, h]

/-- A command on a die held in reset only passes time. -/
theorem onDie_held (t : Nat) (f : State → State) (h : s.held = true) : s.onDie t f = s.tick t := by simp [State.onDie, h]

@[simp] theorem tick_rd (t a : Nat) : (s.tick t).rd a = s.rd a := rfl
@[simp] theorem tick_fld (t : Nat) (f : RF) : (s.tick t).fld f = s.fld f := rfl
@[simp] theorem tick_bit (t : Nat) (f : RF) : (s.tick t).bit f = s.bit f := rfl
@[simp] theorem tick_mb (t a : Nat) : (s.tick t).mb a = s.mb a := rfl

end Sys2Proof.Machine
end

