-- ==== Sys2Proof/Laws/Frame.lean ====
section
/-! SUPPORT. Laws of source events and fault messages (R24, R300), and the frame rules by which the frame of a command is put together
from the operations that it is made of. -/

namespace Sys2Proof.Machine

/-! ## Frames -/

variable {rs es ks : List Nat} {s t u : State}

theorem Frame.refl (rs es ks : List Nat) (s : State) : Frame rs es ks s s :=
  ⟨fun _ _ _ => rfl, fun _ => rfl, ⟨[], by simp⟩, ⟨[], by simp⟩, ⟨[], by simp⟩, rfl⟩

theorem appended_trans {α : Type} {p : α → Prop} {a b c : List α} (h : ∃ l, b = a ++ l ∧ ∀ x ∈ l, p x) (h' : ∃ l, c = b ++ l ∧ ∀ x ∈ l, p x) :
    ∃ l, c = a ++ l ∧ ∀ x ∈ l, p x := by
  obtain ⟨l, rfl, hl⟩ := h
  obtain ⟨l', rfl, hl'⟩ := h'
  exact ⟨l ++ l', by simp, fun x hx => (List.mem_append.1 hx).elim (hl x) (hl' x)⟩

theorem Frame.trans (h : Frame rs es ks s t) (h' : Frame rs es ks t u) : Frame rs es ks s u :=
  ⟨fun a h1 h2 => (h'.regs a h1 h2).trans (h.regs a h1 h2), fun a => (h'.mem a).trans (h.mem a), appended_trans h.inbox h'.inbox,
   appended_trans h.notes h'.notes, appended_trans h.msgs h'.msgs, h'.bare.trans h.bare⟩

/-- A frame with fewer parts is a frame with more. -/
theorem Frame.mono {rs' es' ks' : List Nat} (h : Frame rs es ks s t) (hr : rs ⊆ rs') (he : es ⊆ es') (hk : ks ⊆ ks') : Frame rs' es' ks' s t := by
  refine ⟨fun a h1 h2 => h.regs a (fun x => h1 (hr x)) (fun n hn => h2 n (he hn)), h.mem, ?_, ?_, ?_, h.bare⟩
  · obtain ⟨l, e, hl⟩ := h.inbox; exact ⟨l, e, fun r hr => he (hl r hr)⟩
  · obtain ⟨l, e, hl⟩ := h.notes; exact ⟨l, e, fun r hr => he (hl r hr)⟩
  · obtain ⟨l, e, hl⟩ := h.msgs; exact ⟨l, e, fun r hr => hk (hl r hr)⟩

theorem Frame.wr (h : Frame rs es ks s t) {a : Nat} (v : BitVec 32) (ha : a ∈ rs) : Frame rs es ks s (t.wr a v) :=
  h.trans ⟨fun b hb _ => rd_wr_ne _ _ _ _ (fun e => hb (e ▸ ha)), fun _ => rfl, ⟨[], by simp⟩, ⟨[], by simp⟩, ⟨[], by simp⟩, rfl⟩

theorem Frame.setFld (h : Frame rs es ks s t) {f : RF} (x : Nat) (ha : f.addr ∈ rs) : Frame rs es ks s (t.setFld f x) := h.wr _ ha
theorem Frame.setBit (h : Frame rs es ks s t) {f : RF} (b : Bool) (ha : f.addr ∈ rs) : Frame rs es ks s (t.setBit f b) := h.wr _ ha
theorem Frame.addFld (h : Frame rs es ks s t) {f : RF} (n : Nat) (ha : f.addr ∈ rs) : Frame rs es ks s (t.addFld f n) := h.wr _ ha
theorem Frame.inc (h : Frame rs es ks s t) {f : RF} (ha : f.addr ∈ rs) : Frame rs es ks s (t.inc f) := h.wr _ ha
theorem Frame.setFbit (h : Frame rs es ks s t) {f : RF} (b : Nat) (v : Bool) (ha : f.addr ∈ rs) : Frame rs es ks s (t.setFbit f b v) := h.wr _ ha

/-- The next free value is taken. -/
theorem Frame.free (h : Frame rs es ks s t) (n : Nat) : Frame rs es ks s { t with freeCtr := n } :=
  h.trans ⟨fun _ _ _ => rfl, fun _ => rfl, ⟨[], by simp⟩, ⟨[], by simp⟩, ⟨[], by simp⟩, rfl⟩

theorem Frame.evRecord (h : Frame rs es ks s t) {r : EvRec} (hr : r.src ∈ es) : Frame rs es ks s (t.evRecord r) :=
  h.trans ⟨fun _ _ _ => rfl, fun _ => rfl, ⟨[r], by simpa using hr⟩, ⟨[], by simp⟩, ⟨[], by simp⟩, rfl⟩

theorem Frame.ite (c : Prop) [Decidable c] {u v : State} (hu : c → Frame rs es ks s u) (hv : ¬ c → Frame rs es ks s v) :
    Frame rs es ks s (if c then u else v) := by
  by_cases h : c
  · simpa [h] using hu h
  · simpa [h] using hv h

theorem Frame.when (h : Frame rs es ks s t) {c : Bool} {f : State → State} (hf : c = true → Frame rs es ks s (f t)) : Frame rs es ks s (t.when c f) := by
  unfold State.when
  cases c
  · simpa using h
  · simpa using hf rfl

/-- A write to registers of a source. -/
theorem Frame.evWr (h : Frame rs es ks s t) {a n : Nat} (v : BitVec 32) (hn : n ∈ es) (ha : a ∈ evRegs n) : Frame rs es ks s (t.wr a v) :=
  h.trans ⟨fun b _ hb => rd_wr_ne _ _ _ _ (fun e => hb n hn (e ▸ ha)), fun _ => rfl, ⟨[], by simp⟩, ⟨[], by simp⟩, ⟨[], by simp⟩, rfl⟩

/-! ## Source events -/

theorem Frame.note (h : Frame rs es ks s t) {n : Nat} (hn : n ∈ es) :
    Frame rs es ks s { t with sys := { t.sys with mgcNotes := t.sys.mgcNotes ++ [n] } } :=
  h.trans ⟨fun _ _ _ => rfl, fun _ => rfl, ⟨[], by simp⟩, ⟨[n], by simpa using hn⟩, ⟨[], by simp⟩, rfl⟩

/-- An event touches the registers of its source, the EVR's inbox and the MGC's notices, and nothing else. -/
theorem Frame.raiseWith (h : Frame rs es ks s t) {n : Nat} (v q : BitVec 32) (k : Nat) (hn : n ∈ es) : Frame rs es ks s (t.raiseWith n v q k) := by
  have h1 : Frame rs es ks s ((t.setFbit (F.INT_PEND_PEND (n / 32)) (n % 32) true).inc (F.INT_SRC_CFG_CNT n)) :=
    (h.evWr _ hn (by simp [evRegs, F.INT_PEND_PEND])).evWr _ hn (by simp [evRegs, F.INT_SRC_CFG_CNT])
  unfold State.raiseWith
  refine Frame.ite _ (fun _ => h) (fun _ => ?_)
  refine Frame.ite _ (fun _ => Frame.evRecord ?_ hn) (fun _ => ?_) <;>
    exact Frame.ite _ (fun _ => h1.note hn) (fun _ => h1)

theorem Frame.raise (h : Frame rs es ks s t) {n : Nat} (hn : n ∈ es) : Frame rs es ks s (t.raise n) :=
  ((h.free _).free _).raiseWith _ _ _ hn

theorem Frame.raiseIf (h : Frame rs es ks s t) {n : Nat} (c : Bool) (hn : n ∈ es) : Frame rs es ks s (t.raiseIf c n) :=
  Frame.ite _ (fun _ => h.raise hn) (fun _ => h)

/-- A register outside those of source `n` reads as before after its event. -/
theorem rd_raise (s : State) (n a : Nat) (h : a ∉ evRegs n) : (s.raise n).rd a = s.rd a :=
  ((Frame.refl [] [n] [] s).raise (by simp)).regs a (by simp) (by simpa using h)

theorem fld_raise (s : State) (n : Nat) (f : RF) (h : f.addr ∉ evRegs n) : (s.raise n).fld f = s.fld f := by
  simp [State.fld, rd_raise s n f.addr h]

theorem bit_raise (s : State) (n : Nat) (f : RF) (h : f.addr ∉ evRegs n) : (s.raise n).bit f = s.bit f := by
  simp [State.bit, fld_raise s n f h]

theorem fbit_setFbit_self (s : State) (f : RF) (b : Nat) (v : Bool) (h : f.ok) (hb : b < f.w) : (s.setFbit f b v).fbit f b = v := by
  cases v
  · simp only [State.fbit, State.setFbit, fld_setFld_self _ _ _ h, Nat.testBit_mod_two_pow, hb, decide_true, Bool.true_and]
    by_cases ht : (s.fld f).testBit b
    · have e := Nat.testBit_two_pow_add_eq (s.fld f - 2 ^ b) b
      rw [Nat.add_sub_cancel' (Nat.ge_two_pow_of_testBit ht), ht] at e
      simp only [ht]
      simpa using e
    · simp [ht]
  · simp [State.fbit, State.setFbit, fld_setFld_self _ _ _ h, Nat.testBit_mod_two_pow, hb]

/-- Whether a source is pending depends on the registers alone. -/
theorem pends_of_regs {s t : State} (h : t.regs = s.regs) (n : Nat) : t.pends n = s.pends n := by
  simp only [State.pends, State.fbit, State.fld, State.rd, h]

/-- An event makes its source pending (R24). -/
theorem pends_raiseWith (s : State) (n : Nat) (v q : BitVec 32) (k : Nat) (h : neverPending n = false) (hn : n < 256) :
    (s.raiseWith n v q k).pends n = true := by
  have hne : (F.INT_PEND_PEND (n / 32)).addr ≠ (F.INT_SRC_CFG_CNT n).addr := by
    simp only [F.INT_PEND_PEND, F.INT_SRC_CFG_CNT, R.INT_PEND, R.INT_SRC_CFG]; omega
  have h1 : (((s.setFbit (F.INT_PEND_PEND (n / 32)) (n % 32) true).inc (F.INT_SRC_CFG_CNT n)).pends n) = true := by
    simp only [State.pends, State.fbit]
    rw [fld_inc_ne _ _ _ hne]
    exact fbit_setFbit_self s _ _ true (by simp [RF.ok, F.INT_PEND_PEND]) (by simp [F.INT_PEND_PEND]; omega)
  unfold State.raiseWith
  simp only [h, Bool.false_eq_true, if_false]
  refine (pends_of_regs ?_ n).trans h1
  split <;> split <;> rfl

theorem pends_raise (s : State) (n : Nat) (h : neverPending n = false) (hn : n < 256) : (s.raise n).pends n = true :=
  pends_raiseWith _ n _ _ _ h hn

/-! ## Fault messages -/

theorem msgKind_fmsg (region inst unit kind sev level qual : Nat) : msgKind (fmsg region inst unit kind sev level qual) = kind % 256 := by
  simp only [msgKind, fmsg, BitVec.toNat_ofNat]
  omega

theorem Frame.sendFco (h : Frame rs es ks s t) (region inst unit kind : Nat) (level qual : Option Nat) (hk : kind % 256 ∈ ks) :
    Frame rs es ks s (t.sendFco region inst unit kind level qual) := by
  have step : ∀ (u : State) (m : BitVec 64), Frame rs es ks s u → msgKind m ∈ ks →
      Frame rs es ks s { u with fco := { u.fco with inFlight := u.fco.inFlight ++ [m] } } := fun u m hu hm =>
    hu.trans ⟨fun _ _ _ => rfl, fun _ => rfl, ⟨[], by simp⟩, ⟨[], by simp⟩, ⟨[m], by simpa using hm⟩, rfl⟩
  unfold State.sendFco
  cases level <;> cases qual <;> exact step _ _ (by repeat (first | exact h | apply Frame.free)) (by rw [msgKind_fmsg]; exact hk)

end Sys2Proof.Machine
end

