-- ==== Sys2Proof/Laws/Engines.lean ====
section
/-! SUPPORT. Laws of the signal engines: registers, what one engine's update leaves alone, a handshake of one instruction (R189), what
happens to an instruction that an engine is given. -/

namespace Sys2Proof.Machine

/-! ## One engine among the engines -/

@[simp] theorem eng_setEng_self (s : State) (n : Nat) (x : Eng) : (s.setEng n x).eng n = x := by simp [State.eng, State.setEng]

theorem eng_setEng_ne (s : State) (n m : Nat) (x : Eng) (h : m ≠ n) : (s.setEng n x).eng m = s.eng m := by
  simp [State.eng, State.setEng, spGet_spSet_ne _ _ _ _ _ _ h]

variable {n : Nat} {x : Eng} {rs es ks : List Nat} {s t u : State}

theorem EngStep.refl (n : Nat) (rs es ks : List Nat) (s : State) : EngStep n (s.eng n) rs es ks s s :=
  ⟨rfl, fun _ _ => rfl, Frame.refl _ _ _ _⟩

theorem EngStep.setEng (h : EngStep n x rs es ks s t) (y : Eng) : EngStep n y rs es ks s (t.setEng n y) :=
  ⟨eng_setEng_self _ _ _, fun m hm => (eng_setEng_ne _ _ _ _ hm).trans (h.others m hm), h.frame⟩

theorem EngStep.wr (h : EngStep n x rs es ks s t) {a : Nat} (v : BitVec 32) (ha : a ∈ rs) : EngStep n x rs es ks s (t.wr a v) :=
  ⟨h.own, h.others, h.frame.wr v ha⟩

theorem EngStep.free (h : EngStep n x rs es ks s t) (k : Nat) : EngStep n x rs es ks s { t with freeCtr := k } :=
  ⟨h.own, h.others, h.frame.free k⟩

/-! ## Registers of an engine -/

theorem Eng.phys_lt (x : Eng) (i : Nat) (h : i < 64) : x.phys i < 64 := by unfold Eng.phys; split <;> omega

/-- A physical register read after a write. -/
theorem Eng.get_put_self (x : Eng) (i : Nat) (v : BitVec 32) (h : x.phys i ≠ 0) : (x.put i v).get i = v := by
  simp [Eng.get, Eng.put, Eng.putPhys, Eng.phys] at *
  split <;> simp_all

/-- v0 takes no write. -/
theorem Eng.put_zero (x : Eng) (v : BitVec 32) : x.put 0 v = x := by simp [Eng.put, Eng.putPhys, Eng.phys]

@[simp] theorem Eng.get_zero (x : Eng) : x.get 0 = 0 := by simp [Eng.get, Eng.phys]

/-! ## Flags -/

/-- Setting a one-bit field is an or with its bit. -/
theorem put_one (a lo : Nat) (v : BitVec 32) (_ : lo < 32) : (RF.mk a lo 1).put v 1 = v ||| BitVec.ofNat 32 (2 ^ lo) := by
  apply BitVec.eq_of_getLsbD_eq
  intro i hi
  rw [RF.getLsbD_put]
  simp only [BitVec.getLsbD_or, BitVec.getLsbD_ofNat, hi, decide_true, Bool.true_and, Nat.testBit_two_pow]
  by_cases h1 : lo = i
  · subst h1; simp
  · have : ¬ (lo ≤ i ∧ i < lo + 1) := by omega
    simp only [h1, decide_false, Bool.or_false, if_neg this]

theorem rd_setBit_true (s : State) (a lo : Nat) (h : lo < 32) :
    (s.setBit (RF.mk a lo 1) true).rd a = s.rd a ||| BitVec.ofNat 32 (2 ^ lo) := by
  simp only [State.setBit, State.setFld, if_true, rd_wr_self, put_one _ _ _ h]

/-- Flags of an instruction are or-ed into SE_STAT (R195). -/
theorem rd_seFlags (s : State) (n : Nat) (f : SeFlags) : (s.seFlags n f).rd (R.SE_STAT n) = s.rd (R.SE_STAT n) ||| f.mask := by
  have e : ∀ (t : State) (lo : Nat) (b : Bool), lo < 32 →
      (t.when b (·.setBit (RF.mk (R.SE_STAT n) lo 1) true)).rd (R.SE_STAT n) =
        t.rd (R.SE_STAT n) ||| (if b then BitVec.ofNat 32 (2 ^ lo) else 0) := by
    intro t lo b h
    cases b
    · simp [State.when]
    · simp [State.when, rd_setBit_true _ _ _ h]
  simp only [State.seFlags, F.SE_STAT_INV, F.SE_STAT_OVF, F.SE_STAT_UNF, F.SE_STAT_SAT]
  rw [e _ 27 _ (by omega), e _ 28 _ (by omega), e _ 29 _ (by omega), e _ 30 _ (by omega)]
  simp only [SeFlags.mask, BitVec.or_assoc]
  rfl

theorem EngStep.seFlags (h : EngStep n x rs es ks s t) (f : SeFlags) (hn : R.SE_STAT n ∈ rs) : EngStep n x rs es ks s (t.seFlags n f) := by
  have w : ∀ {u : State} (b : Bool) (lo : Nat), EngStep n x rs es ks s u →
      EngStep n x rs es ks s (u.when b (·.setBit (RF.mk (R.SE_STAT n) lo 1) true)) := by
    intro u b lo hu
    cases b
    · simpa [State.when] using hu
    · exact hu.wr _ hn
  exact w _ _ (w _ _ (w _ _ (w _ _ h)))

/-- An instruction without flags leaves every register alone. -/
theorem seFlags_none (s : State) (n : Nat) : s.seFlags n {} = s := by simp [State.seFlags, State.when]

/-! ## An instruction given to an engine -/

/-- With nothing waiting the drain does nothing. -/
theorem EngStep.drain (h : EngStep n x rs es ks s t) (hw : x.waiting = []) (k : Nat) : EngStep n x rs es ks s (t.seDrain n k) := by
  have hx : { x with waiting := [] } = x := by rw [← hw]
  cases k with
  | zero => exact h
  | succ k =>
    simp only [State.seDrain, h.own, hw, nextShake]
    split
    · rw [hx]; exact h.setEng x
    · exact h

theorem drain_regs (hw : (t.eng n).waiting = []) (k : Nat) : (t.seDrain n k).regs = t.regs := by
  cases k with
  | zero => rfl
  | succ k =>
    simp only [State.seDrain, hw, nextShake]
    split <;> rfl

theorem mustWait_waiting (x : Eng) (w : List SeCmd) (i : SeIns) : ({ x with waiting := w } : Eng).mustWait i = x.mustWait i := rfl

/-- What an engine fetches as a single instruction is no reserved word. -/
theorem seReserved_of_fetches {c : SeCmd} (hp : c.i.p = false) (hq : s.seFetches n [c] = true) : s.seReserved n = false := by
  cases hr : (s.eng n).run with
  | none => simp [State.seReserved, hr]
  | some r => simp_all [State.seFetches, State.seReserved]

/-- One round of the drain on a single instruction that does not have to wait. -/
theorem drain_one {c : SeCmd} {y : Eng} {k : Nat} (h1 : s.eng n = y) (he : y.ended = false) (hf : y.failed = false) (hw : y.waiting = [c])
    (hp : c.i.p = false) (hm : y.mustWait c.i = false) (hq : (s.setEng n { y with waiting := [] }).seFetches n [c] = true) :
    s.seDrain n (k + 1) = ((s.setEng n { y with waiting := [] }).seShake n [c]).seDrain n k := by
  have hb : ¬ (y.ended || y.failed) = true := by rw [he, hf]; decide
  simp only [State.seDrain, h1, hw, if_neg hb, nextShake, hp, List.any_cons, List.any_nil, Bool.or_false, hm, hq, seReserved_of_fetches hp hq,
    if_true, Bool.false_eq_true, if_false]

/-- An instruction that its engine executes alone is one handshake. -/
theorem seIssue_alone (i : SeIns) (err : EccErr) (h : s.Executes n i) :
    ∃ s1, EngStep n (s.eng n) [] [] [] s s1 ∧ s1.tds.tt = s.tds.tt ∧ s1.regs = s.regs ∧ s1.mem = s.mem ∧ s1.freeCtr = s.freeCtr ∧
      s.seIssue n i err = (s1.seShake n [⟨i, err⟩]).seDrain n 1 := by
  obtain ⟨hh, he, hf, hw, hp, hm, hq⟩ := h
  have hx : { s.eng n with waiting := [] } = s.eng n := by rw [← hw]
  refine ⟨(s.setEng n { s.eng n with waiting := [⟨i, err⟩] }).setEng n (s.eng n), ((EngStep.refl n [] [] [] s).setEng _).setEng _, rfl, rfl, rfl, rfl, ?_⟩
  have hq' : ((s.setEng n { s.eng n with waiting := [⟨i, err⟩] }).setEng n (s.eng n)).seFetches n [⟨i, err⟩] = true := by
    simpa [State.seFetches, State.psel, State.progWord, State.setEng, State.fld, State.rd, State.eng] using hq
  have hi := drain_one (n := n) (c := ⟨i, err⟩) (y := { s.eng n with waiting := [⟨i, err⟩] }) (k := 1)
    (s := s.setEng n { s.eng n with waiting := [⟨i, err⟩] }) (by simp) he hf rfl hp hm (by rw [hx]; exact hq')
  rw [hx] at hi
  simp only [State.seIssue, hh, hw, List.nil_append, List.length_cons, List.length_nil, Bool.false_eq_true, if_false]
  exact hi

/-- A handshake of one instruction that meets no error, makes no store and spawns nothing. -/
theorem seShake_plain (s1 : State) (i : SeIns) (err : EccErr) (e : SeEff) (he : seEffect (s1.eng n) (fun ad => s1.mw (tileBase n + ad)) i = e)
    (hc : s1.shakeCodes (s1.eng n) [⟨i, err⟩] [{ e with out := e.out.map (fun o => { o with err := err }) }] = [])
    (ht : e.tile = true → err = .ok) (hst : e.st = []) (hsp : e.spawn = none) :
    s1.seShake n [⟨i, err⟩] =
      (let p := s1.putRegs (s1.eng n) [] e.wr
       let y : Eng := { p.1 with lc := e.lc.getD p.1.lc, dlx := e.dlx.getD p.1.dlx, rot := if e.rot then (p.1.rot + 31) % 32 else p.1.rot,
                                 pc := match e.br with
                                   | some o => ((p.1.pc : Int) + o).toNat
                                   | none => (p.1.pc + 1) % 8192,
                                 out := p.1.out ++ (e.out.map (fun o => { o with err := err })).toList,
                                 ended := p.1.ended || (p.1.run.isSome && e.stop) }
       (p.2.setEng n y).seFlags n e.fl) := by
  subst he
  simp only [State.seShake, List.map_cons, List.map_nil, hc, List.isEmpty_nil, Bool.not_true, Bool.false_eq_true, if_false]
  generalize seEffect (s1.eng n) (fun ad => s1.mw (tileBase n + ad)) i = e at *
  simp only [List.any_cons, List.any_nil, Bool.or_false, List.flatMap_cons, List.flatMap_nil, List.append_nil, List.foldl_cons,
    List.foldl_nil, hst, List.length_cons, List.length_nil, List.findSome?_cons, List.findSome?_nil, hsp]
  have h1 : (e.tile && err == EccErr.double) = false := by
    cases hE : e.tile
    · rfl
    · rw [ht hE]; rfl
  have h2 : (e.tile && err == EccErr.single) = false := by
    cases hE : e.tile
    · rfl
    · rw [ht hE]; rfl
  clear hc
  simp only [h1, h2, Bool.false_eq_true, if_false]
  cases e.lc <;> cases e.dlx <;> cases e.br <;> cases e.out <;> simp

/-- The errors of a handshake depend on the task table alone. -/
theorem shakeCodes_tt {s t : State} (h : t.tds.tt = s.tds.tt) (x : Eng) (cs : List SeCmd) (es : List SeEff) :
    t.shakeCodes x cs es = s.shakeCodes x cs es := by
  have e : t.task x.task = s.task x.task := by simp only [State.task, h]
  unfold State.shakeCodes
  rw [e]

theorem mw_of_mem {s t : State} (h : t.mem = s.mem) (a : Nat) : t.mw a = s.mw a := by
  have : ∀ k b, t.mleFrom b k = s.mleFrom b k := by
    intro k
    induction k with
    | zero => intro b; rfl
    | succ k ih => intro b; simp only [State.mleFrom, ih, State.mb, h]
  simp only [State.mw, this]

/-- The engine after an instruction whose effect `e` is free of errors, `y` being the engine with its registers written. -/
def Eng.after (y : Eng) (err : EccErr) (e : SeEff) : Eng :=
  { y with lc := e.lc.getD y.lc, dlx := e.dlx.getD y.dlx, rot := if e.rot then (y.rot + 31) % 32 else y.rot,
           pc := match e.br with
             | some o => ((y.pc : Int) + o).toNat
             | none => (y.pc + 1) % 8192,
           out := y.out ++ (e.out.map (fun o => { o with err := err })).toList,
           ended := y.ended || (y.run.isSome && e.stop) }

/-- What an instruction without errors, stores and SPAWN does from its issue on: its register writes, its special registers, its outstanding
operation, its flags. -/
theorem seIssue_plain {i : SeIns} {err : EccErr} {e : SeEff} {y : Eng} (h : s.Executes n i)
    (he : seEffect (s.eng n) (fun ad => s.mw (tileBase n + ad)) i = e)
    (hc : s.shakeCodes (s.eng n) [⟨i, err⟩] [{ e with out := e.out.map (fun o => { o with err := err }) }] = [])
    (ht : e.tile = true → err = .ok) (hst : e.st = []) (hsp : e.spawn = none)
    (hwr : ∀ t : State, t.putRegs (s.eng n) [] e.wr = (y, t)) :
    EngStep n (y.after err e) [R.SE_STAT n] [] [] s (s.seIssue n i err) ∧
      (s.seIssue n i err).rd (R.SE_STAT n) = s.rd (R.SE_STAT n) ||| e.fl.mask := by
  obtain ⟨s1, h1, htt, hr, hm, -, hq⟩ := seIssue_alone i err h
  have hy : y.waiting = [] := by
    have : ∀ (l : List (Nat × BitVec 32)) (d : List Nat) (t : State) (x : Eng), (t.putRegs x d l).1.waiting = x.waiting := by
      intro l
      induction l with
      | nil => intros; rfl
      | cons c l ih =>
        intro d t x
        obtain ⟨r, v⟩ := c
        simp only [State.putRegs]
        split
        · exact ih _ _ _
        · split <;> rw [ih] <;> simp only [Eng.putPhys] <;> split <;> rfl
    have := this e.wr [] s (s.eng n)
    rw [hwr] at this
    exact this.trans h.2.2.2.1
  have he1 : seEffect (s1.eng n) (fun ad => s1.mw (tileBase n + ad)) i = e := by
    rw [h1.own, ← he]; congr 1; funext ad; exact mw_of_mem hm _
  have hs := seShake_plain (n := n) s1 i err e he1 (by rw [h1.own, shakeCodes_tt htt]; exact hc) ht hst hsp
  rw [h1.own, hwr] at hs
  have h2 : EngStep n (s.eng n) [R.SE_STAT n] [] [] s s1 := ⟨h1.own, h1.others, h1.frame.mono (by simp) (by simp) (by simp)⟩
  have h3 : EngStep n (y.after err e) [R.SE_STAT n] [] [] s (s1.seShake n [⟨i, err⟩]) := by
    rw [hs]; exact (h2.setEng _).seFlags e.fl (by simp)
  rw [hq]
  refine ⟨h3.drain hy 1, ?_⟩
  rw [State.rd, drain_regs (by rw [h3.own]; exact hy), ← State.rd, hs]
  exact (rd_seFlags _ n e.fl).trans (by rw [show (s1.setEng n _).rd (R.SE_STAT n) = s.rd (R.SE_STAT n) by simp [State.rd, State.setEng, hr]])

/-- A handshake of one instruction without error codes of its own, without a branch and without an outstanding operation meets no error. -/
theorem shakeCodes_clean (s : State) (x : Eng) (c : SeCmd) (e : SeEff) (ho : c.i.odd = false) (hc : e.codes = []) (hb : e.br = none)
    (hu : e.out = none) : s.shakeCodes x [c] [e] = [] := by
  simp [State.shakeCodes, ho, hc, hb, hu]

/-- An instruction without errors, stores and SPAWN runs as its effect says. -/
theorem runs_of_effect {c : Instr} {i : SeIns} {err : EccErr} {e : SeEff} {y z : Eng} (hx : exec c s = .next (s.seIssue n i err))
    (he : seEffect (s.eng n) (fun ad => s.mw (tileBase n + ad)) i = e)
    (hc : s.shakeCodes (s.eng n) [⟨i, err⟩] [{ e with out := e.out.map (fun o => { o with err := err }) }] = [])
    (ht : e.tile = true → err = .ok) (hst : e.st = []) (hsp : e.spawn = none)
    (hwr : ∀ t : State, t.putRegs (s.eng n) [] e.wr = (y, t)) (hz : y.after err e = z) : s.Runs n c i z e.fl := by
  intro h
  obtain ⟨h1, h2⟩ := seIssue_plain h he hc ht hst hsp hwr
  exact ⟨_, hx, hz ▸ h1, h2⟩

/-- An instruction whose effect is one register write with flags. -/
theorem writes_of_effect {c : Instr} {i : SeIns} {d : Nat} {v : BitVec 32} {f : SeFlags} (hx : exec c s = .next (s.seIssue n i .ok))
    (ho : i.odd = false) (he : seEffect (s.eng n) (fun ad => s.mw (tileBase n + ad)) i = { wr := [(d, v)], fl := f }) : s.Writes n c i d v f := by
  exact runs_of_effect (e := { wr := [(d, v)], fl := f }) (y := (s.eng n).put d v) hx he (shakeCodes_clean _ _ _ _ ho rfl rfl rfl) (fun _ => rfl)
    rfl rfl (fun t => by simp [State.putRegs, Eng.put]) (by simp [Eng.after, Eng.advance])

end Sys2Proof.Machine
end

