-- ==== Sys2Proof/Laws/Memory.lean ====
section
/-! SUPPORT. Laws of memory: a byte read after a write, and the canonical form that every memory operation keeps. -/

namespace Sys2Proof.Machine

/-! ## Reading after writing -/

@[simp] theorem mb_setMb_self (s : State) (a : Nat) (v : Byte) : (s.setMb a v).mb a = v := by simp [State.mb, State.setMb]

theorem mb_setMb_ne (s : State) (a b : Nat) (v : Byte) (h : b ≠ a) : (s.setMb a v).mb b = s.mb b := by
  simp [State.mb, State.setMb, spGet_spSet_ne _ _ _ _ _ _ h]

/-- A little-endian write leaves every byte outside of it alone. -/
theorem mb_setMle_ne (n : Nat) : ∀ (s : State) (a v b : Nat), (b < a ∨ a + n ≤ b) → (s.setMle a n v).mb b = s.mb b := by
  induction n with
  | zero => intros; rfl
  | succ n ih =>
    intro s a v b h
    rw [State.setMle, ih _ _ _ _ (by omega), mb_setMb_ne _ _ _ _ (by omega)]

/-- A little-endian number read after it has been written. -/
theorem mleFrom_setMle (n : Nat) : ∀ (s : State) (a v : Nat), (s.setMle a n v).mleFrom a n = v % 256 ^ n := by
  induction n with
  | zero => intro s a v; simp [State.mleFrom, Nat.mod_one]
  | succ n ih =>
    intro s a v
    simp only [State.setMle, State.mleFrom]
    rw [mb_setMle_ne _ _ _ _ _ (by omega), mb_setMb_self, ih, Nat.pow_succ, Nat.mul_comm (256 ^ n), Nat.mod_mul]
    simp

/-- A word read after it has been written. -/
@[simp] theorem mw_setMw (s : State) (a : Nat) (v : BitVec 32) : (s.setMw a v).mw a = v := by
  simp only [State.mw, State.setMw, mleFrom_setMle]
  apply BitVec.eq_of_toNat_eq
  simp [Nat.mod_eq_of_lt v.isLt]

/-- A doubleword read after it has been written. -/
@[simp] theorem md_setMd (s : State) (a : Nat) (v : BitVec 64) : (s.setMd a v).md a = v := by
  simp only [State.md, State.setMd, mleFrom_setMle]
  apply BitVec.eq_of_toNat_eq
  simp [Nat.mod_eq_of_lt v.isLt]

theorem mb_setMw_ne (s : State) (a b : Nat) (v : BitVec 32) (h : b < a ∨ a + 4 ≤ b) : (s.setMw a v).mb b = s.mb b :=
  mb_setMle_ne 4 s a _ b h

theorem mb_setMd_ne (s : State) (a b : Nat) (v : BitVec 64) (h : b < a ∨ a + 8 ≤ b) : (s.setMd a v).mb b = s.mb b :=
  mb_setMle_ne 8 s a _ b h

/-! ## The canonical form -/

theorem wf_setMb (s : State) (a : Nat) (v : Byte) (h : Memory.wf s.mem = true) : Memory.wf (s.setMb a v).mem = true :=
  spWf_spSet memDefault s.mem a v h

theorem wf_setMle (n : Nat) : ∀ (s : State) (a v : Nat), Memory.wf s.mem = true → Memory.wf (s.setMle a n v).mem = true := by
  induction n with
  | zero => intro s a v h; exact h
  | succ n ih => intro s a v h; exact ih _ _ _ (wf_setMb s a _ h)

theorem wf_setMw (s : State) (a : Nat) (v : BitVec 32) (h : Memory.wf s.mem = true) : Memory.wf (s.setMw a v).mem = true := wf_setMle 4 s a _ h

theorem wf_setMd (s : State) (a : Nat) (v : BitVec 64) (h : Memory.wf s.mem = true) : Memory.wf (s.setMd a v).mem = true := wf_setMle 8 s a _ h

theorem wf_memWipe (s : State) (lo hi : Nat) (h : Memory.wf s.mem = true) : Memory.wf (s.memWipe lo hi).mem = true :=
  spWf_filter memDefault _ s.mem h

/-- Canonical cells below a bound, followed by canonical cells from it on. -/
theorem spWfFrom_append {α : Type} [DecidableEq α] (d : Nat → α) {b : Nat} {r : Sparse α} (hr : spWfFrom d b r = true) :
    ∀ {lo : Nat} {l : Sparse α}, lo ≤ b → spWfFrom d lo l = true → (∀ c ∈ l, c.1 < b) → spWfFrom d lo (l ++ r) = true
  | lo, [], hb, _, _ => spWfFrom_mono d hb hr
  | lo, (k, v) :: l, hb, hl, hk => by
    simp only [spWfFrom, Bool.and_eq_true, List.cons_append] at hl ⊢
    have : k < b := hk (k, v) (by simp)
    exact ⟨hl.1, spWfFrom_append d hr this hl.2 (fun c hc => hk c (by simp [hc]))⟩

theorem spWfFrom_raise {α : Type} [DecidableEq α] (d : Nat → α) {b : Nat} :
    ∀ {lo : Nat} {m : Sparse α}, spWfFrom d lo m = true → (∀ c ∈ m, b ≤ c.1) → spWfFrom d b m = true
  | _, [], _, _ => rfl
  | lo, (k, v) :: m, h, hb => by
    simp only [spWfFrom, Bool.and_eq_true, decide_eq_true_eq] at h ⊢
    exact ⟨⟨hb (k, v) (by simp), h.1.2⟩, h.2⟩

theorem cellsOf_wf (bs : List Byte) : ∀ a, spWfFrom memDefault a (cellsOf a bs) = true ∧ ∀ c ∈ cellsOf a bs, c.1 < a + bs.length := by
  induction bs with
  | nil => intro a; simp [cellsOf, spWfFrom]
  | cons b bs ih =>
    intro a
    have h := ih (a + 1)
    simp only [cellsOf]
    split
    · exact ⟨spWfFrom_mono memDefault (Nat.le_succ a) h.1, fun c hc => by have := h.2 c hc; simp at this ⊢; omega⟩
    · rename_i hb
      refine ⟨by simp [spWfFrom, hb, h.1], fun c hc => ?_⟩
      rcases List.mem_cons.1 hc with rfl | hc
      · simp
      · have := h.2 c hc; simp at this ⊢; omega

theorem wf_setMbytes (s : State) (a : Nat) (bs : List Byte) (h : Memory.wf s.mem = true) : Memory.wf (s.setMbytes a bs).mem = true := by
  have hc := cellsOf_wf bs a
  have hr : spWfFrom memDefault (a + bs.length) (s.mem.filter (fun c => decide (a + bs.length ≤ c.1))) = true :=
    spWfFrom_raise memDefault (spWfFrom_filter memDefault _ h) (fun c hc => by simpa using (List.mem_filter.1 hc).2)
  have hm : spWfFrom memDefault a (cellsOf a bs ++ s.mem.filter (fun c => decide (a + bs.length ≤ c.1))) = true :=
    spWfFrom_append memDefault hr (Nat.le_add_right _ _) hc.1 hc.2
  show spWf memDefault (s.mem.filter (fun c => decide (c.1 < a)) ++ cellsOf a bs ++ s.mem.filter (fun c => decide (a + bs.length ≤ c.1))) = true
  rw [List.append_assoc]
  exact spWfFrom_append memDefault hm (Nat.zero_le a) (spWfFrom_filter memDefault _ h) (fun c hc => by simpa using (List.mem_filter.1 hc).2)

end Sys2Proof.Machine
end

