-- ==== Sys2Proof/Tests/Slice0.lean ====
section
/-! SUPPORT. The model's own tests: ill-formed commands that the checks refuse, the spec's worked examples, and for every
statement that has hypotheses a concrete state and operands that meet them together. -/

namespace Sys2Proof.Tests

set_option Elab.async false

open Sys2Proof Sys2Proof.Machine

/-! ## Well-formed commands -/

theorem test_wf_time : Instr.wf (.wipeComplete (2 ^ 64 - 1)) = true ∧ Instr.wf (.wipeComplete (2 ^ 64)) = false := by decide +kernel
theorem test_wf_slot : Instr.wf (.logRecovery 0 ⟨some 131071, true⟩) = true ∧ Instr.wf (.logRecovery 0 ⟨some 131072, true⟩) = false ∧
    Instr.wf (.logClearComplete 0 ⟨some 131072, true⟩) = false := by decide +kernel
theorem test_wf_causes : Instr.wf (.powerOnReset 0 [.cold]) = true ∧ Instr.wf (.powerOnReset 0 []) = false := by decide +kernel
theorem test_wf_frame : Instr.wf (.downFrame 0 0 [⟨2, 0⟩, ⟨2, 0⟩]) = true ∧ Instr.wf (.downFrame 0 0 [⟨2, 0⟩]) = false ∧
    Instr.wf (.collectFrame 0 0 false (List.replicate 1025 ⟨2, 0⟩)) = false := by decide +kernel
theorem test_wf_messages : Instr.wf (.fcoMessage 0 [0]) = true ∧ Instr.wf (.fcoMessage 0 []) = false := by decide +kernel
theorem test_wf_read : Instr.wf (.read 0 0 0 [.ok] 0) = true ∧ Instr.wf (.read 0 0 0 [.ok, .ok] 0) = false := by decide +kernel
theorem test_wf_write : Instr.wf (.write 0 0 (List.replicate 64 0) false 0) = true ∧ Instr.wf (.write 0 0 [] false 0) = false ∧
    Instr.wf (.write 0 0 (List.replicate 65 0) false 0) = false := by decide +kernel
theorem test_wf_calibration : Instr.wf (.cal 0 ⟨0, List.replicate 12 (0, 0)⟩) = true ∧
    Instr.wf (.cal 0 ⟨0, List.replicate 11 (0, 0)⟩) = false := by decide +kernel
theorem test_wf_winter : Instr.wf (.winterRequest 0 true 7) = true ∧ Instr.wf (.winterRequest 0 true 8) = false ∧
    Instr.wf (.winterWake 0 true 8) = false ∧ Instr.wf (.winterReady 0 true 8) = false ∧ Instr.wf (.winterReady 0 false 31) = true := by
  decide +kernel
theorem test_wf_station : Instr.wf (.stationFrame 0 0 { bytes := List.replicate 14 0, fcsOk := true, da := 0, sa := 0, etype := 0 }) = true ∧
    Instr.wf (.stationFrame 0 0 { bytes := List.replicate 13 0, fcsOk := true, da := 0, sa := 0, etype := 0 }) = false := by decide +kernel

/-- The opcode table gives no row any bits, so no word spells a command. -/
theorem test_decode_none : decodeTableWord 0 0 = none ∧ decodeTableWord 32 0xFFFFFFFF = none := by decide
theorem test_fetch_none : State.withFetchWord State.reset 32 0 = State.reset := by decide +kernel

/-! ## Worked examples of the spec -/

/-- A state whose unit has selected its image. -/
def up : State := { State.reset with sys := { State.reset.sys with booting := false } }

/-- With privilege open. -/
def priv : State := up.setBit F.SYS_PRIV_OPEN true

/-- The state after a command. -/
def after (c : Instr) (s : State) : State :=
  match exec c s with
  | .next t => t
  | _ => s

/-- The read of TDS_OVR_CNT, which holds 3 (the example behind R389): the device answers OK, 0x0000_0003, CRC-8 0x09. -/
theorem test_example_host_read :
    (after (.read 5 0x0300480038 0 [.ok] 0xAF) (up.setFld F.TDS_OVR_CNT_V 3)).hcp.resp = { status := 0, words := [3], crc := 0x09 } := by
  decide +kernel

/-- The tap pair of the filter in chapter 8: 0xA248_E400, then LOOPN with offset 0, 0x7600_0000. -/
theorem test_example_tap_word : SeIns.word { p := true, op := 0x11, d := 9, a := 7, b := 8 } = 0xA248E400 ∧
    seOfWord 0xA248E400 = some { p := true, op := 0x11, d := 9, a := 7, b := 8 } ∧
    SeIns.word { op := 0x3B } = 0x76000000 ∧ seOfWord 0x76000000 = some { op := 0x3B } := by decide +kernel

/-- SM 17 of ring 9 has address 593 (chapter 1), and its slot of the example of chapter 4 is INSERT at 412 ns. -/
theorem test_example_slot : smAddr 9 17 = 593 ∧ slotWord 2 412 false = 0x2033800000000000 := by decide +kernel

/-- The word of MD3 at 2,000 A in the example of chapter 9. -/
theorem test_example_result_word : resWord 3 false false false false 5592405 = 0x30555555 := by decide +kernel

/-- The CRC-8 values of the example of chapter 17. -/
theorem test_example_crc : crc8 [0x40, 0x03, 0x00, 0x48, 0x00, 0x38] = 0xAF ∧ crc8 [0, 0, 0, 0, 3] = 0x09 := by decide +kernel

/-! ## Signal engines: the hypotheses of the statements -/

/-- Engine 31 in state `x`, running a task whose next instruction is `i`. -/
def running (i : SeIns) (x : Eng) : State :=
  { up with tds := { up.tds with eng := [(31, { x with run := some { desc := 0, at' := 0 } })], prog := [(31 * 16384, i.word)] } }

/-- Every defined opcode, with zero fields, is an instruction that engine 31 executes at once there. -/
theorem test_witness_executes : ∀ o, o < 64 → (seShape o).isSome = true → (running { op := o } {}).Executes 31 { op := o } := by
  unfold State.Executes; decide +kernel

/-- Register numbers and immediates at the ends of their ranges. -/
theorem test_witness_executes_ends : ∀ i ∈ ([{ op := 0x16, d := 63, a := 1, b := 63 }, { op := 0x04, d := 1, a := 2, b := 3, c := 63 },
    { op := 0x20, d := 4, a := 5, imm := imm13 0x1000 }, { op := 0x23, d := 4, imm := imm16 0x8000 }, { op := 0x24, d := 0, imm := imm16 0xFFFF },
    { op := 0x3C, a := 1, imm := imm13 0xFFF }] : List SeIns), (running i {}).Executes 31 i := by
  unfold State.Executes; decide +kernel

/-- An engine that runs no task executes what it is given. -/
theorem test_witness_executes_idle : up.Executes 0 { op := 0x16, d := 1, a := 2, b := 3 } := by
  unfold State.Executes; decide +kernel

/-- Even and odd registers of pairs: MAC, MACU, MUL64, LW2, SW2, LDC, STC by D, ACCRD by A. -/
theorem test_witness_pairs : ∀ o ∈ [0x12, 0x13, 0x14], ∀ d ∈ [62, 63], (running { op := o, d := d, a := 1, b := 2 } {}).Executes 31 { op := o, d := d, a := 1, b := 2 } := by
  unfold State.Executes; decide +kernel
theorem test_witness_pair_accesses : ∀ o ∈ [0x29, 0x2A, 0x2E, 0x2F], ∀ d ∈ [62, 63], (running { op := o, d := d, a := 1 } {}).Executes 31 { op := o, d := d, a := 1 } := by
  unfold State.Executes; decide +kernel
theorem test_witness_accrd : ∀ a ∈ [62, 63], (running { op := 0x15, d := 1, a := a, imm := imm13 63 } {}).Executes 31 { op := 0x15, d := 1, a := a, imm := imm13 63 } := by
  unfold State.Executes; decide +kernel

/-- Engine 31 about to execute `o` with D = 6, A = 5, B = 8 and v5 = `v`. -/
def ready (o v : Nat) : State :=
  running (if o = 0x11 then { op := o, d := 6, a := 5, b := 8 } else { op := o, d := 6, a := 5 }) { v := [(5, BitVec.ofNat 32 v), (8, 0x3FFFC)] }

/-- Tile accesses at the last word, misaligned inside, and aligned outside. -/
theorem test_witness_tile : ∀ o ∈ [0x25, 0x26, 0x27, 0x28], ∀ v ∈ [0x3FFFC, 0x3FFFF, 0x40000],
    (ready o v).Executes 31 { op := o, d := 6, a := 5 } ∧ ((ready o v).eng 31).get 5 = BitVec.ofNat 32 v := by
  unfold State.Executes; decide +kernel
theorem test_witness_tile_pair : ∀ o ∈ [0x29, 0x2A], (ready o 0x3FFF8).Executes 31 { op := o, d := 6, a := 5 } := by
  unfold State.Executes; decide +kernel
theorem test_witness_tap : (ready 0x11 0x3FFFC).Executes 31 { op := 0x11, d := 6, a := 5, b := 8 } ∧ ((ready 0x11 0x3FFFC).eng 31).get 8 = 0x3FFFC := by
  unfold State.Executes; decide +kernel

/-- Signal map and cluster bank: index 0x3FFF and 0x4000, byte 0x1F_FFF8 of the bank. -/
theorem test_witness_map : ∀ o ∈ [0x2B, 0x2C, 0x2E, 0x2F], ∀ v ∈ [0x3FFF, 0x4000, 0x1FFFF8], (ready o v).Executes 31 { op := o, d := 6, a := 5 } := by
  unfold State.Executes; decide +kernel

/-- The same, with a write window of index 0x1200 alone for task 0. -/
def windowed (v : Nat) : State :=
  let s := ready 0x2D v
  { s with tds := { s.tds with tt := [(0, BitVec.ofNat 192 (0x1200 * 2 ^ 101 + 2 ^ 87))] } }
theorem test_witness_window : (∀ v ∈ [0x11FF, 0x1200, 0x1201], (windowed v).Executes 31 { op := 0x2D, d := 6, a := 5 }) ∧
    tWbase ((windowed 0).task 0) = 0x1200 ∧ tWlen ((windowed 0).task 0) = 1 := by
  unfold State.Executes; decide +kernel

/-- An engine with one outstanding operation. -/
def outstanding (o : Outst) : State := { up with tds := { up.tds with eng := [(3, { out := [o] })] } }
theorem test_witness_outstanding : ∀ o ∈ ([{ kind := .lds, addr := 0x3FFF, dst := [5] }, { kind := .sts, addr := 0x1200, val := 7 },
    { kind := .ldc, addr := 0x1FFFF8, dst := [6, 7] }, { kind := .stc, addr := 0, val := 9 }] : List Outst),
    (outstanding o).held = false ∧ ((outstanding o).eng 3).waiting = [] ∧ ((outstanding o).eng 3).out[0]? = some o ∧
      o.err = .ok ∧ (o.kind = .sts → sigReserved o.addr = false) := by
  decide +kernel
/-- A word that LDC takes from the bank of cluster 0 reaches its two registers. -/
theorem test_outstanding_load : let t := after (.outstandingComplete 0 3 0) { outstanding { kind := .ldc, addr := 0, dst := [6, 7] } with mem := [(bankBase 0, 5), (bankBase 0 + 4, 9)] }
    (t.eng 3).get 6 = 5 ∧ (t.eng 3).get 7 = 9 ∧ (t.eng 3).out = [] := by
  decide +kernel

/-- Branches: nonzero and zero register, target at index 0, at 8,191 and one outside on either side. -/
theorem test_witness_branches : ∀ o ∈ [0x38, 0x39], ∀ v ∈ [0, 1], ∀ f ∈ [0, 8191, 8192, 0x7FFFF],
    (running { op := o, a := 5, imm := ofs19 (.ofNat 19 f) } { v := [(5, .ofNat 32 v)] }).Executes 31 { op := o, a := 5, imm := ofs19 (.ofNat 19 f) } := by
  unfold State.Executes; decide +kernel
theorem test_witness_loops : ∀ o ∈ [0x3A, 0x3B], ∀ c ∈ [1, 2], ∀ f ∈ [0, 8191, 8192, 0x7FFFF],
    (running { op := o, imm := ofs19 (.ofNat 19 f) } { lc := .ofNat 32 c }).Executes 31 { op := o, imm := ofs19 (.ofNat 19 f) } := by
  unfold State.Executes; decide +kernel
theorem test_witness_fence : let s := outstanding { kind := .lds, addr := 0, dst := [1] }
    s.held = false ∧ (s.eng 3).ended = false ∧ (s.eng 3).failed = false ∧ (s.eng 3).waiting = [] ∧ (s.eng 3).out ≠ [] := by
  decide +kernel

/-- SPAWN of a spawnable entry of phase 3 for every engine, and of entry 8,192, which is none. -/
def spawner (k : Nat) : State :=
  let s := running { op := 0x3E, a := 5, b := 8 } { v := [(5, .ofNat 32 k)] }
  { s with tds := { s.tds with tt := [(8191, BitVec.ofNat 192 ((3 * 2 ^ 58 + 0xFFFFFFFF * 2 ^ 26 + 8191 * 2 ^ 13) * 2 ^ 128 + 2 * 2 ^ 69))] } }
theorem test_witness_spawn : (∀ k ∈ [8191, 8192], (spawner k).Executes 31 { op := 0x3E, a := 5, b := 8 }) ∧ tKind ((spawner 0).task 8191) = 2 ∧
    (spawner 0).fld F.TDS_STAT_PHASE < dPhase (tDesc ((spawner 0).task 8191)) ∧ (spawner 0).tds.spawned = [] ∧
    dEmask (tDesc ((spawner 0).task 8191)) &&& ~~~(spawner 0).engMask ≠ 0 ∧ (spawner 0).tds.closed = false := by
  unfold State.Executes; decide +kernel

/-- The first of a pair waits in an engine without a task, MUL before ADD and ADD before MUL. -/
def paired (i : SeIns) : State := { up with tds := { up.tds with eng := [(0, { waiting := [⟨i, .ok⟩] })] } }
theorem test_witness_pair_waits : ∀ i ∈ ([{ p := true, op := 0x16, d := 1, a := 2, b := 3 }, { p := true, op := 0x18, d := 4, a := 1, b := 2 }] : List SeIns),
    let x := (paired i).eng 0
    (paired i).held = false ∧ x.ended = false ∧ x.failed = false ∧ x.waiting = [⟨i, .ok⟩] ∧ x.mustWait i = false ∧
      x.mustWait { op := 0x18, d := 4, a := 1, b := 2 } = false ∧ (paired i).seFetches 0 [⟨i, .ok⟩, ⟨{ op := 0x18, d := 4, a := 1, b := 2 }, .ok⟩] = true := by
  decide +kernel

/-- The longest immediate of each format. -/
theorem test_witness_words : ∀ p ∈ ([({ op := 0x00 }, .none), ({ op := 0x04, d := 63, a := 63, b := 63, c := 63 }, .dabc), ({ op := 0x08, d := 63, a := 63 }, .da),
    ({ op := 0x16, d := 63, a := 63, b := 63 }, .dab), ({ op := 0x20, d := 63, a := 63, imm := imm13 0x1000 }, .dai), ({ op := 0x23, d := 63, imm := imm16 0x8000 }, .du),
    ({ op := 0x38, a := 63, imm := ofs19 0x40000 }, .aj), ({ op := 0x3A, imm := ofs19 0x40000 }, .j), ({ op := 0x3C, a := 63, imm := imm13 0x1000 }, .ai),
    ({ op := 0x3D, a := 63 }, .a), ({ op := 0x3E, a := 63, b := 63 }, .ab)] : List (SeIns × Shape)), seShape p.1.op = some p.2 := by
  decide +kernel

/-- TASK_COMPLETE: a task that has ended, one that has failed, and one with a descriptor of phase 0 prefetched. -/
def ending (failed : Bool) (pre : List (BitVec 64)) : State :=
  { up with tds := { up.tds with eng := [(3, { run := some { desc := 0, at' := 0 }, ended := !failed, failed := failed, pre := pre })] } }
theorem test_witness_task_complete : ∀ f ∈ [false, true], ∀ p ∈ [[], [(0 : BitVec 64)]],
    let s := ending f p
    s.held = false ∧ (s.eng 3).run = some { desc := 0, at' := 0 } ∧ ((s.eng 3).ended || (s.eng 3).failed) = true ∧ (s.eng 3).out = [] ∧
      (s.eng 3).pre = p ∧ dPhase 0 ≤ s.fld F.TDS_STAT_PHASE ∧ s.engMask.getLsbD 3 = false ∧ (p = [] → ∀ m, m < 32 → (s.eng m).pre = []) := by
  decide +kernel

/-- A descriptor for engine 3 waits in the ready queue; its engine is busy beyond its bound. -/
def queued : State :=
  { up with mono := 1, tds := { up.tds with eng := [(3, { run := some { desc := 0, at' := 0 } })], queue := [BitVec.ofNat 64 (8 * 2 ^ 26)] } }
theorem test_witness_dispatch : queued.held = false ∧ queued.tds.closed = false ∧ queued.engMask.getLsbD 3 = false ∧ (queued.eng 3).pre.length < 2 ∧
    queued.eligible 3 ≠ [] ∧ (queued.eng 3).run = some { desc := 0, at' := 0 } ∧ tBound (queued.task 0) < ((queued.tick 5).mono - 0) * 10 := by
  decide +kernel

/-- The active slot is 0 after reset: SLOT 1 takes writes, SLOT 0 does not. -/
theorem test_witness_program_window : up.fld (F.SE_PADDR_SLOT 31) = up.psel 31 ∧
    (up.setFld (F.SE_PADDR_SLOT 31) 1).fld (F.SE_PADDR_SLOT 31) ≠ (up.setFld (F.SE_PADDR_SLOT 31) 1).psel 31 ∧ up.held = false := by
  decide +kernel

/-- ADMIT clear and set, SHADOW_OK clear and set. -/
theorem test_witness_clusters : up.bit (F.TDS_CL_CTL_ADMIT 7) = false ∧ (up.setBit (F.TDS_CL_CTL_ADMIT 7) true).bit (F.TDS_CL_CTL_ADMIT 7) = true ∧
    up.bit (F.TDS_CL_CTL_SHADOW_OK 7) = false ∧ (up.setBit (F.TDS_CL_CTL_SHADOW_OK 7) true).bit (F.TDS_CL_CTL_SHADOW_OK 7) = true := by
  decide +kernel

/-- What engine 0 holds in v4 after command `c`, with v1 = `a` and v2 = `b`. -/
def v4 (c : Instr) (a b : BitVec 32) : BitVec 32 :=
  ((after c { up with tds := { up.tds with eng := [(0, { v := [(1, a), (2, b)] })] } }).eng 0).get 4

/-- Hand-computed results: binary32 sums and products with one rounding, saturation, shifts modulo 32, signed comparison. -/
theorem test_float_results : v4 (.fadd 0 false 4 1 2) 0x3FC00000 0x40100000 = 0x40700000 ∧ v4 (.fmul 0 false 4 1 2) 0x40000000 0xC0400000 = 0xC0C00000 ∧
    v4 (.fsub 0 false 4 1 2) 0x3F800000 0x3F800000 = 0 ∧ f2i32 0x4F000000 = (0x7FFFFFFF, true) ∧ f2i32 0x40200000 = (2, false) ∧ v4 (.i2f 0 false 4 1) 0xFFFFFFFF 0 = 0xBF800000 ∧
    fCmp fmt32 0xBF800000 0 = some .lt ∧ v4 (.fneg 0 false 4 1) 0x7F800001 0 = 0x7FC00000 := by decide +kernel
theorem test_integer_results : v4 (.mul 0 false 4 1 2) 0x10001 0x10001 = 0x20001 ∧ v4 (.shl 0 false 4 1 2) 1 33 = 2 ∧ v4 (.sar 0 false 4 1 2) 0x80000000 31 = 0xFFFFFFFF ∧
    v4 (.slt 0 false 4 1 2) 0xFFFFFFFF 0 = 1 ∧ v4 (.addi 0 false 4 1 0x1FFF) 0 0 = 0xFFFFFFFF ∧ v4 (.lil 0 false 4 0x8000) 0 0 = 0xFFFF8000 ∧
    v4 (.sel 0 false 4 1 2 3) 7 9 = 9 ∧ v4 (.mac 0 false 4 1 2) 0xFFFFFFFF 2 = 0xFFFFFFFE := by decide +kernel
/-- v0 reads 0 and takes no write (R186). -/
theorem test_v0 : ((after (.addi 0 false 0 0 5) up).eng 0).get 0 = 0 := by decide +kernel

/-! ## Queue, registers, events, records, faults -/

theorem test_witness_step : step { State.reset with pending := [.wipeComplete 1] } = exec (.wipeComplete 1) State.reset ∧ State.reset.pending = [] := by
  exact ⟨rfl, rfl⟩

theorem test_witness_canonical : State.reset.Canonical ∧ (up.setFld F.TDS_OVR_CNT_V 3).Canonical := by
  unfold State.Canonical; decide +kernel

/-- A live die, the ends of the source numbers, a source that may become pending and one that may not. -/
theorem test_witness_events : up.held = false ∧ neverPending 253 = false ∧ neverPending 255 = true := by decide +kernel
theorem test_event_pins : let s := (((up.setBit F.INT_CTL_HINT_GLOBAL_EN true).setFbit (F.INT_ENA_ENA 7) 21 true).setBit (F.INT_SRC_CFG_HINT_EN 245) true).raise 245
    s.hintLow 0 = true ∧ s.hintLow 1 = false ∧ s.pends 245 = true ∧ s.pends 244 = false := by decide +kernel
theorem test_pend_clear_coincides : let t := after (.intPendClear 1 7 0xFFFFFFFF (1 <<< 21)) (up.raise 244)
    t.pends 244 = false ∧ t.pends 245 = true := by decide +kernel

/-- Aligned, unaligned, inside the register block and outside, an RW register without a write effect. -/
theorem test_witness_registers : regOffset 0x300480038 = some 0x480038 ∧ regOffset 0x300480039 = some 0x480039 ∧ regOffset 0x3008C0000 = none ∧
    (rowOf (R.MDU_ARM_DWELL 11)).isSome = true ∧ (up.writes .host (R.MDU_ARM_DWELL 11) 5).pick.isNone = true ∧ (rowOf 0x8BFFFC).isNone = true := by decide +kernel
theorem test_register_rw : let t := after (.registerWrite 1 .host (BitVec.ofNat 40 (0x300000000 + R.AON_CAL_SET_LO)) 7) (up.setBit F.SYS_PRIV_OPEN true)
    t.rd R.AON_CAL_SET_LO = 7 := by decide +kernel

/-- A record of source 245 waits for the EVR (default bucket off), and one of source 176, which bypasses the limiter. -/
def recOf (src t : Nat) : EvRec := { time := t, code := src, src := src, value := 0, qual := 0 }
def arriving (src : Nat) : State := { up with evr := { up.evr with inbox := [recOf src 5] } }
theorem test_witness_arrival : (arriving 176).held = false ∧ (arriving 176).fco.recQ = [] ∧ (arriving 176).evr.inbox = [recOf 176 5] ∧ (arriving 176).evr.accepting = true ∧
    (arriving 176).bypass (recOf 176 5) = true ∧ (arriving 176).evr.order.length < 256 ∧ (arriving 176).evr.lastOut = none ∧
    (arriving 245).bypass (recOf 245 5) = false := by decide +kernel

/-- A bucket that has spent its burst. -/
def spent : State :=
  let s := ((arriving 245).setBit F.EVR_RL_DEF_EN true).setFld F.EVR_RL_DEF_EN 1
  { s with evr := { s.evr with buckets := [(1024, { debt := s.fld (rlBurst 1024) * 10 ^ 9 + 10 ^ 10, last := 0 })] } }
theorem test_witness_limiter : spent.bypass (recOf 245 5) = false ∧ (spent.bucketOf 245 ≠ 1024 ∨ spent.bit F.EVR_RL_DEF_EN = true) ∧
    spent.fld (rlBurst (spent.bucketOf 245)) * 10 ^ 9 < ((spent.tick 0).bucketNow (spent.bucketOf 245)).debt + 10 ^ 9 ∧ spent.held = false := by decide +kernel
theorem test_witness_refill : ((up.tick 5).bucketNow 1024).debt = 0 ∧ ((up.tick 5).bucketNow 0).debt = 0 := by decide +kernel

/-- The ordering stage: a record that is too young, one that leaves; the buffer: one that has waited 1 s. -/
def ordering : State := { up with evr := { up.evr with order := [recOf 245 5] } }
theorem test_witness_ordering : ordering.evr.order = [recOf 245 5] ∧ 5 < (recOf 245 5).time + ordering.evrH ∧ ordering.held = false ∧
    ordering.bit F.EVR_STAT_DEGRADED = false ∧ ordering.evr.lossPend = 0 ∧ ordering.evr.buf.length < 2048 := by decide +kernel
def buffered : State :=
  { up with mono := 2 * 10 ^ 9, evr := { up.evr with buf := [⟨recOf 245 5, 10 ^ 9⟩], commitReq := true, recovered := true } }
theorem test_witness_commit : buffered.evr.commitReq = true ∧ buffered.mayCommit = true ∧ buffered.evr.pfail = none ∧ buffered.evr.buf = [⟨recOf 245 5, 10 ^ 9⟩] ∧
    buffered.bit F.EVR_STAT_FULL = false ∧ buffered.fld F.EVR_WPTR_V + 1 < lastSlot ∧ 10 ^ 9 + 10 ^ 9 ≤ (buffered.tick 0).mono ∧ buffered.held = false := by decide +kernel
theorem test_witness_recovery : up.evr.recovered = false ∧ up.evr.log = [] ∧ up.evr.pfail = none ∧ up.fld F.EVR_RSV_STAT_COUNT = 0 ∧
    up.bit F.EVR_STAT_DEGRADED = false := by decide +kernel

/-- Outside Frost and in it; with privilege and without. -/
theorem test_witness_frost : up.evr.frostSince = none ∧ ({ up with evr := { up.evr with frostSince := some 0 } } : State).evr.frostSince = some 0 ∧
    up.priv .host = false ∧ priv.priv .mgc = false ∧ priv.priv .host = true ∧ priv.held = false := by decide +kernel
theorem test_frost_timeout : let t := after (.frostTmo 10000000000) { up with evr := { up.evr with frostSince := some 0 } }
    t.bit F.EVR_CTL_FROST = false ∧ t.pends 204 = true ∧ (t.evr.inbox.map (fun r => (r.code, r.value))).head? = some (0xF009, 10000) := by decide +kernel

/-- A fault message of kind 0x20 below class DEGRADE, of class INTERRUPT, with a Fallow count of 0. -/
theorem test_witness_message : msgKind (BitVec.ofNat 64 (0x20 * 2 ^ 44)) = 0x20 ∧ (up.setFld (F.FCO_RT_CLASS 0x20) 1).fcoClass 0x20 = 1 ∧ up.fco.recQ.length < 64 ∧
    up.kindAct 0x20 = false ∧ up.kindLat 0x20 = false ∧ (up.setFld (F.FCO_RT_F_CNT 0x20) 0).fallow 0x20 = 0 := by decide +kernel

/-- A kind in the fault state whose Fallow period has passed, with and without a Thaw limit of 1. -/
def thawing (k : Nat) : State :=
  let s := ((up.setBit (F.FCO_KCNT_ACT 0x20) true).setFld (F.FCO_RT_F_CNT 0x20) 1).setFld (F.FCO_RT_K 0x20) k
  { s with fco := { s.fco with kinds := [(0x20, { lastMsg := some 0 })] } }
theorem test_witness_thaw : ∀ k ∈ [0, 1, 2], (thawing k).kindAct 0x20 = true ∧ (thawing k).kindLat 0x20 = false ∧ (thawing k).fallow 0x20 ≠ 0 ∧
    ((thawing k).kind 0x20).lastMsg = some 0 ∧ 0 + (thawing k).fallow 0x20 ≤ ((thawing k).tick (10 ^ 10)).mono ∧ (thawing k).rt 0x20 F.FCO_RT_K = k := by
  decide +kernel
theorem test_thaw_latches : let f (k : Nat) := after (.thaw (10 ^ 10) 0x20) (thawing k)
    (f 0).kindAct 0x20 = false ∧ (f 1).kindLat 0x20 = true ∧ (f 2).kindAct 0x20 = false := by decide +kernel
theorem test_witness_injection : up.fld F.SYS_LC_STATE = 0 ∧ (up.setFld F.SYS_LC_STATE 2).fld F.SYS_LC_STATE ≠ 0 := by decide +kernel

/-- Lifetime copies of two SEQs; the calendar with LOCK and without. -/
theorem test_witness_lifetime : ({ up with aon := { up.aon with copy0 := some { seq := 1, body := {} } } } : State).aon.newest = some { seq := 1, body := {} } ∧
    ltSeq (some { seq := 1, body := {} }) ≠ ltSeq none ∧ up.bit F.TBU_STAT_LOCK = false ∧ (up.setBit F.TBU_STAT_LOCK true).bit F.TBU_STAT_LOCK = true := by
  decide +kernel

/-! ## Safety, redundancy, resets -/

/-- A unit in RUN and one in STOP, pairs with FUNC BLOCK and STOP, a pair whose channels have differed for T_disc. -/
def running' : State := (up.setFld F.SFI_STAT_STATE stRun).setFld (F.SFI_SIN_CFG_FUNC 2) 2
def stopping : State := { up.setFld F.SFI_STAT_STATE stStop with mono := 10 ^ 10 }
theorem test_witness_demands : running'.held = false ∧ running'.fld (F.SFI_SIN_CFG_FUNC 2) = 2 ∧ running'.sfiState = stRun ∧
    (running'.setFld (F.SFI_SIN_CFG_FUNC 2) 1).fld (F.SFI_SIN_CFG_FUNC 2) = 1 ∧ up.sfiState = stBlock ∧ running'.sfiState ≠ stBlock := by decide +kernel
def differing : State := { running' with sfi := { running'.sfi with differ := [(2, some 0)] }, mono := running'.tDisc 2 }
theorem test_witness_discrepancy : differing.differSince 2 = some 0 ∧ differing.tDisc 2 ≤ (differing.tick 0).mono - 0 + 1000 ∧
    differing.sfi.disc.getLsbD 2 = false ∧ differing.held = false := by decide +kernel
/-- A door of pair 2 with FUNC BLOCK (the example of chapter 11). -/
theorem test_door_blocks : let t := after (.sinChange 5 2 false true false) running'
    t.sfiState = stBlock ∧ t.fld F.SFI_STAT_BLK_CAUSE = 1 ∧ t.pends 177 = true ∧ t.sfi.bAct = 0 := by decide +kernel

/-- SAFE STOP older than SFI_TSTOP_MAX, no monitor enabled; with monitor 7 enabled and within TOL. -/
def monitored : State :=
  let s := stopping.setBit (F.SFI_MON_CFG_EN 7) true
  { s with sfi := { s.sfi with mons := [(7, { inTol := some 0 })] } }
theorem test_witness_stop : stopping.sfiState = stStop ∧ stopping.sfi.stopAt + 10 ^ 6 ≤ (stopping.tick 0).mono ∧
    stopping.sfi.stopAt + stopping.fld F.SFI_TSTOP_MAX_V * 1000 ≤ (stopping.tick 0).mono ∧ (∀ q : Fin 8, stopping.bit (F.SFI_MON_CFG_EN q) = false) ∧
    stopping.held = false := by decide +kernel
theorem test_witness_monitor : monitored.sfiState = stStop ∧ monitored.bit (F.SFI_MON_CFG_EN 7) = true ∧ (∀ q : Fin 8, monitored.bit (F.SFI_MON_CFG_EN q) = true → q = 7) ∧
    (monitored.mon 7).inTol = some 0 ∧ 0 + 10 ^ 6 ≤ (monitored.tick 0).mono ∧ (monitored.tick 0).monSilent 7 = true := by decide +kernel

/-- RELEASE in BLOCK with SFS_OK and in RUN; ACK of a latched pair whose channels are inactive. -/
def releasable : State := (priv.setFld F.SFI_STAT_STATE stBlock).setBit F.SFI_STAT_SFS_OK true
theorem test_witness_release : releasable.priv .host = true ∧ releasable.sfiState = stBlock ∧ releasable.bit F.SFI_STAT_SFS_OK = true ∧ releasable.sfi.disc = 0 ∧
    (∀ p : Fin 8, releasable.demand p = false) ∧ (releasable.setFld F.SFI_STAT_STATE stRun).sfiState = stRun ∧ releasable.held = false := by decide +kernel
theorem test_witness_ack : let s : State := { releasable with sfi := { releasable.sfi with disc := 4 } }
    s.sfi.disc.getLsbD 2 = true ∧ s.sfi.aAct.getLsbD 2 = false ∧ s.sfi.bAct.getLsbD 2 = false ∧ s.sfi.disc.getLsbD 3 = false := by decide +kernel
theorem test_witness_restart : ({ up with sfi := { up.sfi with scpRestart := true } } : State).sfi.scpRestart = true := by decide +kernel

/-- The partner link: down with locked lanes and 16 good frames, up, down for 64 cycles. -/
def linked : State := up.setBit F.PL_STAT_UP true
theorem test_witness_link : let s : State := { up.setFld F.PL_STAT_LANE_LOCK 0xF with rdu := { up.rdu with pOk := 16 } }
    s.bit F.PL_STAT_UP = false ∧ s.fld F.PL_STAT_LANE_LOCK = 0xF ∧ 16 ≤ s.rdu.pOk ∧ true ≠ s.sys.uid ∧ linked.bit F.PL_STAT_UP = true ∧
      s.rdu.linkDownAt + 64 * s.tc ≤ (s.tick (10 ^ 9)).mono ∧ (running'.setBit F.SFI_STAT_SFS_OK false).sfiState = stRun ∧
      (running'.setBit F.SFI_STAT_SFS_OK false).bit F.SFI_STAT_SFS_OK = false := by decide +kernel
theorem test_witness_partner_frames : (up.setBit F.PL_CTL_EN true).bit F.PL_CTL_EN = true := by decide +kernel

/-- A standby with one ring without a tail, and the conditions of a claim. -/
def standby : State := ((up.setFld F.RDU_STAT_ROLE roleStandby).setBit (F.RPU_PORT_CTL_EN 0) true).setFld F.RDU_LEASE_LEASE_L 4
theorem test_witness_judgement : standby.role = roleStandby ∧ standby.quorumRings = [0] ∧
    (standby.quorumRings.filter (standby.tailOf (standby.tick (10 ^ 9)).judged)).length < standby.quorum 1 ∧
    (standby.tick (10 ^ 9)).judged + 1 ∉ standby.rdu.renewals ∧ standby.rdu.silent + 1 ≤ standby.fld F.RDU_LEASE_LEASE_L := by decide +kernel
def claiming : State :=
  ((((up.setBit F.RDU_CTL_CLAIM_EN true).setBit F.CFC_STAT_NOIMG false).setBit F.SFI_STAT_SFS_OK true).setFld F.SYS_LC_STATE 2)
theorem test_witness_claim : claiming.mayLeaveInit = true ∧ claiming.bit F.RDU_STAT_UID_CONF = false ∧ claiming.bit F.RDU_STAT_PL_UP = false ∧
    claiming.rdu.linkDownAt + claiming.fld F.RDU_CLAIM_WAIT_V * 10 ^ 6 ≤ (claiming.tick (10 ^ 12)).mono ∧ claiming.newEpoch.isSome = true ∧ claiming.held = false := by
  decide +kernel
/-- A claim in unit A takes an even epoch above EPOCH_MAX (R282). -/
theorem test_claim_takes_lease : let t := after (.claimWaitExpiry (10 ^ 12)) (claiming.wr R.RDU_EPOCH_MAX 7)
    t.role = roleActive ∧ t.rd R.RDU_EPOCH = 9 ∧ t.pends 184 = true := by decide +kernel

/-- A holder with a READY partner: release, Equinox in time and late, the settled return. -/
def holder : State :=
  let s := ((((priv.setFld F.RDU_STAT_ROLE roleActive).setBit F.RDU_STAT_P_READY true).setBit F.RDU_STAT_PL_UP true).setBit F.RDU_RET_MODE true).setFld F.RDU_RET_PREF 1
  { s with rdu := { s.rdu with readySince := some 0 } }
theorem test_witness_holder : holder.role = roleActive ∧ holder.partnerReady = true ∧ holder.priv .host = true ∧ holder.bit F.RDU_RET_MODE = true ∧ holder.isPref = false ∧
    holder.rdu.eqxN = none ∧ 0 < holder.tc ∧ holder.rdu.readySince = some 0 ∧ 0 + holder.fld F.RDU_RET_SETTLE * 10 ^ 9 ≤ (holder.tick (10 ^ 15)).mono ∧
    fullCycle (holder.tick 0).cycNow (holder.rd R.RDU_EQX_CYC) * holder.tc < 0 + 2 * holder.tc ∧
    ¬ fullCycle (holder.tick 0).cycNow ((holder.wr R.RDU_EQX_CYC 2).rd R.RDU_EQX_CYC) * holder.tc < 0 + 2 * holder.tc := by decide +kernel

/-- The die held by the pin, by the thermal trip, by a supply; not held. -/
def byPin (done : Bool) : State := { up with sys := { up.sys with porstLow := true, porDone := done } }
def byHeat : State := { up with sys := { up.sys with thermal := true } }
def byRail (r : Rail) (done : Bool) : State := { up with sys := { up.sys with rails := [r], porDone := done } }
theorem test_witness_power_on : ¬ (up.sys.porDone = true ∧ up.held = true) ∧ (byHeat.sys.porDone = true ∧ byHeat.held = true) ∧
    porCode .cold ∈ [PorCause.porst, .cold].map porCode ∧ (∀ x ∈ [PorCause.porst, .cold], porCode .cold ≤ porCode x) := by decide +kernel
theorem test_witness_ends_of_holds : (∀ d : Bool, (byPin d).sys.porstLow = true ∧ (byPin d).sys.porDone = d ∧ ({ byPin d with sys := { (byPin d).sys with porstLow := false } } : State).held = false) ∧
    byHeat.sys.thermal = true ∧ ({ byHeat with sys := { byHeat.sys with thermal := false } } : State).held = false ∧ byHeat.sys.porDone = true ∧
    (∀ d : Bool, (byRail .vmem d).railLost .vmem = true ∧ ((byRail .vmem d).railBack .vmem).held = false ∧ (byRail .vmem d).sys.porDone = d) := by decide +kernel
/-- A thermal trip is a power-on reset of cause 5; the die is held. -/
theorem test_thermal_trip : let t := after (.thermalTrip 5) up
    t.held = true ∧ t.sys.thermal = true ∧ t.sys.booting = true := by decide +kernel

/-- A pressed, a stuck button, a power failure. -/
theorem test_witness_button : let p : State := { up with aon := { up.aon with pressed := true } }
    let q : State := { p with aon := { p.aon with stuck := true } }
    let f : State := { p with sys := { p.sys with pfailLow := true } }
    p.aon.pressed = true ∧ p.aon.stuck = false ∧ { up.aon with low := true }.low = true ∧ q.aon.low = false ∧ p.sys.pfailLow = false ∧ q.aon.stuck = true ∧ f.sys.pfailLow = true ∧ up.sys.pfailLow = false := by decide +kernel
theorem test_button_press : (after (.buttonPress 5) up).aon.pressed = true ∧ (after (.buttonUnstuck 5) { up with aon := { up.aon with stuck := true } }).aon.stuck = false := by
  decide +kernel

/-! ## Memory, image, host port -/

/-- A wipe that runs; a unit that has not selected its image, in each life-cycle state. -/
theorem test_witness_boot : State.reset.memu.wipe ≠ .none ∧ State.reset.sys.booting = true ∧ State.reset.held = false ∧
    (∀ n ∈ [0, 1, 2, 3], (State.reset.setFld F.SYS_LC_STATE n).fld F.SYS_LC_STATE = n) ∧ State.reset.bootOrder = [] := by decide +kernel
/-- Activation words of generations 4 and 5 in slots 0 and 1: the higher one comes first. -/
def actMem (n g : Nat) : List Host.Cell :=
  [(actWord n, BitVec.ofNat 8 g)] ++ ((List.range 7).map fun i => (actWord n + 1 + i, 0)) ++ [(actWord n + 8, BitVec.ofNat 8 (255 - g))]
def twoSlots : State := { State.reset.setFld F.SYS_LC_STATE 2 with mem := actMem 0 4 ++ actMem 1 5 }
theorem test_witness_boot_order : twoSlots.genOf 0 = some 4 ∧ twoSlots.genOf 1 = some 5 ∧ twoSlots.bootOrder = [1, 0] ∧ twoSlots.fld F.SYS_LC_STATE = 2 ∧
    ({ twoSlots with mem := actMem 0 4 } : State).bootOrder = [0] := by decide +kernel
theorem test_witness_wipe : let t := after (.wipeComplete 5) State.reset
    t.memu.wipe = .none ∧ t.bit F.MEM_STAT_WIPING = false ∧ t.pends 235 = true ∧ t.drc.ready = true := by decide +kernel

/-- Winter: bits clear and set, the cluster re-admitted, its engines masked and not; a memory that wakes. -/
def masked : State := { up with tds := { up.tds with hostMask := 0xF0000000 } }
theorem test_witness_winter : masked.winBit true 7 = false ∧ masked.winBit false 31 = false ∧ masked.bit (F.TDS_CL_CTL_ADMIT 7) = false ∧
    (∀ e, e < 4 → masked.engMask.getLsbD (28 + e) = true) ∧ masked.engMask.getLsbD 27 = false ∧ masked.cfg.mirror.tiles = [] ∧
    (masked.setWinBit true 7 true).winBit true 7 = true ∧ (masked.setWinBit false 31 true).winBit false 31 = true := by decide +kernel
theorem test_witness_waking : ({ up with memu := { up.memu with wakingT := 0x80000000, wakingC := 0x80 } } : State).memu.wakingT.getLsbD 31 = true ∧
    ({ up with memu := { up.memu with wakingT := 0x80000000, wakingC := 0x80 } } : State).memu.wakingC.getLsbD 7 = true := by decide +kernel
/-- The last word of each memory that the patrol visits, the word behind it, a tile in Winter. -/
theorem test_witness_scrub : (∀ a ∈ [0x1FFFFFFF8, 0x200000000, 0x2007FFFF8, 0x201000000, 0x201FFFFF8, 0x202000000, 0x2021FFFF8, secBase, secBase + 0x3FFF8],
      scrubbed a = true ∧ up.wintered a = false) ∧ (∀ a ∈ [0x200800000, 0x202200000, secBase + 0x40000], scrubbed a = false) ∧
    (up.setWinRdy false 31 false).wintered 0x2007FFFF8 = true := by decide +kernel

/-- Tamper inputs enabled and not; a key to reload; no supplies. -/
theorem test_witness_tamper : (up.setFbit F.MEM_TAMP_CFG_EN 3 true).fbit F.MEM_TAMP_CFG_EN 3 = true ∧ (up.setFbit F.MEM_TAMP_CFG_EN 3 false).fbit F.MEM_TAMP_CFG_EN 3 = false ∧
    (byRail .vmem true).unpowered = true ∧ (up.setBit F.CFC_STAT_NOIMG false).imageOn = true ∧ (priv.tick 1).rd R.MEM_TAMP_STAT &&& ~~~0 = 0 ∧
    ((priv.setFbit F.MEM_TAMP_STAT_LATCH 3 true).tick 1).rd R.MEM_TAMP_STAT &&& ~~~0 ≠ 0 := by decide +kernel
theorem test_tamper_disabled : (after (.tamper 5 3) (priv.setFbit F.MEM_TAMP_CFG_EN 3 false)).bit F.SYS_PRIV_OPEN = true := by decide +kernel

/-- Transactions: with a long EXEC, with a wrong CRC-8, with the right one; memory that the host may read and own. -/
def busy (code : Nat) (arg : BitVec 64) : State := { up with hcp := { up.hcp with long := some { code := code, arg := arg } } }
theorem test_witness_transactions : hostBytes (.execNop 5 0) = some ([0xD2], 0) ∧ operandsOk (.execNop 5 0) = true ∧ Instr.time (.execNop 5 0) = some 5 ∧
    (busy 1 0).hcp.long.isSome = true ∧ up.hcp.long = none ∧ crc8 [0xD2] ≠ 0 ∧ crc8 (headBytes 0x40 0 0x0300480038) = 0xAF := by decide +kernel
theorem test_witness_host_memory : (∀ a ∈ [0, 0x1FFFFFFFC, 0x200000000, 0x201FFFFFC, dpramBase + 0x60000], hostMem a = true ∧ up.wintered a = false ∧ unlaid a = false ∧
      a < nvBase ∧ (a < dpramBase ∨ dpramBase + 0x60000 ≤ a)) ∧ hostMem nvBase = true ∧ hostMem nvEnd = false ∧ inSecure secBase = true ∧ hostMem secBase = false ∧
    regOffset secBase = none ∧ hostMem 0x200800000 = false ∧ inSecure 0x200800000 = false ∧ regOffset 0x200800000 = none := by decide +kernel
theorem test_busy_is_answered : let t := after (.execNop 5 (crc8 [0xD2])) (busy 1 0)
    t.hcp.resp.status = hsBusy ∧ t.pends 247 = true := by decide +kernel

/-- EXECs with and without an image, privilege, the life-cycle states; each long EXEC in progress. -/
theorem test_witness_execs : up.bit F.CFC_STAT_NOIMG = true ∧ (up.setBit F.CFC_STAT_NOIMG false).bit F.CFC_STAT_NOIMG = false ∧ priv.bit F.SYS_PRIV_OPEN = true ∧
    up.bit F.SYS_PRIV_OPEN = false ∧ (∀ c ∈ [1, 2, 3, 4, 5, 6, 7], (busy c 9).longArg c = some 9) := by decide +kernel
/-- A staging buffer whose image has 64 bytes. -/
def staged : State := { up.setFld F.SYS_LC_STATE 1 with mem := [(stagingBase + 8, 64)] }
theorem test_witness_load : staged.imgLen stagingBase = 64 ∧ (64 : BitVec 64).toNat ≤ imgMax ∧ staged.fld F.SYS_LC_STATE ≠ 0 ∧ staged.fld F.SYS_LC_STATE ≠ 3 ∧
    staged.bit F.CFC_STAT_NOIMG = true ∧ up.imgLen stagingBase ≠ 64 := by decide +kernel
/-- A slot without an image fails its verification; pending and acting switches. -/
theorem test_witness_switch : staged.verifySlot 0 ≠ none ∧ staged.cfc.pend = none ∧ staged.cfc.act = none ∧
    ({ up with cfc := { up.cfc with pend := some (3, true) } } : State).cfc.pend = some (3, true) ∧
    ({ busy 2 0 with cfc := { up.cfc with act := some hsOk } } : State).cfc.act = some hsOk := by decide +kernel

/-- Calibration: an enabled channel, a result that passes and one that does not; RECAL after 1.5 ms. -/
theorem test_witness_calibration : (41943 : Int).natAbs ≤ 41943 ∧ ¬ (41944 : Int).natAbs ≤ 41943 ∧ (busy 4 0).longArg 4 = some 0 ∧
    cfgEn ((up.wr (dsCfg 11) 0x80000000).rd (dsCfg 11)) = true ∧ up.msu.cal = none ∧ up.msu.recal = none ∧
    (({ up with msu := { up.msu with recal := some (11, 0) } } : State).tick 1500000).mono = 1500000 := by decide +kernel
/-- Entries 1,023, which is closed, and 5, which is empty. -/
def closedEntry : State := { up with mem := [(up.drcBase + 64 * 1023 + 48, 2)] }
theorem test_witness_export : (closedEntry.dir 1023).has fClosed = true ∧ (closedEntry.dir 1023).has fLost = false ∧ (closedEntry.dir 1023).has fOpen = false ∧
    (closedEntry.dir 1023).has fExporting = false ∧ (closedEntry.dir 5).has fClosed = false := by decide +kernel

/-- LC transitions that Table 17.12 has and has not; privilege, LOCKOUT, four failures. -/
theorem test_witness_life_cycle : lcAllowed 0 1 = true ∧ lcAllowed 0 2 = false ∧ lcAllowed 3 1 = false ∧ (up.setBit F.SYS_PRIV_LOCKOUT true).bit F.SYS_PRIV_LOCKOUT = true ∧
    up.bit F.SYS_PRIV_LOCKOUT = false ∧ (up.setFld F.SYS_PRIV_FAILS 4).fld F.SYS_PRIV_FAILS = 4 ∧
    priv.hcp.lastPriv + priv.fld F.SYS_PRIV_TMO_V * 10 ^ 9 ≤ (priv.tick (10 ^ 15)).mono ∧ up.hcp.lockAt + 60 * 10 ^ 9 ≤ (up.tick (10 ^ 12)).mono := by decide +kernel
theorem test_priv_timeout : (after (.privTimeout (10 ^ 15)) priv).bit F.SYS_PRIV_OPEN = false ∧ (after (.privTimeout 5) priv).bit F.SYS_PRIV_OPEN = true := by decide +kernel

/-! ## Cycles, rings, lanes, measurement, station ports, time base, recorder, pulse outputs -/

/-- The reset values give Tc = 2,000 ns; an instant of each kind. -/
theorem test_witness_cycle : up.held = false ∧ up.tc = 2000 ∧ 4000 % up.tc = 0 ∧ (4000 - 140 + 140) % up.tc = 0 ∧ up.cyc.resume ≤ 3860 ∧ up.sys.booting = false := by
  decide +kernel
/-- The cycle number that a start at t = 4,000 ns shows (R29). -/
theorem test_cycle_start : (after (.cycleStart 4000) up).rd R.TBU_CYCLE = 2 ∧ (after (.cycleStart 4001) up).cyc.started = up.cyc.started := by decide +kernel

/-- P0 of cycle 3 is due in a unit with an image, outside INIT, with the fabric idle and busy. -/
def cycling : State := (up.setBit F.CFC_STAT_NOIMG false).setFld F.RDU_STAT_ROLE roleActive
theorem test_witness_p0 : let t := 4 * cycling.tc + cycling.p0Ofs
    cycling.imageOn = true ∧ cycling.tc ≤ t ∧ cycling.p0Due t (t / cycling.tc - 1) = true ∧ cycling.cyc.resume ≤ (t / cycling.tc - 1) * cycling.tc ∧
      cycling.cyc.comps = [] ∧ cycling.role ≠ roleInit ∧ cycling.fabricIdle = true ∧ queued.fabricIdle = false ∧ up.role = roleInit := by decide +kernel

/-- A computation that has released P0 to P2 and completed phases 0 and 1, and one that has completed all. -/
def computing (rel done : Nat) : State := { cycling with cyc := { cycling.cyc with comps := [{ k := 1, p0 := 4316, p0At := some 4316, rel := rel, done := done, doneAt := 4400 }] } }
theorem test_witness_phases : ((computing 3 2).cyc.comps.find? (fun c => 4316 + cycling.bOfs 3 == c.p0 + (computing 3 2).bOfs 3)).isSome = true ∧
    (computing 3 2).curComp.isSome = true ∧ (computing 3 2).phaseIdle 2 = true ∧
    (((computing 8 8).cyc.comps.find? (fun c => c.k == (6000 - 140 + 140) / 2000 - 2)).map (fun c => c.done == 8 && decide (c.doneAt < 5860) && !c.masked)) = some true ∧
    (((computing 3 2).cyc.comps.find? (fun c => c.k == 1)).map (fun c => c.done == 8)) = some false ∧
    ((computing 3 2).cyc.comps.find? (fun c => c.p0At.isSome && decide (c.rel ≤ 6))).isSome = true := by decide +kernel
theorem test_overrun_counts : let t := after (.sendPoint 5860) { computing 3 2 with sys := { up.sys with booting := false } }
    t.bit F.TDS_DLM_STAT_OVR = true ∧ t.fld F.TDS_OVR_CNT_V = 1 ∧ t.pends 104 = true := by decide +kernel

/-- A configured position takes an auxiliary command; the bounds of CMDX. -/
def oneSm : State := (cycling.setBit (F.RPU_PORT_CTL_EN 0) true).setFld (F.RPU_PORT_GEOM_NCFG 0) 1
theorem test_witness_aux : oneSm.configured 0 = true ∧ oneSm.configured 1 = false ∧ oneSm.mdu.aux = [] ∧ (∀ c ∈ [1, 4, 8, 15], F.MDU_AUX_CMDX.get (F.MDU_AUX_CMDX.put 0 c) = c) := by
  decide +kernel
theorem test_aux_refused : (after (.mduAux 5 (F.MDU_AUX_CMDX.put 0 5)) oneSm).bit F.MDU_AUX_STAT_AUX_REJ = true ∧
    (after (.mduAux 5 (F.MDU_AUX_CMDX.put 0 4)) oneSm).mdu.aux = [⟨0, 4, none⟩] := by decide +kernel
/-- A step in time (cycle 2) and one too late (cycle 0). -/
theorem test_witness_step_request : fullCycle (up.tick 0).cycNow (up.rd (R.CLU_SLOT_SCH_CYC 63)) * up.tc < 0 + 2 * up.tc ∧
    ¬ fullCycle (up.tick 0).cycNow ((up.wr (R.CLU_SLOT_SCH_CYC 63) 2).rd (R.CLU_SLOT_SCH_CYC 63)) * up.tc < 0 + 2 * up.tc := by decide +kernel
theorem test_late_step : (after (.schArm 0 63 false) up).fld (F.CLU_SLOT_SCH_CTL_SCH_ST 63) = 2 ∧ ((after (.schArm 0 63 true) up).clus 63).sch = some (1, true) := by decide +kernel
/-- A step of the time base that waits (the example of chapter 10: an offset of +372,118,406 ns moves the count back by as much). -/
def stepping : State := { up with now := 10 ^ 12, tbu := { up.tbu with step := some (16 * 372118406) } }
theorem test_example_time_step : (stepping.tick (10 ^ 12)).stepDue none = some (16 * 372118406) ∧ 10 ^ 12 % stepping.tc = 0 ∧
    (after (.timeStep (10 ^ 12) none) stepping).now = 10 ^ 12 - 372118406 := by decide +kernel

/-- A ring lane whose receiver runs, one that has found 64 valid headers, one with 24 invalid ones, a quad powered down. -/
def hunting (x : Lane) : State := { up with lanes := [(71, x)] }
theorem test_witness_lanes : (up.rxRuns 71 = true ∨ ((up.setBit (F.LPH_LANE_PWR_RX_SLEEP 71) false).setBit (F.LPH_QUAD_CTL_PD 17) false).rxRuns 71 = true) ∧ isGimen 71 = true ∧ isGimen 64 = false ∧
    64 ≤ ((hunting { good := 64 }).lane 71).good ∧ up.bit (F.LPH_LANE_STAT_BLOCK_LOCK 71) = false ∧
    (up.setBit (F.LPH_LANE_STAT_BLOCK_LOCK 71) true).bit (F.LPH_LANE_STAT_BLOCK_LOCK 71) = true ∧ 24 ≤ ((hunting { winBad := 24 }).lane 71).winBad ∧
    4 ≤ ((hunting { run := 4 }).lane 71).run ∧ ((hunting { elastic := -1 }).lane 71).elastic ≤ -1 ∧ ((hunting { elastic := 1 }).lane 71).inFrame = false := by decide +kernel
theorem test_lock : (after (.blockLockAcquired 5 71) (hunting { good := 64 })).bit (F.LPH_LANE_STAT_BLOCK_LOCK 71) = true ∧
    (after (.blockLockAcquired 5 71) (hunting { good := 63 })).bit (F.LPH_LANE_STAT_BLOCK_LOCK 71) = false := by decide +kernel
theorem test_witness_lane_use : up.laneInUse 0 = false ∧ (up.setBit (F.RPU_PORT_CTL_EN 0) true).laneInUse 0 = true ∧ (up.setBit (F.LPH_LANE_EYE_RUN 0) true).bit (F.LPH_LANE_EYE_RUN 0) = true ∧
    (up.setBit (F.LPH_LANE_RXEQ_ADAPT_FREEZE 0) true).bit (F.LPH_LANE_RXEQ_ADAPT_FREEZE 0) = true ∧ (up.setBit (F.LPH_QUAD_CTL_PD 17) true).bit (F.LPH_QUAD_CTL_PD 17) = true := by decide +kernel
theorem test_equaliser_sum : let w (m : Nat) := (F.LPH_LANE_TXEQ_MAIN 0).put ((F.LPH_LANE_TXEQ_PRE 0).put 0 1) m
    (after (.txeqWrite 5 0 (w 62)) up).fld (F.LPH_LANE_TXEQ_MAIN 0) = 62 ∧ (after (.txeqWrite 5 0 (w 63)) up).bit (F.LPH_LANE_STAT_TXEQ_ERR 0) = true := by decide +kernel

/-- A port that sends, one that identifies, one with a pending session, one that relays. -/
def sending : State := (((cycling.setBit (F.RPU_PORT_CTL_EN 63) true).setFld (F.RPU_PORT_STAT_PHASE 63) phIdent).setBit (F.LPH_LANE_STAT_TX_ACTIVE 63) true)
def sess0 (start : Nat) : State := { sending with ports := [(63, { next := some { start := start, salt := 0, prk := 0 }, identDue := some 0 })] }
theorem test_witness_rings : sending.sendsTime 63 = true ∧ up.sendsTime 63 = false ∧ sending.enabled 63 = true ∧ sending.role = roleActive ∧ sending.phase 63 = phIdent ∧
    sending.fld (F.RPU_PORT_STAT_NFOUND 63) = 0 ∧ ((sess0 2).port 63).identDue = some 0 ∧ (((sess0 2).port 63).next.map (·.start)) = some 2 ∧ (up.port 63).relaying = false ∧
    ((sess0 2).tick 4000).cycNow = 2 ∧ ((sess0 2).tick 3999).cycNow = 1 := by decide +kernel
theorem test_session_starts : (((after (.sessionStart 4000 63) (sess0 2)).port 63).sess.map (·.start)) = some 2 ∧
    ((after (.sessionStart 3999 63) (sess0 2)).port 63).sess = none := by decide +kernel
/-- Heads of frames: cycle numbers of the present cycle and the one before it pass, others do not. -/
theorem test_witness_frames : (up.tick 4010).collectCyc 2 2 = some 2 ∧ (up.tick 4010).collectCyc 2 1 = some 1 ∧ (up.tick 4010).collectCyc 2 0 = none ∧
    ((up.setBit (F.RPU_PORT_CTL_EN 0) true).setBit F.RDU_STAT_PL_UP true).enabled 0 = true ∧ up.role ≠ roleActive ∧ up.sys.strapConf = false := by decide +kernel
theorem test_bad_header_counts : (after (.collectFrame 4000 63 false [⟨2, 0⟩, ⟨2, 0⟩]) sending).fld (F.RPU_PORT_FDISC_CNT_V 63) = 1 := by decide +kernel

/-- A filter that runs at its word instant; a SAR sequence and an urgent conversion; a lost stream; a pulse input. -/
def sampling : State := { (up.wr (R.MSU_SAR_CTL 1) ((F.MSU_SAR_CTL_TRIG 1).put 0 3)) with msu := { up.msu with ds := [(11, { eff := 0x80000040 })], sar := [(1, { conv := some { input := 7, at' := 0, stamp := 0, pos := some 0 } })] } }
theorem test_witness_measurement : cfgEn (sampling.ds 11).eff = true ∧ wordInstant (sampling.dsPeriod 11) 0 = true ∧
    wordInstant (sampling.dsPeriod 11) 2 = false ∧ (sampling.ds 11).last = none ∧ sampling.fld (F.MSU_SAR_CTL_TRIG 1) = 3 ∧
    (sampling.sar 1).running = true ∧ (up.sar 1).running = false ∧ ((sampling.sar 1).conv.map (·.at')) = some 0 ∧ (up.sar 1).conv = none := by decide +kernel
theorem test_sequence_overrun : (after (.sarStart 5 1) sampling).fld (F.MSU_SAR_SEQ_OVR_V 1) = 1 := by decide +kernel
/-- A SAR conversion of code 0x8001 gives (code - 32,768) x 256 = 256 (R215). -/
theorem test_sar_result : ((spGet [] (after (.sarConversion 100 1 0x8001) sampling).msu.sarRes 35).head?.map (fun r => r.word.extractLsb' 0 24)) = some 256 := by decide +kernel
theorem test_witness_inputs : (up.setBit (F.MSU_SV_CFG_EN 15) true).bit (F.MSU_SV_CFG_EN 15) = true ∧ up.bit (F.MSU_SV_STAT_LOST 15) = false ∧
    (up.setFld (F.MSU_PSI_CFG_MODE 3) 1).fld (F.MSU_PSI_CFG_MODE 3) = 1 ∧ up.psi 3 = [] ∧ up.calibrating 0 = false ∧
    fltRat 0x3F800000 9 10 = false ∧ fltRat (fneg32 0x3F800000) (-11) 10 = false ∧ fbad32 0x3F800000 = false := by decide +kernel

/-- A station frame of 60 bytes without its FCS, to the broadcast address; pairs with each mode. -/
def frame60 : StFrame := { bytes := List.replicate 60 0, fcsOk := true, da := 0xFFFFFFFFFFFF, sa := 1, etype := 0x88F7, red := some (7, 0xA) }
def station (mode : Nat) : State :=
  let s := (up.setBit (F.SPU_PAIR_CTL_EN 1) true).setFld (F.SPU_PAIR_CTL_MODE 1) mode
  { s with spu := { s.spu with rx := [(4, true)], dup := [(1, [{ sa := 1, seq := 7, at' := 0 }])] }, drc := { s.drc with ready := true } }
theorem test_witness_station : (station 1).bit (F.SPU_PAIR_CTL_EN 1) = true ∧ frame60.fcsOk = true ∧ 64 ≤ frame60.bytes.length + 4 ∧ frame60.bytes.length + 4 ≤ 1528 ∧
    (station 1).isPrp 1 = true ∧ (station 2).isHsr 1 = true ∧ (station 0).macAccepts 1 frame60.da = true ∧ (station 0).macAccepts 1 5 = false ∧
    ((station 1).setFld (F.SPU_PAIR_CTL_FORGET 1) 1).dupSeen 1 1 7 = true ∧ frame60.sa ≠ (station 1).ownMac 1 ∧ (station 0).rxActive 1 0 = true ∧
    ((station 1).setFld (F.SPU_PAIR_CTL_FORGET 1) 0).dupLive 1 { sa := 1, seq := 7, at' := 0 } = false := by decide +kernel
theorem test_bad_fcs_counts : (after (.stationFrame 5 3 { frame60 with fcsOk := false }) (station 0)).fld (F.SPU_PORT_RXERR_CNT_V 3) = 1 ∧
    (after (.stationFrame 5 3 frame60) (station 1)).fld (F.SPU_PORT_RXOK_CNT_V 3) = 1 := by decide +kernel
/-- A receive descriptor at address 0 that the unit owns. -/
theorem test_witness_descriptor : let s : State := { station 0 with mem := [((station 0).rxDesc 1 0 + 13, 0x80)] }
    (s.descU16 (s.rxDesc 1 0) 12).getLsbD 15 = true ∧ s.drc.ready = true ∧ s.rxDesc 1 0 + 27 ≤ 0x200000000 := by decide +kernel
theorem test_witness_transmit : let s : State := { station 0 with spu := { (station 0).spu with ports := [(3, { cur := some .fwd, fwd := [(frame60, 0)] })] } }
    (s.stPort 3).cur = some .fwd ∧ (s.stPort 3).fwd = [(frame60, 0)] ∧ (after (.txFrameSent 5 3) s).fld (F.SPU_PORT_TXOK_CNT_V 3) = 1 := by decide +kernel

/-- Time sources: three offsets so far; a pulse within 1 ms of a second and one beyond. -/
def sourced : State := { up with tbu := { up.tbu with sel := 1, src := [(1, { n := 3, last := 0 })] } }
theorem test_witness_time_sources : (sourced.timeSrc 1).n = 3 ∧ sourced.tbu.sel = 1 ∧ (sourced.timeSrc 1).n ≠ 0 ∧ (sourced.timeSrc 1).last + 4 * 10 ^ 9 ≤ (sourced.tick (4 * 10 ^ 9)).mono ∧
    up.tbu.ppsMissing = false ∧ up.tbu.lastPps + 2 * 10 ^ 9 ≤ (up.tick (2 * 10 ^ 9)).mono ∧ up.fld F.TBU_PPS_PPS_IN_DLY = 0 ∧ up.fld F.TBU_PPS_PPS_OUT_DLY = 0 := by decide +kernel
theorem test_far_pulse : (after (.ppsInEdge (10 ^ 9 + 1000001)) up).pends 157 = true ∧ (after (.ppsInEdge (10 ^ 9 + 1000000)) up).pends 157 = false := by decide +kernel

/-- Timestamp inputs and timed outputs: an empty and a full FIFO; in time, late, a full queue. -/
def stamped (n : Nat) : State := { (up.setFld (F.TBU_TSI_CFG_EDGE 31) 3) with tbu := { up.tbu with tsi := [(31, (List.range n).map fun i => (i, false))] } }
theorem test_witness_stamps : ((stamped 15).tsi 31).length < 16 ∧ 16 ≤ ((stamped 16).tsi 31).length ∧ (stamped 1).tsi 31 = [(0, false)] ∧ up.tsi 31 = [] ∧
    (stamped 1).fld (F.TBU_TSI_CFG_EDGE 31) = 3 ∧ (stamped 1).fld (F.TBU_TSI_CFG_FLT 31) ≤ 2 ^ 20 := by decide +kernel
theorem test_stamp_pop : ((F.TBU_TSI_POP_VALID 31).get (after (.tsiPop 5 31) (stamped 2)).hcp.readVal, ((after (.tsiPop 5 31) (stamped 2)).tsi 31).length,
    (after (.tsiPop 5 31) up).hcp.readVal) = (1, 1, 0) := by decide +kernel
def timed (l : List TsoAct) : State := { (up.wr (R.TBU_TSO_TL 7) 100000) with tbu := { up.tbu with tso := [(7, { queue := l })] } }
theorem test_witness_outputs : ¬ (timed []).fld64 (F.TBU_TSO_TL_V 7) (F.TBU_TSO_TH_V 7) < 0 + 2 * up.tc ∧ up.fld64 (F.TBU_TSO_TL_V 7) (F.TBU_TSO_TH_V 7) < 0 + 2 * up.tc ∧
    up.bit (F.TBU_TSO_CTL_MODE 7) = false ∧ up.bit (F.TBU_TSO_CTL_LATE_OK 7) = false ∧ ((timed [⟨1, true, false⟩]).tso 7).queue = [⟨1, true, false⟩] ∧
    (up.setFld (F.TBU_TSO_PERIOD_V 7) 100).fld (F.TBU_TSO_PERIOD_V 7) = 100 := by decide +kernel
theorem test_output_late : (after (.tsoGo 0 7 true) up).fld (F.TBU_TSO_CTL_ST 7) = 2 ∧ ((after (.tsoGo 0 7 true) (timed [])).tso 7).queue = [⟨100000, true, false⟩] := by decide +kernel

/-- An open record whose last cycle has been sampled. -/
def recording : State := { up with drc := { up.drc with open' := some { entry := 5, t := 0, k := 0, endT := 1999, lastT := 0, lastOfs := 0 }, lastK := some 0 } }
theorem test_witness_record : recording.drc.open'.isSome = true ∧ recording.drc.lastK = some 0 ∧ min 1999 ((none : Option Nat).getD 1999) < (0 + 1) * recording.tc ∧
    (recording.drc.meas.all fun c => decide (c.1 < 256)) = true ∧ up.drc.open' = none := by decide +kernel
theorem test_mask_point : (after (.mskPdataWrite 5 .host 15 9) priv).mskPoint 15 false 0 = 9 ∧ (after (.mskPdataWrite 5 .mgc 15 9) priv).mskPoint 15 false 0 = priv.mskPoint 15 false 0 := by decide +kernel

/-- A channel at its boundary, one before it; trip inputs, the fault input. -/
def pulsing : State := { up with mono := 100, apw := { up.apw with ch := [(11, { first := some 100 })], lease := true } }
theorem test_witness_pulses : (pulsing.apwCh 11).nextBoundary = some 100 ∧ 100 ≤ pulsing.mono ∧ (up.apwCh 11).nextBoundary = none ∧ up.apw.fltLow = false ∧
    up.bit (F.APW_CH_CTL_TMODE 11) = false ∧ up.apw.trip.toNat &&& up.fld (F.APW_CH_CTL_TRIP_MASK 11) = 0 ∧ up.blanked 7 = false ∧
    (up.setFbit (F.APW_CH_CTL_TRIP_MASK 11) 7 true).fbit (F.APW_CH_CTL_TRIP_MASK 11) 7 = true := by decide +kernel
theorem test_trip : let t := after (.apwTrip 5 7 true) (up.setFbit (F.APW_CH_CTL_TRIP_MASK 11) 7 true)
    t.bit (F.APW_CH_STAT_TRIPPED 11) = true ∧ t.fld (F.APW_CH_TRIP_CNT_V 11) = 1 ∧ t.pends 165 = true := by decide +kernel
theorem test_fault_input : (after (.apwFltLow 5) up).bit F.APW_STAT_FLT = true ∧ (after (.apwFltHigh 5) (after (.apwFltLow 5) up)).bit F.APW_STAT_FLT = true := by decide +kernel

/-! ## Cryptography (NIST's published examples) and further hypotheses of the statements -/

theorem test_gcm_tag : (gcmTag 0 (List.replicate 12 0) [] []).extractLsb' 96 32 = 0x530F8AFB := by decide +kernel
theorem test_sha384 : (sha384 [97, 98, 99]).extractLsb' 320 64 = 0xCB00753F45A35E8B := by decide +kernel

/-- A released P0; engines 2 and 3 of cluster 0 with bank accesses at one sub-bank, where the arbiter turns to either. -/
theorem test_witness_released : (ending false []).cyc.comps.all (fun c => c.p0At.isSome) = true ∧
    (computing 3 2).cyc.comps.all (fun c => c.p0At.isSome) = true := by decide +kernel
def rivals (r : Nat) : State :=
  { up with tds := { up.tds with eng := [(2, { out := [{ kind := .ldc, addr := 128, dst := [1, 2] }] }), (3, { out := [{ kind := .stc, addr := 0, val := 9 }] })],
                                 rr := [(0, r)] } }
theorem test_arbiter : ((after (.outstandingComplete 0 3 0) (rivals 2)).eng 3).out = [] ∧ ((after (.outstandingComplete 0 3 0) (rivals 4)).eng 3).out.length = 1 ∧
    ((after (.outstandingComplete 0 2 0) (rivals 4)).eng 2).out = [] := by decide +kernel
/-- A program word with a reserved opcode makes its handshake ILLEGAL (R189). -/
theorem test_reserved_word : let s := running { op := 0 } {}
    (after (.nop 31 false) { s with tds := { s.tds with prog := [(31 * 16384, 0x62000000)] } }).rd (R.SE_ERR 31) = 0x10000000 := by decide +kernel

/-- A thaw with a message of its kind behind it in the queue; lifetime copies with different SEQs; a held die. -/
def crowded : State := { thawing 2 with pending := [.fcoMessage 5 [BitVec.ofNat 64 (0x20 * 2 ^ 44)]] }
theorem test_witness_message_due : crowded.msgDue 5 0x20 = true ∧ crowded.msgDue 6 0x20 = false ∧ (byPin true).held = true := by decide +kernel
theorem test_ack_behind_message : (after (.fcoAck 5 .host 0x20) crowded).bit F.FCO_STAT_ACK_REF = true := by decide +kernel

/-- A channel that changed at 0: T_filt has passed and has not; the same state again; the HBL with FUNC BLOCK and STOP of pair 2. -/
def filtered : State := { running' with sfi := { running'.sfi with sinAt := [(4, some 0)] } }
theorem test_witness_filter : running'.sfi.aAct.getLsbD 2 = false ∧ spGet none running'.sfi.sinAt 4 = none ∧ spGet none filtered.sfi.sinAt 4 = some 0 ∧
    0 < filtered.tFilt 2 ∧ running'.scpDead = false ∧ (running'.setFbit F.SFI_STAT_TEST_FAIL 0 true).scpDead = true := by decide +kernel
theorem test_filter : (after (.sinChange 1 2 false true false) filtered).sfiState = stRun ∧
    (after (.sinChange (filtered.tFilt 2) 2 false true false) filtered).sfiState = stBlock := by decide +kernel
def heldHbl (f : Nat) : State :=
  { byPin true with sfi := { up.sfi with hblPar := [(2, (F.SFI_SIN_CFG_FUNC 2).put 0 f)] } }
theorem test_witness_held_demands : (∀ f ∈ [1, 2], (heldHbl f).held = true ∧ (heldHbl f).sys.vsafLost = false ∧ (F.SFI_SIN_CFG_FUNC 2).get ((heldHbl f).hblWord 2) = f) := by
  decide +kernel
theorem test_held_demands : (after (.sinChange 5 2 true true false) (heldHbl 2)).blkOut = true ∧
    (after (.sinChange 5 2 true true false) (heldHbl 1)).sfi.hblStop = some 5 := by decide +kernel
theorem test_held_stop_expires : (after (.tstopExpiry (200001 * 1000)) (after (.sinChange 5 2 true true false) (heldHbl 1))).blkOut = true := by decide +kernel
theorem test_dead_scp : let s := (running'.setBit F.SYS_PRIV_OPEN true).setFbit F.SFI_STAT_TEST_FAIL 0 true
    s.priv .host = true ∧ s.scpDead = true ∧ (after (.blockReq 5 .host) s).sfiState = stRun := by decide +kernel

/-- A link whose lane drops out, whose skew is 9, with two bad frames, silent for more than two cycles. -/
theorem test_witness_link_lost : linked.bit F.PL_STAT_UP = true ∧ (linked.setFld F.PL_STAT_LANE_LOCK 0xF).fld F.PL_STAT_LANE_LOCK = 0xF ∧
    linked.fld F.PL_STAT_LANE_LOCK ≠ 0xF ∧ linked.rdu.pOkAt + 2 * linked.tc < (linked.tick 4001).mono ∧ linked.held = false := by decide +kernel
/-- A partner frame of unit B as unit A reads it: right, with a wrong CRC-32, with a wrong tag. -/
def leaseWire : List Blk := leaseBlocks { cycle := 7, epoch := 3, role := roleStandby, ready := true, blockOrd := true, tails := 5 }
def partnerWire (crc tag : Bool) : List Blk :=
  let t := tag32 linked.pairKey (ivPartner true 3 7) (blkBytes leaseWire) + (if tag then 0 else 1)
  [sofBlk ftPartner 0 0 0 0] ++ leaseWire ++ [⟨1, (tagBlk leaseWire t).pl + (if crc then 0 else 1)⟩, eofBlk ftPartner 7]
def partnered : State := (running'.setBit F.PL_CTL_EN true).setBit F.PL_STAT_UP true
theorem test_witness_partner_frame : ((partnered.pframe (partnerWire true true)).map fun f => (f.crcOk, f.tagOk)) = some (true, true) ∧
    ((partnered.pframe (partnerWire false true)).map (·.crcOk)) = some false ∧ ((partnered.pframe (partnerWire true false)).map fun f => (f.crcOk, f.tagOk)) = some (true, false) := by
  decide +kernel
theorem test_partner_block : (after (.partnerFrame 5 (partnerWire true true)) partnered).sfiState = stBlock ∧
    (after (.partnerFrame 5 (partnerWire false true)) partnered).rd R.PL_CRC_CNT = 1 := by decide +kernel

/-- Judgement points: d_3 of a cycle not judged yet and of one judged; silent beyond L in a unit that may hold. -/
theorem test_witness_judged : (7000 - standby.tc / 2) / standby.tc = 3 ∧ 3 * standby.tc + standby.tc / 2 = 7000 ∧ standby.rdu.judged = none ∧ standby.held = false ∧
    (let s : State := { standby with rdu := { standby.rdu with silent := 4 } }
     s.fld F.RDU_LEASE_LEASE_L < s.rdu.silent + 1) := by decide +kernel
def inheriting : State :=
  { (((standby.setBit F.SFI_STAT_SFS_OK true).setBit F.CFC_STAT_NOIMG false)) with rdu := { standby.rdu with silent := 4 } }
theorem test_witness_takeover : inheriting.mayHold = true ∧ inheriting.newEpoch.isSome = true ∧ inheriting.role = roleStandby ∧
    inheriting.fld F.RDU_LEASE_LEASE_L < inheriting.rdu.silent + 1 := by decide +kernel

/-- Resets: a log at rest and one being written; a live die in canonical form in each life-cycle state; the power failure's record window. -/
theorem test_witness_warm : (up.tick 5).bit F.EVR_STAT_CLEARING = false ∧ (up.tick 5).evr.cutAt + 160 * (up.tick 5).evr.cutN ≤ (up.tick 5).mono ∧
    (up.tick 5).evr.pfail = none ∧ up.held = false ∧ up.fld F.SYS_LC_STATE = 0 ∧ up.Canonical := by
  unfold State.Canonical; decide +kernel
def failing : State := { up with sys := { up.sys with pfailLow := true }, evr := { up.evr with pfail := some 5 } }
theorem test_witness_accept_end : failing.sys.pfailLow = true ∧ failing.evr.pfail = some 5 ∧ 5 + 800000 ≤ 800005 ∧ failing.held = false := by decide +kernel
theorem test_accept_end : (after (.pfailAcceptEnd 800005) failing).evr.accepting = false ∧ (after (.pfailAcceptEnd 800004) failing).evr.accepting = true := by decide +kernel

/-- A frame decided for cycle 3 at its instant, at a port with a session for it and without; a ring of a unit in service that originates. -/
def sess3 (start : Nat) : State :=
  { sess0 start with cyc := { (sess0 start).cyc with frame := some (3, false) },
                     ports := [(63, { sess := some { start := start, salt := 0, prk := 0 } })] }
theorem test_witness_down_send : (sess3 2).cyc.frame = some (3, false) ∧ (3 - 1) * (sess3 2).tc = 4000 ∧ (sess3 2).role ≠ roleInit ∧ (sess3 2).sendsTime 63 = true ∧
    63 ∈ (sess3 2).rings ∧ (((sess3 2).port 63).sessFor 3).isSome = true ∧ (((sess3 9).port 63).sessFor 3).isNone = true ∧ (sess3 2).rdu.txRelay = [] := by decide +kernel
def serving (asked : Option Nat) : State :=
  { (sending.setFld F.RDU_STAT_ROLE roleStandby).setFld (F.RPU_PORT_STAT_PHASE 63) phService with ports := [(63, { origin := some 2, askedIdent := asked })] }
theorem test_witness_origin : (serving none).originates 63 2 = true ∧ (serving none).originates 63 1 = false ∧ ((serving (some 66)).port 63).askedIdent = some 66 ∧
    (serving none).sys.booting = false ∧ 4000 % (serving none).tc = 0 := by decide +kernel

/-- Lanes: a near-end loop, a station lane that has found its headers and lost them, quad 17, one in use that sends in OPERATIONAL. -/
theorem test_witness_more_lanes : (up.setFld (F.LPH_LANE_TEST_LOOP 71) 1).nearLoop 71 = true ∧ isGimen 67 = false ∧ up.nearLoop 71 = false ∧
    (up.setBit F.PL_STAT_UP true).bit F.PL_STAT_UP = true ∧ (∀ l ∈ [68, 69, 70, 71], (up.setBit F.PL_CTL_EN false).laneInUse l = false ∧ up.laneInUse l = true) ∧
    (let s := ((up.setFld F.SYS_LC_STATE 2).setBit (F.RPU_PORT_CTL_EN 0) true).setBit (F.LPH_QUAD_CTL_PD 0) false
     s.laneInUse 0 = true ∧ (s.setBit (F.LPH_LANE_PWR_TX_SLEEP 0) false).txIdle 0 = false ∧ s.fld F.SYS_LC_STATE = 2) := by decide +kernel
theorem test_witness_pattern_codes : (∀ v ∈ [0, 1, 2, 3], (F.LPH_LANE_TEST_GEN 67).get ((F.LPH_LANE_TEST_GEN 67).put 0 v) = v ∧
    (F.LPH_LANE_TEST_CHK 67).get ((F.LPH_LANE_TEST_CHK 67).put 0 v) = v ∧ (F.LPH_LANE_TEST_LOOP 67).get ((F.LPH_LANE_TEST_LOOP 67).put 0 v) = v) := by decide +kernel
theorem test_witness_station_link : ((up.setBit (F.LPH_LANE_PWR_RX_SLEEP 67) false).setBit (F.LPH_QUAD_CTL_PD 16) false).rxRuns 67 = true ∧
    (let s : State := { (up.setBit (F.LPH_LANE_PWR_RX_SLEEP 67) false).setBit (F.LPH_QUAD_CTL_PD 16) false with lanes := [(67, { good := 64, winBad := 16 })] }
     s.pcsChange 67 true = true ∧ s.pcsChange 67 false = true ∧ s.bit (F.SPU_PORT_STAT_BLOCK_LOCK 3) = false ∧
       (s.setBit (F.SPU_PORT_STAT_BLOCK_LOCK 3) true).bit (F.SPU_PORT_STAT_BLOCK_LOCK 3) = true) := by decide +kernel

/-- TIME at its instant of cycle 1 (t = 3,936 ns), not sent yet; a lit port; a port of the holder that was asked to identify. -/
theorem test_witness_time_block : (sending.tick 3936).cycNow = 1 ∧ (64 * ((1 + 1) * sending.tc - 64) - 0) / 64 = 3936 ∧ (sending.port 63).timeAt = none ∧
    sending.phase 63 ≠ phLight ∧ (sending.port 63).reqIdent = false ∧ sending.role = roleActive := by decide +kernel
theorem test_time_block : (((after (.timeBlockSend 3936 63 0) sending).port 63).timeAt, ((after (.timeBlockSend 3935 63 0) sending).port 63).timeAt) = (some 1, none) := by
  decide +kernel
def relayed : State := { serving none with ports := [(63, { relaying := true })] }
theorem test_witness_relaying : (relayed.port 63).relaying = true ∧ relayed.enabled 63 = true ∧ relayed.role ≠ roleActive ∧ relayed.relayLate 63 3 = false := by decide +kernel
/-- A port that identifies in the holder, whose last request was 1,024 cycles ago; one that joins with a session in force. -/
theorem test_witness_retry : (sending.port 63).identAt + 1024 ≤ (sending.tick 2048000).cycNow ∧
    (let p : Port := { join := true, sess := some { start := 0, salt := 0, prk := 0 }, identDue := some 3 }
     p.join = true ∧ p.sess ≠ none ∧ p.identDue = some 3) := by decide +kernel
/-- A down frame of unit A, as it leaves the holder in cycle 3 and as unit B checks it; the judgement point of cycle 3. -/
def wire : List Blk := ((sess3 2).buildDown 63 3 false).1
def other : State := { (sess3 2).setFld F.RDU_STAT_ROLE roleStandby with sys := { (sess3 2).sys with uid := true } }
theorem test_witness_down_frame : ((other.tick 6000).downCheck 63 wire).map (·.1) = some 3 ∧ other.judgeAt 3 = 7000 ∧ (sofOf wire).f 55 48 ≠ ftSession ∧
    other.enabled 63 = true ∧ (other.tick 6000).downCheck 62 wire = none := by decide +kernel
theorem test_tail_in_time : ((after (.downFrame 7000 63 wire) other).port 63).tails = [3] ∧ ((after (.downFrame 7001 63 wire) other).port 63).tails = [] := by decide +kernel

/-- Measurement: a conversion of an idle SAR's new sequence, an urgent one of the host; a calibration in its first slot; an input whose filter
has let four edges through. -/
def sarWith (c : SarConv) : State := { up with mono := 5, msu := { up.msu with sar := [(1, { conv := some c })] } }
theorem test_witness_urgent : ∀ c ∈ ([{ input := 7, at' := 5, stamp := 0, pos := some 0, idle := true }, { input := 7, at' := 5, stamp := 0, pos := none, host := true },
    { input := 7, at' := 4, stamp := 0, pos := some 1 }] : List SarConv), ((sarWith c).sar 1).conv = some c ∧ ((sarWith c).tick 0).mono = 5 := by decide +kernel
theorem test_urgent : let f (c : SarConv) := (after (.sarUrgent 0 1 (.host 3)) (sarWith c)).fld (F.MSU_SAR_URG_URG_ST 1)
    f { input := 7, at' := 5, stamp := 0, pos := some 0, idle := true } = 1 ∧ f { input := 7, at' := 5, stamp := 0, pos := some 0 } = 2 := by decide +kernel
def calibrated : State := { up.wr (dsCfg 0) 0x80000000 with msu := { up.msu with cal := some 0, calRaws := List.replicate 12 (0, 0) } }
theorem test_witness_cal : (busy 4 0).longArg 4 = some 0 ∧ calibrated.msu.cal = some 0 ∧ 0 + 18000000 ≤ (calibrated.tick 18000000).mono ∧ calibrated.msu.calDone = 0 ∧
    calibrated.calibrating 0 = true ∧ (calibrated.tick 1500000).calStep.msu.calDone = 1 := by decide +kernel
def pulsed : State :=
  let s := up.setFld (F.MSU_PSI_CFG_MODE 3) 1
  { s with mono := 2000, msu := { s.msu with psi := [(3, [(900, true), (800, false), (500, true), (400, false), (100, true)])] } }
theorem test_witness_psi : (pulsed.psiX 3 (10 ^ 6)).isSome = true ∧ pulsed.psi 3 ≠ [] ∧ up.psiX 3 5 = none := by decide +kernel

/-- A PTP frame of the other pair, of the PTP pair; a Sync that a ring sends in one step. -/
theorem test_witness_ptp : (up.setFld F.TBU_CTL_PTP_PAIR 1).ptpIgnored 0 frame60 = true ∧ (up.setFld F.TBU_CTL_PTP_PAIR 1).ptpIgnored 1 frame60 = false ∧
    ptpSyncAt (List.replicate 12 0 ++ [0x88, 0xF7] ++ List.replicate 46 0) = some 14 ∧ ptpSyncAt (List.replicate 60 0) = none ∧ (0x2000 : BitVec 16).getLsbD 13 = true := by
  decide +kernel

/-- A trip input with another level, its filter passed and not; a blanking window that ends; one that holds. -/
def tripping : State := { up with apw := { up.apw with tripAt := [(7, some 0)] } }
theorem test_witness_trip : (true ≠ up.tripOn 7) ∧ spGet none tripping.apw.tripAt 7 = some 0 ∧ (tripping.setFld (F.APW_TRIP_CFG_TFLT 7) 5).fld (F.APW_TRIP_CFG_TFLT 7) * 2 = 10 ∧
    spGet none up.apw.tripAt 7 = none ∧ up.tripHeld 11 = false := by decide +kernel
theorem test_trip_filter : let s := (tripping.setFld (F.APW_TRIP_CFG_TFLT 7) 5).setFbit (F.APW_CH_CTL_TRIP_MASK 11) 7 true
    (after (.apwTrip 9 7 true) s).fld (F.APW_CH_TRIP_CNT_V 11) = 0 ∧ (after (.apwTrip 10 7 true) s).fld (F.APW_CH_TRIP_CNT_V 11) = 1 := by decide +kernel
/-- Staged values that reached the boundary 8 ns before and too late; a phase with them. -/
theorem test_witness_transfer : inTime (some 92) 100 = true ∧ inTime (some 93) 100 = false ∧ inTime none 100 = false ∧ up.fbit F.APW_UPDLK_V 11 = false ∧
    (up.setFbit F.APW_UPDLK_V 11 true).fbit F.APW_UPDLK_V 11 = true := by decide +kernel

end Sys2Proof.Tests
end

section
/-! Proofs of R3 to R5 and R380 (00_scope.md): which offsets the register map names, that every register with an action of its own is one
of them, and what a write does to each field of a register without one. -/

namespace Sys2Proof.Machine

/-! ## The blocks of the map (Table 17.9) -/

/-- A block of the register map: its first offset, the offset after its last, its rows. -/
structure Block where
  lo : Nat
  hi : Nat
  rows : List RRow

/-- The blocks that `rowsAt` chooses among. -/
def blocks : List Block := [
  ⟨0, 0x10000, rowsSys⟩, ⟨0x10000, 0x20000, rowsCfc⟩, ⟨0x20000, 0x100000, rowsHcp⟩, ⟨0x100000, 0x200000, rowsRpu⟩,
  ⟨0x200000, 0x300000, rowsLph⟩, ⟨0x300000, 0x340000, rowsSpu⟩, ⟨0x340000, 0x380000, rowsTbu⟩, ⟨0x380000, 0x400000, rowsRdu⟩,
  ⟨0x400000, 0x440000, rowsMdu⟩, ⟨0x440000, 0x480000, rowsClu⟩, ⟨0x480000, 0x500000, rowsTds⟩, ⟨0x500000, 0x600000, rowsSe⟩,
  ⟨0x600000, 0x640000, rowsMsu⟩, ⟨0x640000, 0x700000, rowsApw⟩, ⟨0x700000, 0x740000, rowsSfi⟩, ⟨0x740000, 0x780000, rowsFco⟩,
  ⟨0x780000, 0x7c0000, rowsEvr⟩, ⟨0x7c0000, 0x800000, rowsDrc⟩, ⟨0x800000, 0x840000, rowsMem⟩, ⟨0x840000, 0x880000, rowsAon⟩,
  ⟨0x880000, 0x8c0000, rowsInt⟩]

/-- The rows of the first block of `bs` that ends after offset `a`. -/
def rowsIn (a : Nat) : List Block → List RRow
  | [] => []
  | b :: bs => if a < b.hi then b.rows else rowsIn a bs

theorem rowsAt_eq (a : Nat) : rowsAt a = rowsIn a blocks := rfl

theorem block_of_mem_rowsIn {a : Nat} {r : RRow} : ∀ {bs : List Block}, r ∈ rowsIn a bs → ∃ b ∈ bs, r ∈ b.rows
  | [], h => by simp [rowsIn] at h
  | b :: bs, h => by
    simp only [rowsIn] at h
    split at h
    · exact ⟨b, by simp, h⟩
    · obtain ⟨c, hc, hr⟩ := block_of_mem_rowsIn h
      exact ⟨c, by simp [hc], hr⟩

/-- Where the blocks are in order, the block that holds `a` gives its rows. -/
theorem rowsIn_of_block {a : Nat} {b : Block} (hlo : b.lo ≤ a) (hhi : a < b.hi) :
    ∀ {bs : List Block}, bs.Pairwise (fun c d => c.hi ≤ d.lo) → b ∈ bs → rowsIn a bs = b.rows
  | c :: bs, hs, hb => by
    rw [List.pairwise_cons] at hs
    obtain ⟨hc, hs⟩ := hs
    rcases List.mem_cons.1 hb with rfl | hb
    · simp [rowsIn, hhi]
    · have : ¬ a < c.hi := by have := hc b hb; omega
      simp [rowsIn, this, rowsIn_of_block hlo hhi hs hb]

theorem blocks_ordered : blocks.Pairwise (fun c d => c.hi ≤ d.lo) := by decide +kernel

theorem rowsAt_of_block {b : Block} (hb : b ∈ blocks) {a : Nat} (hlo : b.lo ≤ a) (hhi : a < b.hi) : rowsAt a = b.rows :=
  (rowsAt_eq a).trans (rowsIn_of_block hlo hhi blocks_ordered hb)

/-! ## Where the registers lie -/

theorem rows_aligned : ∀ b ∈ blocks, ∀ r ∈ b.rows, 4 ∣ r.base ∧ 4 ∣ r.s1 ∧ 4 ∣ r.s2 := by decide +kernel

theorem hits_iff (r : RRow) (o : Nat) : r.hits o = true ↔
    r.base ≤ o ∧ (o - r.base) / r.s1 < r.c1 ∧ (o - r.base) % r.s1 / r.s2 < r.c2 ∧ (o - r.base) % r.s1 % r.s2 = 0 := by
  simp [RRow.hits, and_assoc]

/-- A row whose base and strides are multiples of 4 names aligned offsets alone. -/
theorem aligned_of_hits {r : RRow} {o : Nat} (hr : 4 ∣ r.base ∧ 4 ∣ r.s1 ∧ 4 ∣ r.s2) (h : r.hits o = true) : o % 4 = 0 := by
  obtain ⟨hb, h1, h2⟩ := hr
  obtain ⟨hle, -, -, hm⟩ := (hits_iff r o).1 h
  have hd : (o - r.base) % 4 = 0 := by
    rw [← Nat.mod_mod_of_dvd _ h1, ← Nat.mod_mod_of_dvd _ h2, hm]
  omega

theorem block_of_rowOf {a : Nat} {r : RRow} (h : rowOf a = some r) : ∃ b ∈ blocks, r ∈ b.rows :=
  block_of_mem_rowsIn (List.mem_of_find?_eq_some h)

/-- R380 with R4: the map names aligned offsets alone. -/
theorem rowOf_of_unaligned {a : Nat} (h : a % 4 ≠ 0) : rowOf a = none := by
  cases hr : rowOf a with
  | none => rfl
  | some r =>
    obtain ⟨b, hb, hrb⟩ := block_of_rowOf hr
    have hh : r.hits a = true := List.find?_some (p := fun r => RRow.hits r a) hr
    exact absurd (aligned_of_hits (rows_aligned b hb r hrb) hh) h

/-! ## Families that lie in the map -/

/-- The offsets `base`, `base + st`, … (`n` of them) are registers of the row: `n` of its outer or of its inner index. -/
def RRow.holds (r : RRow) (base st n : Nat) : Bool :=
  let d := base - r.base
  r.hits base && ((st == r.s1 && decide (0 < r.s1 ∧ d / r.s1 + n ≤ r.c1)) ||
    (st == r.s2 && decide (0 < r.s2 ∧ d % r.s1 + n * r.s2 ≤ r.s1 ∧ d % r.s1 / r.s2 + n ≤ r.c2)))

/-- The family `f` of `n` lies in a row of one block. -/
def famMapped (f : Nat → Nat) (n : Nat) : Bool :=
  let st := f 1 - f 0
  blocks.any fun b => decide (b.lo ≤ f 0 ∧ f 0 + (n - 1) * st < b.hi) && b.rows.any fun r => r.holds (f 0) st n

theorem hits_of_holds {r : RRow} {base st n i : Nat} (h : r.holds base st n = true) (hi : i < n) : r.hits (base + i * st) = true := by
  simp only [RRow.holds, Bool.and_eq_true, Bool.or_eq_true, beq_iff_eq, decide_eq_true_eq, hits_iff] at h ⊢
  obtain ⟨⟨hb, h1, h2, hm⟩, h⟩ := h
  have hd : base + i * st - r.base = base - r.base + i * st := by omega
  rw [hd]
  rcases h with ⟨rfl, hs, hc⟩ | ⟨rfl, hs, hw, hc⟩
  · rw [Nat.add_mul_div_right _ _ hs, Nat.add_mul_mod_self_right]
    exact ⟨by omega, by omega, h2, hm⟩
  · have hin : i * r.s2 < n * r.s2 := Nat.mul_lt_mul_of_pos_right hi hs
    have hlt : i * r.s2 < r.s1 := by omega
    have hsum : (base - r.base) % r.s1 + i * r.s2 % r.s1 < r.s1 := by rw [Nat.mod_eq_of_lt hlt]; omega
    have hdiv : (base - r.base + i * r.s2) / r.s1 = (base - r.base) / r.s1 := by
      rw [Nat.add_div_eq_of_add_mod_lt hsum, Nat.div_eq_of_lt hlt, Nat.add_zero]
    have hmod : (base - r.base + i * r.s2) % r.s1 = (base - r.base) % r.s1 + i * r.s2 := by
      rw [Nat.add_mod_of_add_mod_lt hsum, Nat.mod_eq_of_lt hlt]
    rw [hdiv, hmod, Nat.add_mul_div_right _ _ hs, Nat.add_mul_mod_self_right]
    exact ⟨by omega, h1, by omega, hm⟩

theorem fam_eq_some {a n i : Nat} {f : Nat → Nat} (h : fam a f n = some i) : i < n ∧ a = f 0 + i * (f 1 - f 0) := by
  simp only [fam] at h
  split at h
  next hc =>
    obtain ⟨hle, hm, hn⟩ := hc
    cases h
    refine ⟨hn, ?_⟩
    rw [Nat.div_mul_cancel (Nat.dvd_of_mod_eq_zero hm)]
    omega
  next => cases h

theorem rowOf_of_hits {r : RRow} {a : Nat} (hr : r ∈ rowsAt a) (h : r.hits a = true) : (rowOf a).isSome = true := by
  rw [rowOf, List.find?_isSome]
  exact ⟨r, hr, h⟩

/-- Every register of a mapped family is named by the map. -/
theorem rowOf_of_fam {a n : Nat} {f : Nat → Nat} (hf : famMapped f n = true) (h : (fam a f n).isSome = true) : (rowOf a).isSome = true := by
  obtain ⟨i, hi⟩ := Option.isSome_iff_exists.1 h
  obtain ⟨hin, rfl⟩ := fam_eq_some hi
  simp only [famMapped, List.any_eq_true, Bool.and_eq_true, decide_eq_true_eq] at hf
  obtain ⟨b, hb, ⟨hlo, hhi⟩, r, hr, hh⟩ := hf
  have hle : i * (f 1 - f 0) ≤ (n - 1) * (f 1 - f 0) := Nat.mul_le_mul_right _ (by omega)
  have hrows := rowsAt_of_block hb (a := f 0 + i * (f 1 - f 0)) (by omega) (by omega)
  exact rowOf_of_hits (hrows ▸ hr) (hits_of_holds hh hin)

/-! ## Registers with an action of their own -/

/-- Whichever action of `l` offset `a` names, `a` is a register of the map. -/
inductive Mapped {α : Type} (a : Nat) : Acts α → Prop
  | nil : Mapped a []
  | fam {f : Nat → Nat} {n : Nat} {g : Nat → α} {l : Acts α} (hl : Mapped a l) (h : famMapped f n = true := by decide +kernel) :
    Mapped a ((fam a f n, g) :: l)
  | one {r : Nat} {g : Nat → α} {l : Acts α} (hl : Mapped a l) (h : (rowOf r).isSome = true := by decide +kernel) :
    Mapped a ((one a r, g) :: l)

theorem rowOf_of_mapped {α : Type} {a : Nat} {l : Acts α} (h : Mapped a l) (hp : l.pick.isSome = true) : (rowOf a).isSome = true := by
  induction h with
  | nil => cases hp
  | @fam f n g l _ hf ih =>
    cases hk : Machine.fam a f n with
    | none => exact ih (by simpa [hk, Acts.pick] using hp)
    | some i => exact rowOf_of_fam hf (by simp [hk])
  | @one r g l _ hr ih =>
    by_cases hk : a = r
    · exact hk ▸ hr
    · exact ih (by simpa [Machine.one, hk, Acts.pick] using hp)

/-! The proofs of the lists of actions follow their entries: a family or a register of its own. -/

theorem writesNet_mapped (s : State) (m : Acc) (a : Nat) (v : BitVec 32) : Mapped a (s.writesNet m a v) :=
  .fam <| .fam <| .fam <| .fam <| .fam <| .fam <| .fam <| .fam <| .fam <| .fam <| .fam <| .fam <| .fam <| .fam <|
  .fam <| .one <| .one <| .one <| .fam .nil

theorem writesCtl_mapped (s : State) (m : Acc) (a : Nat) (v : BitVec 32) : Mapped a (s.writesCtl m a v) :=
  .one <| .one <| .one <| .fam <| .one <| .one <| .fam <| .fam <| .fam <| .fam <| .fam .nil

theorem writesMeas_mapped (s : State) (a : Nat) (v : BitVec 32) : Mapped a (s.writesMeas a v) :=
  .one <| .one <| .one <| .fam <| .fam <| .fam <| .fam <| .fam <| .fam <| .fam <| .fam <| .fam <| .fam <| .fam <|
  .fam <| .one <| .one <| .one <| .one <| .fam <| .fam <| .fam <| .fam <| .fam <| .fam <| .fam .nil

theorem writesSys_mapped (s : State) (m : Acc) (a : Nat) (v : BitVec 32) : Mapped a (s.writesSys m a v) :=
  .one <| .one <| .one <| .one <| .one <| .one <| .one <| .one <| .one <| .fam <| .fam <| .fam <| .fam <| .fam <|
  .one <| .one <| .one <| .one <| .one <| .one .nil

theorem reads_mapped (s : State) (a : Nat) : Mapped a (s.reads a) :=
  .one <| .one <| .one <| .one <| .fam <| .one <| .one <| .fam <| .fam <| .one <| .one <| .one <| .fam <| .one <|
  .fam <| .fam <| .fam <| .fam <| .one <| .fam <| .fam <| .fam <| .one <| .one <| .one <| .one <| .fam <| .fam <|
  .fam <| .one <| .one .nil

theorem writes_mapped (s : State) (m : Acc) (a : Nat) (v : BitVec 32) : Mapped a (s.writes m a v) := by
  unfold State.writes
  split_ifs
  · exact writesNet_mapped s m a v
  · exact writesCtl_mapped s m a v
  · exact writesMeas_mapped s a v
  · exact writesSys_mapped s m a v
  · exact writesNet_mapped s m a v

theorem pick_eq_none_of_unmapped {α : Type} {a : Nat} {l : Acts α} (hl : Mapped a l) (ha : rowOf a = none) : l.pick = none := by
  by_contra h
  have := rowOf_of_mapped hl (Option.isSome_iff_ne_none.2 h)
  simp [ha] at this

/-- R380: a write to an offset that names no register does nothing. -/
theorem regWrite_unmapped (s : State) (m : Acc) {a : Nat} (v : BitVec 32) (ha : rowOf a = none) : s.regWrite m a v = s := by
  simp [State.regWrite, pick_eq_none_of_unmapped (writes_mapped s m a v) ha, State.plain, ha]

/-- R380: a read of an offset that names no register gives zero and has no side effect. -/
theorem regRead_unmapped (s : State) {a : Nat} (ha : rowOf a = none) : s.regRead a = (0, s) := by
  simp [State.regRead, pick_eq_none_of_unmapped (reads_mapped s a) ha, State.plainRead, ha]

/-! ## REGISTER_WRITE and the host's accesses -/

theorem regOffset_eq_some {a o : Nat} : regOffset a = some o ↔ regBase ≤ a ∧ a < regBase + 0x8C0000 ∧ a - regBase = o := by
  simp [regOffset, and_assoc]

theorem regOffset_unaligned {a o : Nat} (h : regOffset a = some o) (ha : a % 4 ≠ 0) : o % 4 ≠ 0 := by
  obtain ⟨hle, -, rfl⟩ := regOffset_eq_some.1 h
  unfold regBase at hle ⊢
  omega

/-- The register block lies apart from the memories that the host reaches (Table 17.8). -/
theorem not_memory_of_regOffset {a o : Nat} (h : regOffset a = some o) : hostMem a = false ∧ inSecure a = false := by
  obtain ⟨hle, -, -⟩ := regOffset_eq_some.1 h
  unfold regBase at hle
  simp only [hostMem, inSecure, Bool.or_eq_false_iff, Bool.and_eq_false_iff, decide_eq_false_iff_not]
  unfold nvBase nvEnd secBase
  omega

theorem hostRead_register (s : State) {a o : Nat} (e : EccErr) (h : regOffset a = some o) :
    s.hostRead a e = (hsOk, (s.regRead o).1, (s.regRead o).2) := by
  obtain ⟨hm, hs⟩ := not_memory_of_regOffset h
  simp [State.hostRead, hm, hs, h]

theorem hostWrite_register_unaligned (s : State) {a o : Nat} (v : BitVec 32) (h : regOffset a = some o) (ho : o % 4 ≠ 0) :
    s.hostWrite a v = (hsOk, s) := by
  obtain ⟨hm, hs⟩ := not_memory_of_regOffset h
  simp [State.hostWrite, hm, hs, h, ho]

theorem exec_registerWrite (s : State) (time : Nat) (m : Acc) (addr : BitVec 40) (v : BitVec 32) :
    exec (.registerWrite time m addr v) s = execRegisterWrite time m addr v s := rfl

/-- REGISTER_WRITE where no register is named only passes time. -/
theorem exec_registerWrite_unmapped (s : State) (time : Nat) (m : Acc) (addr : BitVec 40) (v : BitVec 32)
    (h : ∀ a, regOffset addr.toNat = some a → rowOf a = none) : exec (.registerWrite time m addr v) s = .next (s.tick time) := by
  rw [exec_registerWrite, execRegisterWrite]
  cases hh : s.held with
  | true => rw [onDie_held _ _ _ hh]
  | false =>
    rw [onDie_live _ _ _ hh]
    cases ho : regOffset addr.toNat with
    | none => rfl
    | some a => exact congrArg _ (regWrite_unmapped _ m v (h a ho))

/-- Settles O6: no unaligned offset is a register of the map, and neither a write nor a read acts on an offset outside of it. -/
theorem unalignedRegisterAccessesDoNothing : Obligations.UnalignedRegisterAccessesDoNothing := by
  unfold Obligations.UnalignedRegisterAccessesDoNothing
  refine ⟨fun s time m addr v ha => ?_, fun s a ha => ?_, fun s a e v hr ha => ?_⟩
  · exact exec_registerWrite_unmapped s time m addr v fun a ho => rowOf_of_unaligned (regOffset_unaligned ho ha)
  · exact regRead_unmapped s (rowOf_of_unaligned ha)
  · obtain ⟨o, ho⟩ := Option.ne_none_iff_exists'.1 hr
    have ho4 := regOffset_unaligned ho ha
    exact ⟨by rw [hostRead_register s e ho, regRead_unmapped s (rowOf_of_unaligned ho4)], hostWrite_register_unaligned s v ho ho4⟩

/-! ## The fields of a written word (Table 0.3, R5) -/

/-- Two fields of a row that share no bit. -/
abbrev FRow.apart (f g : FRow) : Prop := f.lo + f.w ≤ g.lo ∨ g.lo + g.w ≤ f.lo

theorem rows_fields_apart : ∀ b ∈ blocks, ∀ r ∈ b.rows, r.fields.Pairwise FRow.apart ∧ ∀ f ∈ r.fields, f.lo + f.w ≤ 32 := by
  decide +kernel

/-- A bit of a field of type `ty` after a write: `locked` as R5 says, `old` its value before, `new` the bit written. -/
def FTy.bitAfter (ty : FTy) (locked old new : Bool) : Bool :=
  match ty with
  | .rw => new
  | .rwl => if locked then old else new
  | .w1c => old && !new
  | _ => old

/-- The bits of a word that belong to the field. -/
def FRow.mask (f : FRow) : BitVec 32 := BitVec.ofNat 32 (2 ^ f.w - 1) <<< f.lo

/-- What a write of `v` does to the word `w` at one field. -/
def FRow.write (f : FRow) (locked : Bool) (v w : BitVec 32) : BitVec 32 :=
  match f.ty with
  | .rw => (w &&& ~~~f.mask) ||| (v &&& f.mask)
  | .rwl => if locked then w else (w &&& ~~~f.mask) ||| (v &&& f.mask)
  | .w1c => w &&& ~~~(v &&& f.mask)
  | _ => w

theorem write_eq_foldl (r : RRow) (locked : Bool) (old v : BitVec 32) :
    r.write locked old v = r.fields.foldl (fun w f => f.write locked v w) old := rfl

theorem FRow.getLsbD_mask (f : FRow) {j : Nat} (hj : j < 32) : f.mask.getLsbD j = decide (f.lo ≤ j ∧ j < f.lo + f.w) := by
  simp only [FRow.mask, BitVec.getLsbD_shiftLeft, BitVec.getLsbD_ofNat, Nat.testBit_two_pow_sub_one, hj, decide_true, Bool.true_and]
  grind

theorem FRow.getLsbD_replace (f : FRow) (v w : BitVec 32) {j : Nat} (hj : j < 32) :
    ((w &&& ~~~f.mask) ||| (v &&& f.mask)).getLsbD j = if f.lo ≤ j ∧ j < f.lo + f.w then v.getLsbD j else w.getLsbD j := by
  simp only [BitVec.getLsbD_or, BitVec.getLsbD_and, BitVec.getLsbD_not, f.getLsbD_mask hj, hj]
  split_ifs with h <;> simp [h]

theorem FRow.getLsbD_clear (f : FRow) (v w : BitVec 32) {j : Nat} (hj : j < 32) :
    (w &&& ~~~(v &&& f.mask)).getLsbD j = if f.lo ≤ j ∧ j < f.lo + f.w then w.getLsbD j && !v.getLsbD j else w.getLsbD j := by
  simp only [BitVec.getLsbD_and, BitVec.getLsbD_not, f.getLsbD_mask hj, hj]
  split_ifs with h <;> simp [h]

/-- A write at one field: its own bits as its type says, the others as before. -/
theorem FRow.getLsbD_write (f : FRow) (locked : Bool) (v w : BitVec 32) {j : Nat} (hj : j < 32) :
    (f.write locked v w).getLsbD j =
      if f.lo ≤ j ∧ j < f.lo + f.w then f.ty.bitAfter locked (w.getLsbD j) (v.getLsbD j) else w.getLsbD j := by
  unfold FRow.write FTy.bitAfter
  cases f.ty with
  | rw => exact f.getLsbD_replace v w hj
  | rwl =>
    cases locked with
    | false => exact f.getLsbD_replace v w hj
    | true => simp
  | w1c => exact f.getLsbD_clear v w hj
  | ro | w1s | wo => simp

/-- Writes at fields that do not hold bit `j` leave it. -/
theorem getLsbD_foldl_write_apart (locked : Bool) (v : BitVec 32) {j : Nat} (hj : j < 32) {fs : List FRow}
    (h : ∀ f ∈ fs, ¬ (f.lo ≤ j ∧ j < f.lo + f.w)) (w : BitVec 32) :
    (fs.foldl (fun w f => f.write locked v w) w).getLsbD j = w.getLsbD j := by
  induction fs generalizing w with
  | nil => rfl
  | cons g fs ih =>
    rw [List.foldl_cons, ih (fun f hf => h f (List.mem_cons_of_mem _ hf)), g.getLsbD_write _ _ _ hj, if_neg (h g List.mem_cons_self)]

theorem FRow.not_holds_of_apart {f g : FRow} (h : f.apart g ∨ g.apart f) {j : Nat} (hf : f.lo ≤ j ∧ j < f.lo + f.w) :
    ¬ (g.lo ≤ j ∧ j < g.lo + g.w) := by
  simp only [FRow.apart] at h
  omega

/-- Where the fields are apart, a bit of one of them becomes what that field's type says. -/
theorem getLsbD_foldl_write (locked : Bool) (v : BitVec 32) {j : Nat} (hj : j < 32) {f : FRow} (hfj : f.lo ≤ j ∧ j < f.lo + f.w)
    {fs : List FRow} (hp : fs.Pairwise FRow.apart) (hf : f ∈ fs) (w : BitVec 32) :
    (fs.foldl (fun w f => f.write locked v w) w).getLsbD j = f.ty.bitAfter locked (w.getLsbD j) (v.getLsbD j) := by
  induction fs generalizing w with
  | nil => cases hf
  | cons g fs ih =>
    obtain ⟨hg, hp⟩ := List.pairwise_cons.1 hp
    rw [List.foldl_cons]
    rcases List.mem_cons.1 hf with rfl | hf
    · rw [getLsbD_foldl_write_apart _ _ hj fun g' h' => FRow.not_holds_of_apart (.inl (hg g' h')) hfj,
        f.getLsbD_write _ _ _ hj, if_pos hfj]
    · rw [ih hp hf, g.getLsbD_write _ _ _ hj, if_neg (FRow.not_holds_of_apart (.inr (hg f hf)) hfj)]

/-- A bit of a field of a register of the map after a write (Table 0.3, R5). -/
theorem getLsbD_write_of_rowOf {a : Nat} {r : RRow} (hr : rowOf a = some r) {f : FRow} (hf : f ∈ r.fields) {j : Nat}
    (hfj : f.lo ≤ j ∧ j < f.lo + f.w) (locked : Bool) (old v : BitVec 32) :
    (r.write locked old v).getLsbD j = f.ty.bitAfter locked (old.getLsbD j) (v.getLsbD j) := by
  obtain ⟨b, hb, hrb⟩ := block_of_rowOf hr
  obtain ⟨hapart, hin⟩ := rows_fields_apart b hb r hrb
  have hj : j < 32 := by have := hin f hf; omega
  exact getLsbD_foldl_write locked v hj hfj hapart hf old

/-! ## Registers without an effect of their own -/

/-- Whether an offset names an action depends on the indices of the actions alone. -/
theorem pick_isNone_congr {α β : Type} : ∀ {l : Acts α} {l' : Acts β}, l.map Prod.fst = l'.map Prod.fst → l.pick.isNone = l'.pick.isNone
  | [], [], _ => rfl
  | (none, _) :: l, (none, _) :: l', h => pick_isNone_congr (l := l) (l' := l') (by simpa using h)
  | (some _, _) :: _, (some _, _) :: _, _ => rfl

/-- The indices of the write actions do not depend on the state. -/
theorem writes_indices (s t : State) (m : Acc) (a : Nat) (v : BitVec 32) : (s.writes m a v).map Prod.fst = (t.writes m a v).map Prod.fst := by
  unfold State.writes
  split_ifs <;> simp only [State.writesNet, State.writesCtl, State.writesMeas, State.writesSys, List.map_cons]

/-- A register without an effect of its own takes a write field by field. -/
theorem regWrite_plain (s : State) (m : Acc) {a : Nat} (v : BitVec 32) {r : RRow} (hr : rowOf a = some r)
    (hp : (s.writes m a v).pick.isNone = true) : s.regWrite m a v = s.wr a (r.write s.locked (s.rd a) v) := by
  simp [State.regWrite, Option.isNone_iff_eq_none.1 hp, State.plain, hr]

theorem exec_registerWrite_plain (s : State) (time : Nat) (m : Acc) {addr : BitVec 40} (v : BitVec 32) {a : Nat} {r : RRow} (hs : s.Live)
    (ha : regOffset addr.toNat = some a) (hr : rowOf a = some r) (hp : (s.writes m a v).pick.isNone = true) :
    exec (.registerWrite time m addr v) s = .next ((s.tick time).wr a (r.write s.locked (s.rd a) v)) := by
  have hp' : ((s.tick time).writes m a v).pick.isNone = true := (pick_isNone_congr (writes_indices (s.tick time) s m a v)).trans hp
  rw [exec_registerWrite, execRegisterWrite, onDie_live _ _ _ hs, ha]
  exact congrArg _ (regWrite_plain _ m v hr hp')

/-- Settles O7: the fields of every row are apart, so that each takes its bits of the write as its own type says; an offset that
names no register has no write action. -/
theorem registerWritesFollowTheFieldTypes : Obligations.RegisterWritesFollowTheFieldTypes := by
  unfold Obligations.RegisterWritesFollowTheFieldTypes
  refine fun s time m addr v => ⟨exec_registerWrite_unmapped s time m addr v, fun a r ha hr hp hs => ?_⟩
  refine ⟨_, exec_registerWrite_plain s time m v hs ha hr hp, (Frame.refl _ _ _ _).wr _ List.mem_cons_self, fun f hf j hlo hhi => ?_⟩
  rw [rd_wr_self, getLsbD_write_of_rowOf hr hf ⟨hlo, hhi⟩, State.locked, tick_rd]
  cases f.ty <;> cases s.bit F.CFC_STAT_NOIMG <;> rfl

end Sys2Proof.Machine
end

section
/-! Proofs of R24 and R25 (01_architecture.md): what an event and a write to INT_PEND do to the pending bits, the counters and the
interrupt pins. -/

namespace Sys2Proof.Machine

/-! ## Bits of a field that holds one bit for each of several things -/

/-- Setting or clearing bit `b` of a number as `State.setFbit` does. -/
theorem testBit_put_ne (x : Nat) {b c : Nat} (v : Bool) (h : c ≠ b) :
    (if v then x ||| 2 ^ b else if x.testBit b then x - 2 ^ b else x).testBit c = x.testBit c := by
  split_ifs with hv hb
  · simp [Nat.testBit_two_pow_of_ne h.symm]
  · obtain ⟨y, rfl⟩ := Nat.exists_eq_add_of_le (Nat.ge_two_pow_of_testBit hb)
    rw [Nat.add_sub_cancel_left]
    rcases Nat.lt_or_gt_of_ne h with h | h
    · rw [Nat.testBit_two_pow_add_gt h]
    · have hy : y / 2 ^ b % 2 = 0 := by
        rw [Nat.testBit_two_pow_add_eq, Nat.testBit_eq_decide_div_mod_eq] at hb
        simp at hb
        omega
      have hd : (2 ^ b + y) / 2 ^ (b + 1) = y / 2 ^ (b + 1) := by
        rw [Nat.pow_succ, ← Nat.div_div_eq_div_mul, ← Nat.div_div_eq_div_mul, Nat.add_div_left _ (Nat.two_pow_pos b)]
        omega
      obtain ⟨d, rfl⟩ := Nat.exists_eq_add_of_lt h
      rw [show b + d + 1 = d + (b + 1) by omega, ← Nat.testBit_div_two_pow, ← Nat.testBit_div_two_pow, hd]
  · rfl

/-- Setting one bit of a field leaves its other bits. -/
theorem fbit_setFbit_bit_ne (s : State) (f : RF) {b c : Nat} (v : Bool) (hf : f.ok) (h : c ≠ b) : (s.setFbit f b v).fbit f c = s.fbit f c := by
  have hc : (s.fld f).testBit c = (decide (c < f.w) && (s.fld f).testBit c) := by
    simp [State.fld, RF.testBit_get]
  simp only [State.fbit, State.setFbit]
  rw [fld_setFld_self _ _ _ hf, Nat.testBit_mod_two_pow, testBit_put_ne _ v h, ← hc]

theorem fbit_setFld_ne (s : State) (f g : RF) (x b : Nat) (h : g.addr ≠ f.addr) : (s.setFld f x).fbit g b = s.fbit g b := by
  simp only [State.fbit, fld_setFld_ne _ _ _ _ h]
/-! ## The pending bit and the counter of a source -/

theorem intPend_ne_srcCfg {i j : Nat} (h : i < 8) : R.INT_PEND i ≠ R.INT_SRC_CFG j := by simp only [R.INT_PEND, R.INT_SRC_CFG]; omega

theorem intPend_inj {i j : Nat} (h : i ≠ j) : R.INT_PEND i ≠ R.INT_PEND j := by simp only [R.INT_PEND]; omega

theorem srcCfg_inj {i j : Nat} (h : i ≠ j) : R.INT_SRC_CFG i ≠ R.INT_SRC_CFG j := by simp only [R.INT_SRC_CFG]; omega

theorem cnt_ok (n : Nat) : (F.INT_SRC_CFG_CNT n).ok := by simp [RF.ok, F.INT_SRC_CFG_CNT]

theorem pend_ok (w : Nat) : (F.INT_PEND_PEND w).ok := by simp [RF.ok, F.INT_PEND_PEND]

/-- What an event of source `n` does to the registers: its pending bit sets and its counter counts (R24). -/
def State.mark (s : State) (n : Nat) : State := (s.setFbit (F.INT_PEND_PEND (n / 32)) (n % 32) true).inc (F.INT_SRC_CFG_CNT n)

theorem rd_of_regs {s t : State} (h : t.regs = s.regs) (a : Nat) : t.rd a = s.rd a := by simp only [State.rd, h]

theorem fld_of_regs {s t : State} (h : t.regs = s.regs) (f : RF) : t.fld f = s.fld f := by simp only [State.fld, rd_of_regs h]

theorem bit_of_regs {s t : State} (h : t.regs = s.regs) (f : RF) : t.bit f = s.bit f := by simp only [State.bit, fld_of_regs h]

theorem regs_raiseWith {n : Nat} (h : neverPending n = false) (s : State) (v q : BitVec 32) (k : Nat) :
    (s.raiseWith n v q k).regs = (s.mark n).regs := by
  unfold State.raiseWith
  simp only [h, Bool.false_eq_true, if_false]
  split <;> split <;> rfl

theorem regs_raise {n : Nat} (h : neverPending n = false) (s : State) : (s.raise n).regs = (s.mark n).regs :=
  regs_raiseWith h _ _ _ _

theorem counted_mark (s : State) {n : Nat} (hn : n < 256) : Counted (F.INT_SRC_CFG_CNT n) s (s.mark n) := by
  unfold Counted State.mark
  rw [fld_inc_self _ _ (cnt_ok n), State.setFbit, fld_setFld_ne _ _ _ _ (intPend_ne_srcCfg (by omega)).symm]

/-- An event leaves the pending bits of other sources. -/
theorem pends_mark_ne (s : State) {n m : Nat} (hm : m < 256) (h : m ≠ n) : (s.mark n).pends m = s.pends m := by
  unfold State.pends State.mark
  rw [State.inc, State.addFld, fbit_setFld_ne _ _ _ _ _ (intPend_ne_srcCfg (by omega))]
  by_cases hw : m / 32 = n / 32
  · rw [hw, fbit_setFbit_bit_ne _ _ _ (pend_ok _) (by omega)]
  · exact fbit_setFld_ne _ _ _ _ _ (intPend_inj hw)

theorem counted_of_regs {f : RF} {s t u : State} (h : t.regs = u.regs) (hu : Counted f s u) : Counted f s t := by
  unfold Counted at *
  rw [fld_of_regs h, hu]

/-- An event saturates the counter of its source upwards by one (R24). -/
theorem counted_raiseWith {n : Nat} (h : neverPending n = false) (hn : n < 256) (s : State) (v q : BitVec 32) (k : Nat) :
    Counted (F.INT_SRC_CFG_CNT n) s (s.raiseWith n v q k) :=
  counted_of_regs (regs_raiseWith h s v q k) (counted_mark s hn)

theorem counted_raise {n : Nat} (h : neverPending n = false) (hn : n < 256) (s : State) : Counted (F.INT_SRC_CFG_CNT n) s (s.raise n) :=
  counted_of_regs (regs_raise h s) (counted_mark s hn)

theorem raiseWith_never {n : Nat} (h : neverPending n = true) (s : State) (v q : BitVec 32) (k : Nat) : s.raiseWith n v q k = s := by
  simp [State.raiseWith, h]

/-- An event of another source, whether or not it may become pending, leaves this one's pending bit. -/
theorem pends_raise_ne (s : State) {n m : Nat} (hm : m < 256) (h : m ≠ n) : (s.raise n).pends m = s.pends m := by
  cases hp : neverPending n with
  | true => exact pends_of_regs (congrArg State.regs (raiseWith_never hp _ _ _ _)) m
  | false => exact (pends_of_regs (regs_raise hp s) m).trans (pends_mark_ne s hm h)

/-- The MGC is notified of source `n`. -/
def State.noteMgc (s : State) (n : Nat) : State := { s with sys := { s.sys with mgcNotes := s.sys.mgcNotes ++ [n] } }

/-- The record of an event of source `n`. -/
def State.eventRec (s : State) (n : Nat) (v q : BitVec 32) (k : Nat) : EvRec :=
  { time := s.now, code := n, src := n, value := v, qual := q, flags := s.evFlags k }

/-- What the configuration of source `n` has an event of it tell the MGC and the EVR (Table 1.11). -/
def State.tell (s : State) (n : Nat) (v q : BitVec 32) (k : Nat) : State :=
  let t := s.when (s.bit (F.INT_SRC_CFG_TO_MGC n)) (·.noteMgc n)
  t.when (s.bit (F.INT_SRC_CFG_TO_EVR n)) (·.evRecord (s.eventRec n v q k))

theorem bit_noteMgc (s : State) (n : Nat) (f : RF) : (s.noteMgc n).bit f = s.bit f := rfl

theorem eventRec_noteMgc (s : State) (m n : Nat) (v q : BitVec 32) (k : Nat) : (s.noteMgc m).eventRec n v q k = s.eventRec n v q k := rfl

theorem raiseWith_told (s : State) (n : Nat) (v q : BitVec 32) (k : Nat) :
    s.raiseWith n v q k = if neverPending n then s else
      let t := if (s.mark n).bit (F.INT_SRC_CFG_TO_MGC n) then (s.mark n).noteMgc n else s.mark n
      if t.bit (F.INT_SRC_CFG_TO_EVR n) then t.evRecord (t.eventRec n v q k) else t := by
  unfold State.raiseWith State.mark State.noteMgc State.eventRec
  rfl

theorem tell_eq (t : State) (n : Nat) (v q : BitVec 32) (k : Nat) :
    t.tell n v q k =
      let u := if t.bit (F.INT_SRC_CFG_TO_MGC n) then t.noteMgc n else t
      if u.bit (F.INT_SRC_CFG_TO_EVR n) then u.evRecord (u.eventRec n v q k) else u := by
  unfold State.tell State.when
  cases t.bit (F.INT_SRC_CFG_TO_MGC n) with
  | false => rfl
  | true => simp only [if_true, bit_noteMgc, eventRec_noteMgc]

/-- An event marks its source and tells whom it is configured to tell (R24). -/
theorem raiseWith_eq {n : Nat} (h : neverPending n = false) (s : State) (v q : BitVec 32) (k : Nat) :
    s.raiseWith n v q k = (s.mark n).tell n v q k := by
  rw [raiseWith_told, h, tell_eq]
  rfl

theorem told_tell (s : State) (n : Nat) (v q : BitVec 32) (k : Nat) :
    (s.tell n v q k).sys.mgcNotes = (if s.bit (F.INT_SRC_CFG_TO_MGC n) then s.sys.mgcNotes ++ [n] else s.sys.mgcNotes) ∧
      (s.tell n v q k).evr.inbox = (if s.bit (F.INT_SRC_CFG_TO_EVR n) then s.evr.inbox ++ [s.eventRec n v q k] else s.evr.inbox) := by
  unfold State.tell State.when
  split_ifs <;> exact ⟨rfl, rfl⟩

/-- Whom an event tells: the MGC and the EVR, as INT_SRCn_CFG says (Table 1.11). -/
theorem told_raiseWith {n : Nat} (h : neverPending n = false) (hn : n < 256) (s : State) (v q : BitVec 32) (k : Nat) :
    (s.raiseWith n v q k).sys.mgcNotes = (if s.bit (F.INT_SRC_CFG_TO_MGC n) then s.sys.mgcNotes ++ [n] else s.sys.mgcNotes) ∧
      (s.raiseWith n v q k).evr.inbox = (if s.bit (F.INT_SRC_CFG_TO_EVR n) then
        s.evr.inbox ++ [{ time := s.now, code := n, src := n, value := v, qual := q, flags := s.evFlags k }] else s.evr.inbox) := by
  have hcfg : ∀ lo, lo + 1 ≤ 8 → (s.mark n).bit ⟨R.INT_SRC_CFG n, lo, 1⟩ = s.bit ⟨R.INT_SRC_CFG n, lo, 1⟩ := fun lo hlo => by
    simp only [State.mark, State.inc, State.addFld, State.bit]
    rw [fld_setFld_apart _ _ _ _ (by simp only [RF.ok]; omega) (by simp only [RF.apart, F.INT_SRC_CFG_CNT]; omega), State.setFbit,
      fld_setFld_ne _ _ _ _ (intPend_ne_srcCfg (by omega)).symm]
  have hmgc : (s.mark n).bit (F.INT_SRC_CFG_TO_MGC n) = s.bit (F.INT_SRC_CFG_TO_MGC n) := hcfg 4 (by omega)
  have hevr : (s.mark n).bit (F.INT_SRC_CFG_TO_EVR n) = s.bit (F.INT_SRC_CFG_TO_EVR n) := hcfg 5 (by omega)
  have hrole : (s.mark n).leaseHeld = s.leaseHeld := by
    simp only [State.mark, State.inc, State.addFld, State.leaseHeld]
    rw [fld_setFld_ne _ _ _ _ (by simp only [F.RDU_STAT_ROLE, R.RDU_STAT, F.INT_SRC_CFG_CNT, R.INT_SRC_CFG]; omega), State.setFbit,
      fld_setFld_ne _ _ _ _ (by simp only [F.RDU_STAT_ROLE, R.RDU_STAT, F.INT_PEND_PEND, R.INT_PEND]; omega)]
  have hrec : (s.mark n).eventRec n v q k = s.eventRec n v q k := by
    unfold State.eventRec State.evFlags; rw [hrole]; rfl
  have ht := told_tell (s.mark n) n v q k
  rw [hmgc, hevr, hrec] at ht
  rwa [raiseWith_eq h]

/-! ## A write to INT_PEND -/

/-- What a write of `mask` to INT_PENDw, meeting new events in `coinc`, does at bit `b`. -/
def State.pendBit (w : Nat) (mask coinc : BitVec 32) (s : State) (b : Nat) : State :=
  if mask.getLsbD b then
    if coinc.getLsbD b then s.raise (32 * w + b)
    else (s.setFbit (F.INT_PEND_PEND w) b false).setFld (F.INT_SRC_CFG_CNT (32 * w + b)) 0
  else s

theorem pendClear_eq (s : State) (w : Nat) (mask coinc : BitVec 32) :
    s.pendClear w mask coinc = (List.range 32).foldl (State.pendBit w mask coinc) s := rfl

/-- A fold over distinct numbers of which only `i` changes what is observed: as if `i` alone acted. -/
theorem foldl_range_obs {σ β : Type} (f : σ → Nat → σ) (obs : σ → β) {i n : Nat} (hi : i < n)
    (h : ∀ s j, j ≠ i → j < n → obs (f s j) = obs s) (s : σ) : ∃ s', obs s' = obs s ∧ obs ((List.range n).foldl f s) = obs (f s' i) := by
  induction n with
  | zero => omega
  | succ n ih =>
    rw [List.range_succ, List.foldl_append, List.foldl_cons, List.foldl_nil]
    rcases Nat.lt_succ_iff_lt_or_eq.1 hi with hlt | rfl
    · obtain ⟨s', h1, h2⟩ := ih hlt (fun s j hj hn => h s j hj (by omega))
      exact ⟨s', h1, (h _ n (by omega) (by omega)).trans h2⟩
    · refine ⟨_, List.foldlRecOn (List.range i) f (motive := fun t => obs t = obs s) rfl fun t ht j hj => ?_, rfl⟩
      have := List.mem_range.1 hj
      exact (h t j (by omega) (by omega)).trans ht

/-- What is observed of a source at a write to INT_PEND: its pending bit and the word of its configuration. -/
def State.srcView (s : State) (n : Nat) : Bool × BitVec 32 := (s.pends n, s.rd (R.INT_SRC_CFG n))

theorem rd_srcCfg_raise_ne (s : State) {n m : Nat} (hn : n < 256) (h : m ≠ n) : (s.raise n).rd (R.INT_SRC_CFG m) = s.rd (R.INT_SRC_CFG m) := by
  refine rd_raise s n _ ?_
  simp only [evRegs, List.mem_cons, List.not_mem_nil, or_false, not_or]
  exact ⟨(intPend_ne_srcCfg (by omega)).symm, srcCfg_inj h⟩

theorem srcView_pendBit_ne (w : Nat) (hw : w < 8) (mask coinc : BitVec 32) {b c : Nat} (hb : b < 32) (hc : c < 32) (h : c ≠ b) (s : State) :
    (State.pendBit w mask coinc s c).srcView (32 * w + b) = s.srcView (32 * w + b) := by
  unfold State.pendBit State.srcView
  split_ifs
  · rw [pends_raise_ne _ (by omega) (by omega), rd_srcCfg_raise_ne _ (by omega) (by omega)]
  · have hd : (32 * w + b) / 32 = w := by omega
    have hm : (32 * w + b) % 32 = b := by omega
    rw [State.pends, hd, hm, fbit_setFld_ne _ _ _ _ _ (intPend_ne_srcCfg hw), fbit_setFbit_bit_ne _ _ _ (pend_ok w) h.symm,
      rd_setFld_ne _ _ _ _ (srcCfg_inj (by omega)), State.setFbit, rd_setFld_ne _ _ _ _ (intPend_ne_srcCfg hw).symm]
    simp only [State.pends, hd, hm]
  · rfl

/-- A write to INT_PEND shows at source 32 w + b what it does at bit `b`. -/
theorem srcView_pendClear (s : State) {w b : Nat} (hw : w < 8) (hb : b < 32) (mask coinc : BitVec 32) :
    ∃ s', s'.srcView (32 * w + b) = s.srcView (32 * w + b) ∧
      (s.pendClear w mask coinc).srcView (32 * w + b) = (State.pendBit w mask coinc s' b).srcView (32 * w + b) :=
  foldl_range_obs (State.pendBit w mask coinc) (·.srcView (32 * w + b)) hb
    (fun t _ hc hn => srcView_pendBit_ne w hw mask coinc hb hn hc t) s

theorem fld_of_srcView {s t : State} {n : Nat} (h : t.srcView n = s.srcView n) {f : RF} (hf : f.addr = R.INT_SRC_CFG n) : t.fld f = s.fld f := by
  have := congrArg Prod.snd h
  simp only [State.srcView] at this
  simp only [State.fld, hf, this]

/-- A write of 1 that meets a new event leaves the bit set and counts the event (R24). -/
theorem pendClear_coinc (s : State) {w b : Nat} (hw : w < 8) (hb : b < 32) {mask coinc : BitVec 32} (hm : mask.getLsbD b = true)
    (hc : coinc.getLsbD b = true) (hn : neverPending (32 * w + b) = false) :
    (s.pendClear w mask coinc).pends (32 * w + b) = true ∧ Counted (F.INT_SRC_CFG_CNT (32 * w + b)) s (s.pendClear w mask coinc) := by
  obtain ⟨s', h1, h2⟩ := srcView_pendClear s hw hb mask coinc
  have hr : State.pendBit w mask coinc s' b = s'.raise (32 * w + b) := by simp only [State.pendBit, hm, hc, if_true]
  rw [hr] at h2
  refine ⟨(congrArg Prod.fst h2).trans (pends_raise s' _ hn (by omega)), ?_⟩
  unfold Counted
  rw [fld_of_srcView h2 rfl, counted_raise hn (by omega) s', fld_of_srcView h1 rfl]

/-- A write of 1 without an event clears bit and counter; a write of 0 leaves them. -/
theorem pendClear_quiet (s : State) {w b : Nat} (hw : w < 8) (hb : b < 32) (mask : BitVec 32) :
    (s.pendClear w mask 0).pends (32 * w + b) = (s.pends (32 * w + b) && !mask.getLsbD b) ∧
      (s.pendClear w mask 0).fld (F.INT_SRC_CFG_CNT (32 * w + b)) = if mask.getLsbD b then 0 else s.fld (F.INT_SRC_CFG_CNT (32 * w + b)) := by
  obtain ⟨s', h1, h2⟩ := srcView_pendClear s hw hb mask 0
  have hp : s'.pends (32 * w + b) = s.pends (32 * w + b) := congrArg Prod.fst h1
  rw [show (s.pendClear w mask 0).pends (32 * w + b) = _ from congrArg Prod.fst h2, fld_of_srcView h2 rfl, ← fld_of_srcView h1 rfl, ← hp]
  have hd : (32 * w + b) / 32 = w := by omega
  have hm : (32 * w + b) % 32 = b := by omega
  cases hb' : mask.getLsbD b with
  | false => simp [State.pendBit, State.srcView, hb']
  | true =>
    have hs : State.pendBit w mask 0 s' b = (s'.setFbit (F.INT_PEND_PEND w) b false).setFld (F.INT_SRC_CFG_CNT (32 * w + b)) 0 := by
      simp [State.pendBit, hb']
    rw [hs]
    refine ⟨?_, by simp [fld_setFld_self _ _ _ (cnt_ok _)]⟩
    simp only [State.srcView, State.pends, hd, hm]
    rw [fbit_setFld_ne _ _ _ _ _ (intPend_ne_srcCfg hw), fbit_setFbit_self _ _ _ _ (pend_ok w) hb]
    simp

theorem getLsbD_intPend (s : State) (w : Nat) {b : Nat} (hb : b < 32) : (s.rd (R.INT_PEND w)).getLsbD b = s.pends (32 * w + b) := by
  have hd : (32 * w + b) / 32 = w := by omega
  have hm : (32 * w + b) % 32 = b := by omega
  simp only [State.pends, State.fbit, State.fld, RF.testBit_get, hd, hm, F.INT_PEND_PEND, hb, decide_true, Bool.true_and, Nat.zero_add]

/-- A write that meets no event touches its word of INT_PEND and the configurations of that word's sources. -/
theorem frame_pendClear_quiet (s : State) (w : Nat) (mask : BitVec 32) :
    Frame (R.INT_PEND w :: (List.range 32).map (fun b => R.INT_SRC_CFG (32 * w + b))) [] [] s (s.pendClear w mask 0) := by
  rw [pendClear_eq]
  refine List.foldlRecOn _ _ (motive := Frame _ [] [] s) (Frame.refl _ _ _ _) fun t ht b hb => ?_
  unfold State.pendBit
  refine Frame.ite _ (fun _ => ?_) fun _ => ht
  rw [if_neg (by simp)]
  exact (ht.setFbit _ _ (by simp [F.INT_PEND_PEND])).setFld _ (List.mem_cons_of_mem _ (List.mem_map.2 ⟨b, hb, rfl⟩))

theorem exec_intPendClear (s : State) (hs : s.Live) (time : Nat) (w : Fin 8) (mask coinc : BitVec 32) :
    exec (.intPendClear time w mask coinc) s = .next ((s.tick time).pendClear w mask coinc) :=
  congrArg Host.Outcome.next (onDie_live s time _ hs)

/-! ## The interrupt pins -/

/-- INT_HINTm_STAT shows bit 31 where a source contributes to the pin (Table 1.10). -/
theorem getLsbD_hintStat (s : State) (m : Nat) : (s.hintStat m).getLsbD 31 = true ↔ ∃ n, n < 256 ∧ s.hintSrc m n = true := by
  unfold State.hintStat
  split
  next n hn =>
    have hlt : n < 256 := List.mem_range.1 (List.mem_of_find?_eq_some hn)
    refine iff_of_true ?_ ⟨n, hlt, List.find?_some (p := s.hintSrc m) hn⟩
    rw [BitVec.getLsbD_ofNat, Nat.testBit_two_pow_add_eq, Nat.testBit_lt_two_pow (by omega)]
    rfl
  next hn =>
    refine iff_of_false (by simp) ?_
    rintro ⟨n, hlt, hs⟩
    exact List.find?_eq_none.1 hn n (List.mem_range.2 hlt) hs

theorem hintLow_iff (s : State) (hs : s.Live) (m : Nat) : s.hintLow m = true ↔ s.bit F.INT_CTL_HINT_GLOBAL_EN = true ∧ ∃ n, n < 256 ∧
    s.pends n = true ∧ s.fbit (F.INT_ENA_ENA (n / 32)) (n % 32) = true ∧ s.bit (F.INT_SRC_CFG_HINT_EN n) = true ∧
      s.fld (F.INT_SRC_CFG_HINT_SEL n) = m := by
  have hheld : s.held = false := hs
  simp only [State.hintLow, hheld, Bool.not_false, Bool.true_and, Bool.and_eq_true, getLsbD_hintStat, State.hintSrc, beq_iff_eq, and_assoc,
    State.pends]

/-- Settles O5: an event sets the bit and counts, also where a clear meets it; a pin is low where a source contributes to it. -/
theorem eventsPendAndDriveTheInterruptPins : Obligations.EventsPendAndDriveTheInterruptPins := by
  unfold Obligations.EventsPendAndDriveTheInterruptPins
  refine ⟨fun s n k v q hn => ⟨fun h => pends_raiseWith s n v q k h hn, fun h => raiseWith_never h s v q k⟩, ?_, fun s m hs _ => hintLow_iff s hs m⟩
  intro s time w mask coinc b hm hc hn hs
  exact ⟨_, exec_intPendClear s hs time w mask coinc, pendClear_coinc _ w.isLt b.isLt hm hc hn⟩

/-- Settles O23: what an event changes at its source and whom it tells; a clear without an event takes the named bits and counters only. -/
theorem sourceEventsPendCountAndRecord : Obligations.SourceEventsPendCountAndRecord := by
  unfold Obligations.SourceEventsPendCountAndRecord
  refine ⟨fun s n v q k hn h => ?_, fun s time w mask hs => ⟨_, exec_intPendClear s hs time w mask 0, ?_, fun b => ?_, frame_pendClear_quiet _ w mask⟩⟩
  · obtain ⟨hmgc, hevr⟩ := told_raiseWith h hn s v q k
    refine ⟨pends_raiseWith s n v q k h hn, fun m hm hne => ?_, counted_raiseWith h hn s v q k, hmgc, hevr, (Frame.refl _ _ _ _).raiseWith v q k (by simp)⟩
    exact (pends_of_regs (regs_raiseWith h s v q k) m).trans (pends_mark_ne s hm hne)
  · refine BitVec.eq_of_getLsbD_eq fun b hb => ?_
    obtain ⟨hp, -⟩ := pendClear_quiet (s.tick time) w.isLt hb mask
    rw [getLsbD_intPend _ _ hb, hp, BitVec.getLsbD_and, BitVec.getLsbD_not, getLsbD_intPend _ _ hb]
    simp only [hb, decide_true, Bool.true_and]
    rfl
  · exact (pendClear_quiet (s.tick time) w.isLt b.isLt mask).2

end Sys2Proof.Machine
end

section
/-! Proof of the completion of outstanding operations (R14, R193): the arbiter of a cluster's sub-banks as the positions that stand before an
engine, and what the end of each kind of operation changes. -/

namespace Sys2Proof.Machine

/-! ## The arbiter (R14, R352) -/

/-- A position of the cluster of engine `n` that stands between the one granted last at sub-bank `sb` and engine `n`, in round-robin order, has
an access waiting there. -/
def State.before (s : State) (n sb : Nat) : Prop :=
  let last := spGet 4 s.tds.rr (n / 4 * 16 + sb) % 5
  ∃ p, p < 4 ∧ (p + 4 - last) % 5 < (n % 4 + 4 - last) % 5 ∧
    ∃ o' ∈ (s.eng (4 * (n / 4) + p)).out, (o'.kind = .ldc ∨ o'.kind = .stc) ∧ o'.addr / 8 % 16 = sb

theorem outst_bank_eq_some {o : Outst} {sb : Nat} : o.bank = some sb ↔ (o.kind = .ldc ∨ o.kind = .stc) ∧ o.addr / 8 % 16 = sb := by
  simp [Outst.bank]

theorem waitsAt_iff (s : State) (c sb p : Nat) : s.waitsAt c sb p = true ↔
    p < 4 ∧ ∃ o' ∈ (s.eng (4 * c + p)).out, (o'.kind = .ldc ∨ o'.kind = .stc) ∧ o'.addr / 8 % 16 = sb := by
  simp only [State.waitsAt, Bool.and_eq_true, decide_eq_true_eq, List.any_eq_true, beq_iff_eq, outst_bank_eq_some]

/-- It is the turn of engine `n` where no position before it waits: position p is the ((p + 4 - last) mod 5)-th after the one granted last. -/
theorem turn_iff (s : State) (n sb : Nat) : s.turn n sb = true ↔ ¬ s.before n sb := by
  unfold State.turn State.before
  simp only [List.all_eq_true, List.mem_range, Bool.not_eq_true', ← Bool.not_eq_true, waitsAt_iff]
  generalize hl : spGet 4 s.tds.rr (n / 4 * 16 + sb) % 5 = last
  constructor
  · rintro h ⟨p, hp, hlt, hw⟩
    refine h ((p + 4 - last) % 5) hlt ?_
    rw [show (last + 1 + (p + 4 - last) % 5) % 5 = p by omega]
    exact ⟨hp, hw⟩
  · rintro h j hj ⟨hp, hw⟩
    refine h ⟨(last + 1 + j) % 5, hp, ?_, hw⟩
    rw [show ((last + 1 + j) % 5 + 4 - last) % 5 = j by omega]
    exact hj

/-- The state in which the arbiter has granted engine `n` its access to sub-bank `sb`. -/
def State.granted (s : State) (n sb : Nat) : State := { s with tds := { s.tds with rr := spSet 4 s.tds.rr (n / 4 * 16 + sb) (n % 4) } }

theorem granted_last (s : State) (n sb : Nat) : spGet 4 (s.granted n sb).tds.rr (n / 4 * 16 + sb) = n % 4 := spGet_spSet_self _ _ _ _

theorem grant_map (s : State) (n : Nat) {o : Outst} (h : o.kind = .lds ∨ o.kind = .sts) : s.grant n o = some s := by
  have : o.bank = none := by rcases h with h | h <;> simp [Outst.bank, h]
  simp [State.grant, this]

theorem grant_bank (s : State) (n : Nat) {o : Outst} (h : o.kind = .ldc ∨ o.kind = .stc) (hb : ¬ s.before n (o.addr / 8 % 16)) :
    s.grant n o = some (s.granted n (o.addr / 8 % 16)) := by
  simp only [State.grant, outst_bank_eq_some.2 ⟨h, rfl⟩, (turn_iff s n _).2 hb, if_true, State.granted]

theorem grant_none (s : State) (n : Nat) {o : Outst} (h : o.kind = .ldc ∨ o.kind = .stc) (hb : s.before n (o.addr / 8 % 16)) : s.grant n o = none := by
  have : s.turn n (o.addr / 8 % 16) = false := by
    rw [← Bool.not_eq_true, turn_iff]
    exact not_not.2 hb
  simp [State.grant, outst_bank_eq_some.2 ⟨h, rfl⟩, this]

/-! ## The end of an operation -/

/-- The engine with its i-th oldest operation off the list. -/
def Eng.sansOut (x : Eng) (i : Nat) : Eng := { x with out := x.out.eraseIdx i }

/-- From `s` to `t` engine `n` is written back at most. -/
def Idled (n : Nat) (s t : State) : Prop := t = s ∨ t = s.setEng n (s.eng n)

/-- With nothing waiting the drain writes the engine back at most. -/
theorem drain_idled {t : State} {n : Nat} (hw : (t.eng n).waiting = []) (k : Nat) : Idled n t (t.seDrain n k) := by
  cases k with
  | zero => exact .inl rfl
  | succ k =>
    have hx : { t.eng n with waiting := [] } = t.eng n := by rw [← hw]
    simp only [State.seDrain, hw, nextShake, hx]
    split
    · exact .inr rfl
    · exact .inl rfl

theorem EngStep.idled {n : Nat} {x : Eng} {rs es ks : List Nat} {s t u : State} (h : EngStep n x rs es ks s t) (hi : Idled n t u) :
    EngStep n x rs es ks s u := by
  rcases hi with rfl | rfl
  · exact h
  · rw [h.own]; exact h.setEng x

/-- What the completion leaves alone beside the engines: the drain has nothing to do. -/
theorem Idled.rest {n : Nat} {t u : State} (h : Idled n t u) :
    u.mem = t.mem ∧ u.tds.rr = t.tds.rr ∧ u.sigNext = t.sigNext ∧ u.sigHost = t.sigHost ∧ u.sig = t.sig := by
  rcases h with rfl | rfl <;> exact ⟨rfl, rfl, rfl, rfl, rfl⟩

/-- OUTSTANDING_COMPLETE with an operation that is granted: it leaves the list, and it ends as its kind says. -/
theorem exec_outstandingComplete_granted {s u v : State} {time : Nat} {n : Fin 32} {i : Fin 8} {o : Outst} (hs : s.Live)
    (ho : (s.eng n).out[i.val]? = some o) (hg : (s.tick time).grant n o = some u)
    (hv : (u.setEng n ((s.eng n).sansOut i)).outComplete n o = v) (hw : (v.eng n).waiting = []) :
    ∃ t, exec (.outstandingComplete time n i) s = .next t ∧ Idled n v t := by
  have ho' : ((s.tick time).eng n).out[i.val]? = some o := ho
  refine ⟨_, congrArg Host.Outcome.next ((onDie_live s time _ hs).trans ?_), drain_idled hw ((v.eng n).waiting.length + 1)⟩
  simp only [ho', hg]
  subst hv
  rfl

theorem exec_outstandingComplete_waits {s : State} {time : Nat} {n : Fin 32} {i : Fin 8} {o : Outst} (hs : s.Live)
    (ho : (s.eng n).out[i.val]? = some o) (hg : (s.tick time).grant n o = none) :
    exec (.outstandingComplete time n i) s = .next (s.tick time) := by
  have ho' : ((s.tick time).eng n).out[i.val]? = some o := ho
  refine congrArg Host.Outcome.next ((onDie_live s time _ hs).trans ?_)
  simp only [ho', hg]

@[simp] theorem Eng.putPhys_waiting (x : Eng) (r : Nat) (v : BitVec 32) : (x.putPhys r v).waiting = x.waiting := by
  unfold Eng.putPhys
  split <;> rfl

theorem setMle_eq (n : Nat) : ∀ (s : State) (a v : Nat), s.setMle a n v = { s with mem := (s.setMle a n v).mem } := by
  induction n with
  | zero => intros; rfl
  | succ n ih =>
    intro s a v
    rw [State.setMle, ih]
    rfl

theorem mleFrom_of_mem {s t : State} (h : t.mem = s.mem) (n : Nat) : ∀ a, t.mleFrom a n = s.mleFrom a n := by
  induction n with
  | zero => intro a; rfl
  | succ n ih => intro a; simp only [State.mleFrom, ih, State.mb, h]

theorem md_of_mem {s t : State} (h : t.mem = s.mem) (a : Nat) : t.md a = s.md a := by simp only [State.md, mleFrom_of_mem h]

theorem mb_of_mem {s t : State} (h : t.mem = s.mem) (a : Nat) : t.mb a = s.mb a := by simp only [State.mb, h]

/-- The state of the signal map after a store to an entry that is not reserved. -/
theorem sigPut_eq (s : State) {i : Nat} (v : BitVec 32) (h : sigReserved i = false) :
    s.sigPut i v = { s with sigNext := spSet none s.sigNext i (some v), sigHost := spSet none s.sigHost i none } := by
  simp [State.sigPut, h]

/-! ## The four kinds of operation -/

section
variable {s : State} {time : Nat} {n : Fin 32} {i : Fin 8} {o : Outst} (hs : s.Live) (hw : (s.eng n).waiting = [])
  (ho : (s.eng n).out[i.val]? = some o)
include hs hw ho

/-- A load from the map gives what consumers of the running phase see. -/
theorem completes_lds (hk : o.kind = .lds) (he : o.err = .ok) : ∃ t, exec (.outstandingComplete time n i) s = .next t ∧
    EngStep n (((s.eng n).sansOut i).putPhys (o.dst.getD 0 0) (s.sigGet o.addr)) [] [] [] (s.tick time) t := by
  let y := ((s.eng n).sansOut i).putPhys (o.dst.getD 0 0) (s.sigGet o.addr)
  have hv : ((s.tick time).setEng n ((s.eng n).sansOut i)).outComplete n o = ((s.tick time).setEng n ((s.eng n).sansOut i)).setEng n y := by
    simp only [State.outComplete, hk, he, reduceCtorEq, if_false, eng_setEng_self]
    rfl
  have hstep := ((EngStep.refl n [] [] [] (s.tick time)).setEng ((s.eng n).sansOut i)).setEng y
  obtain ⟨t, ht, hi⟩ := exec_outstandingComplete_granted hs ho (grant_map _ _ (.inl hk)) hv
    (by rw [eng_setEng_self]; exact (Eng.putPhys_waiting _ _ _).trans hw)
  exact ⟨t, ht, hstep.idled hi⟩

/-- A store to a map entry that is not reserved is a value written in the running phase (R22). -/
theorem completes_sts (hk : o.kind = .sts) (hr : sigReserved o.addr = false) : ∃ t, exec (.outstandingComplete time n i) s = .next t ∧
    EngStep n ((s.eng n).sansOut i) [] [] [] { s.tick time with sigNext := t.sigNext, sigHost := t.sigHost } t ∧
      spGet none t.sigNext o.addr = some (o.val.setWidth 32) ∧ ∀ q, q ≠ o.addr → t.sigNow q = s.sigNow q := by
  let b : State := { s.tick time with sigNext := spSet none s.sigNext o.addr (some (o.val.setWidth 32)), sigHost := spSet none s.sigHost o.addr none }
  have hv : ((s.tick time).setEng n ((s.eng n).sansOut i)).outComplete n o = b.setEng n ((s.eng n).sansOut i) := by
    simp only [State.outComplete, hk]
    exact sigPut_eq _ _ hr
  have hstep := (EngStep.refl n [] [] [] b).setEng ((s.eng n).sansOut i)
  obtain ⟨t, ht, hi⟩ := exec_outstandingComplete_granted hs ho (grant_map _ _ (.inr hk)) hv (by rw [eng_setEng_self]; exact hw)
  obtain ⟨-, -, hn, hh, hg⟩ := hi.rest
  refine ⟨t, ht, ?_, ?_, fun q hq => ?_⟩
  · rw [hn, hh]
    exact hstep.idled hi
  · rw [hn]
    exact spGet_spSet_self none (some (o.val.setWidth 32)) s.sigNext o.addr
  · simp only [State.sigNow, hn, hh, hg]
    simp only [b, setEng_sigNext, setEng_sigHost, setEng_sig, tick_sig, spGet_spSet_ne _ _ _ _ _ _ hq]

/-- A load from the bank gives the two words of the doubleword; the arbiter has granted this engine last. -/
theorem completes_ldc (hk : o.kind = .ldc) (he : o.err = .ok) (hb : ¬ s.before n (o.addr / 8 % 16)) :
    ∃ t, exec (.outstandingComplete time n i) s = .next t ∧
      EngStep n ((((s.eng n).sansOut i).putPhys (o.dst.getD 0 0) ((s.md (bankBase (n / 4) + o.addr)).setWidth 32)).putPhys (o.dst.getD 1 0)
        ((s.md (bankBase (n / 4) + o.addr) >>> 32).setWidth 32)) [] [] []
        { s.tick time with tds := { s.tds with rr := t.tds.rr } } t ∧ spGet 4 t.tds.rr (n / 4 * 16 + o.addr / 8 % 16) = n % 4 := by
  let b := (s.tick time).granted n (o.addr / 8 % 16)
  let v := s.md (bankBase (n / 4) + o.addr)
  let y := (((s.eng n).sansOut i).putPhys (o.dst.getD 0 0) (v.setWidth 32)).putPhys (o.dst.getD 1 0) ((v >>> 32).setWidth 32)
  have hmd : (b.setEng n ((s.eng n).sansOut i)).md (bankBase (n / 4) + o.addr) = v := md_of_mem rfl _
  have hv : (b.setEng n ((s.eng n).sansOut i)).outComplete n o = (b.setEng n ((s.eng n).sansOut i)).setEng n y := by
    simp only [State.outComplete, hk, he, reduceCtorEq, if_false, eng_setEng_self, hmd]
    rfl
  have hstep := ((EngStep.refl n [] [] [] b).setEng ((s.eng n).sansOut i)).setEng y
  obtain ⟨t, ht, hi⟩ := exec_outstandingComplete_granted hs ho (grant_bank _ _ (.inl hk) hb) hv
    (by rw [eng_setEng_self]; exact ((Eng.putPhys_waiting _ _ _).trans (Eng.putPhys_waiting _ _ _)).trans hw)
  obtain ⟨-, hrr, -⟩ := hi.rest
  refine ⟨t, ht, ?_, ?_⟩
  · rw [hrr]
    exact hstep.idled hi
  · rw [hrr]
    exact granted_last _ _ _

/-- A store to the bank writes its eight bytes; the arbiter has granted this engine last. -/
theorem completes_stc (hk : o.kind = .stc) (he : o.err = .ok) (hb : ¬ s.before n (o.addr / 8 % 16)) :
    ∃ t, exec (.outstandingComplete time n i) s = .next t ∧
      EngStep n ((s.eng n).sansOut i) [] [] [] { s.tick time with tds := { s.tds with rr := t.tds.rr }, mem := t.mem } t ∧
      t.md (bankBase (n / 4) + o.addr) = o.val ∧
      (∀ q, (q < bankBase (n / 4) + o.addr ∨ bankBase (n / 4) + o.addr + 8 ≤ q) → t.mb q = s.mb q) ∧
      spGet 4 t.tds.rr (n / 4 * 16 + o.addr / 8 % 16) = n % 4 := by
  let b := (s.tick time).granted n (o.addr / 8 % 16)
  let w := (b.setEng n ((s.eng n).sansOut i)).setMd (bankBase (n / 4) + o.addr) o.val
  have hv : (b.setEng n ((s.eng n).sansOut i)).outComplete n o = w := by
    simp only [State.outComplete, hk, he, reduceCtorEq, if_false]
    rfl
  have hw' : w = ({ b with mem := w.mem } : State).setEng n ((s.eng n).sansOut i) := setMle_eq 8 _ _ _
  have hstep := (EngStep.refl n [] [] [] { b with mem := w.mem }).setEng ((s.eng n).sansOut i)
  rw [← hw'] at hstep
  obtain ⟨t, ht, hi⟩ := exec_outstandingComplete_granted hs ho (grant_bank _ _ (.inr hk) hb) hv (by rw [hstep.own]; exact hw)
  obtain ⟨hm, hrr, -⟩ := hi.rest
  have hrr' : t.tds.rr = b.tds.rr := hrr.trans (by rw [hw']; rfl)
  refine ⟨t, ht, ?_, ?_, fun q hq => ?_, ?_⟩
  · rw [hrr', hm]
    exact hstep.idled hi
  · rw [md_of_mem hm]
    exact md_setMd _ _ _
  · rw [mb_of_mem hm]
    exact mb_setMd_ne _ _ _ _ hq
  · rw [hrr']
    exact granted_last _ _ _

end

/-- Settles O14: a map access ends at once, one of the bank where no position before the engine waits at its sub-bank, and each as its kind
says. -/
theorem outstandingOperationsComplete : Obligations.OutstandingOperationsComplete := by
  unfold Obligations.OutstandingOperationsComplete
  intro s time n i o hs hw ho
  exact ⟨completes_lds hs hw ho, completes_sts hs hw ho, completes_ldc hs hw ho, completes_stc hs hw ho,
    fun hk hb => exec_outstandingComplete_waits hs ho (grant_none _ _ hk hb)⟩

end Sys2Proof.Machine
end

section
/-! What the frame of a command tells of a single field, part or message; proofs of later statements read their results through these. -/

namespace Sys2Proof.Machine

variable {rs es ks : List Nat} {s t u : State}

/-! ## Reading a state through a frame -/

/-- Offsets below the INT block are no registers of a source. -/
theorem not_mem_evRegs {a : Nat} (h : a < 0x880000) (n : Nat) : a ∉ evRegs n := by
  simp only [evRegs, R.INT_PEND, R.INT_SRC_CFG, List.mem_cons, List.not_mem_nil, or_false]
  omega

theorem Frame.fld (h : Frame rs es ks s t) {f : RF} (hr : f.addr ∉ rs) (hb : f.addr < 0x880000) : t.fld f = s.fld f := by
  simp only [State.fld, h.regs _ hr fun n _ => not_mem_evRegs hb n]

theorem Frame.bit (h : Frame rs es ks s t) {f : RF} (hr : f.addr ∉ rs) (hb : f.addr < 0x880000) : t.bit f = s.bit f := by
  simp only [State.bit, h.fld hr hb]

theorem Frame.fbit (h : Frame rs es ks s t) {f : RF} (b : Nat) (hr : f.addr ∉ rs) (hb : f.addr < 0x880000) : t.fbit f b = s.fbit f b := by
  simp only [State.fbit, h.fld hr hb]

theorem Frame.pends (h : Frame rs [] ks s t) {n : Nat} (hr : R.INT_PEND (n / 32) ∉ rs) : t.pends n = s.pends n := by
  simp only [State.pends, State.fbit, State.fld, F.INT_PEND_PEND, h.regs _ hr (by simp)]

theorem Frame.memu (h : Frame rs es ks s t) : t.memu = s.memu := show t.bare.memu = s.bare.memu from congrArg _ h.bare
theorem Frame.tds (h : Frame rs es ks s t) : t.tds = s.tds := show t.bare.tds = s.bare.tds from congrArg _ h.bare
theorem Frame.sfi (h : Frame rs es ks s t) : t.sfi = s.sfi := show t.bare.sfi = s.bare.sfi from congrArg _ h.bare
theorem Frame.aon (h : Frame rs es ks s t) : t.aon = s.aon := show t.bare.aon = s.bare.aon from congrArg _ h.bare
theorem Frame.rdu (h : Frame rs es ks s t) : t.rdu = s.rdu := show t.bare.rdu = s.bare.rdu from congrArg _ h.bare
theorem Frame.reports (h : Frame rs es ks s t) : t.reports = s.reports := show t.bare.reports = s.bare.reports from congrArg _ h.bare
theorem Frame.sigUnc (h : Frame rs es ks s t) : t.sigUnc = s.sigUnc := show t.bare.sigUnc = s.bare.sigUnc from congrArg _ h.bare

/-- An event of one source. -/
theorem frame_raise (s : State) (n : Nat) : Frame [] [n] [] s (s.raise n) := (Frame.refl _ _ _ _).raise (by simp)

theorem fbit_raise (s : State) (n : Nat) (f : RF) (b : Nat) (hb : f.addr < 0x880000) : (s.raise n).fbit f b = s.fbit f b :=
  (frame_raise s n).fbit b (by simp) hb

/-- A pending source stays pending through an event. -/
theorem pends_raise_of (h : s.pends n = true) (hn : n < 256) (m : Nat) : (s.raise m).pends n = true := by
  by_cases hm : n = m
  · cases hp : neverPending n with
    | true => rw [← hm, State.raise, State.raiseKey]; exact (pends_of_regs (congrArg State.regs (raiseWith_never hp _ _ _ _)) n).trans h
    | false => rw [← hm]; exact pends_raise s n hp hn
  · rw [pends_raise_ne s hn hm, h]

/-! ## Messages -/

theorem inFlight_sendFco (s : State) (region inst unit kind : Nat) (level qual : Option Nat) :
    ∃ m, (s.sendFco region inst unit kind level qual).fco.inFlight = s.fco.inFlight ++ [m] ∧ msgKind m = kind % 256 := by
  unfold State.sendFco State.sendMsg
  cases level <;> cases qual <;> exact ⟨_, rfl, msgKind_fmsg _ _ _ _ _ _ _⟩

theorem sent_sendFco (s : State) (region inst unit kind : Nat) (level qual : Option Nat) :
    Sent (kind % 256) s (s.sendFco region inst unit kind level qual) := by
  obtain ⟨m, h, hm⟩ := inFlight_sendFco s region inst unit kind level qual
  exact ⟨[], m, [], by simp [h], hm⟩

/-- A message that has gone out stays so through what follows. -/
theorem Sent.frame {k : Nat} (h : Sent k s t) (hf : Frame rs es ks t u) : Sent k s u := by
  obtain ⟨l, m, l', hl, hm⟩ := h
  obtain ⟨l2, h2, -⟩ := hf.msgs
  exact ⟨l, m, l' ++ l2, by simp [h2, hl], hm⟩

/-- One that has gone out since a state has gone out since any earlier one. -/
theorem Sent.since {k : Nat} (hf : Frame rs es ks s t) (h : Sent k t u) : Sent k s u := by
  obtain ⟨l, m, l', hl, hm⟩ := h
  obtain ⟨l2, h2, -⟩ := hf.msgs
  exact ⟨l2 ++ l, m, l', by simp [h2, hl], hm⟩

/-! ## Winter bits (R361, R362) -/

/-- The register of the Winter bits, and that of the ready bits. -/
def winReg (cb : Bool) : Nat := if cb then R.MEM_WIN_CB else R.MEM_WIN_TILE
def rdyReg (cb : Bool) : Nat := if cb then R.MEM_WIN_RDY_CB else R.MEM_WIN_RDY_TILE

variable {cb : Bool} {i : Nat}

theorem winBit_setWinBit (s : State) (v : Bool) (hi : i < 32) (hc : cb = true → i < 8) : (s.setWinBit cb i v).winBit cb i = v := by
  cases cb with
  | true => exact fbit_setFbit_self _ _ _ _ (by decide) (hc rfl)
  | false => exact fbit_setFbit_self _ _ _ _ (by decide) hi

theorem winRdy_setWinRdy (s : State) (v : Bool) (hi : i < 32) (hc : cb = true → i < 8) : (s.setWinRdy cb i v).winRdy cb i = v := by
  cases cb with
  | true => exact fbit_setFbit_self _ _ _ _ (by decide) (hc rfl)
  | false => exact fbit_setFbit_self _ _ _ _ (by decide) hi

theorem winRdy_raise (s : State) (n : Nat) : (s.raise n).winRdy cb i = s.winRdy cb i := by
  cases cb with
  | true => exact fbit_raise s n _ _ (by decide)
  | false => exact fbit_raise s n _ _ (by decide)

theorem Frame.setWinBit (h : Frame rs es ks s t) (v : Bool) (hr : winReg cb ∈ rs) : Frame rs es ks s (t.setWinBit cb i v) := by
  cases cb with
  | true => exact h.setFbit _ _ hr
  | false => exact h.setFbit _ _ hr

theorem Frame.setWinRdy (h : Frame rs es ks s t) (v : Bool) (hr : rdyReg cb ∈ rs) : Frame rs es ks s (t.setWinRdy cb i v) := by
  cases cb with
  | true => exact h.setFbit _ _ hr
  | false => exact h.setFbit _ _ hr

/-- The memory unit with the request for a memory noted, with a memory waking, with it awake. -/
def MemSt.requested (m : MemSt) (cb : Bool) (i : Nat) : MemSt :=
  if cb then { m with winReqC := m.winReqC ||| (1#8 <<< i) } else { m with winReqT := m.winReqT ||| (1#32 <<< i) }

def MemSt.woken (m : MemSt) (cb : Bool) (i : Nat) : MemSt :=
  if cb then
    { m with winReqC := m.winReqC &&& ~~~(1#8 <<< i), inWinC := m.inWinC &&& ~~~(1#8 <<< i), wakingC := m.wakingC ||| (m.inWinC &&& (1#8 <<< i)) }
  else
    { m with winReqT := m.winReqT &&& ~~~(1#32 <<< i), inWinT := m.inWinT &&& ~~~(1#32 <<< i), wakingT := m.wakingT ||| (m.inWinT &&& (1#32 <<< i)) }

def MemSt.awake (m : MemSt) (cb : Bool) (i : Nat) : MemSt :=
  if cb then { m with wakingC := m.wakingC &&& ~~~(1#8 <<< i) } else { m with wakingT := m.wakingT &&& ~~~(1#32 <<< i) }

/-- A memory wakes. -/
def MemSt.waking (m : MemSt) (cb : Bool) (i : Nat) : Bool := if cb then m.wakingC.getLsbD i else m.wakingT.getLsbD i

theorem winReq_refused (s : State) (hc : cb = true → i < 8) (hw : s.winBit cb i = false) (hr : s.winRefused cb i = true) :
    s.winReq cb i = (s.setBit F.MEM_STAT_WIN_REF true).raise 233 := by
  have h8 : (cb && decide (8 ≤ i)) = false := by cases cb <;> simp at hc ⊢; omega
  simp [State.winReq, h8, hw, hr]

theorem winReq_taken (s : State) (hc : cb = true → i < 8) (hw : s.winBit cb i = false) (hr : s.winRefused cb i = false) :
    s.winReq cb i = ({ s with memu := s.memu.requested cb i } : State).setWinBit cb i true := by
  have h8 : (cb && decide (8 ≤ i)) = false := by cases cb <;> simp at hc ⊢; omega
  simp only [State.winReq, h8, hw, hr, Bool.false_eq_true, if_false]
  cases cb <;> rfl

theorem winWake_eq (s : State) (hc : cb = true → i < 8) (hw : s.winBit cb i = true) :
    s.winWake cb i = ({ s with memu := s.memu.woken cb i } : State).setWinBit cb i false := by
  have h8 : (cb && decide (8 ≤ i)) = false := by cases cb <;> simp at hc ⊢; omega
  simp only [State.winWake, h8, hw, Bool.not_true, Bool.false_eq_true, if_false]
  cases cb <;> rfl

theorem winReady_eq (s : State) (hw : s.memu.waking cb i = true) :
    s.winReady cb i = (({ s with memu := s.memu.awake cb i } : State).setWinRdy cb i true).raise 232 := by
  cases cb with
  | true => exact if_pos hw
  | false => exact if_pos hw

theorem getLsbD_or_one {w : Nat} (x : BitVec w) (h : i < w) : (x ||| (1#w <<< i)).getLsbD i = true := by
  rw [BitVec.getLsbD_or, BitVec.getLsbD_shiftLeft]
  simp [h, show 0 < w by omega]

theorem requested_bit (m : MemSt) (hi : i < 32) (hc : cb = true → i < 8) :
    if cb then (m.requested cb i).winReqC.getLsbD i = true else (m.requested cb i).winReqT.getLsbD i = true := by
  cases cb with
  | true => exact getLsbD_or_one m.winReqC (hc rfl)
  | false => exact getLsbD_or_one m.winReqT hi

theorem woken_bits (m : MemSt) (hi : i < 32) (hc : cb = true → i < 8) :
    if cb then (m.woken cb i).wakingC.getLsbD i = (m.wakingC.getLsbD i || m.inWinC.getLsbD i) ∧ (m.woken cb i).inWinC.getLsbD i = false
    else (m.woken cb i).wakingT.getLsbD i = (m.wakingT.getLsbD i || m.inWinT.getLsbD i) ∧ (m.woken cb i).inWinT.getLsbD i = false := by
  cases cb with
  | true => simp [MemSt.woken, hc rfl]
  | false => simp [MemSt.woken, hi]

/-- What `State.winRefused` finds, said of the masks and lists (R361). -/
theorem winRefused_iff (s : State) (cb : Bool) (i : Nat) : s.winRefused cb i = true ↔
    s.bit (F.TDS_CL_CTL_ADMIT (if cb then i else i / 4)) = true ∨
      if cb then ∃ e, e < 4 ∧ s.engMask.getLsbD (4 * i + e) = false
      else s.engMask.getLsbD i = false ∨ ∃ r ∈ s.cfg.mirror.tiles, r.1 = i := by
  cases cb <;> simp [State.winRefused, List.any_eq_true]

/-! ## The Winter commands -/

theorem exec_winterRequest {s : State} (hs : s.Live) (time : Nat) (cb : Bool) (i : Fin 32) :
    exec (.winterRequest time cb i) s = .next ((s.tick time).winReq cb i) := congrArg Host.Outcome.next (onDie_live s time _ hs)

theorem exec_winterWake {s : State} (hs : s.Live) (time : Nat) (cb : Bool) (i : Fin 32) :
    exec (.winterWake time cb i) s = .next ((s.tick time).winWake cb i) := congrArg Host.Outcome.next (onDie_live s time _ hs)

theorem exec_winterReady {s : State} (hs : s.Live) (time : Nat) (cb : Bool) (i : Fin 32) :
    exec (.winterReady time cb i) s = .next ((s.tick time).winReady cb i) := congrArg Host.Outcome.next (onDie_live s time _ hs)

theorem exec_confRead {s : State} (hs : s.Live) (time : Nat) (m : Fin 16) :
    exec (.confRead time m) s = .next (State.didRead ((s.tick time).confRead m)) := congrArg Host.Outcome.next (onDie_live s time _ hs)

/-- A request that R361 refuses: WIN_REF with source 233. -/
theorem winReq_refused_spec (u : State) (hc : cb = true → i < 8) (hw : u.winBit cb i = false) (hr : u.winRefused cb i = true) :
    let t := u.winReq cb i
    t.bit F.MEM_STAT_WIN_REF = true ∧ t.pends 233 = true ∧ Frame [R.MEM_STAT] [233] [] u t := by
  intro t
  rw [show t = _ from winReq_refused u hc hw hr]
  refine ⟨?_, pends_raise _ 233 (by decide) (by decide), ((Frame.refl _ _ _ _).setBit _ (by decide)).raise (by decide)⟩
  rw [bit_raise _ _ _ (not_mem_evRegs (by decide) _)]
  exact bit_setBit_self _ _ _ (by decide) rfl

/-- A request that it takes waits for the next P0 release. -/
theorem winReq_taken_spec (u : State) (hi : i < 32) (hc : cb = true → i < 8) (hw : u.winBit cb i = false) (hr : u.winRefused cb i = false) :
    let t := u.winReq cb i
    t.winBit cb i = true ∧ (if cb then t.memu.winReqC.getLsbD i = true else t.memu.winReqT.getLsbD i = true) ∧
      Frame [winReg cb] [] [] { u with memu := t.memu } t := by
  intro t
  have ht : t = ({ u with memu := u.memu.requested cb i } : State).setWinBit cb i true := winReq_taken u hc hw hr
  have hf : Frame [winReg cb] [] [] { u with memu := u.memu.requested cb i } t := ht ▸ (Frame.refl _ _ _ _).setWinBit true (by simp)
  rw [hf.memu]
  exact ⟨ht ▸ winBit_setWinBit _ _ hi hc, requested_bit _ hi hc, hf⟩

theorem winWake_spec (u : State) (hi : i < 32) (hc : cb = true → i < 8) (hw : u.winBit cb i = true) :
    let t := u.winWake cb i
    t.winBit cb i = false ∧
      (if cb then t.memu.wakingC.getLsbD i = (u.memu.wakingC.getLsbD i || u.memu.inWinC.getLsbD i) ∧ t.memu.inWinC.getLsbD i = false
       else t.memu.wakingT.getLsbD i = (u.memu.wakingT.getLsbD i || u.memu.inWinT.getLsbD i) ∧ t.memu.inWinT.getLsbD i = false) ∧
      Frame [winReg cb] [] [] { u with memu := t.memu } t := by
  intro t
  have ht : t = ({ u with memu := u.memu.woken cb i } : State).setWinBit cb i false := winWake_eq u hc hw
  have hf : Frame [winReg cb] [] [] { u with memu := u.memu.woken cb i } t := ht ▸ (Frame.refl _ _ _ _).setWinBit false (by simp)
  rw [hf.memu]
  exact ⟨ht ▸ winBit_setWinBit _ _ hi hc, woken_bits _ hi hc, hf⟩

theorem winReady_spec (u : State) (hi : i < 32) (hc : cb = true → i < 8) (hw : u.memu.waking cb i = true) :
    let t := u.winReady cb i
    t.winRdy cb i = true ∧ t.pends 232 = true ∧ Frame [rdyReg cb] [232] [] { u with memu := t.memu } t := by
  intro t
  have ht : t = (({ u with memu := u.memu.awake cb i } : State).setWinRdy cb i true).raise 232 := winReady_eq u hw
  have hf : Frame [rdyReg cb] [232] [] { u with memu := u.memu.awake cb i } t :=
    ht ▸ ((Frame.refl _ _ _ _).setWinRdy true (by simp)).raise (by simp)
  rw [hf.memu]
  exact ⟨ht ▸ (winRdy_raise _ _).trans (winRdy_setWinRdy _ _ hi hc), ht ▸ pends_raise _ 232 (by decide) (by decide), hf⟩

/-- A read of MEM_CONFm returns a count and clears it (R355). -/
theorem confRead_spec (u : State) (m : Nat) :
    let t := State.didRead (u.confRead m)
    t.rd (R.MEM_CONF m) = 0 ∧ Frame [R.MEM_CONF m] [] [] { u with hcp := t.hcp } t := by
  intro t
  exact ⟨rd_wr_self _ _ _, ((Frame.refl _ _ _ _).free _).wr _ (by simp)⟩

/-! ## Bytes of memory written as a list -/

theorem spGet_append {α : Type} (d : α) (l m : Sparse α) (i : Nat) : spGet d (l ++ m) i = spGet (spGet d m i) l i := by
  induction l with
  | nil => rfl
  | cons c l ih =>
    obtain ⟨k, v⟩ := c
    simp only [List.cons_append, spGet, ih]

theorem spGet_of_ne {α : Type} (d : α) {m : Sparse α} {i : Nat} (h : ∀ c ∈ m, c.1 ≠ i) : spGet d m i = d := by
  induction m with
  | nil => rfl
  | cons c m ih =>
    obtain ⟨k, v⟩ := c
    have hk : i ≠ k := fun e => h (k, v) (by simp) e.symm
    simp only [spGet, hk, if_false]
    exact ih fun c hc => h c (by simp [hc])

/-- Keeping the entries of some indices, among them `i`. -/
theorem spGet_filter {α : Type} (d : α) (p : Nat → Bool) (m : Sparse α) {i : Nat} (h : p i = true) :
    spGet d (m.filter (fun c => p c.1)) i = spGet d m i := by
  induction m with
  | nil => rfl
  | cons c m ih =>
    obtain ⟨k, v⟩ := c
    rw [List.filter_cons]
    by_cases hk : i = k
    · subst hk; simp [h, spGet]
    · split
      · simp [spGet, hk, ih]
      · simp [spGet, hk, ih]

theorem spGet_filter_out {α : Type} (d : α) (p : Nat → Bool) (m : Sparse α) {i : Nat} (h : p i = false) :
    spGet d (m.filter (fun c => p c.1)) i = d := by
  refine spGet_of_ne d fun c hc e => ?_
  have := (List.mem_filter.1 hc).2
  rw [e, h] at this
  cases this

theorem le_of_mem_cellsOf {bs : List Byte} : ∀ {a : Nat} {c : Host.Cell}, c ∈ cellsOf a bs → a ≤ c.1 ∧ c.1 < a + bs.length := by
  induction bs with
  | nil => intro a c h; simp [cellsOf] at h
  | cons b bs ih =>
    intro a c h
    have hrec : c ∈ cellsOf (a + 1) bs → a ≤ c.1 ∧ c.1 < a + (b :: bs).length := fun h => by
      have := ih h
      simp only [List.length_cons]
      omega
    simp only [cellsOf] at h
    split at h
    · exact hrec h
    · rcases List.mem_cons.1 h with rfl | h
      · simp
      · exact hrec h

theorem spGet_cellsOf : ∀ (bs : List Byte) (a j : Nat) (hj : j < bs.length), spGet (memDefault (a + j)) (cellsOf a bs) (a + j) = bs[j]
  | b :: bs, a, j, hj => by
    have hne : ∀ c ∈ cellsOf (a + 1) bs, c.1 ≠ a := fun c hc => by have := le_of_mem_cellsOf hc; omega
    cases j with
    | zero =>
      simp only [cellsOf, Nat.add_zero, List.getElem_cons_zero]
      split
      next hb => rw [spGet_of_ne _ hne, hb]
      next => simp [spGet]
    | succ j =>
      have ih := spGet_cellsOf bs (a + 1) j (by simpa using hj)
      rw [show a + 1 + j = a + (j + 1) by omega] at ih
      simp only [cellsOf, List.getElem_cons_succ]
      split
      · exact ih
      · simpa [spGet] using ih

/-- Bytes outside of what is written stay. -/
theorem mb_setMbytes_ne (s : State) (a : Nat) (bs : List Byte) {x : Nat} (h : x < a ∨ a + bs.length ≤ x) : (s.setMbytes a bs).mb x = s.mb x := by
  have hc : ∀ c ∈ cellsOf a bs, c.1 ≠ x := fun c hc => by have := le_of_mem_cellsOf hc; omega
  simp only [State.mb, State.setMbytes]
  rw [spGet_append, spGet_append, spGet_of_ne _ hc]
  rcases h with h | h
  · rw [spGet_filter_out _ (fun k => decide (a + bs.length ≤ k)) _ (by simp; omega), spGet_filter _ (fun k => decide (k < a)) _ (by simpa using h)]
  · rw [spGet_filter_out _ (fun k => decide (k < a)) _ (by simp; omega), spGet_filter _ (fun k => decide (a + bs.length ≤ k)) _ (by simpa using h)]

/-- A byte that has been written. -/
theorem mb_setMbytes (s : State) (a : Nat) (bs : List Byte) {j : Nat} (hj : j < bs.length) : (s.setMbytes a bs).mb (a + j) = bs[j] := by
  simp only [State.mb, State.setMbytes]
  rw [spGet_append, spGet_append, spGet_filter_out _ (fun k => decide (a + bs.length ≤ k)) _ (by simp; omega), spGet_cellsOf bs a j hj,
    spGet_filter_out _ (fun k => decide (k < a)) _ (by simp)]

theorem mbytes_eq_of (s : State) : ∀ (bs : List Byte) (a : Nat), (∀ j (hj : j < bs.length), s.mb (a + j) = bs[j]) → s.mbytes a bs.length = bs
  | [], _, _ => rfl
  | b :: bs, a, h => by
    simp only [List.length_cons, State.mbytes]
    refine congrArg₂ _ (h 0 (by simp)) (mbytes_eq_of s bs (a + 1) fun j hj => ?_)
    rw [show a + 1 + j = a + (j + 1) by omega]
    exact h (j + 1) (by simpa using hj)

/-- A list of bytes read after it has been written. -/
theorem mbytes_setMbytes (s : State) (a : Nat) (bs : List Byte) : (s.setMbytes a bs).mbytes a bs.length = bs :=
  mbytes_eq_of _ bs a fun _ hj => mb_setMbytes s a bs hj

/-! ## An image depends on memory alone -/

section
variable (h : SameMem s t)
include h

theorem SameMem.mleFrom (n : Nat) : ∀ a, t.mleFrom a n = s.mleFrom a n := by
  induction n with
  | zero => intro a; rfl
  | succ n ih => intro a; simp only [State.mleFrom, ih, h a]

theorem SameMem.mbytes (n : Nat) : ∀ a, t.mbytes a n = s.mbytes a n := by
  induction n with
  | zero => intro a; rfl
  | succ n ih => intro a; simp only [State.mbytes, ih, h a]

theorem SameMem.mw (a : Nat) : t.mw a = s.mw a := by simp only [State.mw, h.mleFrom]
theorem SameMem.md (a : Nat) : t.md a = s.md a := by simp only [State.md, h.mleFrom]
theorem SameMem.imgLen (b : Nat) : t.imgLen b = s.imgLen b := h.mleFrom 4 _
theorem SameMem.imgPartial (b : Nat) : t.imgPartial b = s.imgPartial b := by simp only [State.imgPartial, h.mleFrom]
theorem SameMem.secs (b : Nat) : t.secs b = s.secs b := by simp only [State.secs, State.imgNsec, h.mleFrom]
theorem SameMem.regEntries (b : Nat) (r : ImgRec) : t.regEntries b r = s.regEntries b r := by simp only [State.regEntries, h.mleFrom, h.mw]
theorem SameMem.sigEntry (a : Nat) : t.sigEntry a = s.sigEntry a := by simp only [State.sigEntry, h.mleFrom, h.mw]
theorem SameMem.partialAt (b : Nat) : t.partialAt b = s.partialAt b := by simp only [State.partialAt, h.imgLen, h.mleFrom, h.imgPartial]

theorem SameMem.recsFrom (b : Nat) (x : Sec) (hi : Nat) (n : Nat) : ∀ o, t.recsFrom b x hi n o = s.recsFrom b x hi n o := by
  induction n with
  | zero => intro o; rfl
  | succ n ih => intro o; simp only [State.recsFrom, ih, h.mleFrom]

theorem SameMem.imgRecs (b : Nat) : t.imgRecs b = s.imgRecs b := by simp only [State.imgRecs, State.secRecs, h.secs, h.recsFrom]

theorem SameMem.keyEntry (f : Nat) : ∀ a n, t.keyEntry f a n = s.keyEntry f a n := by
  induction f with
  | zero => intros; rfl
  | succ f ih => intros; simp only [State.keyEntry, ih, h.mleFrom, h.mbytes]

theorem SameMem.imgRec (b : Nat) : t.imgRec b = s.imgRec b := by
  funext i r
  simp only [State.imgRec, h.regEntries, h.mleFrom, h.mw, h.md, h.mbytes, h.sigEntry, h.keyEntry, h _]

theorem SameMem.imgOf (i : Img) (b : Nat) : t.imgOf i b = s.imgOf i b := by
  simp only [State.imgOf, h.imgRecs, h.imgRec, h.secs, h.mbytes, h.imgPartial, h.md]

theorem SameMem.slotImg (i : Nat) : t.slotImg i = s.slotImg i := by simp only [State.slotImg, h.imgOf, h.partialAt]

/-- The keys of an image: of memory and the device's key. -/
theorem SameMem.keyBytes (ha : t.aon = s.aon) (i : Img) : t.keyBytes i = s.keyBytes i := by
  simp only [State.keyBytes, State.unwrap, ha, h.mleFrom, h.mbytes]

end

/-- Keys of the image in force, through a frame that leaves CFC_STAT alone. -/
theorem Frame.activeKeys (h : Frame rs es ks s t) (hr : R.CFC_STAT ∉ rs) : t.activeKeys = s.activeKeys := by
  have hm : SameMem s t := h.mem
  have hs : t.activeSlot = s.activeSlot := h.fld (f := F.CFC_STAT_ACTIVE_SLOT) hr (by decide)
  simp only [State.activeKeys, hs, hm.slotImg, hm.keyBytes h.aon]

theorem Frame.imageOn (h : Frame rs es ks s t) (hr : R.CFC_STAT ∉ rs) : t.imageOn = s.imageOn := by
  have hb : t.sys.booting = s.sys.booting := show t.bare.sys.booting = s.bare.sys.booting from congrArg (·.sys.booting) h.bare
  simp only [State.imageOn, h.bit (f := F.CFC_STAT_NOIMG) hr (by decide), hb]

/-! ## Masks and queues after an isolation (R15, R16) -/

/-- The registers that show the ready queues. -/
def qRegs : List Nat := (List.range 8).map R.TDS_Q_STAT

theorem Frame.foldl {α : Type} (h : Frame rs es ks s t) {f : State → α → State} {l : List α}
    (hf : ∀ u x, x ∈ l → Frame rs es ks s u → Frame rs es ks s (f u x)) : Frame rs es ks s (l.foldl f t) :=
  List.foldlRecOn l f (motive := Frame rs es ks s) h fun u hu x hx => hf u x hx hu

theorem frame_qSync (s : State) : Frame qRegs [] [] s s.qSync := by
  unfold State.qSync
  refine (Frame.refl _ _ _ _).foldl fun u p hp hu => ?_
  have hr : R.TDS_Q_STAT p ∈ qRegs := List.mem_map.2 ⟨p, hp, rfl⟩
  exact Frame.ite _ (fun _ => (hu.setFld _ hr).setFld _ hr) fun _ => hu.setFld _ hr

/-- From `s` to `t` engines and dispatch alone change. -/
def TdsOnly (s t : State) : Prop := ∃ d, t = { s with tds := d }

theorem TdsOnly.trans (h : TdsOnly s t) (h' : TdsOnly t u) : TdsOnly s u := by
  obtain ⟨d, rfl⟩ := h
  obtain ⟨d', rfl⟩ := h'
  exact ⟨d', rfl⟩

/-- Masked engines give descriptors back: engines and queues change, and the registers of the queues show it. -/
theorem frame_maskSync (s : State) : Frame qRegs [] [] { s with tds := s.maskSync.tds } s.maskSync := by
  unfold State.maskSync
  extract_lets m away
  generalize hv : List.foldl _ s _ = v
  have hvt : TdsOnly s v := by
    rw [← hv]
    refine List.foldlRecOn _ _ (motive := TdsOnly s) ⟨s.tds, rfl⟩ fun u hu n _ => hu.trans ?_
    dsimp only
    split_ifs
    · exact ⟨_, rfl⟩
    · exact ⟨u.tds, rfl⟩
  obtain ⟨d, rfl⟩ := hvt
  rw [(frame_qSync _).tds]
  exact frame_qSync _

theorem engMask_of_tileIso {s : State} {n : Nat} (h : s.memu.tileIso.getLsbD n = true) : s.engMask.getLsbD n = true := by
  simp [State.engMask, h]

/-! ## What the patrol scrub does with an error (R349, R351, Table 16.2) -/

theorem Frame.withReports (h : Frame rs es ks s t) (x : Sparse (Option Report)) :
    Frame rs es ks { s with reports := x } { t with reports := x } :=
  ⟨h.regs, h.mem, h.inbox, h.notes, h.msgs, congrArg (fun b : State => { b with reports := x }) h.bare⟩

theorem Frame.withSigUnc (h : Frame rs es ks s t) (x : Sparse Bool) : Frame rs es ks { s with sigUnc := x } { t with sigUnc := x } :=
  ⟨h.regs, h.mem, h.inbox, h.notes, h.msgs, congrArg (fun b : State => { b with sigUnc := x }) h.bare⟩

/-- A corrected error counts; every 256th raises its source. -/
theorem count_spec (u : State) {f : RF} (hf : f.ok) (hb : f.addr < 0x880000) (c : Bool) (n : Nat) :
    Counted f u ((u.inc f).raiseIf c n) ∧ Frame [f.addr] [n] [] u ((u.inc f).raiseIf c n) := by
  have hc : ((u.inc f).raiseIf c n).fld f = (u.inc f).fld f := by
    cases c with
    | false => rfl
    | true => exact fld_raise _ _ _ (not_mem_evRegs hb n)
  exact ⟨hc.trans (fld_inc_self u f hf), ((Frame.refl _ _ _ _).inc (by simp)).raiseIf c (by simp)⟩

/-- An uncorrectable word of the record store. -/
theorem recordUnc_spec (u : State) (a : Nat) :
    let t := (u.sendFco 2 (a / 64 % 2) 2 0x41 none (some a)).raise 230
    t.pends 230 = true ∧ Sent 0x41 u t ∧ Frame [] [230] [0x41] u t :=
  ⟨pends_raise _ 230 (by decide) (by decide), (sent_sendFco u _ _ _ 0x41 _ _).frame (frame_raise _ 230),
    ((Frame.refl _ _ _ _).sendFco _ _ _ 0x41 _ _ (by decide)).raise (by decide)⟩

theorem Frame.memu_tds {m : MemSt} {d : TdsSt} (h : Frame rs es ks { s with memu := m, tds := d } t) :
    t.memu = m ∧ Frame rs es ks { s with memu := t.memu, tds := t.tds } t := by
  have hm : t.memu = m := h.memu
  have hd : t.tds = d := h.tds
  subst hm hd
  exact ⟨rfl, h⟩

/-- An uncorrectable word of a tile memory isolates the tile (R15). -/
theorem tileUnc_spec (u : State) {n : Nat} (hn : n < 32) :
    (u.tileUnc n).fbit (F.TDS_CL_CTL_ISOL (n / 4)) (n % 4) = true ∧ (u.tileUnc n).engMask.getLsbD n = true ∧ Sent 0x20 u (u.tileUnc n) ∧
      Frame (R.TDS_CL_CTL (n / 4) :: qRegs) [] [0x20] { u with memu := (u.tileUnc n).memu, tds := (u.tileUnc n).tds } (u.tileUnc n) := by
  obtain ⟨v, hv⟩ : ∃ v : State, v = { u with memu := { u.memu with tileIso := u.memu.tileIso ||| (1#32 <<< n) } } := ⟨_, rfl⟩
  obtain ⟨w, hw⟩ : ∃ w, w = v.maskSync.setFbit (F.TDS_CL_CTL_ISOL (n / 4)) (n % 4) true := ⟨_, rfl⟩
  have ht : u.tileUnc n = w.sendFco 1 (seInst n) 0 0x20 (some 1) none := by rw [hw, hv]; rfl
  have h1 : Frame (R.TDS_CL_CTL (n / 4) :: qRegs) [] [0x20] { v with tds := v.maskSync.tds } w :=
    hw ▸ ((frame_maskSync v).mono (by simp) (by simp) (by simp)).setFbit _ _ (by simp [F.TDS_CL_CTL_ISOL])
  have h2 : Frame [] [] [0x20] w (u.tileUnc n) := ht ▸ (Frame.refl _ _ _ _).sendFco _ _ _ _ _ _ (by decide)
  have hsent : Sent 0x20 w (u.tileUnc n) := ht ▸ sent_sendFco _ _ _ _ 0x20 _ _
  have hall := h1.trans (h2.mono (by simp) (by simp) (by simp))
  rw [hv] at hall h1
  obtain ⟨hm, hf⟩ := hall.memu_tds
  have hs := Sent.since h1 hsent
  refine ⟨?_, engMask_of_tileIso ?_, hs, hf⟩
  · rw [h2.fbit _ (by simp) (by simp only [F.TDS_CL_CTL_ISOL, R.TDS_CL_CTL]; omega), hw]
    exact fbit_setFbit_self _ _ _ _ (by simp [RF.ok, F.TDS_CL_CTL_ISOL]) (by simp [F.TDS_CL_CTL_ISOL]; omega)
  · rw [hm]
    exact getLsbD_or_one _ hn

/-- An uncorrectable word of a cluster bank isolates the cluster (R16). -/
theorem bankUnc_spec (u : State) {c : Nat} (hc : c < 8) :
    (u.bankUnc c).memu.cluIso.getLsbD c = true ∧ (u.bankUnc c).pends 226 = true ∧ Sent 0x21 u (u.bankUnc c) ∧
      Frame qRegs [226] [0x21] { u with memu := (u.bankUnc c).memu, tds := (u.bankUnc c).tds } (u.bankUnc c) := by
  obtain ⟨v, hv⟩ : ∃ v : State, v = { u with memu := { u.memu with cluIso := u.memu.cluIso ||| (1#8 <<< c) } } := ⟨_, rfl⟩
  obtain ⟨w, hw⟩ : ∃ w, w = v.maskSync.raise 226 := ⟨_, rfl⟩
  have ht : u.bankUnc c = w.sendFco 2 (c * 8) 0 0x21 (some 2) none := by rw [hw, hv]; rfl
  have h1 : Frame qRegs [226] [0x21] { v with tds := v.maskSync.tds } w :=
    hw ▸ ((frame_maskSync v).mono (by simp) (by simp) (by simp)).raise (by decide)
  have h2 : Frame [] [] [0x21] w (u.bankUnc c) := ht ▸ (Frame.refl _ _ _ _).sendFco _ _ _ _ _ _ (by decide)
  have hsent : Sent 0x21 w (u.bankUnc c) := ht ▸ sent_sendFco _ _ _ _ 0x21 _ _
  have hall := h1.trans (h2.mono (by simp) (by simp) (by simp))
  rw [hv] at hall h1
  obtain ⟨hm, hf⟩ := hall.memu_tds
  have hs := Sent.since h1 hsent
  refine ⟨?_, ?_, hs, hf⟩
  · rw [hm]
    exact getLsbD_or_one _ hc
  · rw [h2.pends (by simp), hw]
    exact pends_raise _ 226 (by decide) (by decide)

theorem dpUnc_spec (u : State) : Counted F.MEM_DP_UNC_CNT_V u u.dpUnc ∧ u.dpUnc.bit F.MEM_STAT_DP_UNC = true ∧ u.dpUnc.pends 225 = true ∧
    Frame [R.MEM_DP_UNC_CNT, R.MEM_STAT] [225] [] u u.dpUnc := by
  refine ⟨?_, ?_, pends_raise _ 225 (by decide) (by decide), (((Frame.refl _ _ _ _).inc (by decide)).setBit _ (by decide)).raise (by decide)⟩
  · unfold Counted State.dpUnc
    rw [fld_raise _ _ _ (not_mem_evRegs (by decide) _), fld_setBit_ne _ _ _ _ (by decide), fld_inc_self _ _ (by decide)]
  · unfold State.dpUnc
    rw [bit_raise _ _ _ (not_mem_evRegs (by decide) _), bit_setBit_self _ _ _ (by decide) rfl]

/-- What an uncorrectable word of the staging DPRAM leaves beside the count: a lost report, a broken entry of the signal map. -/
def State.dpLost (s : State) (a : Nat) : State :=
  if a < dpramBase + 0x40000 then { s with reports := spSet none s.reports ((a - dpramBase) / 32) none }
  else if a < dpramBase + 0x50000 then s.sigBreak ((a - dpramBase - 0x40000) / 4) else s

theorem dpLost_regs (s : State) (a : Nat) : (s.dpLost a).regs = s.regs := by unfold State.dpLost; split_ifs <;> rfl

theorem dpLost_spec (u : State) (a : Nat) :
    let t := u.dpUnc.dpLost a
    Counted F.MEM_DP_UNC_CNT_V u t ∧ t.bit F.MEM_STAT_DP_UNC = true ∧ t.pends 225 = true ∧
      (a < dpramBase + 0x40000 → spGet none t.reports ((a - dpramBase) / 32) = none) ∧
      (dpramBase + 0x40000 ≤ a → a < dpramBase + 0x50000 → spGet false t.sigUnc ((a - dpramBase - 0x40000) / 4) = true) ∧
      Frame [R.MEM_DP_UNC_CNT, R.MEM_STAT] [225] [] { u with reports := t.reports, sigUnc := t.sigUnc } t := by
  intro t
  obtain ⟨hc, hb, hp, hf⟩ := dpUnc_spec u
  have hregs : t.regs = u.dpUnc.regs := dpLost_regs _ _
  refine ⟨counted_of_regs hregs hc, (bit_of_regs hregs _).trans hb, (pends_of_regs hregs _).trans hp, fun h => ?_, fun h1 h2 => ?_, ?_⟩
  · simp only [t, State.dpLost, if_pos h, spGet_spSet_self]
  · simp only [t, State.dpLost, if_neg (Nat.not_lt.2 h1), if_pos h2, State.sigBreak, spGet_spSet_self]
  · have h := (hf.withReports t.reports).withSigUnc t.sigUnc
    have ht : ({ u.dpUnc with reports := t.reports, sigUnc := t.sigUnc } : State) = t := by
      simp only [t, State.dpLost]
      split_ifs <;> rfl
    rwa [← ht]

/-- An uncorrectable word of the secure store: the keys of the image in force are loaded anew. -/
theorem secureUnc_spec (u : State) :
    let v := u.raise 229
    let t := if v.imageOn then v.loadKeys v.activeKeys else v
    t.pends 229 = true ∧
      (u.imageOn = true → u.memu.keysWiped = false → t.mbytes secBase (u.activeKeys.take 0x40000).length = u.activeKeys.take 0x40000) := by
  intro v t
  have hf : Frame [] [229] [] u v := frame_raise u 229
  have hr : t.regs = v.regs := by
    simp only [t, State.loadKeys, State.loadPriv]
    split_ifs <;> rfl
  refine ⟨(pends_of_regs hr _).trans (pends_raise _ 229 (by decide) (by decide)), fun hi hk => ?_⟩
  have ht : t = v.setMbytes secBase (u.activeKeys.take 0x40000) := by
    simp only [t, hf.imageOn (by simp), hi, if_true, State.loadKeys, hf.memu, hk, Bool.false_eq_true, if_false, hf.activeKeys (by simp)]
  rw [ht]
  exact mbytes_setMbytes _ _ _

/-! ## PATROL_SCRUB -/

theorem exec_patrolScrub {s : State} (hs : s.Live) (time : Nat) (addr : BitVec 40) (e : EccErr) :
    exec (.patrolScrub time addr e) s =
      .next (if scrubbed addr.toNat && !s.wintered addr.toNat then (s.tick time).eccHit addr.toNat e else s.tick time) :=
  congrArg Host.Outcome.next (onDie_live s time _ hs)

theorem exec_patrolScrub_skips {s : State} (hs : s.Live) (time : Nat) {addr : BitVec 40} (e : EccErr)
    (h : scrubbed addr.toNat = false ∨ s.wintered addr.toNat = true) : exec (.patrolScrub time addr e) s = .next (s.tick time) := by
  rw [exec_patrolScrub hs]
  rcases h with h | h <;> simp [h]

theorem exec_patrolScrub_hits {s : State} (hs : s.Live) (time : Nat) {addr : BitVec 40} (e : EccErr) (h : scrubbed addr.toNat = true)
    (hw : s.wintered addr.toNat = false) : exec (.patrolScrub time addr e) s = .next ((s.tick time).eccHit addr.toNat e) := by
  rw [exec_patrolScrub hs]
  simp [h, hw]

/-- The patrol scrub does not reach the NV store. -/
theorem scrubbed_bounds {a : Nat} (h : scrubbed a = true) :
    a < nvBase ∧ (a < 0x201000000 → 0x200000000 ≤ a → (a - 0x200000000) / 0x40000 < 32) := by
  simp only [scrubbed, Bool.or_eq_true, Bool.and_eq_true, decide_eq_true_eq] at h
  unfold secBase at h
  unfold nvBase
  omega

theorem eccHit_single (u : State) {a : Nat} (h : scrubbed a = true) :
    if a < 0x200000000 then Counted F.MEM_RS_CORR_CNT_V u (u.eccHit a .single) ∧ Frame [R.MEM_RS_CORR_CNT] [228] [] u (u.eccHit a .single)
    else Counted F.MEM_SRAM_CORR_CNT_V u (u.eccHit a .single) ∧ Frame [R.MEM_SRAM_CORR_CNT] [227] [] u (u.eccHit a .single) := by
  obtain ⟨hnv, -⟩ := scrubbed_bounds h
  split_ifs with hr
  · simp only [State.eccHit, if_pos hr]
    exact count_spec u (by decide) (by decide) _ 228
  · simp only [State.eccHit, if_neg hr, if_neg (Nat.not_le.2 hnv)]
    exact count_spec u (by decide) (by decide) _ 227

/-- What Table 16.2 says of an uncorrectable word, by where it lies. -/
theorem eccHit_double (u : State) {a : Nat} (h : scrubbed a = true) :
    let t := u.eccHit a .double
    if a < 0x200000000 then t.pends 230 = true ∧ Sent 0x41 u t ∧ Frame [] [230] [0x41] u t
    else if a < 0x201000000 then
      let n := (a - 0x200000000) / 0x40000
      t.fbit (F.TDS_CL_CTL_ISOL (n / 4)) (n % 4) = true ∧ t.engMask.getLsbD n = true ∧ Sent 0x20 u t ∧
        Frame (R.TDS_CL_CTL (n / 4) :: qRegs) [] [0x20] { u with memu := t.memu, tds := t.tds } t
    else if a < dpramBase then
      t.memu.cluIso.getLsbD ((a - 0x201000000) / 0x200000) = true ∧ t.pends 226 = true ∧ Sent 0x21 u t ∧
        Frame qRegs [226] [0x21] { u with memu := t.memu, tds := t.tds } t
    else if a < secBase then
      Counted F.MEM_DP_UNC_CNT_V u t ∧ t.bit F.MEM_STAT_DP_UNC = true ∧ t.pends 225 = true ∧
        (a < dpramBase + 0x40000 → spGet none t.reports ((a - dpramBase) / 32) = none) ∧
        (dpramBase + 0x40000 ≤ a → a < dpramBase + 0x50000 → spGet false t.sigUnc ((a - dpramBase - 0x40000) / 4) = true) ∧
        Frame [R.MEM_DP_UNC_CNT, R.MEM_STAT] [225] [] { u with reports := t.reports, sigUnc := t.sigUnc } t
    else t.pends 229 = true ∧
      (u.imageOn = true → u.memu.keysWiped = false → t.mbytes secBase (u.activeKeys.take 0x40000).length = u.activeKeys.take 0x40000) := by
  obtain ⟨hnv, htile⟩ := scrubbed_bounds h
  intro t
  by_cases h1 : a < 0x200000000
  · have ht : t = (u.sendFco 2 (a / 64 % 2) 2 0x41 none (some a)).raise 230 := if_pos h1
    rw [if_pos h1, ht]
    exact recordUnc_spec u a
  rw [if_neg h1]
  have h1' : t = if nvBase ≤ a then _ else _ := if_neg h1
  rw [if_neg (Nat.not_le.2 hnv)] at h1'
  by_cases h2 : a < 0x201000000
  · rw [if_pos h2] at h1' ⊢
    rw [h1']
    exact tileUnc_spec u (htile h2 (Nat.not_lt.1 h1))
  rw [if_neg h2] at h1' ⊢
  by_cases h3 : a < dpramBase
  · rw [if_pos h3] at h1' ⊢
    rw [h1']
    exact bankUnc_spec u (by unfold dpramBase at h3; omega)
  rw [if_neg h3] at h1' ⊢
  by_cases h4 : a < secBase
  · rw [if_pos h4] at h1' ⊢
    rw [h1']
    exact dpLost_spec u a
  rw [if_neg h4] at h1' ⊢
  rw [h1']
  exact secureUnc_spec u

/-- Settles O43: requests, wakes and reads of MEM_CONF by their equations, the scrub by what Table 16.2 says of each memory. -/
theorem winterRequestsWakesAndScrubs : Obligations.WinterRequestsWakesAndScrubs := by
  unfold Obligations.WinterRequestsWakesAndScrubs
  intro s time cb i m addr hcb
  have hi : i.val < 32 := i.isLt
  refine ⟨fun hw => ⟨fun hr hs => ?_, fun hr hs => ?_⟩, fun hw hs => ?_, fun hw hs => ?_, fun hs => ?_, fun e h hs => ?_,
    fun h hw => ⟨fun hs => ?_, fun hs => ?_, fun hs => ?_⟩⟩
  · exact ⟨_, exec_winterRequest hs time cb i, winReq_refused_spec (s.tick time) hcb hw ((winRefused_iff s cb i).2 hr)⟩
  · exact ⟨_, exec_winterRequest hs time cb i,
      winReq_taken_spec (s.tick time) hi hcb hw (Bool.not_eq_true _ ▸ fun h => hr ((winRefused_iff s cb i).1 h))⟩
  · exact ⟨_, exec_winterWake hs time cb i, winWake_spec (s.tick time) hi hcb hw⟩
  · exact ⟨_, exec_winterReady hs time cb i, winReady_spec (s.tick time) hi hcb hw⟩
  · exact ⟨_, exec_confRead hs time m, confRead_spec (s.tick time) m⟩
  · exact exec_patrolScrub_skips hs time e h
  · exact exec_patrolScrub_hits hs time .ok h hw
  · exact ⟨_, exec_patrolScrub_hits hs time .single h hw, eccHit_single (s.tick time) h⟩
  · exact ⟨_, exec_patrolScrub_hits hs time .double h hw, eccHit_double (s.tick time) h⟩

end Sys2Proof.Machine
end

section
/-! What a step of the link and safety rules keeps: memory, pending sources, messages on their way and named fields stand as before, whatever
it does else to ports, roles, lanes and timers. -/

namespace Sys2Proof.Machine

variable {fs : List RF} {rs es ks : List Nat} {s t u : State}

/-! ## Steps that keep named fields -/

/-- Field `f` shares no bit with the fields `fs`. -/
abbrev RF.clears (f : RF) (fs : List RF) : Prop := ∀ g ∈ fs, g.addr ≠ f.addr ∨ (g.ok ∧ f.apart g)

/-- The fields `fs` stand in registers below the INT block. -/
abbrev belowInt (fs : List RF) : Prop := ∀ g ∈ fs, g.addr < 0x880000

/-- Notes of the units that the link and safety rules leave alone: the strap and its conflict, the loss of VSAF and of D9, the last loss
of the link. -/
def State.notes (s : State) : (Bool × Bool × Bool) × Bool × Nat := ((s.sys.uid, s.sys.strapConf, s.sys.vsafLost), s.sfi.d9Lost, s.rdu.linkDownAt)

/-- From `s` to `t` the fields `fs` and memory stay, pending sources stay pending, and messages on their way to the FCO stay so. -/
structure Keeps (fs : List RF) (s t : State) : Prop where
  fields : ∀ f ∈ fs, t.fld f = s.fld f
  mem : SameMem s t
  pends : ∀ n, n < 256 → s.pends n = true → t.pends n = true
  msgs : ∃ l, t.fco.inFlight = s.fco.inFlight ++ l
  notes : t.notes = s.notes

theorem Keeps.refl (fs : List RF) (s : State) : Keeps fs s s := ⟨fun _ _ => rfl, fun _ => rfl, fun _ _ h => h, ⟨[], by simp⟩, rfl⟩

theorem Keeps.trans (h : Keeps fs s t) (h' : Keeps fs t u) : Keeps fs s u := by
  obtain ⟨l, hl⟩ := h.msgs
  obtain ⟨l', hl'⟩ := h'.msgs
  exact ⟨fun f hf => (h'.fields f hf).trans (h.fields f hf), fun a => (h'.mem a).trans (h.mem a),
    fun n hn hp => h'.pends n hn (h.pends n hn hp), ⟨l ++ l', by simp [hl, hl']⟩, h'.notes.trans h.notes⟩

theorem Keeps.bit (h : Keeps fs s t) {f : RF} (hf : f ∈ fs) : t.bit f = s.bit f := by simp only [State.bit, h.fields f hf]

theorem Keeps.uid (h : Keeps fs s t) : t.sys.uid = s.sys.uid := congrArg (·.1.1) h.notes
theorem Keeps.strapConf (h : Keeps fs s t) : t.sys.strapConf = s.sys.strapConf := congrArg (·.1.2.1) h.notes
theorem Keeps.vsafLost (h : Keeps fs s t) : t.sys.vsafLost = s.sys.vsafLost := congrArg (·.1.2.2) h.notes
theorem Keeps.d9Lost (h : Keeps fs s t) : t.sfi.d9Lost = s.sfi.d9Lost := congrArg (·.2.1) h.notes
theorem Keeps.linkDownAt (h : Keeps fs s t) : t.rdu.linkDownAt = s.rdu.linkDownAt := congrArg (·.2.2) h.notes

/-- Parts of the state that are neither registers nor memory nor messages nor notes change freely. -/
theorem Keeps.parts (h : Keeps fs s t) (hr : u.regs = t.regs := by rfl) (hm : u.mem = t.mem := by rfl) (hf : u.fco = t.fco := by rfl)
    (hn : u.notes = t.notes := by rfl) : Keeps fs s u :=
  h.trans ⟨fun f _ => fld_of_regs hr f, fun a => mb_of_mem hm a, fun n _ hp => (pends_of_regs hr n).trans hp, ⟨[], by simp [hf]⟩, hn⟩

theorem Keeps.rdu (h : Keeps fs s t) {r : RduSt} (hl : r.linkDownAt = t.rdu.linkDownAt := by rfl) : Keeps fs s { t with rdu := r } :=
  h.parts rfl rfl rfl (by simp only [State.notes, hl])

theorem Keeps.sfi (h : Keeps fs s t) {f : SfiSt} (hd : f.d9Lost = t.sfi.d9Lost := by rfl) : Keeps fs s { t with sfi := f } :=
  h.parts rfl rfl rfl (by simp only [State.notes, hd])

theorem Keeps.wr (h : Keeps fs s t) {a : Nat} (v : BitVec 32) (ha : ∀ g ∈ fs, g.addr ≠ a := by decide) (hb : a < 0x880000 := by decide) :
    Keeps fs s (t.wr a v) :=
  h.trans ⟨fun f hf => by simp only [State.fld, rd_wr_ne _ _ _ _ (ha f hf)], fun _ => rfl, fun n _ hp => by
    rwa [State.pends, State.fbit, State.fld, rd_wr_ne _ _ _ _ (by simp only [F.INT_PEND_PEND, R.INT_PEND]; omega)], ⟨[], by simp⟩, rfl⟩

theorem Keeps.setFld (h : Keeps fs s t) {f : RF} (x : Nat) (hf : f.clears fs := by decide) (hb : f.addr < 0x880000 := by decide) :
    Keeps fs s (t.setFld f x) :=
  h.trans ⟨fun g hg => (hf g hg).elim (fld_setFld_ne _ _ _ _) fun ⟨hok, ha⟩ => fld_setFld_apart _ _ _ _ hok ha, fun _ => rfl, fun n _ hp => by
    rwa [State.pends, State.fbit, fld_setFld_ne _ _ _ _ (by simp only [F.INT_PEND_PEND, R.INT_PEND]; omega)], ⟨[], by simp⟩, rfl⟩

theorem Keeps.setBit (h : Keeps fs s t) {f : RF} (b : Bool) (hf : f.clears fs := by decide) (hb : f.addr < 0x880000 := by decide) : Keeps fs s (t.setBit f b) :=
  h.setFld _ hf hb

/-- A frame outside the fields, under which pending sources stay so. -/
theorem Keeps.frame (h : Keeps fs s t) (hf : Frame rs es ks t u) (hr : ∀ g ∈ fs, g.addr ∉ rs) (hb : belowInt fs)
    (hp : ∀ n, n < 256 → t.pends n = true → u.pends n = true) : Keeps fs s u := by
  obtain ⟨l, hl, -⟩ := hf.msgs
  have hsys : (u.sys.uid, u.sys.strapConf, u.sys.vsafLost) = (t.sys.uid, t.sys.strapConf, t.sys.vsafLost) :=
    show (u.bare.sys.uid, u.bare.sys.strapConf, u.bare.sys.vsafLost) = (t.bare.sys.uid, t.bare.sys.strapConf, t.bare.sys.vsafLost) by
      rw [hf.bare]
  exact h.trans ⟨fun g hg => hf.fld (hr g hg) (hb g hg), hf.mem, hp, ⟨l, hl⟩, by simp only [State.notes, hsys, hf.sfi, hf.rdu]⟩

theorem pends_raiseKey_of (h : s.pends n = true) (hn : n < 256) (m key : Nat) : (s.raiseKey m key).pends n = true := by
  cases hp : neverPending m with
  | true => exact (pends_of_regs (congrArg State.regs (raiseWith_never hp _ _ _ _)) n).trans h
  | false =>
    by_cases hm : n = m
    · subst hm
      exact pends_raiseWith _ _ _ _ _ hp hn
    · exact (pends_of_regs (regs_raiseWith hp _ _ _ _) n).trans ((pends_mark_ne _ hn hm).trans h)

theorem Keeps.raiseKey (h : Keeps fs s t) (n key : Nat) (hb : belowInt fs := by decide) : Keeps fs s (t.raiseKey n key) :=
  h.frame (((Frame.refl [] [n] [] t).free _).free _ |>.raiseWith _ _ _ (by simp)) (by simp) hb fun _ hm hp => pends_raiseKey_of hp hm _ _

theorem Keeps.raise (h : Keeps fs s t) (n : Nat) (hb : belowInt fs := by decide) : Keeps fs s (t.raise n) := h.raiseKey n _ hb

theorem Keeps.sendFco (h : Keeps fs s t) (region inst unit kind : Nat) (level qual : Option Nat) (hb : belowInt fs := by decide) :
    Keeps fs s (t.sendFco region inst unit kind level qual) :=
  have hf : Frame [] [] [kind % 256] t (t.sendFco region inst unit kind level qual) := (Frame.refl _ _ _ _).sendFco _ _ _ _ _ _ (by simp)
  h.frame hf (by simp) hb fun n _ hp => (hf.pends (by simp)).trans hp

theorem Keeps.ite {c : Prop} [Decidable c] (ht : c → Keeps fs s t) (hu : ¬ c → Keeps fs s u) : Keeps fs s (if c then t else u) := by
  by_cases h : c
  · rw [if_pos h]; exact ht h
  · rw [if_neg h]; exact hu h

theorem Keeps.foldl {α : Type} {f : State → α → State} {l : List α} (h : ∀ x ∈ l, ∀ s, Keeps fs s (f s x)) (s : State) : Keeps fs s (l.foldl f s) := by
  induction l generalizing s with
  | nil => exact .refl _ _
  | cons x l ih => exact (h x (by simp) s).trans (ih (fun y hy => h y (by simp [hy])) _)

/-- A message that has gone out stays so. -/
theorem Keeps.sentThen {k : Nat} (hk : Keeps fs t u) (h : Sent k s t) : Sent k s u := by
  obtain ⟨l, m, l', hl, hm⟩ := h
  obtain ⟨l2, h2⟩ := hk.msgs
  exact ⟨l, m, l' ++ l2, by simp [h2, hl], hm⟩

/-- One that has gone out since a state has gone out since any earlier one. -/
theorem Keeps.sentSince {k : Nat} (hk : Keeps fs s t) (h : Sent k t u) : Sent k s u := by
  obtain ⟨l, m, l', hl, hm⟩ := h
  obtain ⟨l2, h2⟩ := hk.msgs
  exact ⟨l2 ++ l, m, l', by simp [h2, hl], hm⟩

end Sys2Proof.Machine
end

section
/-! Orders of the SCP: what SAFE STOP and the driving of SFS_OK change, in the registers and in the safety unit itself. -/

namespace Sys2Proof.Machine

variable {rs es : List Nat} {s t u : State}

/-! ## Steps of the safety unit -/

/-- Notes of the safety unit that its orders leave alone. -/
def SfiSt.marks (f : SfiSt) : Bool × Bool × Bool × Bool := (f.linkDown64, f.d3Lost, f.d9Lost, f.hblIdle)

/-- `Frame` but for the safety unit, whose marks stay, and for the trigger units of the recorder. -/
structure SafetyStep (rs es : List Nat) (s t : State) : Prop where
  frame : Frame rs es [] { s with sfi := t.sfi, drc := t.drc } t
  marks : t.sfi.marks = s.sfi.marks
  pends : ∀ n, n < 256 → s.pends n = true → t.pends n = true

theorem SafetyStep.refl (rs es : List Nat) (s : State) : SafetyStep rs es s s := ⟨.refl _ _ _ s, rfl, fun _ _ h => h⟩

theorem Frame.drc {ks : List Nat} (h : Frame rs es ks s t) : t.drc = s.drc := show t.bare.drc = s.bare.drc from congrArg _ h.bare

/-- Parts that a frame does not speak of are changed alike on both its sides. -/
theorem Frame.withSafety {ks : List Nat} (h : Frame rs es ks s t) (f : SfiSt) (d : DrcSt) :
    Frame rs es ks { s with sfi := f, drc := d } { t with sfi := f, drc := d } :=
  ⟨h.regs, h.mem, h.inbox, h.notes, h.msgs, congrArg (fun b : State => ({ b with sfi := f, drc := d } : State)) h.bare⟩

theorem SafetyStep.step (h : SafetyStep rs es s t) (hf : Frame rs es [] t u) (hp : ∀ n, n < 256 → t.pends n = true → u.pends n = true) :
    SafetyStep rs es s u := by
  refine ⟨?_, by rw [hf.sfi, h.marks], fun n hn hs => hp n hn (h.pends n hn hs)⟩
  rw [hf.sfi, hf.drc]
  exact h.frame.trans hf

theorem SafetyStep.regs {rs' : List Nat} (h : SafetyStep rs es s t) (hf : Frame rs' [] [] t u) (hr : rs' ⊆ rs := by simp)
    (hb : ∀ a ∈ rs', a < 0x880000 := by decide) : SafetyStep rs es s u :=
  h.step (hf.mono hr (by simp) (by simp)) fun n _ hp => (hf.pends fun hm => absurd (hb _ hm) (by simp only [R.INT_PEND]; omega)).trans hp

theorem SafetyStep.raise (h : SafetyStep rs es s t) {n : Nat} (hn : n ∈ es := by simp) : SafetyStep rs es s (t.raise n) :=
  h.step ((Frame.refl _ _ _ _).raise hn) fun _ hm hp => pends_raise_of hp hm n

theorem SafetyStep.unit (h : SafetyStep rs es s t) {f : SfiSt} {d : DrcSt} (hm : f.marks = t.sfi.marks := by rfl) :
    SafetyStep rs es s { t with sfi := f, drc := d } := ⟨h.frame.withSafety f d, hm.trans h.marks, h.pends⟩

theorem SafetyStep.trans (h : SafetyStep rs es s t) (h' : SafetyStep rs es t u) : SafetyStep rs es s u :=
  ⟨(h.frame.withSafety u.sfi u.drc).trans h'.frame, h'.marks.trans h.marks, fun n hn hp => h'.pends n hn (h.pends n hn hp)⟩

theorem SafetyStep.ite {c : Prop} [Decidable c] (ht : c → SafetyStep rs es s t) (hu : ¬ c → SafetyStep rs es s u) :
    SafetyStep rs es s (if c then t else u) := by
  by_cases h : c
  · rw [if_pos h]; exact ht h
  · rw [if_neg h]; exact hu h

theorem SafetyStep.foldl {α : Type} {f : State → α → State} (h : ∀ s x, SafetyStep rs es s (f s x)) (l : List α) (s : State) :
    SafetyStep rs es s (l.foldl f s) := by
  induction l generalizing s with
  | nil => exact .refl _ _ _
  | cons x l ih => exact (h s x).trans (ih _)

theorem SafetyStep.fld (h : SafetyStep rs es s t) {f : RF} (hr : f.addr ∉ rs) (hb : f.addr < 0x880000) : t.fld f = s.fld f := h.frame.fld hr hb
theorem SafetyStep.bit (h : SafetyStep rs es s t) {f : RF} (hr : f.addr ∉ rs) (hb : f.addr < 0x880000) : t.bit f = s.bit f := h.frame.bit hr hb
theorem SafetyStep.mem (h : SafetyStep rs es s t) : SameMem s t := h.frame.mem

/-! ## SAFE STOP (R264) -/

/-- What the registers show of an entry to STOP. -/
def State.stopShown (s : State) (cause : Nat) : State := ((s.setFld F.SFI_STAT_STATE stStop).setFld F.SFI_STAT_STOP_CAUSE cause).inc F.SFI_STOP_CNT_V

/-- Monitor `c` starts from I0 at the order (R266). -/
def State.monBegun (s : State) (c : Nat) : State := s.setMon c { s.mon c with i0 := s.monI0 c, inTol := none }

/-- What the safety unit does at an entry to STOP, and the event of it. -/
def State.stopBegun (s : State) : State :=
  let s : State := { s with sfi := { s.sfi with stopAt := s.mono } }.hblTimer
  (((List.range 8).foldl State.monBegun s).safetyHit 0).raise 176

/-- The order that goes to the partner (R271). -/
def State.tellStop (s : State) (cause : Nat) : State :=
  if cause = 1 ∨ s.sfiState = stBlock then s else { s with sfi := { s.sfi with sendStop := true } }

theorem safeStop_eq (s : State) (cause : Nat) : s.safeStop cause =
    if s.scpDead then (if cause = 1 ∧ s.sfiState ≠ stBlock then s.hblTimer else s)
    else if (s.tellStop cause).sfiState = stRun then ((s.tellStop cause).stopShown cause).stopBegun else s.tellStop cause := rfl

theorem safetyStep_hblTimer (s : State) : SafetyStep rs es s s.hblTimer := .ite (fun _ => .refl _ _ s) fun _ => (SafetyStep.refl _ _ s).unit

theorem safetyStep_monBegun (s : State) (c : Nat) : SafetyStep rs es s (s.monBegun c) := (SafetyStep.refl _ _ s).unit

theorem safetyStep_safetyHit (s : State) (a : Nat) : SafetyStep rs es s (s.safetyHit a) := (SafetyStep.refl _ _ s).unit

theorem safetyStep_stopBegun (s : State) : SafetyStep [] [176] s s.stopBegun := by
  have h0 : SafetyStep [] [176] s { s with sfi := { s.sfi with stopAt := s.mono } } := (SafetyStep.refl _ _ s).unit
  have h1 := (h0.trans (safetyStep_hblTimer _)).trans (.foldl safetyStep_monBegun (List.range 8) _)
  exact (h1.trans (safetyStep_safetyHit _ 0)).raise

theorem safetyStep_tellStop (s : State) (cause : Nat) : SafetyStep rs es s (s.tellStop cause) :=
  .ite (fun _ => .refl _ _ s) fun _ => (SafetyStep.refl _ _ s).unit

theorem frame_stopShown (s : State) (cause : Nat) : Frame [R.SFI_STAT, R.SFI_STOP_CNT] [] [] s (s.stopShown cause) :=
  (((Frame.refl _ _ _ _).setFld _ (by simp [F.SFI_STAT_STATE])).setFld _ (by simp [F.SFI_STAT_STOP_CAUSE])).inc (by simp [F.SFI_STOP_CNT_V])

theorem SafetyStep.mono {rs' es' : List Nat} (h : SafetyStep rs es s t) (hr : rs ⊆ rs' := by simp) (he : es ⊆ es' := by simp) : SafetyStep rs' es' s t :=
  ⟨h.frame.mono hr he (by simp), h.marks, h.pends⟩

theorem safetyStep_safeStop (s : State) (cause : Nat) : SafetyStep [R.SFI_STAT, R.SFI_STOP_CNT] [176] s (s.safeStop cause) := by
  rw [safeStop_eq]
  refine .ite (fun _ => .ite (fun _ => safetyStep_hblTimer s) fun _ => .refl _ _ s) fun _ => .ite (fun _ => ?_) fun _ => safetyStep_tellStop s cause
  exact ((safetyStep_tellStop s cause).regs (frame_stopShown _ cause)).trans (safetyStep_stopBegun _).mono

/-- An order of a living SCP in RUN brings STOP with its cause and source 176. -/
theorem safeStop_run {cause : Nat} (hd : s.scpDead = false) (hr : s.sfiState = stRun) :
    (s.safeStop cause).sfiState = stStop ∧ (s.safeStop cause).fld F.SFI_STAT_STOP_CAUSE = cause % 4 ∧ (s.safeStop cause).pends 176 = true := by
  have hk : (s.tellStop cause).sfiState = stRun := ((safetyStep_tellStop (rs := []) (es := []) s cause).fld (by simp) (by decide)).trans hr
  rw [safeStop_eq, hd, if_neg (by simp), if_pos hk]
  have hstate : ((s.tellStop cause).stopShown cause).fld F.SFI_STAT_STATE = stStop := by
    simp (disch := decide) only [State.stopShown, fld_inc_ne, fld_setFld_apart, fld_setFld_self]; rfl
  have hcause : ((s.tellStop cause).stopShown cause).fld F.SFI_STAT_STOP_CAUSE = cause % 4 := by
    simp (disch := decide) only [State.stopShown, fld_inc_ne, fld_setFld_self]; rfl
  generalize (s.tellStop cause).stopShown cause = v at *
  have h := safetyStep_stopBegun v
  exact ⟨(h.fld (by simp) (by decide)).trans hstate, (h.fld (by simp) (by decide)).trans hcause, pends_raise _ 176 (by decide) (by decide)⟩

/-- An order of SAFE STOP leaves the levels of SFI_STAT that it does not speak of. -/
theorem bit_sfsOk_safeStop (s : State) (cause : Nat) : (s.safeStop cause).bit F.SFI_STAT_SFS_OK = s.bit F.SFI_STAT_SFS_OK := by
  have ht : ∀ v : State, (v.tellStop cause).bit F.SFI_STAT_SFS_OK = v.bit F.SFI_STAT_SFS_OK := fun v =>
    (safetyStep_tellStop (rs := []) (es := []) v cause).bit (by simp) (by decide)
  have hs : ∀ v : State, (v.stopShown cause).bit F.SFI_STAT_SFS_OK = v.bit F.SFI_STAT_SFS_OK := fun v => by
    simp (disch := decide) only [State.stopShown, State.bit, fld_inc_ne, fld_setFld_apart]
  rw [safeStop_eq]
  split_ifs
  · exact (safetyStep_hblTimer (rs := []) (es := []) s).bit (by simp) (by decide)
  · rfl
  · rw [(safetyStep_stopBegun _).bit (by simp) (by decide), hs, ht]
  · exact ht s

/-! ## SFS_OK (R259, R270) -/

theorem safetyStep_singleTech (s : State) : SafetyStep [R.SFI_STAT, R.SFI_STOP_CNT] [176] s s.singleTech :=
  .ite (fun _ => safetyStep_safeStop s 2) fun _ => .refl _ _ s

/-- R270 with the partner's SFS_OK unknown for 64 cycles. -/
theorem singleTech_linkDown64 (hr : s.sfiState = stRun) (hok : s.bit F.SFI_STAT_SFS_OK = false) (h64 : s.sfi.linkDown64 = true) :
    s.singleTech = s.safeStop 2 := by
  simp [State.singleTech, hr, hok, h64]

/-- SFS_OK falls. -/
def State.sfsFall (s : State) : State := (s.setBit F.SFI_STAT_SFS_OK false).refreshReady.raise 181

/-- Without D3, or without the HBL, SFS_OK is low by R259. -/
theorem sfsRefresh_eq (h : s.sfi.d3Lost = true ∨ s.bit F.SFI_STAT_HBL_OK = false) :
    s.sfsRefresh = if s.bit F.SFI_STAT_SFS_OK then s.sfsFall.singleTech else s := by
  have hv : (s.sfi.verified && s.bit F.SFI_STAT_HBL_OK && s.bit F.SFI_STAT_SCP_OK && s.fld F.SFI_STAT_TEST_FAIL == 0 &&
      !s.sys.vsafLost && !s.sfi.d3Lost) = false := by
    cases h with
    | inl h => simp [h]
    | inr h => simp [h]
  unfold State.sfsRefresh
  simp only [hv]
  cases s.bit F.SFI_STAT_SFS_OK <;> rfl

theorem safetyStep_sfsFall (s : State) : SafetyStep [R.SFI_STAT, R.RDU_STAT] [181] s s.sfsFall :=
  have hf : Frame [R.SFI_STAT, R.RDU_STAT] [] [] s (s.setBit F.SFI_STAT_SFS_OK false).refreshReady :=
    ((Frame.refl _ _ _ _).setBit _ (by simp [F.SFI_STAT_SFS_OK])).setBit _ (by simp [F.RDU_STAT_READY])
  ((SafetyStep.refl _ _ s).regs hf).raise

theorem bit_sfsOk_sfsFall (s : State) : s.sfsFall.bit F.SFI_STAT_SFS_OK = false := by
  rw [State.sfsFall, bit_raise _ _ _ (not_mem_evRegs (by decide) _), State.refreshReady, bit_setBit_ne _ _ _ _ (by decide),
    bit_setBit_self _ _ _ (by decide) (by decide)]

theorem sfiState_sfsFall (s : State) : s.sfsFall.sfiState = s.sfiState := by
  simp only [State.sfiState, State.sfsFall, State.refreshReady]
  rw [fld_raise _ _ _ (not_mem_evRegs (by decide) _), fld_setBit_ne _ _ _ _ (by decide), fld_setBit_apart _ _ _ _ (by decide) (by decide)]

theorem bit_sfsOk_singleTech (s : State) : s.singleTech.bit F.SFI_STAT_SFS_OK = s.bit F.SFI_STAT_SFS_OK := by
  obtain h | h : s.singleTech = s.safeStop 2 ∨ s.singleTech = s := ite_eq_or_eq _ _ _
  · rw [h, bit_sfsOk_safeStop]
  · rw [h]

theorem safetyStep_sfsRefresh_low (h : s.sfi.d3Lost = true ∨ s.bit F.SFI_STAT_HBL_OK = false) :
    SafetyStep [R.SFI_STAT, R.RDU_STAT, R.SFI_STOP_CNT] [181, 176] s s.sfsRefresh := by
  rw [sfsRefresh_eq h]
  exact .ite (fun _ => (safetyStep_sfsFall s).mono.trans (safetyStep_singleTech _).mono)
    fun _ => .refl _ _ s

/-- Driven by R259, SFS_OK is then low, with source 181 where it was high. -/
theorem sfsRefresh_low (h : s.sfi.d3Lost = true ∨ s.bit F.SFI_STAT_HBL_OK = false) :
    s.sfsRefresh.bit F.SFI_STAT_SFS_OK = false ∧ (s.bit F.SFI_STAT_SFS_OK = true → s.sfsRefresh.pends 181 = true) := by
  rw [sfsRefresh_eq h]
  cases hb : s.bit F.SFI_STAT_SFS_OK with
  | false => simpa using hb
  | true =>
    simp only [if_true]
    exact ⟨(bit_sfsOk_singleTech _).trans (bit_sfsOk_sfsFall s), fun _ =>
      (safetyStep_singleTech _).pends _ (by decide) (pends_raise _ 181 (by decide) (by decide))⟩

/-- In STOP and BLOCK nothing follows a fall of SFS_OK. -/
theorem sfsRefresh_not_run (h : s.sfi.d3Lost = true ∨ s.bit F.SFI_STAT_HBL_OK = false) (hr : s.sfiState ≠ stRun) :
    s.sfsRefresh = if s.bit F.SFI_STAT_SFS_OK then s.sfsFall else s := by
  have hs : s.sfsFall.singleTech = s.sfsFall := by simp [State.singleTech, sfiState_sfsFall, hr]
  rw [sfsRefresh_eq h, hs]

theorem sfiState_sfsRefresh_low (h : s.sfi.d3Lost = true ∨ s.bit F.SFI_STAT_HBL_OK = false) (hr : s.sfiState ≠ stRun) :
    s.sfsRefresh.sfiState = s.sfiState := by
  rw [sfsRefresh_not_run h hr]
  split
  · exact sfiState_sfsFall s
  · rfl

end Sys2Proof.Machine
end

section
/-! The partner link: training, loss, and the loss that lasts for 64 cycles (R8, R270, R280). -/

namespace Sys2Proof.Machine

variable {fs : List RF} {s t u : State}

/-! ## Ports and roles -/

/-- What the link rules show of the partner link. -/
def linkFields : List RF := [F.PL_STAT_UP, F.PL_STAT_LINK_CHG, F.PL_STAT_SKEW, F.PL_STAT_SKEW_ERR, F.RDU_STAT_PL_UP]

/-- The link's fields with UID_CONF. -/
def confFields : List RF := F.RDU_STAT_UID_CONF :: linkFields

/-- A ring port's status is neither the link's register nor the unit's. -/
theorem phase_clears {n : Nat} (hn : n < 64) : (F.RPU_PORT_STAT_PHASE n).clears confFields := by
  intro g hg
  have hg' : g.addr ≥ 0x380000 := by revert g; decide
  exact .inl (by simp only [F.RPU_PORT_STAT_PHASE, R.RPU_PORT_STAT]; omega)

theorem phase_below {n : Nat} (hn : n < 64) : (F.RPU_PORT_STAT_PHASE n).addr < 0x880000 := by
  simp only [F.RPU_PORT_STAT_PHASE, R.RPU_PORT_STAT]; omega

theorem Keeps.setPort (h : Keeps fs s t) (n : Nat) (p : Port) : Keeps fs s (t.setPort n p) := h.parts

theorem Keeps.setPhase (h : Keeps confFields s t) {n : Nat} (hn : n < 64) (ph : Nat) : Keeps confFields s (t.setPhase n ph) :=
  .ite (fun _ => h) fun _ => (h.setFld _ (phase_clears hn) (phase_below hn)).raiseKey _ _

theorem Keeps.mono {gs : List RF} (h : Keeps fs s t) (hs : gs ⊆ fs) : Keeps gs s t := ⟨fun f hf => h.fields f (hs hf), h.mem, h.pends, h.msgs, h.notes⟩

theorem keeps_endRelays (s : State) : Keeps confFields s s.endRelays := by
  unfold State.endRelays
  extract_lets v
  have h : Keeps confFields s v :=
    .foldl (fun n hn t => .ite (fun _ => ((Keeps.refl _ t).setPort n _).setPhase (List.mem_range.1 hn) _) fun _ => .refl _ _) s
  clear_value v
  exact h.rdu

theorem keeps_holderPorts (s : State) : Keeps confFields s s.holderPorts := by
  unfold State.holderPorts
  refine .foldl (fun n hn t => ?_) s
  have hp : ∀ p, Keeps confFields t (t.setPort n p) := (Keeps.refl _ t).setPort n
  exact .ite (fun _ => hp _) fun _ => (hp _).setPhase (List.mem_range.1 (List.mem_of_mem_filter hn)) _

theorem keeps_endRelay (s : State) {n : Nat} (hn : n < 64) : Keeps confFields s (s.endRelay n) :=
  (((Keeps.refl _ s).setPort n _).setPhase hn _).setPort n _

theorem keeps_setRole (s : State) (r : Nat) : Keeps confFields s (s.setRole r) :=
  ((Keeps.refl _ s).rdu).setFld r

theorem keeps_noteEpoch (s : State) (e : BitVec 32) : Keeps confFields s (s.noteEpoch e) :=
  .ite (fun _ => ((Keeps.refl _ s).wr (a := R.RDU_EPOCH_MAX) e).parts) fun _ => .refl _ _

theorem keeps_refreshReady (s : State) : Keeps confFields s s.refreshReady :=
  (Keeps.refl _ s).setBit _

theorem keeps_setUidConf (s : State) : Keeps linkFields s s.setUidConf :=
  (Keeps.parts (.refl _ s)).setBit true

/-- A refused claim sets UID_CONF; a lease taken leaves it. -/
theorem keeps_takeLease (s : State) : Keeps linkFields s s.takeLease := by
  unfold State.takeLease
  refine .ite (fun _ => .refl _ _) fun _ => ?_
  cases s.newEpoch with
  | none => exact (keeps_setUidConf s).raise 191
  | some e =>
    have h1 := ((keeps_noteEpoch s e).wr (a := R.RDU_EPOCH) e).trans (keeps_setRole _ roleActive)
    have h2 := (h1.setBit (f := F.RDU_STAT_READY) false).setFld (f := F.RDU_STAT_SILENT) 0
    refine ((((Keeps.trans ?_ (keeps_endRelays _)).trans (keeps_holderPorts _)).raise 184)).mono (by simp [confFields])
    exact h2.rdu.parts

theorem keeps_tryClaim (s : State) : Keeps linkFields s s.tryClaim :=
  .ite (fun _ => .ite (fun _ => (keeps_setRole s _).mono (by simp [confFields])) fun _ => .ite (fun _ => keeps_takeLease s) fun _ => .refl _ _)
    fun _ => .refl _ _

/-- A unit with a UID conflict claims nothing. -/
theorem keeps_tryClaim_conf (h : s.bit F.RDU_STAT_UID_CONF = true) : Keeps confFields s s.tryClaim := by
  unfold State.tryClaim
  refine .ite (fun _ => .ite (fun _ => keeps_setRole s _) fun _ => ?_) fun _ => .refl _ _
  simpa [h] using Keeps.refl confFields s

/-! ## What the link shows -/

/-- The registers show a link whose state has changed to `up`, with its skew, and source 186 is pending. -/
structure State.ShowsLink (s : State) (up : Bool) (skew : Nat) : Prop where
  link : s.bit F.PL_STAT_UP = up
  unit : s.bit F.RDU_STAT_PL_UP = up
  changed : s.bit F.PL_STAT_LINK_CHG = true
  value : s.fld F.PL_STAT_SKEW = skew
  source : s.pends 186 = true

theorem State.ShowsLink.keep {up : Bool} {skew : Nat} (h : s.ShowsLink up skew) (k : Keeps linkFields s t) : t.ShowsLink up skew :=
  ⟨(k.bit (by decide)).trans h.link, (k.bit (by decide)).trans h.unit, (k.bit (by decide)).trans h.changed, (k.fields _ (by decide)).trans h.value,
    k.pends _ (by decide) h.source⟩

theorem State.ShowsLink.ofRegs {up : Bool} {skew : Nat} (h : s.ShowsLink up skew) (hr : t.regs = s.regs) : t.ShowsLink up skew :=
  ⟨(bit_of_regs hr _).trans h.link, (bit_of_regs hr _).trans h.unit, (bit_of_regs hr _).trans h.changed, (fld_of_regs hr _).trans h.value,
    (pends_of_regs hr _).trans h.source⟩

/-! ## The link comes up (R280, R8) -/

/-- UP, PL_UP and LINK_CHG at a change of the link's state. -/
def State.linkBits (s : State) (up : Bool) : State := ((s.setBit F.PL_STAT_UP up).setBit F.RDU_STAT_PL_UP up).setBit F.PL_STAT_LINK_CHG true

theorem linkBits_bits (s : State) (up : Bool) :
    (s.linkBits up).bit F.PL_STAT_UP = up ∧ (s.linkBits up).bit F.RDU_STAT_PL_UP = up ∧ (s.linkBits up).bit F.PL_STAT_LINK_CHG = true := by
  simp (disch := decide) only [State.linkBits, bit_setBit_self, bit_setBit_apart, and_self]

theorem keeps_linkBits (s : State) (up : Bool) : Keeps [F.PL_STAT_SKEW, F.PL_STAT_SKEW_ERR] s (s.linkBits up) :=
  (((Keeps.refl _ s).setBit up).setBit up).setBit true

/-- What begins anew with the link: the runs of mirrors and sweeps, and the time without a link. -/
def State.linkAnew (s : State) : State :=
  { s with rdu := { s.rdu with mirOk := 0, swept := [] }, sfi := { s.sfi with linkDown64 := false } }

/-- Every port forgets what the partner's link told of its tails. -/
def State.tailsForgot (s : State) : State :=
  (List.range 64).foldl (fun s n => s.setPort n { s.port n with partnerTail := false, noTail := none, cut := false }) s

/-- Training has ended: the link shows UP with its skew. -/
def State.linkTrained (s : State) (skew : Nat) : State := ((((s.linkBits true).linkAnew).setFld F.PL_STAT_SKEW skew).raise 186).tailsForgot

/-- The strap of the partner, read at the end of training (R8). -/
def State.strapCheck (s : State) (partnerUid : Bool) : State :=
  if partnerUid == s.sys.uid then
    if s.sys.strapConf then s
    else ((({ s with sys := { s.sys with strapConf := true } } : State).setBit F.RDU_STAT_UID_CONF true).sendFco 0 0 4 0x01 none none).raise 191
  else ({ s with sys := { s.sys with strapConf := false } } : State).setBit F.RDU_STAT_UID_CONF (s.sys.uidConf || s.sys.uidEnum)

theorem linkUp_of_trained {skew : Nat} (hup : s.bit F.PL_STAT_UP = false) (hl : s.fld F.PL_STAT_LANE_LOCK = 0xF) (hs : skew ≤ 8)
    (hok : 16 ≤ s.rdu.pOk) (uid : Bool) : s.linkUp skew uid = ((s.linkTrained skew).strapCheck uid).tryClaim := by
  have hc : (s.bit F.PL_STAT_UP || s.fld F.PL_STAT_LANE_LOCK != 0xF || decide (8 < skew) || decide (s.rdu.pOk < 16)) = false := by
    simp [hup, hl]; omega
  rw [State.linkUp, if_neg (by simp [hc])]
  rfl

theorem linkUp_of_not_trained {skew : Nat}
    (h : ¬ (s.bit F.PL_STAT_UP = false ∧ s.fld F.PL_STAT_LANE_LOCK = 0xF ∧ skew ≤ 8 ∧ 16 ≤ s.rdu.pOk)) (uid : Bool) : s.linkUp skew uid = s := by
  refine if_pos ?_
  by_contra hc
  simp at hc
  exact h ⟨hc.1.1.1, hc.1.1.2, hc.1.2, hc.2⟩

theorem keeps_linkAnew (s : State) : Keeps linkFields s s.linkAnew := .parts (.refl _ _)

theorem keeps_tailsForgot (s : State) : Keeps linkFields s s.tailsForgot := .foldl (fun n _ t => (Keeps.refl _ t).setPort n _) s

/-- What stands once training has ended. -/
theorem linkTrained_shows (s : State) (skew : Fin 16) : (s.linkTrained skew).ShowsLink true skew ∧ Keeps [] s (s.linkTrained skew) := by
  obtain ⟨h1, h2, h3⟩ := linkBits_bits s true
  have hs := fld_setFld_self (s.linkBits true).linkAnew F.PL_STAT_SKEW skew (by decide)
  have k2 := ((keeps_linkAnew (s.linkBits true)).mono (gs := [F.PL_STAT_UP, F.RDU_STAT_PL_UP, F.PL_STAT_LINK_CHG]) (by simp [linkFields])).setFld
    (f := F.PL_STAT_SKEW) skew
  rw [Nat.mod_eq_of_lt (show skew.val < 2 ^ F.PL_STAT_SKEW.w from skew.isLt)] at hs
  have kt := ((keeps_linkBits s true).mono (gs := []) (by simp)).trans (k2.mono (by simp))
  unfold State.linkTrained
  generalize (s.linkBits true).linkAnew.setFld F.PL_STAT_SKEW skew = v at *
  have k3 : Keeps linkFields v (v.raise 186) := (Keeps.refl _ v).raise 186
  have hshow : (v.raise 186).ShowsLink true skew :=
    ⟨(k3.bit (by decide)).trans ((k2.bit (by decide)).trans h1), (k3.bit (by decide)).trans ((k2.bit (by decide)).trans h2),
      (k3.bit (by decide)).trans ((k2.bit (by decide)).trans h3), (k3.fields _ (by decide)).trans hs, pends_raise v 186 (by decide) (by decide)⟩
  exact ⟨hshow.keep (keeps_tailsForgot _), kt.trans ((k3.trans (keeps_tailsForgot _)).mono (by simp))⟩

/-- The strap check notes the conflict, and shows and reports a new one. -/
theorem strapCheck_spec (s : State) (uid : Bool) :
    Keeps linkFields { s with sys := { s.sys with strapConf := decide (uid = s.sys.uid) } } (s.strapCheck uid) ∧
      (uid = s.sys.uid → s.sys.strapConf = false → (s.strapCheck uid).bit F.RDU_STAT_UID_CONF = true ∧ Sent 0x01 s (s.strapCheck uid) ∧
        (s.strapCheck uid).pends 191 = true) := by
  unfold State.strapCheck
  by_cases hu : uid = s.sys.uid
  · by_cases hc : s.sys.strapConf = true
    · simp only [hu, hc, beq_self_eq_true, if_true, decide_true]
      exact ⟨(Keeps.refl _ _).parts (hn := by simp only [State.notes, hc]), fun _ h => by simp at h⟩
    · simp only [hu, hc, beq_self_eq_true, if_true, decide_true]
      obtain ⟨v, hv⟩ : ∃ v : State, v = { s with sys := { s.sys with strapConf := true } } := ⟨_, rfl⟩
      rw [← hv]
      have hb := bit_setBit_self v F.RDU_STAT_UID_CONF true (by decide) (by decide)
      have k : Keeps linkFields v (v.setBit F.RDU_STAT_UID_CONF true) := (Keeps.refl _ v).setBit true
      have hm : (v.setBit F.RDU_STAT_UID_CONF true).fco = s.fco := by rw [hv]; rfl
      generalize v.setBit F.RDU_STAT_UID_CONF true = w at *
      have kw : Keeps confFields w ((w.sendFco 0 0 4 0x01 none none).raise 191) := ((Keeps.refl _ w).sendFco 0 0 4 0x01 none none).raise 191
      refine ⟨k.trans (kw.mono (by simp [confFields])), fun _ _ => ⟨(kw.bit (by decide)).trans hb, ?_, pends_raise _ 191 (by decide) (by decide)⟩⟩
      have hs : Sent 0x01 s (w.sendFco 0 0 4 0x01 none none) := by
        simpa only [Sent, hm] using sent_sendFco w 0 0 4 0x01 none none
      exact ((Keeps.refl linkFields _).raise 191).sentThen hs
  · simp only [hu, beq_iff_eq, if_false, decide_false]
    exact ⟨(Keeps.refl _ _).setBit _, fun h => absurd h (by simp)⟩

/-- A trained link rises: the link shows, and a strap conflict as well. -/
theorem linkUp_spec {skew : Fin 16} (hup : s.bit F.PL_STAT_UP = false) (hl : s.fld F.PL_STAT_LANE_LOCK = 0xF) (hs : skew.val ≤ 8)
    (hok : 16 ≤ s.rdu.pOk) (uid : Bool) :
    (s.linkUp skew uid).ShowsLink true skew ∧ SameMem s (s.linkUp skew uid) ∧ (s.linkUp skew uid).sys.strapConf = decide (uid = s.sys.uid) ∧
      (uid = s.sys.uid → s.sys.strapConf = false → (s.linkUp skew uid).bit F.RDU_STAT_UID_CONF = true ∧ Sent 0x01 s (s.linkUp skew uid) ∧
        (s.linkUp skew uid).pends 191 = true) := by
  rw [linkUp_of_trained hup hl hs hok]
  obtain ⟨hshow, k1⟩ := linkTrained_shows s skew
  generalize s.linkTrained skew = v at *
  obtain ⟨k2, hconf⟩ := strapCheck_spec v uid
  rw [k1.uid, k1.strapConf] at hconf
  obtain ⟨v', hv'⟩ : ∃ v' : State, v' = { v with sys := { v.sys with strapConf := decide (uid = v.sys.uid) } } := ⟨_, rfl⟩
  have hr : v'.regs = v.regs := by rw [hv']
  have hm : v'.mem = v.mem := by rw [hv']
  have hn : v'.sys.strapConf = decide (uid = s.sys.uid) := by rw [hv', ← k1.uid]
  rw [← hv'] at k2
  clear hv'
  generalize v.strapCheck uid = w at *
  have k3 := keeps_tryClaim w
  refine ⟨((hshow.ofRegs hr).keep k2).keep k3, fun a => (k3.mem a).trans ((k2.mem a).trans ((mb_of_mem hm a).trans (k1.mem a))),
    k3.strapConf.trans (k2.strapConf.trans hn), fun hu hc => ?_⟩
  obtain ⟨hb, hsent, hp⟩ := hconf hu hc
  exact ⟨((keeps_tryClaim_conf hb).bit (by decide)).trans hb, k1.sentSince (k3.sentThen hsent), k3.pends _ (by decide) hp⟩

/-! ## The link goes down (R280) -/

/-- What ends with the link: the runs of good and bad frames, mirrors and sweeps; the time of its loss is noted. -/
def State.linkOff (s : State) : State :=
  { s with rdu := { s.rdu with linkDownAt := s.mono, pOk := 0, pBad := 0, mirOk := 0, swept := [], readySince := none, mirIn := [] } }

/-- A relaying port stops, and its ring is cut off. -/
def State.relayCut (s : State) (n : Nat) : State :=
  if (s.port n).relaying then let s := s.endRelay n; s.setPort n { s.port n with cut := true } else s

theorem linkLower_eq (s : State) :
    s.linkLower = (((((List.range 64).foldl State.relayCut (s.linkBits false).linkOff)).refreshReady).raise 186).sendFco 0 0 4 0x05 none none := rfl

theorem keeps_relayCut (s : State) {n : Nat} (hn : n < 64) : Keeps confFields s (s.relayCut n) :=
  .ite (fun _ => (keeps_endRelay s hn).setPort n _) fun _ => .refl _ _

/-- A link that goes down shows it, notes the time, and reports with source 186 and kind 0x05. -/
theorem linkLower_spec (s : State) :
    s.linkLower.ShowsLink false (s.fld F.PL_STAT_SKEW) ∧ s.linkLower.bit F.PL_STAT_SKEW_ERR = s.bit F.PL_STAT_SKEW_ERR ∧
      s.linkLower.rdu.linkDownAt = s.mono ∧ Sent 0x05 s s.linkLower ∧ SameMem s s.linkLower := by
  rw [linkLower_eq]
  obtain ⟨h1, h2, h3⟩ := linkBits_bits s false
  have k1 := keeps_linkBits s false
  have hm : (s.linkBits false).linkOff.rdu.linkDownAt = s.mono := rfl
  have hr : (s.linkBits false).linkOff.regs = (s.linkBits false).regs := rfl
  have hf : (s.linkBits false).linkOff.fco = s.fco := rfl
  have hmem : SameMem s (s.linkBits false).linkOff := fun _ => rfl
  generalize (s.linkBits false).linkOff = v at *
  have k2 : Keeps confFields v (((List.range 64).foldl State.relayCut v).refreshReady) :=
    (Keeps.foldl (fun n hn t => keeps_relayCut t (List.mem_range.1 hn)) v).trans (keeps_refreshReady _)
  generalize ((List.range 64).foldl State.relayCut v).refreshReady = w at *
  have k3 := k2.raise 186
  have k4 : Keeps confFields (w.raise 186) ((w.raise 186).sendFco 0 0 4 0x05 none none) := (Keeps.refl _ _).sendFco 0 0 4 0x05 none none
  have k := k3.trans k4
  have hsent := k3.sentSince (sent_sendFco (w.raise 186) 0 0 4 0x05 none none)
  have hp := k4.pends _ (by decide) (pends_raise w 186 (by decide) (by decide))
  generalize (w.raise 186).sendFco 0 0 4 0x05 none none = z at *
  refine ⟨⟨?_, ?_, ?_, ?_, hp⟩, ?_, k.linkDownAt.trans hm, ?_, fun a => (k.mem a).trans (hmem a)⟩
  · rw [k.bit (by decide), bit_of_regs hr, h1]
  · rw [k.bit (by decide), bit_of_regs hr, h2]
  · rw [k.bit (by decide), bit_of_regs hr, h3]
  · rw [k.fields _ (by decide), fld_of_regs hr, k1.fields _ (by decide)]
  · rw [k.bit (by decide), bit_of_regs hr, k1.bit (by decide)]
  · simpa only [Sent, hf] using hsent

/-- The skew found, before the link is judged. -/
def State.skewFound (s : State) (skew : Nat) : State :=
  let s := s.setFld F.PL_STAT_SKEW skew
  if 8 < skew then s.setBit F.PL_STAT_SKEW_ERR true else s

theorem skewFound_spec (s : State) (skew : Fin 16) :
    (s.skewFound skew).fld F.PL_STAT_SKEW = skew ∧ (8 < skew.val → (s.skewFound skew).bit F.PL_STAT_SKEW_ERR = true) ∧
      Keeps [F.PL_STAT_UP, F.PL_STAT_LANE_LOCK] s (s.skewFound skew) := by
  have hs := fld_setFld_self s F.PL_STAT_SKEW skew (by decide)
  rw [Nat.mod_eq_of_lt (show skew.val < 2 ^ F.PL_STAT_SKEW.w from skew.isLt)] at hs
  have k : Keeps [F.PL_STAT_UP, F.PL_STAT_LANE_LOCK] s (s.setFld F.PL_STAT_SKEW skew) := (Keeps.refl _ s).setFld _
  unfold State.skewFound
  by_cases h8 : 8 < skew.val
  · simp only [h8, if_true]
    exact ⟨by rw [fld_setBit_apart _ _ _ _ (by decide) (by decide), hs], fun _ => bit_setBit_self _ _ _ (by decide) (by decide), k.setBit _⟩
  · simp only [h8, if_false]
    exact ⟨hs, fun h => absurd h (by simp), k⟩

/-- The skew goes into registers alone. -/
theorem skewFound_parts (s : State) (skew : Nat) :
    (s.skewFound skew).tc = s.tc ∧ (s.skewFound skew).rdu = s.rdu ∧ (s.skewFound skew).mono = s.mono := by
  unfold State.skewFound
  simp only
  split <;> exact ⟨rfl, rfl, rfl⟩

theorem linkDown_of_lost {skew : Fin 16} (hup : s.bit F.PL_STAT_UP = true)
    (hl : s.fld F.PL_STAT_LANE_LOCK ≠ 0xF ∨ 8 < skew.val ∨ 2 ≤ s.rdu.pBad ∨ s.rdu.pOkAt + 2 * s.tc < s.mono) :
    s.linkDown skew = (s.skewFound skew).linkLower := by
  obtain ⟨-, -, hk⟩ := skewFound_spec s skew
  obtain ⟨htc, hrdu, hmono⟩ := skewFound_parts s skew
  refine if_pos (show ((s.skewFound skew).bit F.PL_STAT_UP && (decide (8 < skew.val) || (s.skewFound skew).linkBad)) = true from ?_)
  rw [State.linkBad, hk.bit (by decide), hk.fields _ (by decide), htc, hrdu, hmono, hup]
  simp only [Bool.true_and, Bool.or_eq_true, decide_eq_true_eq, bne_iff_ne]
  tauto

/-- A link that is lost goes down with the skew found. -/
theorem linkDown_spec {skew : Fin 16} (hup : s.bit F.PL_STAT_UP = true)
    (hl : s.fld F.PL_STAT_LANE_LOCK ≠ 0xF ∨ 8 < skew.val ∨ 2 ≤ s.rdu.pBad ∨ s.rdu.pOkAt + 2 * s.tc < s.mono) :
    (s.linkDown skew).ShowsLink false skew ∧ (8 < skew.val → (s.linkDown skew).bit F.PL_STAT_SKEW_ERR = true) ∧
      (s.linkDown skew).rdu.linkDownAt = s.mono ∧ Sent 0x05 s (s.linkDown skew) ∧ SameMem s (s.linkDown skew) := by
  rw [linkDown_of_lost hup hl]
  obtain ⟨hv, herr, hk⟩ := skewFound_spec s skew
  obtain ⟨-, -, hmono⟩ := skewFound_parts s skew
  generalize s.skewFound skew = v at *
  obtain ⟨h, he, hat, hsent, hm⟩ := linkLower_spec v
  exact ⟨hv ▸ h, fun h8 => he.trans (herr h8), hat.trans hmono, hk.sentSince hsent, fun a => (hm a).trans (hk.mem a)⟩

/-! ## A link down for 64 cycles (R270) -/

/-- The link has been down for 64 cycles. -/
def State.linkGone (s : State) : State := { s with sfi := { s.sfi with linkDown64 := true } }

/-- Settles O34: the link rises when training ends, falls where a condition of R280 fails, and a fall of 64 cycles brings SAFE STOP. -/
theorem linkStateFollowsTraining : Obligations.LinkStateFollowsTraining := by
  unfold Obligations.LinkStateFollowsTraining
  intro s time skew uid
  refine ⟨fun hs ht => ?_, fun hs ht => ?_, fun hs hup hl => ?_, fun hs hup h64 => ?_⟩
  · obtain ⟨hup, hl, hsk, hok⟩ := ht
    obtain ⟨h, hm, hc, hconf⟩ := linkUp_spec (s := s.tick time) hup hl hsk hok uid
    exact ⟨_, congrArg Host.Outcome.next (onDie_live s time _ hs), h.link, h.unit, h.changed, h.value, h.source, hm, hc, hconf⟩
  · exact congrArg Host.Outcome.next ((onDie_live s time _ hs).trans (linkUp_of_not_trained (s := s.tick time) ht uid))
  · obtain ⟨h, herr, hat, hsent, hm⟩ := linkDown_spec (s := s.tick time) hup hl
    exact ⟨_, congrArg Host.Outcome.next (onDie_live s time _ hs), h.link, h.unit, h.changed, h.value, herr, hat, h.source, hsent, hm⟩
  · have hc : (!(s.tick time).bit F.PL_STAT_UP && decide ((s.tick time).rdu.linkDownAt + 64 * (s.tick time).tc ≤ (s.tick time).mono)) = true := by
      exact Bool.and_eq_true_iff.2 ⟨by rw [tick_bit, hup]; rfl, decide_eq_true h64⟩
    have he : exec (.partnerLinkDown64 time) s = .next (s.tick time).linkGone.singleTech :=
      congrArg Host.Outcome.next ((onDie_live s time _ hs).trans (if_pos hc))
    have hst := safetyStep_singleTech (s.tick time).linkGone
    refine ⟨_, he, congrArg (·.1) hst.marks, hst.mem, fun hr hok hd => ?_⟩
    rw [singleTech_linkDown64 (s := (s.tick time).linkGone) hr hok rfl]
    exact safeStop_run (s := (s.tick time).linkGone) hd hr

end Sys2Proof.Machine
end

section
/-! Loss of supplies and pins that hold the die (R20, R66, R258, R268, R397, R399, R409): the forced idle of the transmitters, the HBL's own
watch, what a loss of power cuts off, and SAFE BLOCK on loss of D9. -/

namespace Sys2Proof.Machine

variable {fs : List RF} {rs es ks : List Nat} {s t u : State}

/-! ## Forced idle (R66) -/

/-- Lane `l` shows the forced idle. -/
def State.laneIdle (s : State) (l : Nat) : Prop :=
  s.bit (F.LPH_LANE_STAT_HBL_IDLE l) = true ∧ s.bit (F.LPH_LANE_STAT_TX_ACTIVE l) = false ∧ s.bit (F.LPH_LANE_STAT_INJECT l) = false

/-- A lane goes to the forced idle. -/
def State.idleLane (s : State) (l : Nat) : State := (s.setBit (F.LPH_LANE_STAT_HBL_IDLE l) true).txStop l

/-- The HBL notes its order of forced idle. -/
def State.idleNoted (s : State) : State := { s with sfi := { s.sfi with hblIdle := true } }

theorem hblIdleAll_eq (s : State) : s.hblIdleAll = ((List.range 72).filter isGimen).foldl State.idleLane s.idleNoted := rfl

theorem laneStat_inj {l m : Nat} (h : R.LPH_LANE_STAT l = R.LPH_LANE_STAT m) : l = m := by
  simp only [R.LPH_LANE_STAT] at h; omega

/-- Bits of one register. -/
theorem bit_setBit_at (s : State) (a : Nat) {i j : Nat} (b : Bool) (hi : i < 32) (h : j ≠ i) : (s.setBit ⟨a, j, 1⟩ b).bit ⟨a, i, 1⟩ = s.bit ⟨a, i, 1⟩ :=
  bit_setBit_apart _ _ _ _ (by simp only [RF.ok]; omega) (by simp only [RF.apart]; omega)

theorem bit_setBit_at_self (s : State) (a : Nat) {i : Nat} (b : Bool) (hi : i < 32) : (s.setBit ⟨a, i, 1⟩ b).bit ⟨a, i, 1⟩ = b :=
  bit_setBit_self _ _ _ (by simp only [RF.ok]; omega) rfl

theorem laneIdle_idleLane (s : State) (l : Nat) : (s.idleLane l).laneIdle l := by
  simp (disch := decide) only [State.laneIdle, State.idleLane, State.txStop, F.LPH_LANE_STAT_HBL_IDLE, F.LPH_LANE_STAT_TX_ACTIVE,
    F.LPH_LANE_STAT_INJECT, bit_setBit_at, bit_setBit_at_self, and_self]

theorem frame_idleLane (s : State) (l : Nat) : Frame [R.LPH_LANE_STAT l] [] [] s (s.idleLane l) :=
  (((Frame.refl _ _ _ _).setBit _ (by simp [F.LPH_LANE_STAT_HBL_IDLE])).setBit _ (by simp [F.LPH_LANE_STAT_TX_ACTIVE])).setBit _
    (by simp [F.LPH_LANE_STAT_INJECT])

/-- The forced idle of a lane is read from its status register. -/
theorem laneIdle_of_rd {l : Nat} (h : t.rd (R.LPH_LANE_STAT l) = s.rd (R.LPH_LANE_STAT l)) (hs : s.laneIdle l) : t.laneIdle l := by
  simpa only [State.laneIdle, State.bit, State.fld, F.LPH_LANE_STAT_HBL_IDLE, F.LPH_LANE_STAT_TX_ACTIVE, F.LPH_LANE_STAT_INJECT, h] using hs

/-- A fold whose step at `x` brings `P x` about and whose other steps keep it. -/
theorem foldl_establishes {f : State → Nat → State} {P : Nat → State → Prop} (hself : ∀ s x, P x (f s x)) (hkeep : ∀ s x y, y ≠ x → P x s → P x (f s y)) :
    ∀ (l : List Nat) (s : State) (x : Nat), x ∈ l ∨ P x s → P x (l.foldl f s)
  | [], s, x, h => h.elim (fun hx => absurd hx (by simp)) id
  | y :: l, s, x, h => by
    refine foldl_establishes hself hkeep l (f s y) x ?_
    by_cases hxy : y = x
    · exact .inr (hxy ▸ hself s y)
    · exact h.imp (fun hx => (List.mem_cons.1 hx).resolve_left fun e => hxy e.symm) fun hp => hkeep s x y hxy hp

theorem hblIdle_hblIdleAll (s : State) : s.hblIdleAll.HblIdle := fun l hl hg => by
  rw [hblIdleAll_eq]
  refine foldl_establishes (P := fun l s => s.laneIdle l) laneIdle_idleLane (fun s x y hne hp => ?_) _ _ l
    (.inl (List.mem_filter.2 ⟨List.mem_range.2 hl, hg⟩))
  exact laneIdle_of_rd ((frame_idleLane s y).regs _ (by simpa using fun e => hne (laneStat_inj e).symm) (by simp)) hp

/-- The status registers of the lanes. -/
abbrev laneStats : List Nat := (List.range 72).map R.LPH_LANE_STAT

theorem frame_hblIdleAll (s : State) : Frame laneStats [] [] s.idleNoted s.hblIdleAll := by
  rw [hblIdleAll_eq]
  refine (Frame.refl _ _ _ _).foldl fun v l hl h => h.trans ((frame_idleLane v l).mono ?_ (by simp) (by simp))
  simpa [laneStats] using ⟨l, List.mem_range.1 (List.mem_of_mem_filter hl), rfl⟩

/-! ## The HBL's watch (R268) -/

/-- What the HBL's demands are read from. -/
def SfiSt.watched (f : SfiSt) : Sparse (BitVec 32) × BitVec 8 × BitVec 8 × BitVec 8 × Bool := (f.hblPar, f.aAct, f.bAct, f.disc, f.d9Lost)

theorem hblWants_of_watched (h : t.sfi.watched = s.sfi.watched) (p : Nat) : t.hblWants p = s.hblWants p := by
  simp only [SfiSt.watched, Prod.mk.injEq] at h
  obtain ⟨hp, ha, hb, hd, -⟩ := h
  simp only [State.hblWants, State.hblDemands, State.hblWord, hp, ha, hb, hd]

theorem hblAct_eq (s : State) (p : Nat) :
    ∃ f : SfiSt, s.hblAct p = { s with sfi := f } ∧ f.watched = s.sfi.watched ∧ f.hblOrder = (s.sfi.hblOrder || s.hblWants p) := by
  unfold State.hblAct State.hblTimer State.hblWants State.hblBlock
  split_ifs with h2 h1 hs
  · exact ⟨_, rfl, rfl, by simp [h2]⟩
  all_goals exact ⟨_, rfl, rfl, by simp [h2]⟩

theorem foldl_hblAct_eq (l : List Nat) (s : State) :
    ∃ f : SfiSt, l.foldl State.hblAct s = { s with sfi := f } ∧ f.watched = s.sfi.watched ∧ f.hblOrder = (s.sfi.hblOrder || l.any s.hblWants) := by
  induction l generalizing s with
  | nil => exact ⟨s.sfi, rfl, rfl, by simp⟩
  | cons p l ih =>
    obtain ⟨f, hf, hw, ho⟩ := hblAct_eq s p
    obtain ⟨g, hg, hw', ho'⟩ := ih (s.hblAct p)
    have hwants : (s.hblAct p).hblWants = s.hblWants := funext fun q => hblWants_of_watched (by rw [hf]; exact hw) q
    rw [hwants] at ho'
    rw [hf] at hg hw' ho'
    exact ⟨g, by rw [List.foldl_cons, hf, hg], hw'.trans hw, by rw [ho', ho, List.any_cons, Bool.or_assoc]⟩

/-- The HBL watches its inputs: nothing but its own order and timer changes. -/
theorem hblWatch_eq (s : State) :
    ∃ f : SfiSt, s.hblWatch = { s with sfi := f } ∧ f.watched = s.sfi.watched ∧ f.hblOrder = (s.sfi.hblOrder || (List.range 8).any s.hblWants) :=
  foldl_hblAct_eq _ s

/-! ## Loss of D3 (R20, R269) -/

theorem sfi_hblIdleAll (s : State) : s.hblIdleAll.sfi = { s.sfi with hblIdle := true } := (frame_hblIdleAll s).sfi

/-- D3 is gone. -/
def State.d3Gone (s : State) : State := { s with sfi := { s.sfi with d3Lost := true } }

/-- A step outside the safety unit's parts, and one of the safety unit. -/
theorem Frame.thenSafety {rs' : List Nat} {f : SfiSt} (h : Frame rs [] [] { s with sfi := f } t) (h' : SafetyStep rs' es t u) :
    Frame (rs' ++ rs) es [] { s with sfi := u.sfi, drc := u.drc } u :=
  Frame.trans ((h.withSafety u.sfi u.drc).mono (List.subset_append_right _ _) (by simp) (by simp))
    (h'.frame.mono (List.subset_append_left _ _) (List.Subset.refl _) (List.Subset.refl _))

theorem d3Lost_d3Idle (s : State) : s.d3Gone.hblIdleAll.sfi.d3Lost = true := by rw [sfi_hblIdleAll]; rfl

theorem frame_d3Loss (s : State) :
    Frame ([R.SFI_STAT, R.RDU_STAT, R.SFI_STOP_CNT] ++ laneStats) [181, 176] []
      { s with sfi := s.d3Gone.hblIdleAll.sfsRefresh.sfi, drc := s.d3Gone.hblIdleAll.sfsRefresh.drc } s.d3Gone.hblIdleAll.sfsRefresh :=
  Frame.thenSafety (show Frame laneStats [] [] { s with sfi := { s.d3Gone.sfi with hblIdle := true } } _ from frame_hblIdleAll s.d3Gone)
    (safetyStep_sfsRefresh_low (.inl (d3Lost_d3Idle s)))

/-- The lanes' status is none of the safety unit's. -/
theorem SafetyStep.hblIdle (h : SafetyStep [R.SFI_STAT, R.RDU_STAT, R.SFI_STOP_CNT] es s t) (hs : s.HblIdle) : t.HblIdle := fun l hl hg =>
  laneIdle_of_rd (h.frame.regs _ (by simp only [R.LPH_LANE_STAT, R.SFI_STAT, R.RDU_STAT, R.SFI_STOP_CNT, List.mem_cons, List.not_mem_nil, or_false]; omega)
    fun n _ => not_mem_evRegs (by simp only [R.LPH_LANE_STAT]; omega) n) (hs l hl hg)

theorem SafetyStep.d3Lost (h : SafetyStep rs es s t) : t.sfi.d3Lost = s.sfi.d3Lost := congrArg (·.2.1) h.marks
theorem SafetyStep.d9Lost (h : SafetyStep rs es s t) : t.sfi.d9Lost = s.sfi.d9Lost := congrArg (·.2.2.1) h.marks

/-- Where D3 is lost, SFS_OK is driven low, with source 181 where it was high, and the forced idle stays. -/
theorem sfsRefresh_noD3 (h : s.sfi.d3Lost = true) (hi : s.HblIdle) :
    s.sfsRefresh.sfi.d3Lost = true ∧ s.sfsRefresh.HblIdle ∧ s.sfsRefresh.bit F.SFI_STAT_SFS_OK = false ∧
      (s.bit F.SFI_STAT_SFS_OK = true → s.sfsRefresh.pends 181 = true) :=
  have hstep := safetyStep_sfsRefresh_low (.inl h)
  ⟨hstep.d3Lost.trans h, hstep.hblIdle hi, sfsRefresh_low (.inl h)⟩

theorem bit_sfsOk_d3Idle (s : State) : s.d3Gone.hblIdleAll.bit F.SFI_STAT_SFS_OK = s.bit F.SFI_STAT_SFS_OK :=
  (frame_hblIdleAll s.d3Gone).bit (by decide) (by decide)

/-! ## Loss of D9 (R409) -/

theorem keeps_apwAll (s : State) : Keeps fs s s.apwAll := .foldl (fun _ _ t => (Keeps.refl fs t).parts) s

theorem keeps_injectLane (s : State) (on : Bool) {l : Nat} (hl : l < 64) : Keeps [F.SFI_STAT_STATE] s (s.injectLane on l) := by
  have hlane : ∀ f : RF, f.addr = R.LPH_LANE_STAT l → f.clears [F.SFI_STAT_STATE] ∧ f.addr < 0x880000 := fun f hf => by
    rw [hf]
    refine ⟨fun g hg => .inl ?_, by simp only [R.LPH_LANE_STAT]; omega⟩
    rw [List.mem_singleton.1 hg, hf]
    simp only [F.SFI_STAT_STATE, R.SFI_STAT, R.LPH_LANE_STAT]; omega
  obtain ⟨hi, hib⟩ := hlane (F.LPH_LANE_STAT_INJECT l) rfl
  obtain ⟨ha, hab⟩ := hlane (F.LPH_LANE_STAT_TX_ACTIVE l) rfl
  have h1 : Keeps [F.SFI_STAT_STATE] s ((s.txUpTo l).setBit (F.LPH_LANE_STAT_INJECT l) on) := ((Keeps.refl _ s).parts (u := s.txUpTo l)).setBit on hi hib
  exact .ite (fun _ => .ite (fun _ => (h1.setBit _ ha hab).setBit _ hi hib) fun _ => h1) fun _ => .refl _ s

theorem keeps_injectAll (s : State) (on : Bool) : Keeps [F.SFI_STAT_STATE] s (s.injectAll on) :=
  .foldl (fun _ hl t => keeps_injectLane t on (List.mem_range.1 hl)) s

theorem keeps_armsOff (s : State) : Keeps [F.SFI_STAT_STATE] s s.armsOff := by
  refine .foldl (fun m hm t => ?_) s
  have := List.mem_range.1 hm
  refine (Keeps.refl _ t).setBit _ (fun g hg => .inl ?_) (by simp only [F.MDU_ARM_CTL_RUN, R.MDU_ARM_CTL]; omega)
  rw [List.mem_singleton.1 hg]
  simp only [F.SFI_STAT_STATE, R.SFI_STAT, F.MDU_ARM_CTL_RUN, R.MDU_ARM_CTL]; omega

/-- BLOCK as the registers show it. -/
def State.blockShown (s : State) (cause : Nat) : State :=
  (((s.setFld F.SFI_STAT_STATE stBlock).setFld F.SFI_STAT_BLK_CAUSE cause).setBit F.SFI_STAT_INJ true).inc F.SFI_BLOCK_CNT_V

/-- What the unit does at an entry to BLOCK. -/
def State.blockBegun (s : State) : State := (((s.injectAll true).armsOff.safetyHit 1).raise 177).apwAll

/-- What the HBL takes from an order of SAFE BLOCK. -/
def State.hblTold (s : State) (cause : Nat) : State :=
  { s with sfi := { s.sfi with hblStop := none, hblOrder := s.sfi.hblOrder || cause == 1 || cause == 3 } }

/-- The order that goes to the partner (R271). -/
def State.tellBlock (s : State) (cause : Nat) : State := if cause = 1 then s else { s with sfi := { s.sfi with sendBlock := true } }

theorem blockNow_eq (s : State) (cause : Nat) : s.blockNow cause =
    if (s.hblTold cause).sfiState = stBlock then
      if (s.hblTold cause).bit F.SFI_STAT_INJ then (s.hblTold cause).tellBlock cause
      else ((((s.hblTold cause).tellBlock cause).setBit F.SFI_STAT_INJ true).setFld F.SFI_STAT_BLK_CAUSE cause).injectAll true
    else ((((s.hblTold cause).tellBlock cause).apwAll).blockShown cause).blockBegun := rfl

theorem keeps_tellBlock (s : State) (cause : Nat) : Keeps fs s (s.tellBlock cause) := .ite (fun _ => .refl _ s) fun _ => (Keeps.refl _ s).sfi

theorem keeps_hblTold (s : State) (cause : Nat) : Keeps fs s (s.hblTold cause) := (Keeps.refl _ s).sfi

theorem keeps_safetyHit (s : State) (a : Nat) : Keeps fs s (s.safetyHit a) := .parts (.refl _ s)

theorem keeps_blockBegun (s : State) : Keeps [F.SFI_STAT_STATE] s s.blockBegun := by
  have h := (keeps_injectAll s true).trans (keeps_armsOff _)
  exact ((h.trans (keeps_safetyHit _ 1)).raise 177).trans (keeps_apwAll _)

theorem keeps_blockShown (s : State) (cause : Nat) : Keeps [] s (s.blockShown cause) :=
  ((((Keeps.refl _ s).setFld _).setFld _).setBit _).setFld _

theorem sfiState_blockShown (s : State) (cause : Nat) : (s.blockShown cause).sfiState = stBlock := by
  simp (disch := decide) only [State.sfiState, State.blockShown, fld_inc_ne, fld_setBit_apart, fld_setFld_apart, fld_setFld_self]
  rfl

/-- SAFE BLOCK is in force after its order, and memory stays. -/
theorem blockNow_spec (s : State) (cause : Nat) : (s.blockNow cause).sfiState = stBlock ∧ Keeps [] s (s.blockNow cause) := by
  have h0 : Keeps [F.SFI_STAT_STATE] s ((s.hblTold cause).tellBlock cause) := (keeps_hblTold s cause).trans (keeps_tellBlock _ cause)
  have hs : (s.hblTold cause).sfiState = s.sfiState := rfl
  rw [blockNow_eq]
  split_ifs with hb hi
  · exact ⟨(h0.fields _ (by decide)).trans (hs.symm.trans hb), h0.mono (by simp)⟩
  · have h1 := ((h0.setBit (f := F.SFI_STAT_INJ) true).setFld (f := F.SFI_STAT_BLK_CAUSE) cause).trans (keeps_injectAll _ true)
    exact ⟨(h1.fields _ (by decide)).trans (hs.symm.trans hb), h1.mono (by simp)⟩
  · have h1 := keeps_blockBegun (((s.hblTold cause).tellBlock cause).apwAll.blockShown cause)
    exact ⟨(h1.fields _ (by decide)).trans (sfiState_blockShown _ _),
      (((h0.mono (by simp)).trans (keeps_apwAll _)).trans (keeps_blockShown _ _)).trans (h1.mono (by simp))⟩

theorem blockUnnamed_spec (s : State) : s.blockUnnamed.sfiState = stBlock ∧ Keeps [] s s.blockUnnamed := by
  obtain ⟨hs, hk⟩ := blockNow_spec s 5
  unfold State.blockUnnamed
  simp only
  split
  · exact ⟨hs, hk⟩
  · have h1 : Keeps [F.SFI_STAT_STATE] (s.blockNow 5) ((s.blockNow 5).freeNat.2.setFld F.SFI_STAT_BLK_CAUSE (s.blockNow 5).freeNat.1) :=
      ((Keeps.refl _ _).parts (u := (s.blockNow 5).freeNat.2)).setFld _
    exact ⟨(h1.fields _ (by decide)).trans hs, hk.trans (h1.mono (by simp))⟩

/-- D9 is gone. -/
def State.d9Gone (s : State) : State := { s with sfi := { s.sfi with d9Lost := true } }

/-- The HBL is out of order, and the partner is told no more than before. -/
def State.hblGone (s : State) (told : Bool) : State := ({ s with sfi := { s.sfi with sendBlock := told } } : State).setBit F.SFI_STAT_HBL_OK false

theorem hblGone_spec (s : State) (told : Bool) : (s.hblGone told).bit F.SFI_STAT_HBL_OK = false ∧ Keeps [F.SFI_STAT_STATE] s (s.hblGone told) :=
  ⟨bit_setBit_self _ _ _ (by decide) (by decide), Keeps.setBit (.sfi (.refl _ s)) false⟩

/-- The HBL's levels of SFI_STAT through the driving of SFS_OK. -/
theorem bit_hblOk_sfsRefresh (h : s.bit F.SFI_STAT_HBL_OK = false) (hr : s.sfiState ≠ stRun) : s.sfsRefresh.bit F.SFI_STAT_HBL_OK = false := by
  rw [sfsRefresh_not_run (.inr h) hr]
  split
  · rw [State.sfsFall, bit_raise _ _ _ (not_mem_evRegs (by decide) _), State.refreshReady, bit_setBit_ne _ _ _ _ (by decide),
      bit_setBit_apart _ _ _ _ (by decide) (by decide), h]
  · exact h

/-- Where the HBL is out of order in BLOCK, SFS_OK is driven low and BLOCK stays. -/
theorem sfsRefresh_noHbl (h : s.bit F.SFI_STAT_HBL_OK = false) (hb : s.sfiState = stBlock) :
    s.sfsRefresh.sfiState = stBlock ∧ s.sfsRefresh.bit F.SFI_STAT_HBL_OK = false ∧ s.sfsRefresh.bit F.SFI_STAT_SFS_OK = false ∧
      SafetyStep [R.SFI_STAT, R.RDU_STAT, R.SFI_STOP_CNT] [181, 176] s s.sfsRefresh :=
  have hr : s.sfiState ≠ stRun := by rw [hb]; decide
  ⟨(sfiState_sfsRefresh_low (.inr h) hr).trans hb, bit_hblOk_sfsRefresh h hr, (sfsRefresh_low (.inr h)).1, safetyStep_sfsRefresh_low (.inr h)⟩

theorem SafetyStep.vsafLost (h : SafetyStep rs es s t) : t.sys.vsafLost = s.sys.vsafLost :=
  show t.bare.sys.vsafLost = (State.bare { s with sfi := t.sfi, drc := t.drc }).sys.vsafLost by rw [h.frame.bare]

/-- BLK_OUT is high for good after loss of D9, as long as VSAF is there. -/
theorem blkOut_d9 (hd : s.sfi.d9Lost = true) (hv : s.sys.vsafLost = false) : s.blkOut = true := by
  simp [State.blkOut, hd, hv]

/-- Loss of D9: SAFE BLOCK with HBL_OK and SFS_OK low, and BLK_OUT high. -/
theorem d9Loss_spec (s : State) (told : Bool) (hv : s.sys.vsafLost = false) :
    ∃ t, (s.d9Gone.blockUnnamed.hblGone told).sfsRefresh = t ∧ t.sfi.d9Lost = true ∧ t.sfiState = stBlock ∧ t.bit F.SFI_STAT_HBL_OK = false ∧
      t.bit F.SFI_STAT_SFS_OK = false ∧ t.blkOut = true ∧ SameMem s t := by
  obtain ⟨hb, k1⟩ := blockUnnamed_spec s.d9Gone
  have hd : s.d9Gone.sfi.d9Lost = true := rfl
  have hv' : s.d9Gone.sys.vsafLost = false := hv
  have hm : SameMem s s.d9Gone := fun _ => rfl
  generalize s.d9Gone = u at *
  generalize u.blockUnnamed = v at *
  obtain ⟨hh, k2⟩ := hblGone_spec v told
  generalize v.hblGone told = w at *
  obtain ⟨h1, h2, h3, hstep⟩ := sfsRefresh_noHbl hh ((k2.fields _ (by decide)).trans hb)
  have hd9 : w.sfsRefresh.sfi.d9Lost = true := hstep.d9Lost.trans (k2.d9Lost.trans (k1.d9Lost.trans hd))
  have hvs : w.sfsRefresh.sys.vsafLost = false := hstep.vsafLost.trans (k2.vsafLost.trans (k1.vsafLost.trans hv'))
  exact ⟨_, rfl, hd9, h1, h2, h3, blkOut_d9 hd9 hvs, fun a => (hstep.mem a).trans ((k2.mem a).trans ((k1.mem a).trans (hm a)))⟩

end Sys2Proof.Machine
end

section
/-! What a loss of power cuts off (R315, R319, R323, R372, R374, R390): writes of the event log, of the configuration slots and of the lifetime
store; all else of the state stays. -/

namespace Sys2Proof.Machine

variable {rs : List Nat} {s t u : State}

/-! ## A frame that leaves open what a hold may change -/

/-- `s` with the parts that a hold of the die may change as in `x`. -/
def State.withHeld (s x : State) : State :=
  { s with sfi := x.sfi, sys := x.sys, aon := x.aon, mem := x.mem, evr := { s.evr with log := x.evr.log, cutN := x.evr.cutN } }

/-- From `s` to `t` nothing changes but the registers `rs` and what a hold may change. -/
def Kept (rs : List Nat) (s t : State) : Prop := Frame rs [] [] (s.withHeld t) t

theorem Frame.withHeld (h : Frame rs [] [] s t) (x : State) : Frame rs [] [] (s.withHeld x) (t.withHeld x) :=
  ⟨h.regs, fun _ => rfl, h.inbox, ⟨[], by simp [State.withHeld]⟩, h.msgs,
    show (t.bare.withHeld x).bare = (s.bare.withHeld x).bare by rw [h.bare]⟩

theorem Kept.refl (rs : List Nat) (s : State) : Kept rs s s := Frame.refl rs [] [] s

theorem Kept.trans (h : Kept rs s t) (h' : Kept rs t u) : Kept rs s u :=
  Frame.trans (show Frame rs [] [] (s.withHeld u) (t.withHeld u) from Frame.withHeld (s := s.withHeld t) h u) h'

theorem Kept.mono {rs' : List Nat} (h : Kept rs s t) (hr : rs ⊆ rs') : Kept rs' s t := Frame.mono h hr (by simp) (by simp)

theorem Kept.frame (h : Kept rs s t) (hf : Frame rs [] [] t u) : Kept rs s u :=
  h.trans (show Frame rs [] [] (t.withHeld u) (u.withHeld u) from hf.withHeld u)

theorem Kept.free (h : Kept rs s t) (n : Nat) : Kept rs s { t with freeCtr := n } := h.frame ((Frame.refl _ _ _ t).free n)

/-- A change of the parts left open. -/
theorem Kept.parts (h : Kept rs s t) (hu : u = t.withHeld u := by rfl) : Kept rs s u := h.trans (show Frame rs [] [] (t.withHeld u) u from hu ▸ .refl _ _ _ _)

theorem Kept.rd (h : Kept rs s t) {a : Nat} (ha : a ∉ rs) : t.rd a = s.rd a := h.regs a ha (by simp)

/-! ## The event log (R315, R323) -/

/-- How far a clear of the log has erased. -/
def State.clearCut (s : State) : State :=
  if s.bit F.EVR_STAT_CLEARING then s.freeNat.2.logErase (s.freeNat.1 % (lastSlot + 2)) lastSlot none else s

/-- Record `i` of those being written is written in part, those behind it not at all. -/
def State.slotCut (s : State) (i hi j : Nat) : State :=
  let w := s.slot i
  let mask : BitVec 256 := BitVec.ofNat 256 (2 ^ (32 * (j % 8)) - 1)
  let s := (s.logErase i hi none).setSlot i ((w &&& mask) ||| (logErased &&& ~~~mask))
  ({ s with evr := { s.evr with cutN := 0 } } : State).wr R.EVR_SEQ_NEXT (Machine.nextSeq (slotSeq w))

/-- How many of the records being written have been written whole. -/
def State.writeCut (s : State) : State :=
  if s.mono < s.evr.cutAt + 160 * s.evr.cutN then
    if s.evr.cutN ≤ s.freeNat.1 then s.freeNat.2.freeNat.2
    else s.freeNat.2.freeNat.2.slotCut (s.evr.cutFrom + s.freeNat.1) (s.evr.cutFrom + s.evr.cutN - 1) s.freeNat.2.freeNat.1
  else s

theorem evrCut_eq (s : State) : s.evrCut = s.clearCut.writeCut := rfl

/-- The log and its sequence numbers change, and nothing else. -/
def LogOnly (s t : State) : Prop := Kept [R.EVR_SEQ_NEXT] s t ∧ (t.sfi, t.sys, t.aon, t.mem) = (s.sfi, s.sys, s.aon, s.mem)

theorem LogOnly.trans (h : LogOnly s t) (h' : LogOnly t u) : LogOnly s u := ⟨h.1.trans h'.1, h'.2.trans h.2⟩

theorem logOnly_clearCut (s : State) : LogOnly s s.clearCut := by
  unfold State.clearCut
  split_ifs
  · exact ⟨((Kept.refl _ s).free _).parts, rfl⟩
  · exact ⟨.refl _ s, rfl⟩

theorem logOnly_slotCut (s : State) (i hi j : Nat) : LogOnly s (s.slotCut i hi j) :=
  ⟨Kept.frame (.parts (.refl _ s)) ((Frame.refl _ _ _ _).wr _ (by simp)), rfl⟩

theorem logOnly_writeCut (s : State) : LogOnly s s.writeCut := by
  have hfree : LogOnly s s.freeNat.2.freeNat.2 := ⟨((Kept.refl _ s).free _).free _, rfl⟩
  unfold State.writeCut
  split_ifs
  · exact hfree
  · exact hfree.trans (logOnly_slotCut _ _ _ _)
  · exact ⟨.refl _ s, rfl⟩

theorem slot_logErase (s : State) {lo hi i : Nat} (h : i < lo ∨ hi < i) : (s.logErase lo hi none).slot i = s.slot i :=
  spGet_filter _ (fun k => decide (k < lo) || decide (hi < k)) _ (by simpa using h)

theorem slot_slotCut (s : State) {k hi j i : Nat} (h : i < k ∨ hi < i) (hk : k ≤ hi) : (s.slotCut k hi j).slot i = s.slot i :=
  (spGet_spSet_ne _ _ _ _ _ _ (by omega)).trans (slot_logErase s h)

/-- Where the EVR writes nothing, nothing is cut off. -/
theorem evrCut_of_quiet (h : s.LogQuiet) : s.evrCut = s := by
  obtain ⟨hc, hw⟩ := h
  have h1 : s.clearCut = s := by simp [State.clearCut, hc]
  rw [evrCut_eq, h1]
  exact if_neg (by omega)

/-- A cut touches the slots being written alone. -/
theorem slot_writeCut (s : State) {i : Nat} (h : i < s.evr.cutFrom ∨ s.evr.cutFrom + s.evr.cutN ≤ i) : s.writeCut.slot i = s.slot i := by
  unfold State.writeCut
  split_ifs with hw hm
  · rfl
  · exact slot_slotCut s.freeNat.2.freeNat.2 (by omega) (by omega)
  · rfl

theorem logKept_evrCut (s : State) : LogKept s s.evrCut := by
  refine ⟨fun hq => by rw [evrCut_of_quiet hq]; exact ⟨rfl, rfl⟩, fun hc i hi => ?_⟩
  have h1 : s.clearCut = s := by simp [State.clearCut, hc]
  rw [evrCut_eq, h1]
  exact slot_writeCut s hi

/-! ## Configuration slots (R372, R374) -/

/-- Free values are taken and memory changes, and nothing else. -/
def MemOnly (s t : State) : Prop := ∃ n m, t = { s with freeCtr := n, mem := m }

theorem MemOnly.kept (h : MemOnly s t) : Kept rs s t ∧ (t.sfi, t.sys, t.aon, t.evr) = (s.sfi, s.sys, s.aon, s.evr) := by
  obtain ⟨n, m, rfl⟩ := h
  exact ⟨((Kept.refl _ s).free n).parts, rfl⟩

theorem MemOnly.rd (h : MemOnly s t) (a : Nat) : t.rd a = s.rd a := by
  obtain ⟨n, m, rfl⟩ := h
  rfl

/-- An activation word that is being written. -/
def State.actCut (s : State) : State :=
  if s.cfc.act.isSome then
    s.freeBool.2.when s.freeBool.1 (fun s => s.setMle (actWord s.activeSlot) 8 ((s.maxGen + 1) % 2 ^ 64))
  else s

/-- The image that LOAD or UPDATE is copying. -/
def State.imageInHand (s : State) : Option (List Byte) :=
  match s.longArg 1, s.longArg 3 with
  | some n, _ => some (s.mbytes stagingBase n.toNat)
  | none, some n => some (s.mbytes (slotBase s.activeSlot) (s.imgLen (slotBase s.activeSlot)) ++ s.mbytes stagingBase n.toNat)
  | none, none => none

/-- Of an image that is being copied the first bytes stand in the other slot. -/
def State.imageCut (s : State) : State :=
  match s.imageInHand with
  | none => s
  | some bs =>
    if s.freeNat.1 = 0 then s.freeNat.2
    else (s.freeNat.2.eraseSlot s.otherSlot).setMbytes (slotBase s.otherSlot) (bs.take (min (s.freeNat.1 - 1) imgMax))

theorem cfcCut_eq (s : State) : s.cfcCut = s.actCut.imageCut := rfl

theorem memOnly_actCut (s : State) : MemOnly s s.actCut := by
  unfold State.actCut State.when
  split_ifs
  · exact ⟨_, _, setMle_eq _ _ _ _⟩
  · exact ⟨_, _, rfl⟩
  · exact ⟨_, _, rfl⟩

theorem memOnly_imageCut (s : State) : MemOnly s s.imageCut := by
  unfold State.imageCut
  split
  · exact ⟨_, _, rfl⟩
  · split_ifs
    · exact ⟨_, s.mem, rfl⟩
    · exact ⟨_, _, rfl⟩

theorem mb_actCut (s : State) {a : Nat} (h : a < actWord s.activeSlot ∨ actWord s.activeSlot + 8 ≤ a) : s.actCut.mb a = s.mb a := by
  unfold State.actCut State.when
  split_ifs
  · exact mb_setMle_ne _ _ _ _ _ h
  · rfl
  · rfl

theorem mb_eraseSlot (s : State) (n : Nat) {a : Nat} (h : a < slotBase n ∨ actWord n ≤ a) : (s.eraseSlot n).mb a = s.mb a :=
  spGet_filter _ (fun k => decide (k < slotBase n) || decide (actWord n ≤ k)) _ (by simpa using h)

/-- The longest image ends where the activation word begins. -/
theorem slotBase_imgMax (n : Nat) : slotBase n + imgMax = actWord n := by
  show slotBase n + 12578816 = slotBase n + 0xC00000 - 0x1000
  omega

theorem slotBase_eq (n : Nat) : slotBase n = 0x204000000 + n * 0xC00000 := rfl

theorem mb_imageCut (s : State) {a : Nat} (h : a < slotBase s.otherSlot ∨ actWord s.otherSlot ≤ a) : s.imageCut.mb a = s.mb a := by
  unfold State.imageCut
  split
  · rfl
  · split_ifs
    · rfl
    · rename_i bs _ _
      have hlen : (bs.take (min (s.freeNat.1 - 1) imgMax)).length ≤ imgMax := by
        rw [List.length_take]; omega
      have hslot := slotBase_imgMax s.otherSlot
      rw [mb_setMbytes_ne _ _ _ (by omega), mb_eraseSlot _ _ h]
      rfl

theorem activeSlot_lt (s : State) : s.activeSlot < 2 := Nat.mod_lt _ (by decide)

/-- A cut leaves memory outside the two slots, and the image of the active slot. -/
theorem mb_cfcCut (s : State) {a : Nat} (h : a < nvBase ∨ nvBase + 0x1800000 ≤ a ∨ (slotBase s.activeSlot ≤ a ∧ a < actWord s.activeSlot)) :
    s.cfcCut.mb a = s.mb a := by
  have hs : s.actCut.activeSlot = s.activeSlot := by
    simp only [State.activeSlot, State.fld, (memOnly_actCut s).rd]
  have hlt := activeSlot_lt s
  have ho : s.actCut.otherSlot = 1 - s.activeSlot := by rw [State.otherSlot, hs]
  have hb : nvBase = 0x204000000 := rfl
  have hm : imgMax = 12578816 := rfl
  rw [cfcCut_eq, mb_imageCut, mb_actCut]
  · rw [← slotBase_imgMax, slotBase_eq, hm] at h ⊢; omega
  · rw [ho, ← slotBase_imgMax, slotBase_eq, hm]
    rw [← slotBase_imgMax, slotBase_eq, hm] at h; omega

/-- Where the CFC writes nothing, nothing is cut off. -/
theorem cfcCut_of_idle (ha : s.cfc.act = none) (h1 : s.longArg 1 = none) (h3 : s.longArg 3 = none) : s.cfcCut = s := by
  have h0 : s.actCut = s := by simp [State.actCut, ha]
  rw [cfcCut_eq, h0]
  simp [State.imageCut, State.imageInHand, h1, h3]

/-! ## The lifetime store (R390) -/

theorem ltCut_eq (s : State) : ∃ n a, s.ltCut = { s with freeCtr := n, aon := a } ∧
    (a = s.aon ∨ (a = s.aon.tear ∧ ∃ t0, s.aon.savedAt = some t0 ∧ s.mono < t0 + 5000000)) := by
  unfold State.ltCut
  split
  · rename_i t0 h0
    split_ifs with hm
    · cases hb : s.freeBool.1 with
      | true => exact ⟨s.freeCtr + 1, s.aon.tear, if_pos hb, .inr ⟨rfl, t0, h0, hm⟩⟩
      | false => exact ⟨s.freeCtr + 1, s.aon, if_neg (ne_true_of_eq_false hb), .inl rfl⟩
    · exact ⟨_, _, rfl, .inl rfl⟩
  · exact ⟨_, _, rfl, .inl rfl⟩

/-! ## A loss of power -/

/-- From `s` to `t` a loss of power cuts off what the EVR, the CFC and the lifetime store are writing, and changes nothing else. -/
structure PowerLoss (s t : State) : Prop where
  kept : Kept [R.EVR_SEQ_NEXT] s t
  sfi : t.sfi = s.sfi
  sys : t.sys = s.sys
  log : LogKept s t
  aon : t.aon = s.aon ∨ (t.aon = s.aon.tear ∧ ∃ t0, s.aon.savedAt = some t0 ∧ s.mono < t0 + 5000000)
  nv : s.held = false → NvKept (fun _ => False) s t
  low : ∀ a, a < nvBase → t.mb a = s.mb a

theorem LogKept.of_evr (h : LogKept s t) (hl : u.evr.log = t.evr.log) (hr : u.rd R.EVR_SEQ_NEXT = t.rd R.EVR_SEQ_NEXT) : LogKept s u :=
  ⟨fun hq => ⟨hl.trans (h.1 hq).1, hr.trans (h.1 hq).2⟩, fun hc i hi => by simpa only [State.slot, hl] using h.2 hc i hi⟩

theorem logOnly_evrCut (s : State) : LogOnly s s.evrCut := (logOnly_clearCut s).trans (logOnly_writeCut _)

theorem memOnly_cfcCut (s : State) : MemOnly s s.cfcCut := by
  obtain ⟨n, m, h⟩ := memOnly_actCut s
  obtain ⟨n', m', h'⟩ := memOnly_imageCut s.actCut
  exact ⟨n', m', by rw [cfcCut_eq, h', h]⟩

theorem Kept.cfc (h : Kept rs s t) : t.cfc = s.cfc := show t.bare.cfc = (s.withHeld t).bare.cfc from congrArg _ (Frame.bare h)
theorem Kept.hcp (h : Kept rs s t) : t.hcp = s.hcp := show t.bare.hcp = (s.withHeld t).bare.hcp from congrArg _ (Frame.bare h)
theorem Kept.time (h : Kept rs s t) : t.mono = s.mono := show t.bare.mono = (s.withHeld t).bare.mono from congrArg _ (Frame.bare h)

/-- Memory as a loss of power leaves it. -/
theorem mb_evrCut_cfcCut (s : State) {a : Nat} (h : a < nvBase ∨ nvBase + 0x1800000 ≤ a ∨ (slotBase s.activeSlot ≤ a ∧ a < actWord s.activeSlot) ∨
      (s.cfc.act = none ∧ s.longArg 1 = none ∧ s.longArg 3 = none)) : s.evrCut.cfcCut.mb a = s.mb a := by
  obtain ⟨hk, hp⟩ := logOnly_evrCut s
  have hm : s.evrCut.mb a = s.mb a := mb_of_mem (congrArg (·.2.2.2) hp) a
  have hs : s.evrCut.activeSlot = s.activeSlot := by
    simp only [State.activeSlot, State.fld, hk.rd (a := F.CFC_STAT_ACTIVE_SLOT.addr) (by decide)]
  by_cases hidle : s.cfc.act = none ∧ s.longArg 1 = none ∧ s.longArg 3 = none
  · obtain ⟨ha, h1, h3⟩ := hidle
    rw [cfcCut_of_idle (by rw [hk.cfc, ha]) (by rw [State.longArg, hk.hcp]; exact h1) (by rw [State.longArg, hk.hcp]; exact h3), hm]
  · rw [mb_cfcCut _ (by rw [hs]; exact h.imp id (·.imp id (·.resolve_right hidle))), hm]

theorem powerLoss_powerCut (s : State) : PowerLoss s s.powerCut := by
  obtain ⟨hk, hp⟩ := logOnly_evrCut s
  simp only [Prod.mk.injEq] at hp
  obtain ⟨hsfi, hsys, haon, -⟩ := hp
  have hlog := logKept_evrCut s
  have hmem := fun a => mb_evrCut_cfcCut s (a := a)
  have hcfc := memOnly_cfcCut s.evrCut
  unfold State.powerCut
  generalize s.evrCut = v at *
  obtain ⟨hk2, hp2⟩ := hcfc.kept (rs := [R.EVR_SEQ_NEXT])
  simp only [Prod.mk.injEq] at hp2
  obtain ⟨hsfi2, hsys2, haon2, hevr2⟩ := hp2
  have hrd2 := hcfc.rd R.EVR_SEQ_NEXT
  generalize v.cfcCut = w at *
  obtain ⟨n, a, ht, ha⟩ := ltCut_eq w
  rw [haon2, haon, hk2.time, hk.time] at ha
  rw [ht]
  refine ⟨((hk.trans hk2).free n).parts, hsfi2.trans hsfi, hsys2.trans hsys, hlog.of_evr (congrArg EvrSt.log hevr2) hrd2, ha,
    fun hs x _ _ hx => ?_, fun x hx => hmem x (.inl hx)⟩
  rcases hx with h | h | h | h
  · exact absurd (hs.symm.trans h) (by decide)
  · exact hmem x (.inr (.inr (.inr h)))
  · exact hmem x (.inr (.inl h))
  · exact hmem x (.inr (.inr (.inl h)))

/-! ## The die is held -/

/-- What holds of a die that has just been held. -/
structure HeldFrom (u t : State) : Prop where
  held : t.held = true
  porDone : t.sys.porDone = false
  idle : t.HblIdle
  log : LogKept u t
  aon : AonKept u t
  nv : NvKept (fun _ => False) u t
  low : ∀ a, a < nvBase → t.mb a = u.mb a
  kept : Kept (R.EVR_SEQ_NEXT :: laneStats) u t

theorem HeldFrom.sfsPin (h : HeldFrom s t) : t.sfsPin = false := by simp [State.sfsPin, h.held]

/-- The forced idle changes registers and the HBL's note of it alone. -/
theorem hblIdleAll_regs (s : State) : ∃ r : Sparse (BitVec 32), s.hblIdleAll = { s.idleNoted with regs := r } := by
  rw [hblIdleAll_eq]
  refine List.foldlRecOn _ State.idleLane (motive := fun t => ∃ r : Sparse (BitVec 32), t = { s.idleNoted with regs := r }) ⟨s.regs, rfl⟩ fun t ht l _ => ?_
  obtain ⟨r, rfl⟩ := ht
  exact ⟨_, rfl⟩

/-- Pins and the safety unit change so that the die is held after a loss of power. -/
def State.heldWith (s : State) (y : SysSt) (f : SfiSt) : State := { s.powerCut with sys := y, sfi := f }

theorem heldFrom_heldWith {y : SysSt} {f : SfiSt} (hs : s.held = false) (hy : y.porDone = false)
    (hh : y.porstLow = true ∨ y.vsafLost = true ∨ y.vcoreLost = true) : HeldFrom s (s.heldWith y f).hblIdleAll := by
  have hp := powerLoss_powerCut s
  obtain ⟨r, hr⟩ := hblIdleAll_regs (s.heldWith y f)
  have hf := frame_hblIdleAll (s.heldWith y f)
  have hidle := hblIdle_hblIdleAll (s.heldWith y f)
  have hseq : (s.heldWith y f).hblIdleAll.rd R.EVR_SEQ_NEXT = s.powerCut.rd R.EVR_SEQ_NEXT := hf.regs _ (by decide) (by simp)
  unfold State.heldWith at *
  generalize s.powerCut = v at *
  generalize (State.hblIdleAll { v with sys := y, sfi := f }) = t at *
  have hsys : t.sys = y := by rw [hr]; rfl
  have hmem : t.mem = v.mem := by rw [hr]; rfl
  have hevr : t.evr = v.evr := by rw [hr]; rfl
  have haon : t.aon = v.aon := by rw [hr]; rfl
  refine ⟨by rw [State.held, hsys]; rcases hh with h | h | h <;> simp [h], by rw [hsys, hy], hidle, hp.log.of_evr (congrArg EvrSt.log hevr) hseq, ?_,
    fun a h1 h2 h3 => (mb_of_mem hmem a).trans (hp.nv hs a h1 h2 h3), fun a ha => (mb_of_mem hmem a).trans (hp.low a ha), ?_⟩
  · rw [AonKept, haon]
    exact hp.aon.imp id fun h => ⟨hs, h⟩
  · have hk : Kept (R.EVR_SEQ_NEXT :: laneStats) s v := hp.kept.mono (by simp)
    exact (hk.parts (u := State.idleNoted { v with sys := y, sfi := f })).frame (hf.mono (by simp) (by simp) (by simp))

/-! ## The commands -/

/-- A change of the safety unit alone, while the die is held. -/
theorem HeldFrom.withSfi (h : HeldFrom s t) (f : SfiSt) : HeldFrom s { t with sfi := f } :=
  ⟨h.held, h.porDone, h.idle, h.log, h.aon, h.nv, h.low, h.kept.parts⟩

/-- The HBL's watch while the die is held: BLK_OUT is high where D9 was lost, or the HBL orders SAFE BLOCK. -/
theorem hblWatch_held (h : HeldFrom s t) (hv : t.sys.vsafLost = false) :
    HeldFrom s t.hblWatch ∧ t.hblWatch.sys = t.sys ∧ t.hblWatch.blkOut = (t.sfi.d9Lost || t.sfi.hblOrder || (List.range 8).any t.hblWants) := by
  obtain ⟨f, hf, hw, ho⟩ := hblWatch_eq t
  rw [hf]
  have hd : f.d9Lost = t.sfi.d9Lost := congrArg (·.2.2.2.2) hw
  have hk := h.withSfi f
  refine ⟨hk, rfl, ?_⟩
  have hheld := hk.held
  simp only [State.blkOut, hheld, hv, hd, ho, Bool.not_true, Bool.false_and, Bool.or_false, Bool.not_false, Bool.true_and, Bool.or_assoc]

/-- The HBL's orders and demands after the cut and the forced idle are those before. -/
theorem watched_heldWith (s : State) (y : SysSt) {f : SfiSt} (hf : f = s.sfi) :
    (s.heldWith y f).hblIdleAll.sfi.d9Lost = s.sfi.d9Lost ∧ (s.heldWith y f).hblIdleAll.sfi.hblOrder = s.sfi.hblOrder ∧
      (s.heldWith y f).hblIdleAll.hblWants = s.hblWants := by
  have h := sfi_hblIdleAll (s.heldWith y f)
  have hs : (s.heldWith y f).sfi = s.sfi := hf
  rw [hs] at h
  exact ⟨by rw [h], by rw [h], funext fun p => hblWants_of_watched (by rw [h]; rfl) p⟩

theorem hold_live (hs : s.held = false) : s.hold = s.heldWith { s.sys with porDone := false } s.powerCut.sfi := if_neg (by simp [hs])

/-- PORST_N falls. -/
def State.porstDown (s : State) : State := { s with sys := { s.sys with porstLow := true, porstAt := s.mono } }

/-- VCORE is lost. -/
def State.vcoreGone (s : State) : State := { s with sys := { s.sys with vcoreLost := true } }

/-- VSAF is lost, and the HBL's parameters, timer and order with it (R399). -/
def State.vsafGone (s : State) : State :=
  { s with sys := { s.sys with vsafLost := true }, sfi := { s.sfi with hblPar := [], hblTstop := 200000, hblOrder := false, hblStop := none } }

/-- The pins and supplies that hold a die, one by one. -/
theorem held_iff : s.held = false ↔
    s.sys.porstLow = false ∧ s.sys.thermal = false ∧ s.sys.rails = [] ∧ s.sys.vsafLost = false ∧ s.sys.vcoreLost = false := by
  simp [State.held, and_assoc]

theorem exec_porstAssert (hs : s.held = false) (time : Nat) :
    exec (.porstAssert time) s = .next (s.tick time).hold.porstDown.hblIdleAll.hblWatch :=
  congrArg Host.Outcome.next (if_neg (by simp [(held_iff.1 hs).1]))

/-- A pin or supply that takes hold of a running die through the HBL's watch. -/
theorem hold_watch {y : SysSt} {f : SfiSt} (hs : s.held = false) (hy : y.porDone = false) (hh : y.porstLow = true ∨ y.vcoreLost = true)
    (hv : y.vsafLost = false) (hf : f = s.sfi) :
    HeldFrom s (s.heldWith y f).hblIdleAll.hblWatch ∧ (s.heldWith y f).hblIdleAll.hblWatch.sys = y ∧
      (s.heldWith y f).hblIdleAll.hblWatch.blkOut = (s.sfi.d9Lost || s.sfi.hblOrder || (List.range 8).any s.hblWants) := by
  have h := heldFrom_heldWith (f := f) hs hy (hh.imp id .inr)
  obtain ⟨h9, ho, hw⟩ := watched_heldWith s y hf
  obtain ⟨r, hr⟩ := hblIdleAll_regs (s.heldWith y f)
  have hsys : (s.heldWith y f).hblIdleAll.sys = y := by rw [hr]; rfl
  obtain ⟨h1, h2, h3⟩ := hblWatch_held h (by rw [hsys, hv])
  exact ⟨h1, h2.trans hsys, by rw [h3, h9, ho, hw]⟩

theorem hold_porst (hs : s.held = false) :
    HeldFrom s s.hold.porstDown.hblIdleAll.hblWatch ∧ s.hold.porstDown.hblIdleAll.hblWatch.sys.porstLow = true ∧
      s.hold.porstDown.hblIdleAll.hblWatch.sys.porstAt = s.mono ∧
      s.hold.porstDown.hblIdleAll.hblWatch.blkOut = (s.sfi.d9Lost || s.sfi.hblOrder || (List.range 8).any s.hblWants) := by
  have hp := powerLoss_powerCut s
  obtain ⟨h1, h2, h3⟩ := hold_watch (y := { s.sys with porDone := false, porstLow := true, porstAt := s.powerCut.mono }) hs rfl (.inl rfl)
    (held_iff.1 hs).2.2.2.1 hp.sfi
  rw [hold_live hs]
  exact ⟨h1, congrArg SysSt.porstLow h2, (congrArg SysSt.porstAt h2).trans hp.kept.time, h3⟩

theorem hold_vcore (hs : s.held = false) :
    HeldFrom s s.hold.vcoreGone.hblIdleAll.hblWatch ∧ s.hold.vcoreGone.hblIdleAll.hblWatch.sys.vcoreLost = true ∧
      s.hold.vcoreGone.hblIdleAll.hblWatch.blkOut = (s.sfi.d9Lost || s.sfi.hblOrder || (List.range 8).any s.hblWants) := by
  obtain ⟨h1, h2, h3⟩ := hold_watch (y := { s.sys with porDone := false, vcoreLost := true }) hs rfl (.inr rfl)
    (held_iff.1 hs).2.2.2.1 (powerLoss_powerCut s).sfi
  rw [hold_live hs]
  exact ⟨h1, congrArg SysSt.vcoreLost h2, h3⟩

theorem hold_vsaf (hs : s.held = false) :
    HeldFrom s s.hold.vsafGone.hblIdleAll ∧ s.hold.vsafGone.hblIdleAll.sys.vsafLost = true ∧ s.hold.vsafGone.hblIdleAll.blkOut = false ∧
      s.hold.vsafGone.hblIdleAll.sfi.hblPar = [] ∧ s.hold.vsafGone.hblIdleAll.sfi.hblOrder = false := by
  have h := heldFrom_heldWith (y := { s.sys with porDone := false, vsafLost := true })
    (f := { s.powerCut.sfi with hblPar := [], hblTstop := 200000, hblOrder := false, hblStop := none }) hs rfl (.inr (.inl rfl))
  rw [hold_live hs]
  obtain ⟨r, hr⟩ := hblIdleAll_regs (State.vsafGone (s.heldWith { s.sys with porDone := false } s.powerCut.sfi))
  refine ⟨h, ?_, ?_, ?_, ?_⟩ <;> rw [hr] <;> rfl

/-- Settles O38: what holds the die leaves the lanes idle and cuts off what is being written; D3 and D9 act as R20 and R409 say. -/
theorem pinsAndSuppliesHoldTheDie : Obligations.PinsAndSuppliesHoldTheDie := by
  unfold Obligations.PinsAndSuppliesHoldTheDie
  intro s time hs
  have hu : (s.tick time).held = false := hs
  refine ⟨?_, ?_, ?_, ?_, ?_⟩
  · obtain ⟨h, hl, ha, hb⟩ := hold_porst hu
    exact ⟨_, exec_porstAssert hs time, ⟨h.held, h.porDone, h.sfsPin, h.idle, h.log, h.aon, h.nv, h.low, h.kept⟩, hl, ha, hb⟩
  · obtain ⟨h, hl, hb⟩ := hold_vcore hu
    exact ⟨_, rfl, ⟨h.held, h.porDone, h.sfsPin, h.idle, h.log, h.aon, h.nv, h.low, h.kept⟩, hl, hb⟩
  · obtain ⟨h, hl, hb, hpar, hord⟩ := hold_vsaf hu
    exact ⟨_, rfl, ⟨h.held, h.porDone, h.sfsPin, h.idle, h.log, h.aon, h.nv, h.low, h.kept⟩, hl, hb, hpar, hord⟩
  · obtain ⟨h3, hi, hok, hp⟩ := sfsRefresh_noD3 (d3Lost_d3Idle (s.tick time)) (hblIdle_hblIdleAll _)
    exact ⟨_, congrArg Host.Outcome.next (onDie_live s time _ hs), h3, hi, hok, fun h => hp ((bit_sfsOk_d3Idle _).trans h), frame_d3Loss _⟩
  · obtain ⟨t, ht, h⟩ := d9Loss_spec (s.tick time) (s.tick time).sfi.sendBlock (held_iff.1 hu).2.2.2.1
    have hd : (s.tick time).d9Gone.held = false := hu
    exact ⟨t, (congrArg Host.Outcome.next (if_neg (ne_true_of_eq_false hd))).trans (congrArg Host.Outcome.next ht), h⟩

end Sys2Proof.Machine
end

section
/-! The end of a hold (R6, R244, R390, R398, R399): the power-on reset of a held die, the start of the unit, and the commands that end a hold. -/

namespace Sys2Proof.Machine

variable {fs : List RF} {rs es : List Nat} {s t u : State}

/-! ## Power-on reset of a held die (R398, Table 16.6) -/

/-- Memory, the recorder and the flags of the reset, after the units have been cleared. -/
def State.porWipe (s : State) : State :=
  { s with mem := s.mem.filter (fun c => decide (nvBase ≤ c.1)), drc := {}, memu := { wipe := .por },
           sys := { s.sys with porDone := true, pfailLow := false, uidEnum := false, strapConf := false } }

/-- The units cleared, the supervisor die's part kept, but for the HBL's watch. -/
def State.unitsClear (s : State) : State := s.regsPowerOn.coreClear.sfiClear

theorem powerOn_held (hd : s.sys.porDone = false) (hh : s.held = true) (code : Nat) :
    s.powerOn code = s.unitsClear.hblWatch.porWipe.wr R.SYS_RST_CAUSE (BitVec.ofNat 32 code) := by
  simp only [State.powerOn, hd, hh, Bool.false_and, if_true]
  rfl

theorem rd_regsPowerOn (s : State) {a : Nat} (ha : a ≠ R.AON_STAT) : s.regsPowerOn.rd a = if keepsPowerOn a then s.rd a else resetOf a := by
  refine (rd_setFld_ne _ _ _ _ ha).trans ?_
  cases hk : keepsPowerOn a with
  | true => exact spGet_filter _ keepsPowerOn _ hk
  | false => exact spGet_filter_out _ keepsPowerOn _ hk

theorem bit_calValid_regsPowerOn (s : State) : s.regsPowerOn.bit F.AON_STAT_CAL_VALID = s.bit F.AON_STAT_CAL_VALID :=
  bit_setBit_self _ _ _ (by decide) (by decide)

theorem mb_porWipe (s : State) (a : Nat) : s.porWipe.mb a = if nvBase ≤ a then s.mb a else memDefault a := by
  split_ifs with h
  · exact spGet_filter _ (fun k => decide (nvBase ≤ k)) _ (decide_eq_true h)
  · exact spGet_filter_out _ (fun k => decide (nvBase ≤ k)) _ (decide_eq_false h)

/-- What the HBL's watch, the wipe and the cause leave as the cleared units have it. -/
theorem powerOn_held_eq (hd : s.sys.porDone = false) (hh : s.held = true) (code : Nat) :
    ∃ f : SfiSt, s.powerOn code = { s.unitsClear with sfi := f }.porWipe.wr R.SYS_RST_CAUSE (BitVec.ofNat 32 code) := by
  obtain ⟨f, hf, -, -⟩ := hblWatch_eq s.unitsClear
  exact ⟨f, by rw [powerOn_held hd hh, hf]⟩

theorem afresh_unitsClear (s : State) (f : SfiSt) (a : Nat) (v : BitVec 32) : Afresh s ({ s.unitsClear with sfi := f }.porWipe.wr a v) :=
  ⟨rfl, rfl, rfl, rfl, rfl, rfl, rfl, rfl, rfl, rfl, rfl, rfl, rfl, rfl, rfl, rfl, rfl, rfl, rfl, rfl, rfl, rfl⟩

/-- The power-on reset of a hold that has brought none yet. -/
theorem powerReset_powerOn {code : Nat} (hd : s.sys.porDone = false) (hh : s.held = true) (hc : code < 16) :
    PowerReset code s (s.powerOn code) ∧ (s.powerOn code).sys.porDone = true := by
  obtain ⟨f, hf⟩ := powerOn_held_eq hd hh code
  rw [hf]
  have hrd : ∀ a, a ≠ R.SYS_RST_CAUSE →
      ({ s.unitsClear with sfi := f }.porWipe.wr R.SYS_RST_CAUSE (BitVec.ofNat 32 code)).rd a = s.regsPowerOn.rd a := fun a ha => rd_wr_ne _ _ _ _ ha
  refine ⟨⟨?_, hh, ?_, fun a h1 h2 _ => (hrd a h1).trans (rd_regsPowerOn s h2), fun a ha => ?_, fun a ha _ _ => ?_,
    fun h => absurd (h.symm.trans hh) (by decide), fun _ => rfl, .inl rfl, rfl, rfl, rfl, afresh_unitsClear _ _ _ _⟩, rfl⟩
  · simp only [State.fld, F.SYS_RST_CAUSE_V, rd_wr_self, RF.get, BitVec.toNat_ofNat]
    omega
  · rw [← bit_calValid_regsPowerOn s, State.bit, State.fld, hrd _ (by decide)]; rfl
  · exact (mb_porWipe _ a).trans (if_neg (by omega))
  · exact (mb_porWipe _ a).trans (if_pos ha)

/-! ## Steps of a start -/

/-- A step of the start that keeps the fields `fs`, memory, the count, the pins, the strap and, of the always-on domain, the button and the
counts of resets. -/
structure StartStep (fs : List RF) (s t : State) : Prop where
  keeps : Keeps fs s t
  now : t.now = s.now
  held : t.held = s.held
  stuck : t.aon.stuck = s.aon.stuck
  resets : t.aon.lt.resets = s.aon.lt.resets

theorem StartStep.refl (fs : List RF) (s : State) : StartStep fs s s := ⟨.refl _ s, rfl, rfl, rfl, rfl⟩

theorem StartStep.trans (h : StartStep fs s t) (h' : StartStep fs t u) : StartStep fs s u :=
  ⟨h.keeps.trans h'.keeps, h'.now.trans h.now, h'.held.trans h.held, h'.stuck.trans h.stuck, h'.resets.trans h.resets⟩

theorem StartStep.mono {gs : List RF} (h : StartStep fs s t) (hs : gs ⊆ fs) : StartStep gs s t := { h with keeps := h.keeps.mono hs }

theorem StartStep.parts (h : StartStep fs s t) (hk : Keeps fs t u) (hn : u.now = t.now := by rfl) (hh : u.held = t.held := by rfl)
    (hs : u.aon.stuck = t.aon.stuck := by rfl) (hr : u.aon.lt.resets = t.aon.lt.resets := by rfl) : StartStep fs s u :=
  h.trans ⟨hk, hn, hh, hs, hr⟩

theorem StartStep.setBit (h : StartStep fs s t) {f : RF} (b : Bool) (hf : f.clears fs := by decide) (hb : f.addr < 0x880000 := by decide) :
    StartStep fs s (t.setBit f b) := h.parts ((Keeps.refl _ t).setBit b hf hb)

theorem StartStep.wr (h : StartStep fs s t) {a : Nat} (v : BitVec 32) (ha : ∀ g ∈ fs, g.addr ≠ a := by decide) (hb : a < 0x880000 := by decide) :
    StartStep fs s (t.wr a v) := h.parts ((Keeps.refl _ t).wr v ha hb)

theorem Frame.now {ks : List Nat} (h : Frame rs es ks s t) : t.now = s.now := show t.bare.now = s.bare.now by rw [h.bare]
theorem Frame.held {ks : List Nat} (h : Frame rs es ks s t) : t.held = s.held := show t.bare.held = s.bare.held by rw [h.bare]

theorem StartStep.raise (h : StartStep fs s t) (n : Nat) (hb : belowInt fs := by decide) : StartStep fs s (t.raise n) :=
  have hf := frame_raise t n
  h.parts ((Keeps.refl _ t).raise n hb) hf.now hf.held (by rw [hf.aon]) (by rw [hf.aon])

theorem StartStep.ite {c : Prop} [Decidable c] (ht : c → StartStep fs s t) (hu : ¬ c → StartStep fs s u) : StartStep fs s (if c then t else u) := by
  by_cases h : c
  · rw [if_pos h]; exact ht h
  · rw [if_neg h]; exact hu h

/-! ## The count (R244) -/

/-- What the unit shows of its count at a start: STEP_ARM and CAL_INV. -/
def countFields : List RF := [F.TBU_STAT_STEP_ARM, F.TBU_STAT_CAL_INV]

/-- The count as the calendar gives it, or from zero. -/
def State.CountFrom (s t : State) : Prop :=
  t.bit F.TBU_STAT_STEP_ARM = true ∧ (s.bit F.AON_STAT_CAL_VALID = true → t.now = s.calSec * 10 ^ 9) ∧
    (s.bit F.AON_STAT_CAL_VALID = false → t.now = 0 ∧ t.bit F.TBU_STAT_CAL_INV = true ∧ t.pends 252 = true)

/-- What is shown of the count depends on the count, the bits and source 252 alone. -/
theorem State.CountFrom.keep (h : s.CountFrom t) (k : Keeps countFields t u) (hn : u.now = t.now) : s.CountFrom u := by
  obtain ⟨ha, hv, hi⟩ := h
  refine ⟨(k.bit (by decide)).trans ha, fun hc => hn.trans (hv hc), fun hc => ?_⟩
  obtain ⟨h0, hb, hp⟩ := hi hc
  exact ⟨hn.trans h0, (k.bit (by decide)).trans hb, k.pends _ (by decide) hp⟩

theorem State.CountFrom.step (h : s.CountFrom t) (k : StartStep countFields t u) : s.CountFrom u := h.keep k.keeps k.now

theorem State.CountFrom.withMem (h : s.CountFrom t) (m : List Host.Cell) : s.CountFrom { t with mem := m } := h

/-- The count starts at `n`. -/
def State.countAt (s : State) (n : Nat) : State := { s with now := n }

/-- The count starts at zero, with CAL_INV and source 252. -/
def State.countZero (s : State) : State := ((s.countAt 0).setBit F.TBU_STAT_CAL_INV true).raise 252

theorem tbuStart_eq (s : State) : s.tbuStart =
    if (s.setBit F.TBU_STAT_STEP_ARM true).bit F.AON_STAT_CAL_VALID then (s.setBit F.TBU_STAT_STEP_ARM true).countAt (s.calSec * 10 ^ 9)
    else (s.setBit F.TBU_STAT_STEP_ARM true).countZero := by
  have hc : (s.setBit F.TBU_STAT_STEP_ARM true).calSec = s.calSec := by
    simp (disch := decide) only [State.calSec, State.fld64, fld_setBit_ne]
  rw [← hc]
  rfl

theorem countAt_spec (s : State) (n : Nat) : (s.countAt n).now = n ∧ Keeps fs s (s.countAt n) ∧ (s.countAt n).held = s.held ∧ (s.countAt n).aon = s.aon :=
  ⟨rfl, .parts (.refl _ s), rfl, rfl⟩

theorem countZero_spec (s : State) : s.countZero.now = 0 ∧ s.countZero.bit F.TBU_STAT_CAL_INV = true ∧ s.countZero.pends 252 = true ∧
    Keeps [F.TBU_STAT_STEP_ARM, F.SYS_RST_CAUSE_V] s s.countZero ∧ s.countZero.held = s.held ∧ s.countZero.aon = s.aon := by
  obtain ⟨h0, k, hh, ha⟩ := countAt_spec (fs := [F.TBU_STAT_STEP_ARM, F.SYS_RST_CAUSE_V]) s 0
  unfold State.countZero
  generalize s.countAt 0 = v at *
  have hb := bit_setBit_self v F.TBU_STAT_CAL_INV true (by decide) (by decide)
  have hv := (StartStep.refl [F.TBU_STAT_STEP_ARM, F.SYS_RST_CAUSE_V] v).setBit (f := F.TBU_STAT_CAL_INV) true
  have haon := setBit_aon (s := v) F.TBU_STAT_CAL_INV true
  generalize v.setBit F.TBU_STAT_CAL_INV true = w at *
  have hf := frame_raise w 252
  exact ⟨(hf.now.trans hv.now).trans h0, (hf.bit (by simp) (by decide)).trans hb, pends_raise w 252 (by decide) (by decide),
    (k.trans hv.keeps).raise 252, (hf.held.trans hv.held).trans hh, (hf.aon.trans haon).trans ha⟩

theorem tbuStart_spec (s : State) : s.CountFrom s.tbuStart ∧ Keeps [F.SYS_RST_CAUSE_V] s s.tbuStart ∧ s.tbuStart.held = s.held ∧ s.tbuStart.aon = s.aon := by
  have hv : (s.setBit F.TBU_STAT_STEP_ARM true).bit F.AON_STAT_CAL_VALID = s.bit F.AON_STAT_CAL_VALID := bit_setBit_ne _ _ _ _ (by decide)
  have ha : (s.setBit F.TBU_STAT_STEP_ARM true).bit F.TBU_STAT_STEP_ARM = true := bit_setBit_self _ _ _ (by decide) (by decide)
  have k : Keeps [F.SYS_RST_CAUSE_V] s (s.setBit F.TBU_STAT_STEP_ARM true) := (Keeps.refl _ s).setBit true
  have hh : (s.setBit F.TBU_STAT_STEP_ARM true).held = s.held := rfl
  have haon : (s.setBit F.TBU_STAT_STEP_ARM true).aon = s.aon := rfl
  rw [tbuStart_eq, hv]
  generalize s.setBit F.TBU_STAT_STEP_ARM true = w at *
  split_ifs with hc
  · obtain ⟨hn, hk, hh', haon'⟩ := countAt_spec (fs := [F.TBU_STAT_STEP_ARM, F.SYS_RST_CAUSE_V]) w (s.calSec * 10 ^ 9)
    exact ⟨⟨(hk.bit (by decide)).trans ha, fun _ => hn, fun h => absurd (h.symm.trans hc) (by decide)⟩, k.trans (hk.mono (by simp)), hh'.trans hh,
      haon'.trans haon⟩
  · obtain ⟨h0, hb, hp, hk, hheld, haon'⟩ := countZero_spec w
    exact ⟨⟨(hk.bit (by decide)).trans ha, fun h => absurd h hc, fun _ => ⟨h0, hb, hp⟩⟩, k.trans (hk.mono (by simp)), hheld.trans hh, haon'.trans haon⟩

/-! ## Lifetime store and status (R360, R390, R398) -/

theorem ltLoad_spec (s : State) : Keeps (F.SYS_RST_CAUSE_V :: countFields) s s.ltLoad ∧ s.ltLoad.now = s.now ∧ s.ltLoad.held = s.held ∧
    s.ltLoad.sys = s.sys ∧ s.ltLoad.aon.stuck = s.aon.stuck ∧ ∀ c, s.aon.newest = some c → s.ltLoad.aon.lt = c.body := by
  unfold State.ltLoad
  cases s.aon.newest with
  | none => exact ⟨.parts (.refl _ s), rfl, rfl, rfl, rfl, fun c h => by simp at h⟩
  | some c => exact ⟨Keeps.wr (.parts (.refl _ s)) _, rfl, rfl, rfl, rfl, fun c' h => by cases h; rfl⟩

/-- The lifetime store is loaded and counts the cause of the reset. -/
theorem ltLoad_countReset_spec (s : State) :
    Keeps countFields s s.ltLoad.countReset ∧ s.ltLoad.countReset.now = s.now ∧ s.ltLoad.countReset.held = s.held ∧
      s.ltLoad.countReset.sys = s.sys ∧ s.ltLoad.countReset.aon.stuck = s.aon.stuck ∧ ∀ c, s.aon.newest = some c →
        spGet 0 s.ltLoad.countReset.aon.lt.resets (s.fld F.SYS_RST_CAUSE_V) = spGet 0 c.body.resets (s.fld F.SYS_RST_CAUSE_V) + 1 := by
  obtain ⟨hk, hn, hh, hy, hs, hl⟩ := ltLoad_spec s
  have hc := hk.fields F.SYS_RST_CAUSE_V (by simp)
  generalize s.ltLoad = v at *
  refine ⟨(hk.mono (by simp)).parts, hn, hh, hy, hs, fun c h => ?_⟩
  have he : v.countReset.aon.lt.resets =
      spSet 0 v.aon.lt.resets (v.fld F.SYS_RST_CAUSE_V) (spGet 0 v.aon.lt.resets (v.fld F.SYS_RST_CAUSE_V) + 1) := rfl
  rw [he, ← hc, ← hl c h, spGet_spSet_self]

/-- The status that a start shows, behind the lifetime store. -/
def State.statusShown (s : State) : State :=
  (((s.tamperAtStart.setBit F.AON_STAT_BTN_STUCK s.aon.stuck).setBit F.RDU_STAT_UID s.sys.uid).setBit F.APW_STAT_FLT s.apw.fltLow).newNonce

theorem startCommon_eq (s : State) : s.startCommon = s.ltLoad.countReset.statusShown := rfl

/-- What a start shows of its count, the button and the strap. -/
def startFields : List RF := F.AON_STAT_BTN_STUCK :: F.RDU_STAT_UID :: countFields

theorem startStep_tamperAtStart (s : State) : StartStep startFields s s.tamperAtStart :=
  .ite (fun _ => .refl _ s) fun _ => ((StartStep.refl _ s).parts (.parts (.refl _ s))).raise 250

theorem startStep_newNonce (s : State) : StartStep startFields s s.newNonce :=
  StartStep.wr (StartStep.wr (.parts (.refl _ s) (.parts (.refl _ s))) _) _

theorem statusShown_spec (s : State) :
    StartStep countFields s s.statusShown ∧ s.statusShown.bit F.AON_STAT_BTN_STUCK = s.aon.stuck ∧ s.statusShown.bit F.RDU_STAT_UID = s.sys.uid := by
  have h0 := (startStep_tamperAtStart s).mono (gs := countFields) (by simp [startFields])
  unfold State.statusShown
  generalize s.tamperAtStart = v at *
  have h1 := h0.setBit (f := F.AON_STAT_BTN_STUCK) s.aon.stuck
  have hb := bit_setBit_self v F.AON_STAT_BTN_STUCK s.aon.stuck (by decide) (by decide)
  generalize v.setBit F.AON_STAT_BTN_STUCK s.aon.stuck = w at *
  have h2 := h1.setBit (f := F.RDU_STAT_UID) s.sys.uid
  have hu := bit_setBit_self w F.RDU_STAT_UID s.sys.uid (by decide) (by decide)
  have hb2 : (w.setBit F.RDU_STAT_UID s.sys.uid).bit F.AON_STAT_BTN_STUCK = s.aon.stuck := (bit_setBit_ne _ _ _ _ (by decide)).trans hb
  generalize w.setBit F.RDU_STAT_UID s.sys.uid = x at *
  have h3 : StartStep startFields x (x.setBit F.APW_STAT_FLT s.apw.fltLow).newNonce := ((StartStep.refl _ x).setBit _).trans (startStep_newNonce _)
  exact ⟨h2.trans (h3.mono (by simp [startFields])), (h3.keeps.bit (by decide)).trans hb2, (h3.keeps.bit (by decide)).trans hu⟩

theorem startStep_countUnder (s : State) : StartStep startFields s s.countUnder := .parts (.refl _ s) (.parts (.refl _ s))

theorem startStep_epochLoad (s : State) : StartStep startFields s s.epochLoad := (StartStep.refl _ s).wr _

/-! ## The recorder's directory in NV (R335) -/

/-- The bytes of NV that hold the copy of the directory. -/
abbrev outsideDir (a : Nat) : Prop := a < nvDirBase ∨ nvDirBase + 65536 ≤ a

theorem length_leBytes (n v : Nat) : (leBytes n v).length = n := by
  induction n generalizing v with
  | zero => rfl
  | succ n ih => simp [leBytes, ih]

theorem length_dirEnt (e : DirEnt) : e.bytes.length = 64 := by
  simp [DirEnt.bytes, DirEnt.body, length_leBytes]

/-- A held entry of the copy is closed and has lost its data. -/
def State.entryMark (s : State) (i : Nat) : State :=
  s.setMbytes (nvDirBase + 64 * i) ((((s.dirAt (nvDirBase + 64 * i)).with' fOpen false).with' fClosed true).with' fLost true).bytes

theorem drcNvMark_eq (s : State) : s.drcNvMark = (s.nvDirHeld.foldl State.entryMark s).raiseIf (!s.nvDirHeld.isEmpty) 215 := rfl

/-- The marks change the copy alone. -/
theorem foldl_entryMark (l : List Nat) (hl : ∀ i ∈ l, i < 1024) (s : State) :
    ∃ m, l.foldl State.entryMark s = { s with mem := m } ∧ ∀ a, outsideDir a → ({ s with mem := m } : State).mb a = s.mb a := by
  refine List.foldlRecOn l State.entryMark (motive := fun t => ∃ m, t = { s with mem := m } ∧ ∀ a, outsideDir a → ({ s with mem := m } : State).mb a = s.mb a)
    ⟨s.mem, rfl, fun _ _ => rfl⟩ fun t ht i hi => ?_
  obtain ⟨m, rfl, hm⟩ := ht
  refine ⟨_, rfl, fun a ha => (mb_setMbytes_ne _ _ _ ?_).trans (hm a ha)⟩
  have := hl i hi
  rw [length_dirEnt]
  simp only [outsideDir] at ha; omega

theorem lt_of_mem_nvDirHeld {i : Nat} (h : i ∈ s.nvDirHeld) : i < 1024 := by
  unfold State.nvDirHeld at h
  exact List.mem_range.1 (List.mem_filter.1 h).1

/-- The end of a start: everything but the NV copy of the directory stays, with source 215 where an entry was held. -/
theorem drcNvMark_spec (s : State) :
    ∃ m, StartStep startFields { s with mem := m } s.drcNvMark ∧ ∀ a, outsideDir a → ({ s with mem := m } : State).mb a = s.mb a := by
  obtain ⟨m, hm, hb⟩ := foldl_entryMark s.nvDirHeld (fun _ => lt_of_mem_nvDirHeld) s
  refine ⟨m, ?_, hb⟩
  rw [drcNvMark_eq, hm]
  exact .ite (fun _ => (StartStep.refl _ _).raise 215) fun _ => .refl _ _

/-! ## The start -/

/-- The strap is sampled (R6). -/
def State.sampled (s : State) (uid : Bool) : State := { s with sys := { s.sys with uid := uid } }

theorem powerStart_eq (hh : s.held = false) (hd : s.sys.porDone = true) (uid : Bool) :
    s.powerStart uid = ((s.sampled uid).tbuStart.startCommon.countUnder.epochLoad).drcNvMark := if_neg (by simp [hh, hd])

/-- A start that nothing holds back. -/
theorem started_powerStart (hh : s.held = false) (hd : s.sys.porDone = true) (uid : Bool) : Started uid s (s.powerStart uid) := by
  rw [powerStart_eq hh hd, startCommon_eq]
  obtain ⟨hcount, hk1, hh1, ha1⟩ := tbuStart_spec (s.sampled uid)
  have hv : s.CountFrom (s.sampled uid).tbuStart := hcount
  have hmem1 : SameMem s (s.sampled uid).tbuStart := hk1.mem
  have huid1 : (s.sampled uid).tbuStart.sys.uid = uid := hk1.uid
  have hcause1 : (s.sampled uid).tbuStart.fld F.SYS_RST_CAUSE_V = s.fld F.SYS_RST_CAUSE_V := hk1.fields _ (by simp)
  have hheld1 : (s.sampled uid).tbuStart.held = false := hh1.trans hh
  have haon1 : (s.sampled uid).tbuStart.aon = s.aon := ha1
  generalize (s.sampled uid).tbuStart = v at *
  obtain ⟨hk2, hn2, hh2, hy2, hs2, hr2⟩ := ltLoad_countReset_spec v
  rw [hcause1, haon1] at hr2
  generalize v.ltLoad.countReset = w at *
  obtain ⟨hst3, hb3, hu3⟩ := statusShown_spec w
  generalize w.statusShown = x at *
  have hst4 : StartStep startFields x x.countUnder.epochLoad := (startStep_countUnder x).trans (startStep_epochLoad _)
  generalize x.countUnder.epochLoad = y at *
  obtain ⟨m, hst5, hm⟩ := drcNvMark_spec y
  generalize y.drcNvMark = z at *
  have hm' : ∀ f : RF, ({ y with mem := m } : State).bit f = y.bit f := fun _ => rfl
  have hsys : ({ y with mem := m } : State).sys = y.sys := rfl
  have hlt : ({ y with mem := m } : State).aon = y.aon := rfl
  have hheld : ({ y with mem := m } : State).held = y.held := rfl
  have hc4 : s.CountFrom { y with mem := m } :=
    (((hv.keep hk2 hn2).step hst3).step (hst4.mono (by simp [startFields]))).withMem m
  generalize ({ y with mem := m } : State) = y' at *
  obtain ⟨harm, hvalid, hinv⟩ := hc4.step (hst5.mono (by simp [startFields]))
  have huid : y.sys.uid = uid := by rw [hst4.keeps.uid, hst3.keeps.uid, hy2, huid1]
  refine ⟨?_, ?_, ?_, ?_, harm, hvalid, hinv, fun c h => ?_, fun a ha => ?_⟩
  · rw [hst5.held, hheld, hst4.held, hst3.held, hh2, hheld1]
  · rw [hst5.keeps.uid, hsys, huid]
  · rw [hst5.keeps.bit (by decide), hm', hst4.keeps.bit (by decide), hu3, hy2, huid1]
  · rw [hst5.keeps.bit (by decide), hm', hst4.keeps.bit (by decide), hb3, hs2, haon1]
  · rw [hst5.resets, hlt, hst4.resets, hst3.resets]; exact hr2 c h
  · rw [hst5.keeps.mem, hm a ha, hst4.keeps.mem, hst3.keeps.mem, hk2.mem, hmem1]

/-! ## The commands -/

/-- A start is told from registers, memory and the always-on domain of the state before: what holds the die is not part of it. -/
theorem Started.withSys {uid : Bool} (y : SysSt) (h : Started uid { s with sys := y } t) : Started uid s t := h

/-- PORST_N rises. -/
def State.porstUp (s : State) : State := { s with sys := { s.sys with porstLow := false } }

/-- The die is cold again. -/
def State.cooled (s : State) : State := { s with sys := { s.sys with thermal := false } }

theorem railBack_eq (s : State) (r : Rail) : ∃ y, s.railBack r = { s with sys := y } ∧ y.porDone = s.sys.porDone := by
  cases r <;> exact ⟨_, rfl, rfl⟩

/-- Only the pins that hold the die say whether it is held once rail `r` is back. -/
theorem held_railBack_of_pins (r : Rail) (h : t.sys.porstLow = s.sys.porstLow ∧ t.sys.thermal = s.sys.thermal ∧ t.sys.rails = s.sys.rails ∧
    t.sys.vsafLost = s.sys.vsafLost ∧ t.sys.vcoreLost = s.sys.vcoreLost) : (t.railBack r).held = (s.railBack r).held := by
  obtain ⟨h1, h2, h3, h4, h5⟩ := h
  cases r <;> simp only [State.railBack, State.held, h1, h2, h3, h4, h5]

/-- A power-on reset of a held die leaves what holds it. -/
theorem pins_powerOn (hd : s.sys.porDone = false) (hh : s.held = true) (code : Nat) :
    (s.powerOn code).sys.porstLow = s.sys.porstLow ∧ (s.powerOn code).sys.thermal = s.sys.thermal ∧ (s.powerOn code).sys.rails = s.sys.rails ∧
      (s.powerOn code).sys.vsafLost = s.sys.vsafLost ∧ (s.powerOn code).sys.vcoreLost = s.sys.vcoreLost := by
  obtain ⟨f, hf⟩ := powerOn_held_eq hd hh code
  rw [hf]
  exact ⟨rfl, rfl, rfl, rfl, rfl⟩

theorem held_of_railLost {r : Rail} (h : s.railLost r = true) : s.held = true := by
  cases hh : s.held with
  | true => rfl
  | false =>
    obtain ⟨-, -, hr, hv, hc⟩ := held_iff.1 hh
    cases r <;> simp [State.railLost, hr, hv, hc] at h

theorem held_of_porstLow (h : s.sys.porstLow = true) : s.held = true := by simp [State.held, h]

/-- A reset of this hold, then the end of what still held the die, then the start. -/
theorem started_after_powerOn {code : Nat} (hd : s.sys.porDone = false) (hh : s.held = true) (hc : code < 16) {y : SysSt} (hy : y.porDone = true)
    (hl : ({ s.powerOn code with sys := y } : State).held = false) (uid : Bool) :
    ∃ v, PowerReset code s v ∧ Started uid v (({ s.powerOn code with sys := y } : State).powerStart uid) :=
  ⟨s.powerOn code, (powerReset_powerOn hd hh hc).1, (started_powerStart hl hy uid).withSys y⟩

/-- What follows the rise of PORST_N. -/
def State.pinReleased (s : State) (uid : Bool) : State :=
  if s.held then s else if s.sys.porDone then s.powerStart uid else { s with sys := { s.sys with porDone := true } }

/-- The pulse as it counts: a free value decides where it was short. -/
def State.pulseCounts (s : State) : Bool := s.freeBool.1 || decide (s.sys.porstAt + 10000 ≤ s.mono)

theorem exec_porstRelease (h : s.sys.porstLow = true) (time : Nat) (uid : Bool) : exec (.porstRelease time uid) s =
    .next (((s.tick time).freeBool.2.when (s.tick time).pulseCounts (·.porLate 1)).porstUp.pinReleased uid) :=
  congrArg Host.Outcome.next (if_pos h)

theorem porLate_of_done (h : s.sys.porDone = true) (code : Nat) : s.porLate code = s := if_pos h
theorem porLate_of_not_done (h : s.sys.porDone = false) (code : Nat) : s.porLate code = s.powerOn code := if_neg (by simp [h])

theorem pinReleased_of_done (hh : s.held = false) (hd : s.sys.porDone = true) (uid : Bool) : s.pinReleased uid = s.powerStart uid := by
  rw [State.pinReleased, if_neg (by simp [hh]), if_pos hd]

theorem pinReleased_of_not_done (hh : s.held = false) (hd : s.sys.porDone = false) (uid : Bool) :
    s.pinReleased uid = { s with sys := { s.sys with porDone := true } } := by
  rw [State.pinReleased, if_neg (by simp [hh]), if_neg (by simp [hd])]

/-- PORST_N rises after the reset of its hold: the unit starts. -/
theorem porstRelease_done (hl : s.porstUp.held = false) (hd : s.sys.porDone = true) (b : Bool) (uid : Bool) :
    Started uid s (((s.when b (·.porLate 1)).porstUp).pinReleased uid) := by
  have hw : s.when b (·.porLate 1) = s := by
    cases b with
    | false => rfl
    | true => exact porLate_of_done hd 1
  rw [hw, pinReleased_of_done hl hd]
  exact started_powerStart (s := s.porstUp) hl hd uid

/-- PORST_N rises in a hold without a reset so far: the pulse counts, or registers and memory stay. -/
theorem porstRelease_late (h : s.sys.porstLow = true) (hl : s.porstUp.held = false) (hd : s.sys.porDone = false) (b : Bool) (uid : Bool) :
    (∃ v, PowerReset 1 s v ∧ Started uid v (((s.when b (·.porLate 1)).porstUp).pinReleased uid)) ∨
      (b = false ∧ (((s.when b (·.porLate 1)).porstUp).pinReleased uid).held = false ∧
        (((s.when b (·.porLate 1)).porstUp).pinReleased uid).regs = s.regs ∧ (((s.when b (·.porLate 1)).porstUp).pinReleased uid).mem = s.mem) := by
  have hh := held_of_porstLow h
  cases b with
  | false =>
    refine .inr ⟨rfl, ?_⟩
    have hw : (s.when false (·.porLate 1)).porstUp = s.porstUp := rfl
    rw [hw, pinReleased_of_not_done hl hd]
    exact ⟨hl, rfl, rfl⟩
  | true =>
    have hw : s.when true (·.porLate 1) = s.powerOn 1 := porLate_of_not_done hd 1
    obtain ⟨-, h2, h3, h4, h5⟩ := pins_powerOn hd hh 1
    have hup : (s.powerOn 1).porstUp.held = false := by
      rw [← hl]
      simp only [State.porstUp, State.held, h2, h3, h4, h5]
    have hdone : (s.powerOn 1).porstUp.sys.porDone = true := (powerReset_powerOn hd hh (by decide)).2
    rw [hw, pinReleased_of_done hup hdone]
    exact .inl (started_after_powerOn hd hh (by decide) hdone hup uid)

theorem porCode_lt (c : PorCause) : porCode c < 16 := by
  rcases c with _ | _ | r
  · decide
  · decide
  · cases r <;> decide

/-- Rail `r` comes back as the last cause of a hold. -/
theorem supplyRecovery_done {r : Rail} (hl : (s.railBack r).held = false) (hd : s.sys.porDone = true) (code : Nat) (uid : Bool) :
    Started uid s (((s.porLate code).railBack r).powerStart uid) := by
  obtain ⟨y, hy, hyd⟩ := railBack_eq s r
  rw [porLate_of_done hd, hy]
  rw [hy] at hl
  exact (started_powerStart hl (hyd.trans hd) uid).withSys y

theorem supplyRecovery_late {r : Rail} (hr : s.railLost r = true) (hl : (s.railBack r).held = false) (hd : s.sys.porDone = false) {code : Nat}
    (hc : code < 16) (uid : Bool) : ∃ v, PowerReset code s v ∧ Started uid v (((s.porLate code).railBack r).powerStart uid) := by
  have hh := held_of_railLost hr
  have hback := (held_railBack_of_pins r (pins_powerOn hd hh code)).trans hl
  obtain ⟨y, hy, hyd⟩ := railBack_eq (s.powerOn code) r
  rw [porLate_of_not_done hd]
  rw [hy] at hback ⊢
  exact started_after_powerOn hd hh hc (hyd.trans (powerReset_powerOn hd hh hc).2) hback uid

/-- Settles O39: the end of a hold brings its power-on reset where it is still to come, and starts the unit. -/
theorem endsOfHoldsStartTheUnit : Obligations.EndsOfHoldsStartTheUnit := by
  unfold Obligations.EndsOfHoldsStartTheUnit
  intro s time uid r
  have hback : ((s.tick time).railBack r).held = (s.railBack r).held := held_railBack_of_pins r ⟨rfl, rfl, rfl, rfl, rfl⟩
  refine ⟨fun h hl => ⟨fun hd => ?_, fun hd => ?_⟩, fun h hl hd => ?_, fun hr hl hd => ?_, fun hr hl hd => ?_⟩
  · exact ⟨_, exec_porstRelease h time uid, porstRelease_done (s := (s.tick time).freeBool.2) hl hd _ uid⟩
  · refine ⟨_, exec_porstRelease h time uid, ?_⟩
    rcases porstRelease_late (s := (s.tick time).freeBool.2) h hl hd (s.tick time).pulseCounts uid with hv | ⟨hb, hrest⟩
    · exact .inl hv
    · refine .inr ⟨?_, hrest⟩
      exact Nat.lt_of_not_le (of_decide_eq_false (Bool.or_eq_false_iff.1 hb).2)
  · exact ⟨_, congrArg Host.Outcome.next (if_pos h), (started_powerStart (s := (s.tick time).cooled) hl hd uid).withSys _⟩
  · exact ⟨_, congrArg Host.Outcome.next (if_pos hr), supplyRecovery_done (s := s.tick time) (hback.trans hl) hd _ uid⟩
  · exact ⟨_, congrArg Host.Outcome.next (if_pos hr), supplyRecovery_late (s := s.tick time) hr (hback.trans hl) hd (porCode_lt _) uid⟩

end Sys2Proof.Machine
end

section
/-! What leaves the course of the cycles alone: the count, the timing of the cycles and the unit's orders for its next send point. One equation
per operation, so that a chain of them is read through by rewriting. -/

namespace Sys2Proof.Machine

/-- The course of the cycles: the count, the timing of the cycles, and what the unit is to do with the lease at a send point; with `sigs` also
the signal map as consumers see it. -/
structure Course where
  now : Nat
  cyc : CycSt
  backToInit : Bool
  giveUp : Bool
  eqxN : Option Nat
  sendFrom : Nat
  map : Option (Sparse (BitVec 32) × Sparse Bool)

def State.course (s : State) (sigs : Bool) : Course :=
  ⟨s.now, s.cyc, s.rdu.backToInit, s.rdu.giveUp, s.rdu.eqxN, s.rdu.sendFrom, if sigs then some (s.sig, s.sigUnc) else none⟩

section
variable {s t : State} {b : Bool}

theorem now_of_course (h : t.course b = s.course b) : t.now = s.now := congrArg Course.now h
theorem cyc_of_course (h : t.course b = s.course b) : t.cyc = s.cyc := congrArg Course.cyc h
theorem backToInit_of_course (h : t.course b = s.course b) : t.rdu.backToInit = s.rdu.backToInit := congrArg Course.backToInit h
theorem giveUp_of_course (h : t.course b = s.course b) : t.rdu.giveUp = s.rdu.giveUp := congrArg Course.giveUp h
theorem eqxN_of_course (h : t.course b = s.course b) : t.rdu.eqxN = s.rdu.eqxN := congrArg Course.eqxN h
theorem sendFrom_of_course (h : t.course b = s.course b) : t.rdu.sendFrom = s.rdu.sendFrom := congrArg Course.sendFrom h

/-- What consumers of the signal map see. -/
theorem sig_of_course (h : t.course true = s.course true) : t.sig = s.sig ∧ t.sigUnc = s.sigUnc :=
  Prod.mk.inj (Option.some.inj (congrArg Course.map h))

/-- A frame leaves the course. -/
theorem Frame.course {rs es ks : List Nat} (h : Frame rs es ks s t) : t.course b = s.course b :=
  show t.bare.course b = s.bare.course b by rw [h.bare]

/-- So does a step of the safety unit. -/
theorem SafetyStep.course {rs es : List Nat} (h : SafetyStep rs es s t) : t.course b = s.course b := h.frame.course

end

variable (s : State) (b : Bool)

/-! ## Basic operations -/

@[simp] theorem course_wr (a : Nat) (v : BitVec 32) : (s.wr a v).course b = s.course b := rfl
@[simp] theorem course_setFld (f : RF) (x : Nat) : (s.setFld f x).course b = s.course b := rfl
@[simp] theorem course_setBit (f : RF) (v : Bool) : (s.setBit f v).course b = s.course b := rfl
@[simp] theorem course_inc (f : RF) : (s.inc f).course b = s.course b := rfl
@[simp] theorem course_addFld (f : RF) (n : Nat) : (s.addFld f n).course b = s.course b := rfl
@[simp] theorem course_setFbit (f : RF) (i : Nat) (v : Bool) : (s.setFbit f i v).course b = s.course b := rfl
@[simp] theorem course_raiseKey (n key : Nat) : (s.raiseKey n key).course b = s.course b :=
  ((((Frame.refl [] [n] [] s).free _).free _).raiseWith _ _ _ (by simp)).course
@[simp] theorem course_raise (n : Nat) : (s.raise n).course b = s.course b := course_raiseKey s b n _
@[simp] theorem course_sendFco (region inst unit kind : Nat) (level qual : Option Nat) :
    (s.sendFco region inst unit kind level qual).course b = s.course b :=
  ((Frame.refl [] [] [kind % 256] s).sendFco _ _ _ _ _ _ (by simp)).course
@[simp] theorem course_setMbytes (a : Nat) (bs : List Byte) : (s.setMbytes a bs).course b = s.course b := rfl
@[simp] theorem course_setMb (a : Nat) (v : Byte) : (s.setMb a v).course b = s.course b := rfl
@[simp] theorem course_setMw (a : Nat) (v : BitVec 32) : (s.setMw a v).course b = s.course b := by
  rw [State.setMw, setMle_eq]; rfl
@[simp] theorem course_setEng (n : Nat) (x : Eng) : (s.setEng n x).course b = s.course b := rfl
@[simp] theorem course_setPort (n : Nat) (p : Port) : (s.setPort n p).course b = s.course b := rfl
@[simp] theorem course_setSmr (a : Nat) (r : SmRec) : (s.setSmr a r).course b = s.course b := rfl
@[simp] theorem course_setArm (m : Nat) (x : ArmSt) : (s.setArm m x).course b = s.course b := rfl
@[simp] theorem course_setPlan (m : Nat) (x : ArmPlan) : (s.setPlan m x).course b = s.course b := rfl
@[simp] theorem course_setClus (i : Nat) (x : CluSlot) : (s.setClus i x).course b = s.course b := rfl
@[simp] theorem course_setDs (c : Nat) (x : DsCh) : (s.setDs c x).course b = s.course b := rfl
@[simp] theorem course_setLt (f : Lifetime → Lifetime) : (s.setLt f).course b = s.course b := rfl

@[simp] theorem course_cfg_drc (c : CfgSt) (d : DrcSt) : ({ s with cfg := c, drc := d } : State).course b = s.course b := rfl
@[simp] theorem course_cfc (c : CfcSt) : ({ s with cfc := c } : State).course b = s.course b := rfl

/-- A choice between two states that have the course alike. -/
@[simp] theorem course_ite (c : Prop) [Decidable c] (t u : State) :
    (if c then t else u).course b = if c then t.course b else u.course b := apply_ite (State.course · b) c t u

@[simp] theorem course_when (c : Bool) (f : State → State) : (s.when c f).course b = if c then (f s).course b else s.course b := by
  unfold State.when; simp

/-- Steps that each leave the course leave it all together. -/
theorem course_foldl {α : Type} {f : State → α → State} {l : List α} (h : ∀ s x, (f s x).course b = s.course b) :
    (l.foldl f s).course b = s.course b :=
  List.foldlRecOn l f (motive := fun t => t.course b = s.course b) rfl fun t ht x _ => (h t x).trans ht

end Sys2Proof.Machine
end

section
/-! The course of the cycles through a P0 release (R37): each unit's work at P0 leaves the count and the timing of the cycles alone, but for the
computations that masking makes overruns (R206). -/

namespace Sys2Proof.Machine

variable (s : State) (b : Bool)

/-! ## Shared operations of the units -/

@[simp] theorem course_armFlag (m : Nat) (f : Nat → RF) : (s.armFlag m f).course b = s.course b := by
  unfold State.armFlag; simp
@[simp] theorem course_armFlagIf (c : Bool) (m : Nat) (f : Nat → RF) : (s.armFlagIf c m f).course b = s.course b := by
  unfold State.armFlagIf; simp
@[simp] theorem course_armShow (m : Nat) (acc : BitVec 64) (n0 : Int) (neg : Bool) : (s.armShow m acc n0 neg).course b = s.course b := rfl
@[simp] theorem course_msuFlag (f : RF) (n : Nat) : (s.msuFlag f n).course b = s.course b := by
  unfold State.msuFlag; simp
@[simp] theorem course_refreshReady : s.refreshReady.course b = s.course b := rfl
@[simp] theorem course_armsOff : s.armsOff.course b = s.course b := course_foldl _ _ fun _ _ => rfl
@[simp] theorem course_sigSet (i : Nat) (v : BitVec 32) : (s.sigSet i v).course false = s.course false := by
  unfold State.sigSet; rw [course_ite]; exact ite_self _

/-! ## A live update (R376) -/

@[simp] theorem course_reidentPort (n : Nat) : (s.reidentPort n).course b = s.course b := by
  unfold State.reidentPort; simp
@[simp] theorem course_newSerial (old : BitVec 56) (a : Nat) : (s.newSerial old a).course b = s.course b := by
  unfold State.newSerial; simp
@[simp] theorem course_liveSm (sm : Sparse (BitVec 64)) : (s.liveSm sm).course b = s.course b := by
  unfold State.liveSm
  exact course_foldl _ _ fun t x => by simp
@[simp] theorem course_safeStop (cause : Nat) : (s.safeStop cause).course b = s.course b := (safetyStep_safeStop s cause).course
@[simp] theorem course_singleTech : s.singleTech.course b = s.course b := (safetyStep_singleTech s).course
@[simp] theorem course_sfsRefresh : s.sfsRefresh.course b = s.course b := by
  unfold State.sfsRefresh; simp
@[simp] theorem course_apwAll : s.apwAll.course b = s.course b := course_foldl _ _ fun _ _ => rfl
@[simp] theorem course_injectLane (on : Bool) (l : Nat) : (s.injectLane on l).course b = s.course b := by
  unfold State.injectLane
  rw [course_ite, course_ite]
  exact (ite_congr rfl (fun _ => ite_self _) fun _ => rfl).trans (ite_self _)
@[simp] theorem course_injectAll (on : Bool) : (s.injectAll on).course b = s.course b := course_foldl _ _ fun t l => course_injectLane t b on l
@[simp] theorem course_tellBlock (cause : Nat) : (s.tellBlock cause).course b = s.course b := by
  unfold State.tellBlock; rw [course_ite]; exact ite_self _
@[simp] theorem course_blockBegun : s.blockBegun.course b = s.course b := by
  have hit (t : State) : (t.safetyHit 1).course b = t.course b := rfl
  simp [State.blockBegun, hit]
@[simp] theorem course_safeBlock (cause : Nat) : (s.safeBlock cause).course b = s.course b := by
  have htold : (s.hblTold cause).course b = s.course b := rfl
  have hshown (t : State) : (t.blockShown cause).course b = t.course b := rfl
  unfold State.safeBlock
  rw [blockNow_eq]
  simp [htold, hshown]
@[simp] theorem course_actDemand (p : Nat) : (s.actDemand p).course b = s.course b := by
  unfold State.actDemand; simp
@[simp] theorem course_safetyLoad (crc : Option (BitVec 32)) : (s.safetyLoad crc).course b = s.course b := by
  have hload (t : State) : t.hblLoad.course b = t.course b := rfl
  unfold State.safetyLoad
  refine (course_foldl _ _ fun t p => course_actDemand t b p).trans ?_
  simp only [course_sfsRefresh, course_setBit, hload]
  rfl
@[simp] theorem course_partnerDiff : s.partnerDiff.course b = s.course b := by
  unfold State.partnerDiff; simp
@[simp] theorem course_scpRestart : s.scpRestart.course b = s.course b := by
  unfold State.scpRestart; rw [course_sfsRefresh]; rfl
@[simp] theorem course_liveApply (p : Nat) : (s.liveApply p).course b = s.course b := by
  unfold State.liveApply
  extract_lets i v w rec' d c x
  have hv : v.course b = s.course b := course_liveSm s b _
  have hw : w.course b = s.course b := (course_foldl _ _ fun t e => by split <;> rfl).trans hv
  have hx : x.course b = s.course b := by simp [x, hw]
  clear_value x
  simp [hx]
@[simp] theorem course_liveP0 : s.liveP0.course b = s.course b := by
  unfold State.liveP0
  split
  · dsimp only
    split <;> simp
  · rfl

/-! ## Engines and masks (R206, R207) -/

@[simp] theorem course_masksP0 : s.masksP0.course b = s.course b := by
  unfold State.masksP0
  exact course_foldl _ _ fun t c => by simp
@[simp] theorem course_clusterSwap (c : Nat) (late : Bool) : (s.clusterSwap c late).course b = s.course b := by
  unfold State.clusterSwap
  simp only [course_raise, course_setFld, course_setBit]
  rfl
@[simp] theorem course_swapsDue (cyc : Nat) : (s.swapsDue cyc).course b = s.course b :=
  course_foldl _ _ fun t c => by split <;> simp
@[simp] theorem course_qSync : s.qSync.course b = s.course b := (frame_qSync s).course

/-! ## Measurements (R212, R228) -/

@[simp] theorem course_calChannel (c : Nat) (r0 r1 : Int) : (s.calChannel c r0 r1).course b = s.course b := by
  unfold State.calChannel; simp
@[simp] theorem course_calStep : s.calStep.course b = s.course b := by
  unfold State.calStep
  split
  · rfl
  · refine course_foldl _ _ fun t c => ?_
    dsimp only
    split
    · split
      · simp only [course_calChannel, course_setDs]; rfl
      · rfl
    · rfl
@[simp] theorem course_psiShow (i : Nat) : (s.psiShow i).course b = s.course b := by
  unfold State.psiShow
  split
  · dsimp only
    rw [course_ite, course_msuFlag]
    exact ite_self _
  · rfl
@[simp] theorem course_snapshot : s.snapshot.course false = s.course false := by
  unfold State.snapshot
  refine (course_foldl _ _ fun t i => by simp).trans ?_
  refine (course_foldl _ _ fun t w => by simp).trans ?_
  refine (course_foldl _ _ fun t c => by split <;> simp).trans ?_
  exact (course_foldl _ _ fun t i => course_psiShow t false i).trans (course_calStep s false)
@[simp] theorem course_sigTbu (k : Nat) : (s.sigTbu k).course false = s.course false := by
  simp [State.sigTbu]

/-! ## The mirror (R292, R293) -/

@[simp] theorem course_mirAdvance (j : Nat) : (s.mirAdvance j).course b = s.course b :=
  course_foldl _ _ fun _ _ => rfl
@[simp] theorem course_armApply (rs : List ArmRec) (m : Nat) : (s.armApply rs m).course b = s.course b := by
  unfold State.armApply
  split <;> simp
@[simp] theorem course_cluApply (m : CluRec) : (s.cluApply m).course b = s.course b := by
  simp [State.cluApply]
@[simp] theorem course_keysApply (a : Nat) (ks : List (BitVec 16)) : (s.keysApply a ks).course b = s.course b :=
  course_foldl _ _ fun _ _ => rfl
@[simp] theorem course_mirrorApply (j : Nat) (m : Mirror) : (s.mirrorApply j m).course false = s.course false := by
  unfold State.mirrorApply
  extract_lets n s1 s2 s3 s4 s5 s6 s7 s8
  have h1 : s1.course false = s.course false := course_foldl _ _ fun _ _ => rfl
  have h2 : s2.course false = s.course false :=
    (course_foldl _ _ fun t x => show (t.transApply x).course false = t.course false from rfl).trans h1
  have h3 : s3.course false = s.course false := (course_foldl _ _ fun t x => course_armApply t _ _ x).trans h2
  have h4 : s4.course false = s.course false := (course_foldl _ _ fun t x => course_cluApply t _ x).trans h3
  have h5 : s5.course false = s.course false := (course_foldl _ _ fun t x => course_sigSet t _ _).trans h4
  have h6 : s6.course false = s.course false :=
    (course_foldl _ _ fun t x => course_foldl _ _ fun u y => course_setMw u _ _ _).trans h5
  have h7 : s7.course false = s.course false := by
    unfold s7
    split
    · exact (course_keysApply _ _ _ _).trans h6
    · exact h6
  exact h7
@[simp] theorem course_mirrorMissing : s.mirrorMissing.course b = s.course b := by
  unfold State.mirrorMissing
  rw [course_ite]
  refine (ite_congr rfl (fun _ => ?_) fun _ => rfl).trans (ite_self _)
  exact course_raise _ b 188
@[simp] theorem course_mirrorP0 (j : Nat) : (s.mirrorP0 j).course false = s.course false := by
  have hin (l : List MirIn) : ({ s with rdu := { s.rdu with mirIn := l } } : State).course false = s.course false := rfl
  unfold State.mirrorP0
  dsimp only
  split <;> simp [hin]
@[simp] theorem course_coldStart : s.coldStart.course b = s.course b := by
  unfold State.coldStart
  rw [course_ite, course_armsOff]
  exact ite_self _
@[simp] theorem course_supplyReports (k : Nat) : (s.supplyReports k).course b = s.course b := by
  unfold State.supplyReports
  rw [course_ite]
  refine (ite_congr rfl (fun _ => ?_) fun _ => rfl).trans (ite_self _)
  refine course_foldl _ _ fun t a => ?_
  split
  · split <;> rfl
  · rfl

/-! ## The MDU (R138, R139) -/

@[simp] theorem course_condNote (a cause : Nat) (frozen : Bool) : (s.condNote a cause frozen).course b = s.course b := rfl
@[simp] theorem course_unassignP0 : s.unassignP0.course b = s.course b :=
  course_foldl _ _ fun t a => by simp
@[simp] theorem course_smP0 (k a : Nat) (p : ArmPar) : (s.smP0 k a p).1.course false = s.course false := by
  unfold State.smP0
  extract_lets r0 r1 rep mis sup r v chg w
  split
  · have hv : v.course false = s.course false := by
      cases hr : rep <;> simp [v, hr]
    have hw : w.course false = s.course false := by simp [w, hv]
    exact hw
  · rfl

/-- The members of an arm take their reports one after the other. -/
theorem course_smsP0 (k : Nat) (p : ArmPar) (as : List Nat) (s : State) (o : Bool) (n : Nat) :
    (as.foldl (fun (x : State × Bool × Nat) a =>
      let (s, c, w) := x.1.smP0 k a p
      (s, x.2.1 || c, x.2.2 + (if w then 1 else 0))) (s, o, n)).1.course false = s.course false :=
  List.foldlRecOn as _ (motive := fun x => x.1.course false = s.course false) rfl
    fun (x : State × Bool × Nat) hx a _ => (course_smP0 x.1 k a p).trans hx

@[simp] theorem course_armP0 (k m : Nat) : (s.armP0 k m).course false = s.course false := by
  have h := course_smsP0 k (s.armPar m) (s.members m) s false 0
  unfold State.armP0
  dsimp only at h ⊢
  generalize List.foldl _ _ _ = r at h ⊢
  simp [h]
@[simp] theorem course_mduP0 (k : Nat) : (s.mduP0 k).course false = s.course false := by
  unfold State.mduP0
  exact (course_foldl _ _ fun t m => course_armP0 t k m).trans (course_unassignP0 _ _)

/-! ## The CLU (R183, R184) -/

@[simp] theorem course_setCoef (i : Nat) (c : List (BitVec 32)) : (s.setCoef i c).course b = s.course b :=
  course_foldl _ _ fun _ _ => rfl
@[simp] theorem course_setNen : s.setNen.course b = s.course b := rfl
@[simp] theorem course_cluCommit (i : Nat) : (s.cluCommit i).course b = s.course b := by
  unfold State.cluCommit
  extract_lets new x v y e old auto coef int
  have hv : v.course b = s.course b := rfl
  clear_value v
  split
  · simp [hv]
  · split
    split
    simp [hv]
@[simp] theorem course_cluP0Slot (cyc i : Nat) : (s.cluP0Slot cyc i).course b = s.course b := by
  unfold State.cluP0Slot
  extract_lets x y v z due sp w
  have hv : v.course b = s.course b := by simp [v]
  have hw : w.course b = s.course b := by simp [w, hv]
  clear_value due
  cases due <;> simp [hv, hw]
@[simp] theorem course_cluP0 (cyc : Nat) : (s.cluP0 cyc).course b = s.course b := by
  unfold State.cluP0
  refine (course_foldl _ _ fun t i => course_cluP0Slot t b cyc i).trans ?_
  rw [course_setBit]
  exact (course_foldl _ _ fun t i => by simp).trans rfl

/-! ## Winter (R362) -/

@[simp] theorem course_setWinRdy (cb : Bool) (i : Nat) (v : Bool) : (s.setWinRdy cb i v).course b = s.course b := by
  unfold State.setWinRdy; simp
@[simp] theorem course_winEnter : s.winEnter.course b = s.course b := by
  unfold State.winEnter
  refine (course_foldl _ _ fun t i => by simp).trans ?_
  exact (course_foldl _ _ fun t i => by simp).trans rfl

/-! ## The recorder (R325 to R335) -/

@[simp] theorem course_free32Or (o : Option (BitVec 32)) : (s.free32Or o).2.course b = s.course b := by
  cases o <;> rfl
@[simp] theorem course_measure (xs : List (Nat × BitVec 32)) : (s.measure xs).2.course b = s.course b := by
  unfold State.measure
  extract_lets fx per n mn mx den sum sq five
  clear_value five
  split
  · simp only [course_free32Or]
  · rfl
@[simp] theorem course_measWrite (i : Nat) : (s.measWrite i).course b = s.course b :=
  course_foldl _ _ fun t _ => course_measure t b _
@[simp] theorem course_setDir (i : Nat) (e : DirEnt) : (s.setDir i e).course b = s.course b := by
  unfold State.setDir
  have hn (t : State) : t.ndir.course b = t.course b := rfl
  simp [hn]
@[simp] theorem course_drcClose (pfail : Bool) : (s.drcClose pfail).course b = s.course b := by
  unfold State.drcClose
  split
  · rfl
  · simp
@[simp] theorem course_drcCtl : s.drcCtl.course b = s.course b := by
  unfold State.drcCtl
  simp
@[simp] theorem course_truncate (gone left : List DrcBlk) : (s.truncate gone left).course b = s.course b := by
  unfold State.truncate
  rw [course_ite]
  refine (ite_congr rfl (fun _ => rfl) fun _ => ?_).trans (ite_self _)
  exact course_foldl _ _ fun t i => by simp
@[simp] theorem course_streamWrite (o : Nat) (bs : List Byte) : (s.streamWrite o bs).course b = s.course b := by
  induction bs generalizing s o with
  | nil => rfl
  | cons x bs ih => rw [State.streamWrite, ih, course_setMb]
@[simp] theorem course_drcRecord (k : Nat) (xs : List (Nat × BitVec 32)) : (s.drcRecord k xs).course b = s.course b := by
  unfold State.drcRecord
  extract_lets key rs last d v bs o n size
  have hv : v.course b = s.course b := rfl
  clear_value v
  split
  · exact hv
  · split
    simp [hv]
@[simp] theorem course_trigger (k c : Nat) (units : BitVec 32) (evt : Nat) : (s.trigger k c units evt).course b = s.course b := by
  unfold State.trigger
  extract_lets t endT
  split
  · extract_lets e v
    have hv : v.course b = s.course b := course_setDir _ _ _ _
    rw [course_ite]
    exact (ite_congr rfl (fun _ => hv) fun _ => hv).trans (ite_self _)
  · split
    · simp
    · split
      split
      simp
@[simp] theorem course_drcTriggers (k : Nat) (xs : List (Nat × BitVec 32)) : (s.drcTriggers k xs).course b = s.course b := by
  unfold State.drcTriggers
  dsimp only
  split
  · exact (course_trigger _ _ _ _ _ _).trans rfl
  · rfl
@[simp] theorem course_measTake (k : Nat) (xs : List (Nat × BitVec 32)) : (s.measTake k xs).course b = s.course b := by
  unfold State.measTake
  split
  · rfl
  · dsimp only
    rw [course_ite]
    exact ite_self _
@[simp] theorem course_maskCheck (k : Nat) (xs : List (Nat × BitVec 32)) (m : Nat) : (s.maskCheck k xs m).course b = s.course b := by
  unfold State.maskCheck
  split
  · rfl
  · dsimp only
    split
    · simp
    · rfl
@[simp] theorem course_drcP0 (k : Nat) : (s.drcP0 k).course b = s.course b := by
  have hmasks (t : State) (xs : List (Nat × BitVec 32)) : (t.drcMasks k xs).course b = t.course b :=
    course_foldl _ _ fun u m => course_maskCheck u b k xs m
  unfold State.drcP0
  simp [hmasks]

end Sys2Proof.Machine
end

section
/-! Steps that leave both the course of the cycles and what the registers show of it: role, overruns and completions of phases (Tables 2.13,
2.14). -/

namespace Sys2Proof.Machine

variable {s t u : State}

/-! ## The relation -/

/-- What the registers show of overruns and of the completions of phases. -/
def cycleFields : List RF :=
  [F.TDS_DLM_STAT_RUN, F.TDS_DLM_STAT_OVR, F.TDS_OVR_CNT_V] ++ (List.range 8).map F.TDS_PH_DONE_T_DONE

/-- Those fields, and the role of the unit. -/
def heldFields : List RF := F.RDU_STAT_ROLE :: cycleFields

/-- From `s` to `t` the course of the cycles, the fields that show it and the role stay; so do pending sources. -/
structure Steady (s t : State) : Prop where
  keeps : Keeps heldFields s t
  course : t.course false = s.course false

theorem Steady.refl (s : State) : Steady s s := ⟨.refl _ s, rfl⟩
theorem Steady.trans (h : Steady s t) (h' : Steady t u) : Steady s u := ⟨h.keeps.trans h'.keeps, h'.course.trans h.course⟩

theorem Steady.role (h : Steady s t) : t.role = s.role := h.keeps.fields _ (by decide)
theorem Steady.cyc (h : Steady s t) : t.cyc = s.cyc := cyc_of_course h.course
theorem Steady.cycleKept (h : Steady s t) : Keeps cycleFields s t := h.keeps.mono (List.subset_cons_self _ _)

/-- A register of the units whose blocks hold none of those fields: ports, lanes and station ports, MDU and CLU (Table 17.9). -/
def unitReg (a : Nat) : Prop := a < 0x380000 ∨ 0x400000 ≤ a ∧ a < 0x480000

/-- One register of a family of `n` in those blocks. -/
theorem unitReg_at {c d i n : Nat} (hi : i < n)
    (h : 0 < d ∧ (c + n * d ≤ 0x380000 ∨ 0x400000 ≤ c ∧ c + n * d ≤ 0x480000) := by decide) : unitReg (c + i * d) := by
  have hlt : i * d + d ≤ n * d := by rw [← Nat.succ_mul]; exact Nat.mul_le_mul_right d hi
  unfold unitReg
  omega

theorem unitReg.below {a : Nat} (h : unitReg a) : a < 0x880000 := by unfold unitReg at h; omega

theorem heldFields_not_unit : ∀ g ∈ heldFields, ¬ unitReg g.addr := by unfold unitReg; decide

theorem unitReg.clears {f : RF} (h : unitReg f.addr) : f.clears heldFields := fun g hg =>
  .inl fun e => heldFields_not_unit g hg (e ▸ h)

/-! ## Operations that are steady -/

theorem Steady.setFld (h : Steady s t) {f : RF} (x : Nat) (hf : f.clears heldFields := by decide) (hb : f.addr < 0x880000 := by decide) :
    Steady s (t.setFld f x) := ⟨h.keeps.setFld x hf hb, h.course⟩

theorem Steady.setUnit (h : Steady s t) {f : RF} (x : Nat) (hf : unitReg f.addr) : Steady s (t.setFld f x) := h.setFld x hf.clears hf.below

theorem Steady.wrUnit (h : Steady s t) {a : Nat} (v : BitVec 32) (ha : unitReg a) : Steady s (t.wr a v) :=
  ⟨h.keeps.wr v (fun g hg e => heldFields_not_unit g hg (e ▸ ha)) ha.below, h.course⟩

theorem Steady.raiseKey (h : Steady s t) (n key : Nat) : Steady s (t.raiseKey n key) :=
  ⟨h.keeps.raiseKey n key, (course_raiseKey t false n key).trans h.course⟩

theorem Steady.raise (h : Steady s t) (n : Nat) : Steady s (t.raise n) := h.raiseKey n _

theorem Steady.sendFco (h : Steady s t) (region inst unit kind : Nat) (level qual : Option Nat) :
    Steady s (t.sendFco region inst unit kind level qual) :=
  ⟨h.keeps.sendFco _ _ _ _ _ _, (course_sendFco t false _ _ _ _ _ _).trans h.course⟩

/-- Parts of the state that are neither registers nor memory nor of the course change freely. -/
theorem Steady.parts (h : Steady s t) (hr : u.regs = t.regs := by rfl) (hm : u.mem = t.mem := by rfl) (hf : u.fco = t.fco := by rfl)
    (hn : u.notes = t.notes := by rfl) (hc : u.course false = t.course false := by rfl) : Steady s u :=
  ⟨h.keeps.parts hr hm hf hn, hc.trans h.course⟩

theorem Steady.ite {c : Prop} [Decidable c] (ht : Steady s t) (hu : Steady s u) : Steady s (if c then t else u) := by
  by_cases h : c
  · rw [if_pos h]; exact ht
  · rw [if_neg h]; exact hu

theorem Steady.foldl {α : Type} (h : Steady s t) {f : State → α → State} {l : List α} (hf : ∀ x ∈ l, ∀ u, Steady u (f u x)) :
    Steady s (l.foldl f t) :=
  List.foldlRecOn l f (motive := Steady s) h fun u hu x hx => hu.trans (hf x hx u)

/-! ## Engines at the release of a phase (R203) -/

theorem steady_startPre (s : State) (n : Nat) : Steady s (s.startPre n) := by
  unfold State.startPre
  dsimp only
  split
  · exact .refl s
  · split
    · exact .refl s
    · exact .parts (.refl s)

theorem steady_tdsRelease (s : State) (n : Nat) : Steady s (s.tdsRelease n) :=
  ((Steady.refl s).setFld n).foldl fun e _ u => steady_startPre u e

/-! ## The signal map -/

theorem steady_sigFlush (s : State) : Steady s s.sigFlush := .parts (.refl s)

theorem Steady.sigPut (h : Steady s t) (i : Nat) (v : BitVec 32) : Steady s (t.sigPut i v) := .ite h h.parts

theorem Steady.dpSeen (h : Steady s t) (l : List Nat) : Steady s (t.dpSeen l) :=
  h.foldl fun _ _ u => .ite ((((Steady.refl u).setFld _).setFld _).raise 225) (.refl u)

/-! ## The CLU in P3 and P4 -/

theorem Steady.cluFlag (h : Steady s t) {f : RF} (n : Nat) (hf : unitReg f.addr) : Steady s (t.cluFlag f n) :=
  .ite h ((h.setUnit _ hf).raise n)

section
variable {i : Nat} (hi : i < 64)
include hi

theorem Steady.cluTrack (h : Steady s t) : Steady s (t.cluTrack i) := by
  have h1 (x : CluSlot) : Steady s (t.setClus i x) := h.parts
  exact .ite ((h1 _).wrUnit _ (unitReg_at hi)) h

theorem Steady.cluFollow (h : Steady s t) (w r : BitVec 32) : Steady s (t.cluFollow i w r) := by
  have h1 (x : CluSlot) : Steady s (t.setClus i x) := h.parts
  exact .ite h (.ite (.ite (((h1 _).setUnit _ (unitReg_at hi)).raise 112) h) (h1 _))

theorem steady_cluEval (s : State) : Steady s (s.cluEval i) := by
  unfold State.cluEval
  extract_lets x d sec auto ovr v1 rup rdn
  split
  extract_lets v2 w r0 r xv ff e p v dd res lim v3 v4 y rr v5 v6
  have h1 : Steady s v1 := (Steady.refl s).dpSeen _
  have h2 : Steady s v2 := .ite h1 (h1.cluFlag 115 (unitReg_at hi))
  have h3 : Steady s v3 := h2.cluFlag 114 (unitReg_at hi)
  have h4 : Steady s v4 := .ite (h2.cluFlag 113 (unitReg_at hi)) h2
  have hy : Steady s (v4.setClus i y) := h4.parts
  have h5 : Steady s v5 := ((((hy.wrUnit _ (unitReg_at hi)).wrUnit _ (unitReg_at hi)).wrUnit _ (unitReg_at hi)).wrUnit _ (unitReg_at hi)).wrUnit _
    (unitReg_at hi)
  have h6 : Steady s v6 := (h5.setUnit _ (unitReg_at hi)).setUnit _ (unitReg_at hi)
  exact .ite (.ite (h3.cluTrack hi) h3) (.ite ((h6.cluFollow hi _ _).cluTrack hi) h6)

end

theorem steady_cluP3 (s : State) : Steady s s.cluP3 :=
  (Steady.refl s).foldl fun _ hi u => .ite ((steady_cluEval (List.mem_range.1 hi) u).sigPut _ _) (.refl u)

theorem steady_cluP4 (s : State) : Steady s s.cluP4 :=
  (Steady.refl s).foldl fun _ _ u => .ite ((Steady.refl u).sigPut _ _) (.refl u)

/-! ## The MDU in P5 to P7 -/

section
variable {m : Nat}

theorem Steady.armFlag (h : Steady s t) {f : Nat → RF} (hf : unitReg (f m).addr) : Steady s (t.armFlag m f) :=
  .ite h ((h.setUnit _ hf).raise _)

theorem Steady.armFlagIf (h : Steady s t) (c : Bool) {f : Nat → RF} (hf : unitReg (f m).addr) : Steady s (t.armFlagIf c m f) :=
  .ite (h.armFlag hf) h

theorem Steady.setPlan (h : Steady s t) (x : ArmPlan) : Steady s (t.setPlan m x) := h.parts

theorem Steady.transNote (h : Steady s t) (x : TransRec) : Steady s (t.transNote x) := h.parts

variable (hm : m < 12)
include hm

theorem Steady.armShow (h : Steady s t) (acc : BitVec 64) (n0 : Int) (neg : Bool) : Steady s (t.armShow m acc n0 neg) :=
  ((h.wrUnit _ (unitReg_at hm)).setUnit _ (unitReg_at hm)).setUnit _ (unitReg_at hm)

theorem steady_armP5 (s : State) : Steady s (s.armP5 m) := by
  unfold State.armP5
  extract_lets pl p x neg raw v1 bad v2 u1 start u0 n0 el pl' vbar v3 tc hi lo carry s0 s1 v4
  have h2 : Steady s v2 := ((Steady.refl s).dpSeen _).armFlagIf bad (unitReg_at hm)
  have h3 : Steady s v3 := h2.wrUnit _ (unitReg_at hm)
  have h4 : Steady s v4 := h3.armFlagIf _ (unitReg_at hm)
  refine .ite ((Steady.refl s).setPlan _) (.ite (h2.setPlan _) (.ite (h3.setPlan _) (.ite (h4.setPlan _) ?_)))
  split
  split
  exact (h4.setUnit _ (unitReg_at hm)).setPlan _

theorem steady_armP6 (s : State) (j : Nat) : Steady s (s.armP6 m j) := by
  unfold State.armP6
  extract_lets pl p tc ws x late order v1 due sel run enter sel' v2
  have h1 : Steady s v1 := .ite (((Steady.refl s).armFlag (unitReg_at hm)).setFld _) (.refl s)
  have h2 : Steady s v2 := (h1.setUnit _ (unitReg_at hm)).armFlagIf _ (unitReg_at hm)
  exact h2.setPlan _

theorem steady_armBook (s : State) (j : Nat) : Steady s (s.armBook m j) := by
  unfold State.armBook
  extract_lets pl p tc x moved edge
  split
  extract_lets v1 v2 v3 v4 v5 v6
  have h1 : Steady s v1 := .parts (.refl s)
  have h2 : Steady s v2 := h1.foldl fun _ _ u => .parts (.refl u)
  have h3 : Steady s v3 := h2.armShow hm _ _ _
  have h5 : Steady s v5 := (h3.setUnit _ (unitReg_at hm)).armFlagIf _ (unitReg_at hm)
  have h6 : Steady s v6 := .ite ((h5.armFlag (unitReg_at hm)).sendFco _ _ _ _ _ _) h5
  exact h6.foldl fun _ _ u => (Steady.refl u).transNote _

end

theorem steady_mduP5 (s : State) : Steady s s.mduP5 :=
  (Steady.refl s).foldl fun _ hm u => steady_armP5 (List.mem_range.1 hm) u

theorem steady_mduP6 (s : State) (j : Nat) : Steady s (s.mduP6 j) :=
  (Steady.refl s).foldl fun _ hm u => steady_armP6 (List.mem_range.1 hm) u j

/-- The units' work at the release of a phase. -/
theorem steady_phaseWork (s : State) (n j : Nat) : Steady s (s.phaseWork n j) :=
  .ite (steady_cluP3 s) (.ite (steady_cluP4 s) (.ite (steady_mduP5 s) (.ite (steady_mduP6 s j) (.refl s))))

end Sys2Proof.Machine
end

section
/-! P0 releases, phase boundaries and completions of phases (R37, R38, R44, R46, R203). -/

namespace Sys2Proof.Machine

variable {s t u : State} {time : Nat}

/-- A command that acts at its time on a die that runs. -/
theorem answers_of {c : Instr} {time : Nat} {P : State → State → Prop} {f : State → State} (hx : exec c s = .next (s.onDie time f))
    (h : P (s.tick time) (f (s.tick time))) : s.Answers c time P := fun hs => ⟨_, hx.trans (congrArg _ (onDie_live s time f hs)), h⟩

/-! ## The computations in flight -/

theorem mem_setComp {c : Comp} (hc : c ∈ s.cyc.comps) (k : Nat) (f : Comp → Comp) :
    (if c.k = k then f c else c) ∈ (s.setComp k f).cyc.comps := List.mem_map_of_mem hc

theorem mem_setComp_self {c : Comp} (hc : c ∈ s.cyc.comps) (f : Comp → Comp) : f c ∈ (s.setComp c.k f).cyc.comps := by
  simpa using mem_setComp hc c.k f

theorem keeps_setComp (fs : List RF) (s : State) (k : Nat) (f : Comp → Comp) : Keeps fs s (s.setComp k f) := .parts (.refl fs s)

/-- From `s` to `t` the count stays, and every computation but for a mark that masking makes (R206). -/
structure CompsKept (s t : State) : Prop where
  now : t.now = s.now
  comps : ∀ c ∈ s.cyc.comps, ∃ m, { c with masked := m } ∈ t.cyc.comps

theorem CompsKept.of_course {b : Bool} (h : t.course b = s.course b) : CompsKept s t :=
  ⟨now_of_course h, fun c hc => ⟨c.masked, (cyc_of_course h).symm ▸ hc⟩⟩

theorem CompsKept.trans (h : CompsKept s t) (h' : CompsKept t u) : CompsKept s u := by
  refine ⟨h'.now.trans h.now, fun c hc => ?_⟩
  obtain ⟨m, hm⟩ := h.comps c hc
  obtain ⟨m', hm'⟩ := h'.comps _ hm
  exact ⟨m', hm'⟩

theorem compsKept_maskOverrun (s : State) : CompsKept s s.maskOverrun := by
  refine ⟨rfl, fun c hc => ⟨if c.k = s.tds.k then true else c.masked, ?_⟩⟩
  have h : (if c.k = s.tds.k then { c with masked := true } else c) ∈ s.maskOverrun.cyc.comps := List.mem_map_of_mem hc
  split_ifs at h ⊢ <;> exact h

theorem compsKept_enqueue (s : State) (d : BitVec 64) : CompsKept s (s.enqueue d) := by
  have hdrop : CompsKept s (((s.inc F.TDS_MDROP_CNT_V).setBit F.TDS_STAT_MDROP true).raise 109) := .of_course (b := false) (by simp)
  unfold State.enqueue
  split_ifs
  · exact hdrop.trans (compsKept_maskOverrun _)
  · exact .of_course (b := false) rfl
  · exact .of_course (b := false) rfl

theorem compsKept_cyclicEnqueue (s : State) (k : Nat) : CompsKept s (s.cyclicEnqueue k) := by
  have hall : CompsKept s (s.tds.tt.foldl (fun s c => if tKind c.2 = 1 ∧ k % tDiv c.2 = tOfs c.2 then s.enqueue (tDesc c.2) else s) s) :=
    List.foldlRecOn _ _ (motive := CompsKept s) (.of_course (b := false) rfl) fun u hu c _ => by
      split_ifs
      · exact hu.trans (compsKept_enqueue u _)
      · exact hu
  exact hall.trans (.of_course (course_qSync _ false))

theorem compsKept_tdsP0 (s : State) (k cyc : Nat) : CompsKept s (s.tdsP0 k cyc) := by
  have hq (t : State) : ({ t with tds := { t.tds with queue := [], spawned := [], k := k, closed := false } } : State).course false =
    t.course false := rfl
  refine .trans (.of_course (b := false) ?_) (compsKept_cyclicEnqueue _ k)
  rw [course_setFld]
  refine (course_foldl _ _ fun t n => ?_).trans (by simp [hq])
  simp

/-! ## P0 release -/

/-- The work of all units at a P0 release (R37). -/
def State.p0Work (s : State) (k : Nat) : State :=
  let s := ((s.liveP0.sigFlush.sigHostIn.tdsP0 k (k + 1)).snapshot).sigTbu k
  let s := ((s.mirrorP0 (k + 2)).coldStart.supplyReports k).mduP0 k
  ((s.cluP0 (k + 1)).winEnter).drcP0 k

theorem compsKept_p0Work (s : State) (k : Nat) : CompsKept s (s.p0Work k) := by
  have h1 : s.liveP0.sigFlush.sigHostIn.course false = s.course false := course_liveP0 s false
  refine ((CompsKept.of_course h1).trans (compsKept_tdsP0 _ k (k + 1))).trans (.of_course (b := false) ?_)
  simp [State.p0Work]

/-- What the registers show of a computation whose P0 has just been released: none of its phases, no ranker is complete. -/
def State.doneCleared (s : State) : State :=
  (List.range 8).foldl (fun s n => s.setFld (F.TDS_PH_DONE_T_DONE n) 0xFFFF) (s.setFld F.TDS_RANK_DONE_T 0)

theorem p0Run_eq (s : State) (k : Nat) :
    s.p0Run k = (s.p0Work k).doneCleared.setComp k (fun c => { c with p0At := some (s.p0Work k).doneCleared.now, rel := 1 }) := rfl

theorem course_doneCleared (s : State) : s.doneCleared.course false = s.course false := course_foldl _ _ fun _ _ => rfl

theorem rankDone_doneCleared (s : State) : s.doneCleared.fld F.TDS_RANK_DONE_T = 0 :=
  List.foldlRecOn _ _ (motive := fun t : State => t.fld F.TDS_RANK_DONE_T = 0) (fld_setFld_self s F.TDS_RANK_DONE_T 0 (by decide)) fun t ht n hn => by
    have := List.mem_range.1 hn
    rw [fld_setFld_ne _ _ _ _ (by simp only [F.TDS_RANK_DONE_T, R.TDS_RANK_DONE, F.TDS_PH_DONE_T_DONE, R.TDS_PH_DONE]; omega), ht]

theorem phDone_ok (i : Nat) : (F.TDS_PH_DONE_T_DONE i).ok := by simp [RF.ok, F.TDS_PH_DONE_T_DONE]

theorem phDone_doneCleared (s : State) {i : Nat} (hi : i < 8) : s.doneCleared.fld (F.TDS_PH_DONE_T_DONE i) = 0xFFFF := by
  obtain ⟨s', -, h⟩ := foldl_range_obs (fun (s : State) n => s.setFld (F.TDS_PH_DONE_T_DONE n) 0xFFFF) (·.fld (F.TDS_PH_DONE_T_DONE i)) hi
    (fun t j hj _ => fld_setFld_ne _ _ _ _ (by simp only [F.TDS_PH_DONE_T_DONE, R.TDS_PH_DONE]; omega)) (s.setFld F.TDS_RANK_DONE_T 0)
  exact h.trans (fld_setFld_self s' _ _ (phDone_ok i))

/-- The effect that the statement names of the P0 release of computation `c`. -/
def Released (s : State) (c : Comp) (t : State) : Prop :=
  t.fld F.TDS_RANK_DONE_T = 0 ∧ (∀ i, i < 8 → t.fld (F.TDS_PH_DONE_T_DONE i) = 0xFFFF) ∧
    ∃ c' ∈ t.cyc.comps, c'.k = c.k ∧ c'.p0 = c.p0 ∧ c'.p0At = some s.now ∧ c'.rel = 1 ∧ c'.done = c.done

theorem Released.of_kept {c : Comp} (hk : CompsKept s u) (hc : c ∈ s.cyc.comps) (hr : u.fld F.TDS_RANK_DONE_T = 0)
    (hp : ∀ i, i < 8 → u.fld (F.TDS_PH_DONE_T_DONE i) = 0xFFFF) (h : t = u.setComp c.k (fun c => { c with p0At := some u.now, rel := 1 })) :
    Released s c t := by
  obtain ⟨m, hm⟩ := hk.comps c hc
  rw [h, hk.now]
  exact ⟨hr, hp, _, mem_setComp_self hm _, rfl, rfl, rfl, rfl, rfl⟩

/-- A P0 release clears what the registers show of completions, and releases the computation at the present count. -/
theorem released_p0Run {c : Comp} (hc : c ∈ s.cyc.comps) : Released s c (s.p0Run c.k) :=
  .of_kept ((compsKept_p0Work s c.k).trans (.of_course (course_doneCleared _))) hc (rankDone_doneCleared _)
    (fun _ hi => phDone_doneCleared _ hi) (p0Run_eq s c.k)

/-! ## P0 in INIT (log entry 32) -/

theorem sigGet_sigSet_self {i : Nat} (h : sigReserved i = false) (s : State) (v : BitVec 32) : (s.sigSet i v).sigGet i = v := by
  simp [State.sigGet, State.sigSet, h]

theorem sigGet_sigSet_ne {i j : Nat} (h : i ≠ j) (s : State) (v : BitVec 32) : (s.sigSet j v).sigGet i = s.sigGet i := by
  unfold State.sigSet
  split_ifs
  · rfl
  · simp [State.sigGet, State.sigType, spGet_spSet_ne _ _ _ _ _ _ h]

/-- The entry of the sample cycle (Table 17.11). -/
theorem sigGet_sigTbu (s : State) (k : Nat) : (s.sigTbu k).sigGet 0x1160 = BitVec.ofNat 32 k := by
  unfold State.sigTbu
  dsimp only
  simp (disch := decide) only [sigGet_sigSet_ne, sigGet_sigSet_self]

theorem sigGet_of_course (h : t.course true = s.course true) : t.sigGet 0x1160 = s.sigGet 0x1160 := by
  obtain ⟨hs, hu⟩ := sig_of_course h
  simp only [State.sigGet, State.sigType, hs, hu]
  simp

/-- A unit in INIT shows the sample cycle and starts no computation (Table 12.1). -/
theorem p0Init_spec (s : State) (k : Nat) : (s.p0Init k).sigGet 0x1160 = BitVec.ofNat 32 k ∧ (s.p0Init k).cyc.comps = s.cyc.comps := by
  have hfl (t : State) : t.sigFlush.course false = t.course false := rfl
  have hin (t : State) : t.sigHostIn.course false = t.course false := rfl
  have hc : (s.p0Init k).course false = s.course false := by simp [State.p0Init, hfl, hin]
  have hs : (s.p0Init k).course true = ((((s.liveP0.sigFlush.sigHostIn.masksP0).swapsDue (k + 1)).snapshot).sigTbu k).course true := by
    simp [State.p0Init]
  exact ⟨(sigGet_of_course hs).trans (sigGet_sigTbu _ k), congrArg CycSt.comps (cyc_of_course hc)⟩

/-! ## A late phase (R44, R46) -/

/-- The effect of a phase-late event for phase `p`. -/
def LatePhase (u t : State) (p : Nat) : Prop :=
  Counted F.TDS_PLATE_CNT_V u t ∧ t.bit F.TDS_DLM_STAT_PLATE = true ∧ t.fld F.TDS_DLM_STAT_LATE_PHASE = p ∧ t.pends 105 = true

theorem frame_phaseLate (s : State) (p : Nat) : Frame [R.TDS_PLATE_CNT, R.TDS_DLM_STAT] [105] [0x23] s (s.phaseLate p) := by
  have h : Frame [R.TDS_PLATE_CNT, R.TDS_DLM_STAT] [105] [0x23] s
      ((((s.inc F.TDS_PLATE_CNT_V).setBit F.TDS_DLM_STAT_PLATE true).setFld F.TDS_DLM_STAT_LATE_PHASE p).raise 105) :=
    ((((Frame.refl _ _ _ s).inc (by decide)).setBit _ (by decide)).setFld _ (by decide)).raise (by decide)
  exact .ite _ (fun _ => h.sendFco _ _ _ _ _ _ (by decide)) fun _ => h

theorem latePhase_phaseLate (s : State) {p : Nat} (hp : p < 8) : LatePhase s (s.phaseLate p) p := by
  generalize hv : ((s.inc F.TDS_PLATE_CNT_V).setBit F.TDS_DLM_STAT_PLATE true).setFld F.TDS_DLM_STAT_LATE_PHASE p = v
  have hsent : Frame [] [] [0x23] (v.raise 105) (s.phaseLate p) := by
    subst hv
    exact .ite _ (fun _ => (Frame.refl _ _ _ _).sendFco _ _ _ _ _ _ (by decide)) fun _ => .refl _ _ _ _
  have hr {f : RF} (hf : f.addr < 0x880000) : (s.phaseLate p).fld f = v.fld f :=
    (hsent.fld (by simp) hf).trans (fld_raise _ _ _ (not_mem_evRegs hf _))
  refine ⟨?_, ?_, ?_, (hsent.pends (by simp)).trans (pends_raise v 105 (by decide) (by decide))⟩
  · unfold Counted
    rw [hr (by decide), ← hv, fld_setFld_ne _ _ _ _ (by decide), fld_setBit_ne _ _ _ _ (by decide), fld_inc_self _ _ (by decide)]
  · rw [State.bit, hr (by decide), ← hv, fld_setFld_apart _ _ _ _ (by decide) (by decide)]
    exact bit_setBit_self _ _ _ (by decide) rfl
  · rw [hr (by decide), ← hv, fld_setFld_self _ _ _ (by decide)]
    exact Nat.mod_eq_of_lt hp

/-! ## P0_RELEASE -/

/-- What P0_RELEASE does on a die that runs. -/
def State.p0Moment (s : State) (t : Nat) : State :=
  let k := t / s.tc - 1
  if s.imageOn && decide (s.tc ≤ t) && s.p0Due t k && decide (s.cyc.resume ≤ k * s.tc) && s.cyc.comps.all (fun c => c.k != k) then
    if s.role = roleInit then s.p0Init k
    else
      let s : State := { s with cyc := { s.cyc with comps := s.cyc.comps ++ [{ k := k, p0 := t }] } }
      if s.fabricIdle then s.p0Run k else s.phaseLate 0
  else s

theorem exec_p0Release (s : State) (t : Nat) : exec (.p0Release t) s = .next (s.onDie t (·.p0Moment t)) := rfl

/-- It is the P0 of a cycle that has no computation yet. -/
def State.p0Starts (s : State) (t k : Nat) : Prop :=
  s.imageOn = true ∧ s.tc ≤ t ∧ s.p0Due t k = true ∧ s.cyc.resume ≤ k * s.tc ∧ ∀ c ∈ s.cyc.comps, c.k ≠ k

/-- The state with the computation of sample `k` begun at count `t`. -/
def State.beginComp (s : State) (t k : Nat) : State := { s with cyc := { s.cyc with comps := s.cyc.comps ++ [{ k := k, p0 := t }] } }

theorem p0Starts_iff (s : State) (t k : Nat) : s.p0Starts t k ↔
    (s.imageOn && decide (s.tc ≤ t) && s.p0Due t k && decide (s.cyc.resume ≤ k * s.tc) && s.cyc.comps.all (fun c => c.k != k)) = true := by
  simp [State.p0Starts, and_assoc]

theorem p0Moment_of_not (h : ¬ s.p0Starts time (time / s.tc - 1)) : s.p0Moment time = s := if_neg fun e => h ((p0Starts_iff _ _ _).2 e)

theorem p0Moment_of_starts (h : s.p0Starts time (time / s.tc - 1)) :
    s.p0Moment time = if s.role = roleInit then s.p0Init (time / s.tc - 1) else
      if s.fabricIdle then (s.beginComp time (time / s.tc - 1)).p0Run (time / s.tc - 1)
      else (s.beginComp time (time / s.tc - 1)).phaseLate 0 :=
  if_pos ((p0Starts_iff _ _ _).1 h)

theorem p0Moment_init (h : s.p0Starts time (time / s.tc - 1)) (hr : s.role = roleInit) :
    (s.p0Moment time).sigGet 0x1160 = BitVec.ofNat 32 (time / s.tc - 1) ∧ (s.p0Moment time).cyc.comps = s.cyc.comps := by
  rw [p0Moment_of_starts h, if_pos hr]
  exact p0Init_spec s _

theorem p0Moment_idle (h : s.p0Starts time (time / s.tc - 1)) (hr : s.role ≠ roleInit) (hi : s.fabricIdle = true) :
    Released s { k := time / s.tc - 1, p0 := time } (s.p0Moment time) := by
  rw [p0Moment_of_starts h, if_neg hr, if_pos hi]
  exact released_p0Run (s := s.beginComp time _) (c := { k := time / s.tc - 1, p0 := time }) (by simp [State.beginComp])

theorem p0Moment_busy (h : s.p0Starts time (time / s.tc - 1)) (hr : s.role ≠ roleInit) (hi : s.fabricIdle = false) :
    s.p0Moment time = (s.beginComp time (time / s.tc - 1)).phaseLate 0 := by
  rw [p0Moment_of_starts h, if_neg hr, if_neg (by simp [hi])]

end Sys2Proof.Machine
end

section
/-! Phase boundaries and completions of phases (R38, R41, R44, R203). -/

namespace Sys2Proof.Machine

variable {s t u v : State} {time : Nat}

/-! ## What does not touch completions -/

/-- From `s` to `t` the registers show the same of completions, and so does every computation in flight. -/
structure DoneKept (s t : State) : Prop where
  keeps : Keeps cycleFields s t
  comps : ∀ c ∈ s.cyc.comps, ∃ c' ∈ t.cyc.comps, c'.k = c.k ∧ c'.done = c.done ∧ c'.doneAt = c.doneAt

theorem DoneKept.of_comps (h : Keeps cycleFields s t) (hc : t.cyc.comps = s.cyc.comps) : DoneKept s t :=
  ⟨h, fun c hm => ⟨c, hc ▸ hm, rfl, rfl, rfl⟩⟩

theorem DoneKept.refl (s : State) : DoneKept s s := .of_comps (.refl _ s) rfl

theorem DoneKept.trans (h : DoneKept s t) (h' : DoneKept t u) : DoneKept s u := by
  refine ⟨h.keeps.trans h'.keeps, fun c hc => ?_⟩
  obtain ⟨c', hc', hk, hd, ha⟩ := h.comps c hc
  obtain ⟨c'', hc'', hk', hd', ha'⟩ := h'.comps c' hc'
  exact ⟨c'', hc'', hk'.trans hk, hd'.trans hd, ha'.trans ha⟩

theorem Steady.doneKept (h : Steady s t) : DoneKept s t := .of_comps h.cycleKept (congrArg CycSt.comps h.cyc)

theorem DoneKept.steady (h : DoneKept s t) (h' : Steady t u) : DoneKept s u := h.trans h'.doneKept

theorem DoneKept.slots (h : DoneKept s t) (q : Sparse (BitVec 64)) : DoneKept s { t with cyc := { t.cyc with slots := q } } :=
  h.trans (.of_comps (.parts (.refl _ t)) rfl)

theorem DoneKept.setComp (h : DoneKept s t) (k : Nat) {f : Comp → Comp}
    (hf : ∀ c, (f c).k = c.k ∧ (f c).done = c.done ∧ (f c).doneAt = c.doneAt) : DoneKept s (t.setComp k f) := by
  refine h.trans ⟨keeps_setComp _ t k f, fun c hc => ⟨_, mem_setComp hc k f, ?_⟩⟩
  split_ifs
  · exact hf c
  · exact ⟨rfl, rfl, rfl⟩

theorem DoneKept.foldl {α : Type} (h : DoneKept s t) {f : State → α → State} {l : List α} (hf : ∀ x ∈ l, ∀ u, DoneKept u (f u x)) :
    DoneKept s (l.foldl f t) :=
  List.foldlRecOn l f (motive := DoneKept s) h fun u hu x hx => hu.trans (hf x hx u)

theorem doneKept_armCommit {m : Nat} (hm : m < 12) (s : State) (j : Nat) : DoneKept s (s.armCommit m j) := by
  unfold State.armCommit
  extract_lets pl n0 _ v w x
  have hx : DoneKept s x := ((DoneKept.refl s).slots _).steady (((Steady.refl v).sigPut _ _).setFld _)
  split_ifs
  · exact hx.steady (.parts (.refl x))
  · exact hx.steady (steady_armBook hm x j)

theorem steady_unassignBook (s : State) : Steady s s.unassignBook :=
  (Steady.refl s).foldl fun a _ u => by
    have h1 (r : SmRec) : Steady u (u.setSmr a r) := .parts (.refl u)
    exact .ite (.refl u) ((h1 _).transNote _)

/-- MDU_COMMIT changes the slots of the next frame alone of all that concerns the cycle. -/
theorem doneKept_mduCommit (s : State) (j : Nat) : DoneKept s (s.mduCommit j) := by
  unfold State.mduCommit
  extract_lets _ v w x
  have hw : DoneKept s w := ((DoneKept.refl s).slots []).foldl fun m hm u => doneKept_armCommit (List.mem_range.1 hm) u j
  have hx : DoneKept s x := hw.steady (steady_unassignBook w)
  split_ifs
  · exact hw
  · split
    exact (hx.slots _).steady (Steady.setFld (Steady.setFld (Steady.parts (.refl _)) _) _)

/-! ## The release of a phase -/

theorem steady_phaseGo (s : State) (k n : Nat) : Steady (s.setComp k (fun c => { c with rel := n + 1 })) (s.phaseGo k n) :=
  (steady_sigFlush _).trans ((steady_tdsRelease _ n).trans (steady_phaseWork _ n _))

/-- Phase `n` of computation `c` has been released. -/
theorem rel_phaseGo {c : Comp} (hc : c ∈ s.cyc.comps) (n : Nat) : { c with rel := n + 1 } ∈ (s.phaseGo c.k n).cyc.comps :=
  (congrArg CycSt.comps (steady_phaseGo s c.k n).cyc) ▸ mem_setComp_self hc _

theorem Frame.withCyc {rs es ks : List Nat} (h : Frame rs es ks s t) (x : CycSt) : Frame rs es ks { s with cyc := x } { t with cyc := x } :=
  ⟨h.regs, h.mem, h.inbox, h.notes, h.msgs, congrArg (fun b : State => { b with cyc := x }) h.bare⟩

/-- The mark of a ranker that is not complete at B6 (Table 2.13). -/
theorem frame_rankLate (s : State) : Frame [R.TDS_DLM_STAT] [] [] s s.rankLate :=
  .ite _ (fun _ => (Frame.refl _ _ _ _).setBit _ (by decide)) fun _ => .refl _ _ _ _

/-- The state at the boundary of phase `n`: at B6 the rankers are judged. -/
def State.rankJudged (s : State) (n : Nat) : State := if n = 6 then s.rankLate else s

theorem frame_rankJudged (s : State) (n : Nat) : Frame [R.TDS_DLM_STAT] [] [] s (s.rankJudged n) :=
  .ite _ (fun _ => frame_rankLate s) fun _ => .refl _ _ _ _

theorem cyc_rankJudged (s : State) (n : Nat) : (s.rankJudged n).cyc = s.cyc := cyc_of_course (b := false) (frame_rankJudged s n).course

/-- What PHASE_RELEASE does at the boundary of phase `n` of computation `c`. -/
def State.phaseMoment (s : State) (c : Comp) (t n : Nat) : State :=
  if n < c.rel then s.rankJudged n
  else if c.p0At.isSome ∧ c.done = n ∧ c.doneAt < t then (s.rankJudged n).phaseGo c.k n else (s.rankJudged n).boundaryLate c n

theorem answers_phaseRelease {n : Fin 8} {c : Comp} {P : State → State → Prop}
    (hn : n.val ≠ 0) (hc : s.cyc.comps.find? (fun c => time == c.p0 + s.bOfs n) = some c)
    (h : P (s.tick time) ((s.tick time).phaseMoment c time n)) : s.Answers (.phaseRelease time n) time P := by
  refine answers_of rfl ?_
  have hf : (s.tick time).cyc.comps.find? (fun c => n.val != 0 && time == c.p0 + (s.tick time).bOfs n) = some c := by
    simp only [bne_iff_ne.2 hn, Bool.true_and]
    exact hc
  rw [hf]
  exact h

theorem phaseMoment_late {c : Comp} {n : Nat} (hr : c.rel ≤ n) (hi : ¬ (c.p0At.isSome = true ∧ c.done = n ∧ c.doneAt < time)) :
    s.phaseMoment c time n = (s.rankJudged n).boundaryLate c n := by
  rw [State.phaseMoment, if_neg (Nat.not_lt.2 hr), if_neg hi]

theorem phaseMoment_inTime {c : Comp} {n : Nat} (hm : c ∈ s.cyc.comps) (hr : c.rel ≤ n)
    (hi : c.p0At.isSome = true ∧ c.done = n ∧ c.doneAt < time) : { c with rel := n + 1 } ∈ (s.phaseMoment c time n).cyc.comps := by
  rw [State.phaseMoment, if_neg (Nat.not_lt.2 hr), if_pos hi]
  exact rel_phaseGo ((cyc_rankJudged s n).symm ▸ hm) n

/-- A phase that was not complete in time at the boundary of phase `n` is late. -/
theorem boundaryLate_rankJudged {c : Comp} {n : Nat} (hn : n < 8) (hl : c.late < n) :
    LatePhase s ((s.rankJudged n).boundaryLate c n) (n - 1) ∧
      Frame [R.TDS_PLATE_CNT, R.TDS_DLM_STAT] [105] [0x23] { s with cyc := ((s.rankJudged n).boundaryLate c n).cyc }
        ((s.rankJudged n).boundaryLate c n) := by
  rw [State.boundaryLate, if_pos hl]
  have hj := frame_rankJudged s n
  obtain ⟨hcnt, hbit, hfld, hp⟩ := latePhase_phaseLate (s.rankJudged n) (p := n - 1) (by omega)
  have hf := (hj.mono (by simp) (by simp) (by simp)).trans (frame_phaseLate (s.rankJudged n) (n - 1))
  generalize (s.rankJudged n).phaseLate (n - 1) = v at hcnt hbit hfld hp hf
  refine ⟨⟨?_, hbit, hfld, hp⟩, hf.withCyc _⟩
  have hc : (s.rankJudged n).fld F.TDS_PLATE_CNT_V = s.fld F.TDS_PLATE_CNT_V := hj.fld (by decide) (by decide)
  unfold Counted at hcnt ⊢
  rw [hc] at hcnt
  exact hcnt

/-! ## The completion of a phase -/

theorem phDone_mem {i : Nat} (hi : i < 8) : F.TDS_PH_DONE_T_DONE i ∈ cycleFields :=
  List.mem_append_right _ (List.mem_map_of_mem (List.mem_range.2 hi))

theorem steady_phaseLate (s : State) (p : Nat) : Steady s (s.phaseLate p) :=
  have h := ((((Steady.refl s).setFld _).setFld _).setFld p).raise 105
  .ite (h.sendFco _ _ _ _ _ _) h

/-- What follows the completion of phase `n` leaves completions as they stand. -/
theorem doneKept_phaseNext (s : State) (c : Comp) (n : Nat) : DoneKept s (s.phaseNext c n) := by
  have hlate : DoneKept s (s.boundaryLate c (n + 1)) := by
    unfold State.boundaryLate
    split_ifs
    · exact (steady_phaseLate s _).doneKept.setComp _ fun _ => ⟨rfl, rfl, rfl⟩
    · exact .refl s
  unfold State.phaseNext
  split_ifs
  · exact (doneKept_mduCommit s _).setComp _ fun _ => ⟨rfl, rfl, rfl⟩
  · exact .refl s
  · exact (hlate.setComp c.k (f := fun c => { c with rel := n + 2 }) fun _ => ⟨rfl, rfl, rfl⟩).steady (steady_phaseGo _ c.k (n + 1))
  · exact .refl s

/-- What PHASE_COMPLETE does when it completes the running phase `n` of computation `c`. -/
def State.phaseEnds (s : State) (c : Comp) (t n : Nat) : State :=
  ((s.setFld (F.TDS_PH_DONE_T_DONE n) (min 0xFFFF (t - c.p0At.getD t))).setComp c.k (fun c => { c with done := n + 1, doneAt := t })).phaseNext c n

theorem lateP0_of_curComp {c : Comp} (h : s.curComp = some c) : s.lateP0 = s := by
  unfold State.lateP0
  split
  · rw [h, if_neg (by simp)]
  · rfl

theorem answers_phaseComplete {n : Fin 8} {c : Comp} {P : State → State → Prop} (hc : s.curComp = some c) (hr : c.rel = n.val + 1)
    (hd : c.done = n.val) (hi : s.phaseIdle n = true) (h : P (s.tick time) ((s.tick time).phaseEnds c time n)) :
    s.Answers (.phaseComplete time n) time P := by
  refine answers_of rfl ?_
  have hc' : (s.tick time).curComp = some c := hc
  have hi' : (s.tick time).phaseIdle n = true := hi
  simp only [lateP0_of_curComp hc', hc']
  rw [if_pos ⟨hr, hd, hi'⟩]
  exact h

theorem phaseEnds_spec {c : Comp} {n : Nat} (hc : s.curComp = some c) (hn : n < 8) :
    (s.phaseEnds c time n).fld (F.TDS_PH_DONE_T_DONE n) = min 0xFFFF (time - c.p0At.getD time) ∧
      ∃ c' ∈ (s.phaseEnds c time n).cyc.comps, c'.k = c.k ∧ c'.done = n + 1 ∧ c'.doneAt = time := by
  have hm : c ∈ s.cyc.comps := List.mem_of_find?_eq_some hc
  have hself := fld_setFld_self s (F.TDS_PH_DONE_T_DONE n) (min 0xFFFF (time - c.p0At.getD time)) (phDone_ok n)
  unfold State.phaseEnds
  generalize hv : s.setFld (F.TDS_PH_DONE_T_DONE n) (min 0xFFFF (time - c.p0At.getD time)) = v at hself
  have hmv : c ∈ v.cyc.comps := hv ▸ hm
  have hk : Keeps cycleFields v _ := keeps_setComp _ v c.k (fun c => { c with done := n + 1, doneAt := time })
  have hnext := doneKept_phaseNext (v.setComp c.k (fun c => { c with done := n + 1, doneAt := time })) c n
  refine ⟨?_, hnext.comps _ (mem_setComp_self hmv _)⟩
  rw [(hk.trans hnext.keeps).fields _ (phDone_mem hn), hself]
  simp only [F.TDS_PH_DONE_T_DONE]
  omega

end Sys2Proof.Machine
end

section
/-! The send point (R38, R45, R48): what it records of a computation, and what the changes of role at it leave alone. -/

namespace Sys2Proof.Machine

variable {s t u v : State} {time n : Nat}

/-! ## Ports and roles -/

theorem Steady.setPhase (h : Steady s t) (hn : n < 64) (ph : Nat) : Steady s (t.setPhase n ph) :=
  .ite h ((h.setUnit _ (unitReg_at hn)).raiseKey _ _)

theorem Steady.setPort (h : Steady s t) (n : Nat) (p : Port) : Steady s (t.setPort n p) := h.parts

theorem steady_endRelay (s : State) (hn : n < 64) : Steady s (s.endRelay n) := (((Steady.refl s).setPort n _).setPhase hn _).setPort n _

theorem steady_endRelays (s : State) : Steady s s.endRelays := by
  unfold State.endRelays
  extract_lets v
  have h : Steady s v :=
    (Steady.refl s).foldl fun n hn u => .ite (((Steady.refl u).setPort n _).setPhase (List.mem_range.1 hn) _) (.refl u)
  clear_value v
  exact h.parts

theorem mem_rings (h : n ∈ s.rings) : n < 64 := List.mem_range.1 (List.mem_of_mem_filter h)

theorem steady_holderPorts (s : State) : Steady s s.holderPorts := by
  unfold State.holderPorts
  refine (Steady.refl s).foldl fun n hn u => ?_
  have hp (p : Port) : Steady u (u.setPort n p) := (Steady.refl u).setPort n p
  exact .ite (hp _) ((hp _).setPhase (mem_rings hn) _)

theorem cycleKept_setRole (s : State) (r : Nat) : Keeps cycleFields s (s.setRole r) := (Keeps.rdu (.refl _ s)).setFld r

theorem steady_noteEpoch (s : State) (e : BitVec 32) : Steady s (s.noteEpoch e) := by
  have hwr : Steady s (s.wr R.RDU_EPOCH_MAX e) := ⟨(Keeps.refl _ s).wr e, rfl⟩
  exact .ite hwr.parts (.refl s)

theorem cycleKept_dropLease (s : State) (role : Nat) : Keeps cycleFields s (s.dropLease role) := by
  unfold State.dropLease
  extract_lets v _ w sms _ x y
  have hv : Keeps cycleFields s v := (steady_endRelays s).cycleKept.trans (cycleKept_setRole _ role)
  clear_value v
  have hx : Keeps cycleFields s x := hv.parts
  refine (hx.setBit false).trans (.foldl (fun n hn u => ?_) y)
  exact .ite (fun _ => (Keeps.refl _ u).setPort n _) fun _ => .ite (fun _ => ((Steady.refl u).setPhase (mem_rings hn) _).cycleKept) fun _ => .refl _ u

theorem cycleKept_takeLease (s : State) : Keeps cycleFields s s.takeLease := by
  unfold State.takeLease
  refine .ite (fun _ => .refl _ _) fun _ => ?_
  cases s.newEpoch with
  | none => exact (Keeps.setBit (Keeps.parts (.refl _ s)) true).raise 191
  | some e =>
    have h1 := ((steady_noteEpoch s e).cycleKept.wr (a := R.RDU_EPOCH) e).trans (cycleKept_setRole _ roleActive)
    have h2 := (h1.setBit (f := F.RDU_STAT_READY) false).setFld (f := F.RDU_STAT_SILENT) 0
    refine ((Keeps.trans ?_ (steady_endRelays _).cycleKept).trans (steady_holderPorts _).cycleKept).raise 184
    exact h2.rdu.parts

/-! ## Frames of the partner link and the mirror -/

theorem steady_txUpTo (s : State) (l : Nat) : Steady s (s.txUpTo l) := .parts (.refl s)

theorem steady_txSend (s : State) (l : Nat) (bs : List Blk) (sof time timed : Option Nat) : Steady s (s.txSend l bs sof time timed) := by
  have hset (x : LaneTx) : Steady s (s.setTx l x) := .parts (.refl s)
  have hrun (x : LaneTx) : Steady s ((s.txUpTo l).setTx l x) := (steady_txUpTo s l).parts
  exact .ite (.refl s) (.ite (hset _) (.ite (.refl s) (hrun _)))

theorem steady_plSend (s : State) (bs : List Blk) : Steady s (s.plSend bs) :=
  Steady.foldl (t := s.freeNat.2) (.parts (.refl s)) fun _ _ u => steady_txSend u _ _ _ _ _

theorem steady_relayEnds (s : State) (j : Nat) : Steady s (s.relayEnds j) :=
  (Steady.refl s).foldl fun n hn u => .ite ((steady_endRelay u (List.mem_range.1 hn)).setPort n _) (.refl u)

theorem steady_sendPartner (s : State) (j : Nat) (release : Bool) (m : Option Mirror) : Steady s (s.sendPartner j release m) :=
  .ite (((Steady.parts (.refl s)).trans (steady_plSend _ _)).trans (steady_relayEnds _ j)) (.refl s)

theorem steady_buildMirror (s : State) (j : Nat) : Steady s (s.buildMirror j).2 := by
  unfold State.buildMirror
  extract_lets max' fixed all
  split
  extract_lets mark deferred keyPos v w
  have hv : Steady s v := .parts (.refl s)
  have hw : Steady s w := .ite ((hv.setFld _).raise 188) hv
  exact (hw.setFld _).setFld _

theorem steady_nextBc1 (s : State) (r : Nat) : Steady s (s.nextBc1 r).2 := by
  unfold State.nextBc1
  dsimp only
  split
  · exact .refl s
  · exact (Steady.refl s).setPort r _

theorem steady_buildDown (s : State) (r j : Nat) (ovr : Bool) : Steady s (s.buildDown r j ovr).2 := by
  unfold State.buildDown State.tagOr
  dsimp only
  split
  · exact steady_nextBc1 s r
  · exact (steady_nextBc1 s r).parts

theorem steady_relaySend (s : State) (j : Nat) (ovr : Bool) : Steady s (s.relaySend j ovr) :=
  (Steady.refl s).foldl fun n _ u => (steady_buildDown u n j ovr).parts

/-! ## Roles at the send point -/

theorem cycleKept_giveUpNow (s : State) (j : Nat) : Keeps cycleFields s (s.giveUpNow j) := by
  unfold State.giveUpNow
  dsimp only
  refine Keeps.trans ?_ (steady_sendPartner _ j true _).cycleKept
  have h := ((steady_buildMirror s j).cycleKept.trans (cycleKept_dropLease _ roleStandby)).setBit (f := F.RDU_STAT_REL_HOLD) true
  exact ((h.raise 185).setFld (f := F.RDU_REL_CNT_V) _).parts

theorem cycleKept_eqxHolder (s : State) : Keeps cycleFields s s.eqxHolder := by
  have hdrop := (cycleKept_dropLease s roleStandby).setFld (f := F.RDU_EQX_CTL_EQ_ST) 1
  have hset {t : State} (h : Keeps cycleFields s t) : Keeps cycleFields s ((t.setBit F.RDU_EQX_CTL_GO false).eqSt 5) := (h.setBit false).setFld 5
  exact .ite (fun _ => ((Keeps.parts (hdrop.setFld (f := F.RDU_EQX_CNT_V) _)).raise 185).raise 189)
    fun _ => (hset (Keeps.rdu (.refl _ s))).raise 189

theorem cycleKept_eqxStandby (s : State) : Keeps cycleFields s s.eqxStandby := by
  have h := ((cycleKept_takeLease s).setFld (f := F.RDU_EQX_CTL_EQ_ST) 1).setFld (f := F.RDU_EQX_CNT_V)
    (min (((s.takeLease).eqSt 1).fld F.RDU_EQX_CNT_V + 1) (2 ^ F.RDU_EQX_CNT_V.w - 1))
  exact .ite (fun _ => h.parts.raise 189) fun _ => cycleKept_takeLease s

theorem steady_bookShadow (s : State) (k : Nat) : Steady s (s.bookShadow k) := by
  unfold State.bookShadow
  split
  · exact .ite (.refl s) ((Steady.refl s).foldl fun m hm u => steady_armBook (List.mem_range.1 hm) u _)
  · exact .refl s

/-- The state with the holder's frame for cycle `j` decided. -/
def State.frameSet (s : State) (n j : Nat) (ovr : Bool) : State :=
  if s.rdu.sendFrom ≤ n then { s with cyc := { s.cyc with frame := some (j, ovr) } } else s

theorem steady_holderSend (s : State) (n j : Nat) (ovr : Bool) : Steady (s.frameSet n j ovr) (s.holderSend n j ovr) := by
  unfold State.holderSend State.frameSet
  dsimp only
  refine Steady.trans (Steady.trans ?_ (steady_buildMirror _ j)) (steady_sendPartner _ j false _)
  split_ifs
  · exact steady_relaySend _ j ovr
  · exact .refl s

theorem cycleKept_holderSend (s : State) (n j : Nat) (ovr : Bool) : Keeps cycleFields s (s.holderSend n j ovr) :=
  have hset : Keeps cycleFields s (s.frameSet n j ovr) := .ite (fun _ => .parts (.refl _ s)) fun _ => .refl _ s
  hset.trans (steady_holderSend s n j ovr).cycleKept

theorem cycleKept_holderPoint (s : State) (n j : Nat) (ovr : Bool) : Keeps cycleFields s (s.holderPoint n j ovr) := by
  unfold State.holderPoint
  extract_lets v
  have hv : Keeps cycleFields s v := .ite (fun _ => cycleKept_eqxHolder s) fun _ => .refl _ s
  exact .ite (fun _ => (cycleKept_dropLease s roleInit).trans (steady_sendPartner _ j false none).cycleKept)
    fun _ => .ite (fun _ => cycleKept_giveUpNow s j)
    fun _ => .ite (fun _ => hv.trans (cycleKept_holderSend v n j ovr)) fun _ => hv.trans (steady_sendPartner v j false none).cycleKept

theorem cycleKept_standbyPoint (s : State) (n j : Nat) (comp : Option Bool) : Keeps cycleFields s (s.standbyPoint n j comp) := by
  unfold State.standbyPoint
  extract_lets asked v w
  have hv : Keeps cycleFields s v := .ite (fun _ => cycleKept_eqxStandby s) fun _ => .refl _ s
  have hw : Keeps cycleFields s w := .ite (fun _ => hv.trans (steady_bookShadow v _).cycleKept) fun _ => hv
  exact .ite (fun _ => hw.trans (cycleKept_holderSend w n j _)) fun _ => hv.trans (steady_sendPartner v j false none).cycleKept

end Sys2Proof.Machine
end

section
/-! SEND_POINT (R38, R41, R45, R48): the end of a computation, and the holder's decision for the next frame. -/

namespace Sys2Proof.Machine

variable {s t u v : State} {time : Nat}

/-! ## Overruns (R45, R48) -/

theorem intPend_not_qReg (i : Nat) : R.INT_PEND i ∉ qRegs := fun h => by
  have hlow : ∀ a ∈ qRegs, a < 0x880000 := by decide
  have := hlow _ h
  simp only [R.INT_PEND] at this
  omega

theorem steady_qSync (s : State) : Steady s s.qSync :=
  ⟨(Keeps.refl _ s).frame (frame_qSync s) (by decide) (by decide) fun n _ hp => ((frame_qSync s).pends (intPend_not_qReg _)).trans hp,
    (frame_qSync s).course⟩

theorem steady_tdsOverrun (s : State) : Steady s s.tdsOverrun := by
  unfold State.tdsOverrun
  extract_lets n v _ w
  have hv : Steady s v := (Steady.refl s).setFld _
  have hw : Steady s w := hv.parts
  clear_value w
  exact (hw.foldl fun e _ u => .ite (.refl u) (.parts (.refl u))).trans (steady_qSync _)

theorem steady_mduOverrun (s : State) (j : Nat) : Steady s (s.mduOverrun j) := by
  refine .ite (.refl s) ((Steady.refl s).foldl fun m _ u => ?_)
  have hset (x : ArmSt) : Steady u (u.setArm m x) := .parts (.refl u)
  exact (hset _).foldl fun a _ w => .parts (.refl w)

/-- The effect of an overrun of a computation. -/
def Overran (u t : State) : Prop :=
  t.bit F.TDS_DLM_STAT_OVR = true ∧ Counted F.TDS_OVR_CNT_V u t ∧ Counted F.TDS_DLM_STAT_RUN u t ∧ t.pends 104 = true

/-- An overrun noted in the registers. -/
def State.overrunShown (s : State) : State := (((s.setBit F.TDS_DLM_STAT_OVR true).inc F.TDS_OVR_CNT_V).inc F.TDS_DLM_STAT_RUN).raise 104

theorem overran_shown (s : State) : Overran s s.overrunShown := by
  unfold State.overrunShown
  generalize hv : ((s.setBit F.TDS_DLM_STAT_OVR true).inc F.TDS_OVR_CNT_V).inc F.TDS_DLM_STAT_RUN = v
  have hr {f : RF} (hf : f.addr < 0x880000) : (v.raise 104).fld f = v.fld f := fld_raise _ _ _ (not_mem_evRegs hf _)
  refine ⟨?_, ?_, ?_, pends_raise v 104 (by decide) (by decide)⟩
  · rw [State.bit, hr (by decide), ← hv, State.inc, State.addFld, fld_setFld_apart _ _ _ _ (by decide) (by decide), fld_inc_ne _ _ _ (by decide)]
    exact bit_setBit_self _ _ _ (by decide) rfl
  · unfold Counted
    rw [hr (by decide), ← hv, fld_inc_ne _ _ _ (by decide), fld_inc_self _ _ (by decide), fld_setBit_ne _ _ _ _ (by decide)]
  · unfold Counted
    rw [hr (by decide), ← hv, fld_inc_self _ _ (by decide), fld_inc_ne _ _ _ (by decide), fld_setBit_apart _ _ _ _ (by decide) (by decide)]

theorem Overran.kept (h : Overran s t) (hk : Keeps cycleFields t u) : Overran s u := by
  obtain ⟨hb, hc, hr, hp⟩ := h
  refine ⟨(hk.bit (by decide)).trans hb, ?_, ?_, hk.pends 104 (by decide) hp⟩
  · exact (hk.fields _ (by decide)).trans hc
  · exact (hk.fields _ (by decide)).trans hr

theorem steady_overrun (s : State) (j : Nat) : Steady s.overrunShown (s.overrun j) := by
  unfold State.overrun
  extract_lets reached v w x
  have hx : Steady w x := .ite (((Steady.refl w).raise 106).sendFco _ _ _ _ _ _) (.refl w)
  exact (hx.trans (steady_tdsOverrun x)).trans (steady_mduOverrun _ j)

/-- The role and the course of the cycles stay from `s` to `t`. -/
structure RoleKept (s t : State) : Prop where
  role : t.role = s.role
  course : t.course false = s.course false

theorem roleKept_overrun (s : State) (j : Nat) : RoleKept s (s.overrun j) := by
  have hk : Keeps [F.RDU_STAT_ROLE] s s.overrunShown := (((((Keeps.refl _ s).setBit true).setFld _).setFld _).raise 104)
  have hs := steady_overrun s j
  refine ⟨hs.role.trans (hk.fields _ (by decide)), hs.course.trans ?_⟩
  simp [State.overrunShown]

/-! ## The computation at its send point -/

/-- Complete in time and not masked (R45, R206). -/
def Comp.good (c : Comp) (t : Nat) : Bool := c.done == 8 && decide (c.doneAt < t) && !c.masked

/-- The computation of sample `k`. -/
def State.compOf (s : State) (k : Nat) : Option Comp := s.cyc.comps.find? (fun c => c.k == k)

theorem sendComp_eq (s : State) (t k : Nat) : s.sendComp t k = match s.compOf k with
    | none => (none, s)
    | some c => (some !c.good t, if c.good t then s.setFld F.TDS_DLM_STAT_RUN 0 else s.overrun (k + 3)) := rfl

theorem sendComp_fst (s : State) (t k : Nat) : (s.sendComp t k).1 = (s.compOf k).map (fun c => !c.good t) := by
  rw [sendComp_eq]
  cases s.compOf k <;> rfl

theorem run_sendComp {c : Comp} {t k : Nat} (hc : s.compOf k = some c) (hg : c.good t = true) :
    (s.sendComp t k).2.fld F.TDS_DLM_STAT_RUN = 0 := by
  rw [sendComp_eq, hc]
  simp only [hg, if_true]
  exact fld_setFld_self s _ 0 (by decide)

theorem overran_sendComp {c : Comp} {t k : Nat} (hc : s.compOf k = some c) (hg : c.good t = false) : Overran s (s.sendComp t k).2 := by
  rw [sendComp_eq, hc]
  simp only [hg, Bool.false_eq_true, if_false]
  exact (overran_shown s).kept (steady_overrun s _).cycleKept

theorem roleKept_sendComp (s : State) (t k : Nat) : RoleKept s (s.sendComp t k).2 := by
  rw [sendComp_eq]
  cases s.compOf k with
  | none => exact ⟨rfl, rfl⟩
  | some c =>
    have hrun : Keeps [F.RDU_STAT_ROLE] s (s.setFld F.TDS_DLM_STAT_RUN 0) := (Keeps.refl _ s).setFld 0
    dsimp only
    split_ifs
    · exact ⟨hrun.fields _ (by decide), rfl⟩
    · exact roleKept_overrun s _

/-! ## The send point -/

/-- The state once the frames of the last cycle are forgotten. -/
def State.framesOver (s : State) : State := { s with cyc := { s.cyc with frame := none }, rdu := { s.rdu with txRelay := [], txFwd := [] } }

/-- What the roles do at the send point before t_n. -/
def State.pointWork (s : State) (n : Nat) (comp : Option Bool) : State :=
  if s.role = roleActive then (if comp = some false then s.bookShadow (n - 2) else s).holderPoint n (n + 1) (comp.getD false)
  else s.standbyPoint n (n + 1) comp

/-- The state without the computation of sample `k`. -/
def State.compOver (s : State) (k : Nat) : State := { s with cyc := { s.cyc with comps := s.cyc.comps.filter (fun c => c.k != k) } }

/-- What SEND_POINT does at the send point before t_n. -/
def State.sendMoment (s : State) (t n : Nat) : State :=
  ((s.sendComp t (n - 2)).2.framesOver.pointWork n (s.sendComp t (n - 2)).1).compOver (n - 2)

theorem exec_sendPoint (s : State) (t : Nat) : exec (.sendPoint t) s = .next (s.onDie t fun s =>
    if (t + 140) % s.tc = 0 ∧ 2 ≤ (t + 140) / s.tc ∧ s.cyc.resume ≤ t ∧ s.sys.booting = false then s.sendMoment t ((t + 140) / s.tc)
    else s) := rfl

theorem compOver_comps (s : State) (k : Nat) : ∀ c ∈ (s.compOver k).cyc.comps, c.k ≠ k := fun c hc => by
  simpa using (List.mem_filter.1 hc).2

theorem cycleKept_pointWork (s : State) (n : Nat) (comp : Option Bool) : Keeps cycleFields s (s.pointWork n comp) := by
  have hbook : Keeps cycleFields s (if comp = some false then s.bookShadow (n - 2) else s) :=
    .ite (fun _ => (steady_bookShadow s _).cycleKept) fun _ => .refl _ s
  exact .ite (fun _ => hbook.trans (cycleKept_holderPoint _ n _ _)) fun _ => cycleKept_standbyPoint s n _ comp

/-- What SEND_POINT records of the computation stands in the registers when it is over. -/
theorem cycleKept_sendMoment (s : State) (t n : Nat) : Keeps cycleFields (s.sendComp t (n - 2)).2 (s.sendMoment t n) := by
  have hpre : Keeps cycleFields (s.sendComp t (n - 2)).2 (s.sendComp t (n - 2)).2.framesOver := .parts (.refl _ _)
  have hpost (v : State) : Keeps cycleFields v (v.compOver (n - 2)) := .parts (.refl _ v)
  exact (hpre.trans (cycleKept_pointWork _ n _)).trans (hpost _)

/-- A holder that neither gives the lease up nor hands it over sends its frame. -/
theorem frame_holderPoint {n j : Nat} {ovr : Bool} (hr : s.role = roleActive) (hb : s.rdu.backToInit = false) (hg : s.rdu.giveUp = false)
    (he : s.rdu.eqxN ≠ some n) (hf : s.rdu.sendFrom ≤ n) : (s.holderPoint n j ovr).cyc.frame = some (j, ovr) := by
  have heq : s.holderPoint n j ovr = s.holderSend n j ovr := by
    simp only [State.holderPoint, hb, hg, he, hr, Bool.false_eq_true, if_false, if_true]
  rw [heq, (steady_holderSend s n j ovr).cyc, State.frameSet, if_pos hf]

/-- A holder decides its frame at the send point. -/
theorem frame_sendMoment {n : Nat} (hr : s.role = roleActive) (hb : s.rdu.backToInit = false) (hg : s.rdu.giveUp = false)
    (he : s.rdu.eqxN ≠ some n) (hf : s.rdu.sendFrom ≤ n) (t : Nat) :
    (s.sendMoment t n).cyc.frame = some (n + 1, (s.compOf (n - 2)).any (fun c => !c.good t)) := by
  have hk := roleKept_sendComp s t (n - 2)
  have hov : ((s.sendComp t (n - 2)).1.getD false) = (s.compOf (n - 2)).any (fun c => !c.good t) := by
    rw [sendComp_fst]
    cases s.compOf (n - 2) <;> rfl
  unfold State.sendMoment
  rw [← hov]
  generalize (s.sendComp t (n - 2)).2 = v at hk
  generalize (s.sendComp t (n - 2)).1 = comp
  have hbook : Steady v.framesOver (if comp = some false then v.framesOver.bookShadow (n - 2) else v.framesOver) :=
    .ite (steady_bookShadow _ _) (.refl _)
  have hrole : v.framesOver.role = roleActive := hk.role.trans hr
  show (v.framesOver.pointWork n comp).cyc.frame = _
  rw [State.pointWork, if_pos hrole]
  refine frame_holderPoint (hbook.role.trans hrole) ?_ ?_ ?_ ?_
  · rw [backToInit_of_course hbook.course]
    exact (backToInit_of_course hk.course).trans hb
  · rw [giveUp_of_course hbook.course]
    exact (giveUp_of_course hk.course).trans hg
  · rw [eqxN_of_course hbook.course]
    exact (eqxN_of_course hk.course).symm ▸ he
  · rw [sendFrom_of_course hbook.course]
    exact (sendFrom_of_course hk.course).symm ▸ hf

end Sys2Proof.Machine
end

section
/-! CYCLE_START (R29, R33, R111, R115): what the ring ports send, one after the other, and what the time base does. -/

namespace Sys2Proof.Machine

variable {s t u v : State} {time n k : Nat}

/-! ## What sending leaves alone -/

/-- The state without ports, transmitters and the number of the next free value. -/
def State.still (s : State) : State := { s with ports := [], ltx := [], freeCtr := 0 }

theorem eq_of_still (h : t.still = s.still) : t = { s with ports := t.ports, ltx := t.ltx, freeCtr := t.freeCtr } :=
  congrArg (fun v : State => { v with ports := t.ports, ltx := t.ltx, freeCtr := t.freeCtr }) h

/-- What port `n` depends on of all that sending changes: itself. -/
def State.ringView (s : State) (n : Nat) : State × Port := (s.still, s.port n)

@[simp] theorem port_setPort_self (s : State) (n : Nat) (p : Port) : (s.setPort n p).port n = p := by simp [State.port, State.setPort]

theorem port_setPort_ne (s : State) {n m : Nat} (p : Port) (h : m ≠ n) : (s.setPort n p).port m = s.port m := by
  simp [State.port, State.setPort, spGet_spSet_ne _ _ _ _ _ _ h]

theorem ringView_setPort_ne (s : State) {n m : Nat} (p : Port) (h : m ≠ n) : (s.setPort n p).ringView m = s.ringView m :=
  Prod.ext rfl (port_setPort_ne s p h)

/-- Blocks that leave change the transmitters alone. -/
theorem ringView_txSend (s : State) (l : Nat) (bs : List Blk) (sof time timed : Option Nat) (m : Nat) :
    (s.txSend l bs sof time timed).ringView m = s.ringView m := by
  have hset (t : State) (x : LaneTx) : (t.setTx l x).ringView m = t.ringView m := rfl
  unfold State.txSend
  split
  · rfl
  · split
    · exact hset s _
    · split
      · rfl
      · exact hset (s.txUpTo l) _

/-- Ports send one after the other: each finds its own port, and all that sending leaves alone, as they were. -/
theorem ringView_foldl {f : State → Nat → State} (hf : ∀ s n m, m ≠ n → (f s n).ringView m = s.ringView m) (s : State) (hn : n < 64) :
    ∃ v, v.ringView n = s.ringView n ∧ ((List.range 64).foldl f s).ringView n = (f v n).ringView n :=
  foldl_range_obs f (·.ringView n) hn (fun t j hj _ => hf t j n (Ne.symm hj)) s

theorem still_foldl {f : State → Nat → State} (hf : ∀ s n, (f s n).still = s.still) (l : List Nat) (s : State) :
    (l.foldl f s).still = s.still :=
  List.foldlRecOn l f (motive := fun t => t.still = s.still) rfl fun t ht n _ => (hf t n).trans ht

/-! ## Frames that leave at a cycle start -/

/-- What collect and ring-operation frames of port `n` depend on. -/
structure SameRing (n : Nat) (u v : State) : Prop where
  flds : ∀ f : RF, f.addr < 0x340000 → v.fld f = u.fld f
  role : v.role = u.role
  lanes : v.lanes = u.lanes
  mono : v.mono = u.mono
  uid : v.sys.uid = u.sys.uid
  strap : v.sys.strapConf = u.sys.strapConf
  port : v.port n = u.port n

theorem SameRing.of_view (h : v.ringView n = u.ringView n) : SameRing n u v := by
  obtain ⟨hs, hp⟩ := Prod.mk.inj h
  have hv := eq_of_still hs
  exact ⟨fun f _ => by rw [hv]; rfl, by rw [hv]; rfl, by rw [hv], by rw [hv], by rw [hv], by rw [hv], hp⟩

/-- A register of a ring port or of its lane. -/
theorem ringReg_below {c d : Nat} (hn : n < 64) (h : 0 < d ∧ c + 64 * d ≤ 0x340000 := by decide) : c + n * d < 0x340000 := by
  have hlt : n * d + d ≤ 64 * d := by rw [← Nat.succ_mul]; exact Nat.mul_le_mul_right d hn
  omega

theorem SameRing.buildUp (h : SameRing n u v) (k ftype nslot : Nat) : v.buildUp n k ftype nslot = u.buildUp n k ftype nslot := by
  simp only [State.buildUp, State.ownEnd, h.uid]

section
variable (h : SameRing n u v) (hn : n < 64)
include h hn

theorem SameRing.ncfg : v.ncfg n = u.ncfg n := h.flds _ (ringReg_below hn)

theorem SameRing.sendsTime : v.sendsTime n = u.sendsTime n := by
  have hctl := h.flds (F.RPU_PORT_CTL_EN n) (ringReg_below hn)
  have hphase := h.flds (F.RPU_PORT_STAT_PHASE n) (ringReg_below hn)
  have hactive := h.flds (F.LPH_LANE_STAT_TX_ACTIVE n) (ringReg_below hn)
  have hinject := h.flds (F.LPH_LANE_STAT_INJECT n) (ringReg_below hn)
  have hgen := h.flds (F.LPH_LANE_TEST_GEN n) (ringReg_below hn)
  have hloop := h.flds (F.LPH_LANE_TEST_LOOP n) (ringReg_below hn)
  have hlane : v.lane n = u.lane n := by rw [State.lane, State.lane, h.lanes]
  simp only [State.sendsTime, State.enabled, State.phase, State.txOpen, State.nearLoop, State.bit]
  rw [hlane, h.mono, h.strap, hctl, hphase, hactive, hinject, hgen, hloop]

theorem SameRing.originates (k : Nat) : v.originates n k = u.originates n k := by
  have hp : v.phase n = u.phase n := h.flds _ (ringReg_below hn)
  simp only [State.originates, h.sendsTime hn, h.role, hp, h.port]

end

/-- What port `n` has to send at the start of cycle `k` beside its collect frame. -/
def State.opFrame (s : State) (n k : Nat) : List Blk :=
  match (s.port n).askedIdent with
  | some m => s.buildUp n k ftIdent m
  | none => if k % 4 = 0 then s.buildUp n k ftTstamp (s.ncfg n) else []

/-- Port `n` once cycle `k` has started there. -/
def State.portUp (s : State) (n k : Nat) : Port :=
  if s.originates n k then { s.port n with txUp := s.buildUp n k ftCollect (s.ncfg n), txOp := s.opFrame n k, askedIdent := none }
  else { s.port n with txUp := [], txOp := [], askedIdent := none }

theorem ringView_sendUp (s : State) (n k m : Nat) : (s.sendUp n k).ringView m = (s.setPort n (s.portUp n k)).ringView m := by
  by_cases h : s.originates n k = true
  · rw [State.sendUp, State.portUp, if_pos h, if_pos h]
    exact ringView_txSend _ _ _ _ _ _ _
  · rw [State.sendUp, State.portUp, if_neg h, if_neg h]

theorem ringView_sendUp_ne (s : State) {n m : Nat} (h : m ≠ n) (k : Nat) : (s.sendUp n k).ringView m = s.ringView m :=
  (ringView_sendUp s n k m).trans (ringView_setPort_ne s _ h)

theorem port_sendUp (s : State) (n k : Nat) : (s.sendUp n k).port n = s.portUp n k :=
  (congrArg Prod.snd (ringView_sendUp s n k n)).trans (port_setPort_self s n _)

theorem still_sendUp (s : State) (n k : Nat) : (s.sendUp n k).still = s.still := congrArg Prod.fst (ringView_sendUp s n k n)

theorem SameRing.portUp (h : SameRing n u v) (hn : n < 64) (k : Nat) : v.portUp n k = u.portUp n k := by
  simp only [State.portUp, State.opFrame, h.originates hn, h.port, h.buildUp, h.ncfg hn]

/-- All ports at the start of cycle `k`. -/
def State.upAll (s : State) (k : Nat) : State := (List.range 64).foldl (fun s n => s.sendUp n k) s

theorem still_upAll (s : State) (k : Nat) : (s.upAll k).still = s.still := still_foldl (fun s n => still_sendUp s n k) _ s

theorem port_upAll (s : State) (k : Nat) (hn : n < 64) : (s.upAll k).port n = s.portUp n k := by
  obtain ⟨v, hv, hr⟩ := ringView_foldl (fun s n m hm => ringView_sendUp_ne s hm k) s hn
  exact ((congrArg Prod.snd hr).trans (port_sendUp v n k)).trans ((SameRing.of_view hv).portUp hn k)

end Sys2Proof.Machine
end

section
/-! CYCLE_START: the time base at a cycle boundary, and the whole of the command (R29, R33, R245, R250). -/

namespace Sys2Proof.Machine

variable {s t u v : State} {time n k : Nat}

/-! ## The time base at a cycle boundary -/

/-- A step of the time base: its status register, its three sources and its own part of the state. -/
def TbuStep (s t : State) : Prop := Frame [R.TBU_STAT] [150, 151, 152] [] { s with tbu := t.tbu } t

theorem Frame.withTbu {rs es ks : List Nat} (h : Frame rs es ks s t) (x : TbuSt) : Frame rs es ks { s with tbu := x } { t with tbu := x } :=
  ⟨h.regs, h.mem, h.inbox, h.notes, h.msgs, congrArg (fun b : State => { b with tbu := x }) h.bare⟩

theorem TbuStep.trans (h : TbuStep s t) (h' : TbuStep t u) : TbuStep s u := Frame.trans (Frame.withTbu h u.tbu) h'

theorem TbuStep.of_frame (h : Frame [R.TBU_STAT] [150, 151, 152] [] s t) : TbuStep s t := by
  have ht : t.tbu = s.tbu := show t.bare.tbu = s.bare.tbu from congrArg _ h.bare
  unfold TbuStep
  rw [ht]
  exact h

theorem TbuStep.refl (s : State) : TbuStep s s := .of_frame (.refl _ _ _ s)

theorem tbuStep_tbu (s : State) (x : TbuSt) : TbuStep s { s with tbu := x } := Frame.refl _ _ _ _

theorem tbuStep_setSlew (s : State) (b : Bool) : TbuStep s (s.setSlew b) :=
  .of_frame (.ite _ (fun _ => .refl _ _ _ s) fun _ => ((Frame.refl _ _ _ s).setBit b (by decide)).raise (by decide))

theorem tbuStep_setLock (s : State) (b : Bool) : TbuStep s (s.setLock b) := by
  unfold State.setLock
  extract_lets _ v
  have hv : TbuStep s v := by
    cases b
    · exact tbuStep_tbu s _
    · exact .refl s
  exact hv.trans (.of_frame (.ite _ (fun _ => .refl _ _ _ v) fun _ => ((Frame.refl _ _ _ v).setBit b (by decide)).raise (by decide)))

theorem tbuStep_servoRate (s : State) (d : Int) : TbuStep s (s.servoRate d).2 := by
  unfold State.servoRate
  split
  · exact .refl s
  · exact .of_frame (((Frame.refl _ _ _ s).free _).free _)

theorem tbuStep_tbuHold (s : State) : TbuStep s s.tbuHold := by
  unfold State.tbuHold
  extract_lets q v w
  have hv : Frame [R.TBU_STAT] [150, 151, 152] [] s v := (Frame.refl _ _ _ s).setFld _ (by decide)
  have hw : TbuStep s w := .of_frame ((hv.setBit (!q) (by decide)).raise (by decide))
  split_ifs
  · exact .of_frame hv
  · exact hw
  · exact (((hw.trans (tbuStep_setSlew w false)).trans (tbuStep_setLock _ false)).trans (tbuStep_servoRate _ 0)).trans (tbuStep_tbu _ _)

theorem tbuStep_tbuSync (s : State) : TbuStep s s.tbuSync := by
  unfold State.tbuSync
  extract_lets c _ v
  have hv : TbuStep s v := by
    by_cases h : s.tbu.sel = c
    · simp only [v, if_pos h, TbuStep.refl]
    · simp only [v, if_neg h, tbuStep_tbu]
  exact hv.trans (tbuStep_tbuHold v)

/-- The time base at the start of cycle `k`. -/
def State.cycleSynced (s : State) (k : Nat) : State := (({ s with cyc := { s.cyc with started := k } } : State).wr R.TBU_CYCLE (cyc32 k)).tbuSync

theorem frame_cycleSynced (s : State) (k : Nat) : Frame [R.TBU_CYCLE, R.TBU_STAT] [150, 151, 152] []
    { s with cyc := { s.cyc with started := k }, tbu := (s.cycleSynced k).tbu } (s.cycleSynced k) := by
  have hwr : Frame [R.TBU_CYCLE, R.TBU_STAT] [150, 151, 152] [] { s with cyc := { s.cyc with started := k } }
      (({ s with cyc := { s.cyc with started := k } } : State).wr R.TBU_CYCLE (cyc32 k)) := (Frame.refl _ _ _ _).wr _ (by decide)
  have hsync : Frame [R.TBU_CYCLE, R.TBU_STAT] [150, 151, 152] [] _ (s.cycleSynced k) :=
    Frame.mono (tbuStep_tbuSync (({ s with cyc := { s.cyc with started := k } } : State).wr R.TBU_CYCLE (cyc32 k)))
      (by simp) (by simp) (by simp)
  exact (hwr.withTbu _).trans hsync

theorem rd_cycleSynced (s : State) (k : Nat) : (s.cycleSynced k).rd R.TBU_CYCLE = cyc32 k := by
  generalize hv : ({ s with cyc := { s.cyc with started := k } } : State).wr R.TBU_CYCLE (cyc32 k) = v
  have h : TbuStep v (s.cycleSynced k) := hv ▸ tbuStep_tbuSync _
  have hkeep : (s.cycleSynced k).rd R.TBU_CYCLE = v.rd R.TBU_CYCLE :=
    h.regs _ (by decide) fun m _ => not_mem_evRegs (by decide) m
  rw [hkeep, ← hv]
  exact rd_wr_self _ _ _

/-- A field outside the time base's two registers. -/
theorem fld_cycleSynced (s : State) (k : Nat) {f : RF} (hf : f.addr ∉ [R.TBU_CYCLE, R.TBU_STAT]) (hb : f.addr < 0x880000) :
    (s.cycleSynced k).fld f = s.fld f := (frame_cycleSynced s k).fld hf hb

theorem port_of_ports (h : t.ports = s.ports) (n : Nat) : t.port n = s.port n := by rw [State.port, State.port, h]

theorem sameRing_cycleSynced (s : State) (k n : Nat) : SameRing n s (s.cycleSynced k) := by
  have hb := (frame_cycleSynced s k).bare
  generalize hv : s.cycleSynced k = v at hb
  have hlow (f : RF) (hf : f.addr < 0x340000) : v.fld f = s.fld f := by
    rw [← hv]
    refine fld_cycleSynced s k ?_ (by omega)
    simp only [R.TBU_CYCLE, R.TBU_STAT, List.mem_cons, List.not_mem_nil, or_false]
    omega
  have hrole : v.role = s.role := hv ▸ fld_cycleSynced s k (by decide) (by decide)
  have hports : v.ports = s.ports := (congrArg State.ports hb :)
  exact ⟨hlow, hrole, (congrArg State.lanes hb :), (congrArg State.mono hb :), (congrArg (·.sys.uid) hb :), (congrArg (·.sys.strapConf) hb :),
    port_of_ports hports n⟩

/-! ## CYCLE_START -/

/-- The state without what drives pins: ports, transmitters, APW channels, and the number of the next free value. -/
def State.inner (s : State) : State := { s with ports := [], ltx := [], freeCtr := 0, apw := {} }

theorem eq_of_inner (h : t.inner = s.inner) : t = { s with ports := t.ports, ltx := t.ltx, freeCtr := t.freeCtr, apw := t.apw } :=
  congrArg (fun v : State => { v with ports := t.ports, ltx := t.ltx, freeCtr := t.freeCtr, apw := t.apw }) h

theorem inner_of_still (h : t.still = s.still) : t.inner = s.inner := congrArg (fun v : State => { v with apw := {} }) h

theorem cyc_of_inner (h : t.inner = s.inner) : t.cyc = s.cyc := (congrArg State.cyc h :)
theorem tbu_of_inner (h : t.inner = s.inner) : t.tbu = s.tbu := (congrArg State.tbu h :)

theorem rd_of_inner (h : t.inner = s.inner) (a : Nat) : t.rd a = s.rd a := by
  have hr : t.regs = s.regs := (congrArg State.regs h :)
  rw [State.rd, State.rd, hr]

theorem leaseHeld_of_inner (h : t.inner = s.inner) : t.leaseHeld = s.leaseHeld := by
  simp only [State.leaseHeld, State.fld, rd_of_inner h]

/-- The pins follow the channels; the lease that they saw stays. -/
theorem apwAll_keeps (s : State) : s.apwAll.inner = s.inner ∧ s.apwAll.ports = s.ports ∧ s.apwAll.apw.lease = s.apw.lease :=
  List.foldlRecOn (List.range 12) _
    (motive := fun t : State => t.inner = s.inner ∧ t.ports = s.ports ∧ t.apw.lease = s.apw.lease) ⟨rfl, rfl, rfl⟩ fun _ ht _ _ => ht

/-- What CYCLE_START does at the start of cycle `k` of a started unit. -/
def State.cycleMoment (s : State) (k : Nat) : State :=
  let s := (s.cycleSynced k).upAll k
  ({ s with apw := { s.apw with lease := s.leaseHeld } } : State).apwAll

theorem exec_cycleStart (s : State) (t : Nat) : exec (.cycleStart t) s = .next (s.onDie t fun s =>
    if t % s.tc = 0 ∧ s.cyc.resume ≤ t ∧ s.sys.booting = false then s.cycleMoment (t / s.tc) else s) := rfl

/-- Beside the time base, ports, transmitters and pins take part in a cycle start. -/
theorem inner_cycleMoment (s : State) (k : Nat) : (s.cycleMoment k).inner = (s.cycleSynced k).inner :=
  (apwAll_keeps _).1.trans (inner_of_still (t := (s.cycleSynced k).upAll k) (still_upAll _ k))

theorem lease_cycleMoment (s : State) (k : Nat) : (s.cycleMoment k).apw.lease = s.leaseHeld := by
  have hsync : (s.cycleSynced k).leaseHeld = s.leaseHeld := congrArg (· == 2) (fld_cycleSynced s k (f := F.RDU_STAT_ROLE) (by decide) (by decide))
  have hup := leaseHeld_of_inner (inner_of_still (still_upAll (s.cycleSynced k) k))
  exact (apwAll_keeps _).2.2.trans (hup.trans hsync)

theorem port_cycleMoment (s : State) (k : Nat) (hn : n < 64) : (s.cycleMoment k).port n = s.portUp n k := by
  have hp : (s.cycleMoment k).ports = ((s.cycleSynced k).upAll k).ports := (apwAll_keeps _).2.1
  have hport : (s.cycleMoment k).port n = ((s.cycleSynced k).upAll k).port n := port_of_ports hp n
  exact (hport.trans (port_upAll _ k hn)).trans ((sameRing_cycleSynced s k n).portUp hn k)

theorem cyc_cycleMoment (s : State) (k : Nat) : (s.cycleMoment k).cyc = { s.cyc with started := k } :=
  (cyc_of_inner (inner_cycleMoment s k)).trans (cyc_of_course (b := false) (frame_cycleSynced s k).course)

theorem rd_cycleMoment (s : State) (k : Nat) : (s.cycleMoment k).rd R.TBU_CYCLE = cyc32 k :=
  (rd_of_inner (inner_cycleMoment s k) _).trans (rd_cycleSynced s k)

theorem Frame.withPins {rs es ks : List Nat} (h : Frame rs es ks s t) (v : State) : Frame rs es ks
    { s with ports := v.ports, ltx := v.ltx, apw := v.apw } { t with ports := v.ports, ltx := v.ltx, freeCtr := v.freeCtr, apw := v.apw } :=
  have hpins : Frame rs es ks { s with ports := v.ports, ltx := v.ltx, apw := v.apw } { t with ports := v.ports, ltx := v.ltx, apw := v.apw } :=
    ⟨h.regs, h.mem, h.inbox, h.notes, h.msgs, congrArg (fun b : State => { b with ports := v.ports, ltx := v.ltx, apw := v.apw }) h.bare⟩
  hpins.free _

theorem Frame.inner {rs es ks : List Nat} {x : CycSt} (h : Frame rs es ks { s with cyc := x, tbu := v.tbu } v) (ht : t.inner = v.inner)
    (hc : t.cyc = x) : Frame rs es ks { s with cyc := t.cyc, tbu := t.tbu, ports := t.ports, ltx := t.ltx, apw := t.apw } t := by
  have hp := h.withPins t
  rw [← eq_of_inner ht] at hp
  rw [hc, tbu_of_inner ht]
  exact hp

theorem frame_cycleMoment (s : State) (k : Nat) : Frame [R.TBU_CYCLE, R.TBU_STAT] [150, 151, 152] []
    { s with cyc := (s.cycleMoment k).cyc, tbu := (s.cycleMoment k).tbu, ports := (s.cycleMoment k).ports, ltx := (s.cycleMoment k).ltx,
             apw := (s.cycleMoment k).apw } (s.cycleMoment k) :=
  (frame_cycleSynced s k).inner (inner_cycleMoment s k) (cyc_cycleMoment s k)

end Sys2Proof.Machine
end

section
/-! DOWN_FRAME_SEND (R35, R110, R120): what leaves on each ring, and what the command leaves alone. -/

namespace Sys2Proof.Machine

variable {s t u v : State} {time n r j : Nat} {ovr : Bool}

/-! ## The down frame of one ring -/

theorem port_of_view (h : v.ringView n = u.ringView n) : v.port n = u.port n := congrArg Prod.snd h

theorem still_of_view (h : v.ringView n = u.ringView n) : v.still = u.still := congrArg Prod.fst h

theorem ringView_nextBc1_ne (s : State) {m : Nat} (h : m ≠ r) : (s.nextBc1 r).2.ringView m = s.ringView m := by
  unfold State.nextBc1
  dsimp only
  split
  · rfl
  · exact ringView_setPort_ne s _ h

theorem sessFor_nextBc1 (s : State) (r j : Nat) : ((s.nextBc1 r).2.port r).sessFor j = (s.port r).sessFor j := by
  unfold State.nextBc1
  dsimp only
  split
  · rfl
  · rw [port_setPort_self]; rfl

theorem ownEnd_nextBc1 (s : State) (r : Nat) : (s.nextBc1 r).2.ownEnd = s.ownEnd := by
  unfold State.nextBc1
  dsimp only
  split <;> rfl

theorem ringView_buildDown_ne (s : State) {m : Nat} (h : m ≠ r) (j : Nat) (ovr : Bool) : (s.buildDown r j ovr).2.ringView m = s.ringView m := by
  unfold State.buildDown State.tagOr
  dsimp only
  split
  · exact ringView_nextBc1_ne s h
  · exact (ringView_nextBc1_ne s h : (s.nextBc1 r).2.ringView m = _)

theorem bc1_of_view (h : v.ringView r = u.ringView r) : (v.nextBc1 r).1 = (u.nextBc1 r).1 := by
  have hp := port_of_view h
  obtain ⟨p, l, f, rfl⟩ : ∃ p l f, v = { u with ports := p, ltx := l, freeCtr := f } := ⟨_, _, _, eq_of_still (still_of_view h)⟩
  have hd : ({ u with ports := p, ltx := l, freeCtr := f } : State).delayed r = u.delayed r := by
    simp only [State.delayed, hp]
    rfl
  unfold State.nextBc1
  simp only [hd, hp]
  split <;> rfl

/-- On a ring with a key session the down frame does not hang on the other rings. -/
theorem buildDown_of_view (h : v.ringView r = u.ringView r) {x : Session} (hx : (u.port r).sessFor j = some x) :
    (v.buildDown r j ovr).1 = (u.buildDown r j ovr).1 := by
  have hb := bc1_of_view h
  have hv : (v.port r).sessFor j = some x := (port_of_view h).symm ▸ hx
  obtain ⟨p, l, f, rfl⟩ : ∃ p l f, v = { u with ports := p, ltx := l, freeCtr := f } := ⟨_, _, _, eq_of_still (still_of_view h)⟩
  generalize hw : ({ u with ports := p, ltx := l, freeCtr := f } : State) = w at hb hv
  have hn : w.ncfg r = u.ncfg r := hw ▸ rfl
  have hrd (a : Nat) : w.rd a = u.rd a := hw ▸ rfl
  have hbrel : w.brel r = u.brel r := hw ▸ rfl
  have hst : w.sfiState = u.sfiState := hw ▸ rfl
  have htc : w.tc = u.tc := hw ▸ rfl
  have hslot (q : Nat) : w.slotFor r q j ovr = u.slotFor r q j ovr := hw ▸ rfl
  have hend : w.ownEnd = u.ownEnd := hw ▸ rfl
  simp only [State.buildDown, State.tagOr, sessFor_nextBc1, ownEnd_nextBc1, hv, hx, hb, Option.map_some, State.fld, hn, hrd, hbrel, hst, htc,
    hslot, hend]

/-- The blocks of the down frame of ring `r` for cycle `j`, and the state once they are built. -/
def State.downBlocks (s : State) (r j : Nat) (ovr : Bool) : List Blk × State :=
  if ((s.port r).sessFor j).isNone then ([], s)
  else match s.rdu.txRelay.find? (fun x => x.1 == r) with
    | some x => (x.2.drop 1, s)
    | none => s.buildDown r j ovr

theorem ringView_downBlocks_ne (s : State) {m : Nat} (h : m ≠ r) (j : Nat) (ovr : Bool) : (s.downBlocks r j ovr).2.ringView m = s.ringView m := by
  unfold State.downBlocks
  split
  · rfl
  · split
    · rfl
    · exact ringView_buildDown_ne s h j ovr

theorem downBlocks_fst (s : State) (r j : Nat) (ovr : Bool) : (s.downBlocks r j ovr).1 =
    if ((s.port r).sessFor j).isNone then []
    else match s.rdu.txRelay.find? (fun x => x.1 == r) with
      | some x => x.2.drop 1
      | none => (s.buildDown r j ovr).1 := by
  unfold State.downBlocks
  split
  · rfl
  · split <;> rfl

theorem downBlocks_of_view (h : v.ringView r = u.ringView r) : (v.downBlocks r j ovr).1 = (u.downBlocks r j ovr).1 := by
  have hrdu : v.rdu = u.rdu := (congrArg State.rdu (still_of_view h) :)
  rw [downBlocks_fst, downBlocks_fst, port_of_view h, hrdu]
  cases hx : (u.port r).sessFor j with
  | none => simp only [Option.isNone_none, if_true]
  | some x => rw [buildDown_of_view h hx]

/-! ## The port behind its down frame -/

theorem sessionSend_setPort (s : State) (n c : Nat) : ∃ p : Port, s.sessionSend n c = s.setPort n p ∧ p.txDown = (s.port n).txDown := by
  unfold State.sessionSend
  dsimp only
  split
  · split
    · exact ⟨_, rfl, rfl⟩
    · exact ⟨_, rfl, rfl⟩
  · split
    · split
      · exact ⟨_, rfl, rfl⟩
      · exact ⟨_, rfl, rfl⟩
    · exact ⟨_, rfl, rfl⟩

/-- The port with its down frame sent, and its session frame behind it. -/
def State.downPort (s : State) (n j : Nat) (ovr : Bool) : State :=
  let x := s.downBlocks n j ovr
  (x.2.setPort n { x.2.port n with txDown := x.1 }).sessionSend n (j - 1)

theorem ringView_downSend (s : State) (n j : Nat) (ovr : Bool) (m : Nat) : (s.downSend n j ovr).ringView m = (s.downPort n j ovr).ringView m :=
  ringView_txSend _ _ _ _ _ _ _

/-- The port shows its down frame; the other ports are as the building of the frame left them. -/
theorem downPort_spec (s : State) (n j : Nat) (ovr : Bool) :
    (∀ m, m ≠ n → (s.downPort n j ovr).ringView m = (s.downBlocks n j ovr).2.ringView m) ∧
      ((s.downPort n j ovr).port n).txDown = (s.downBlocks n j ovr).1 := by
  unfold State.downPort
  generalize s.downBlocks n j ovr = x
  obtain ⟨p, hp, hd⟩ := sessionSend_setPort (x.2.setPort n { x.2.port n with txDown := x.1 }) n (j - 1)
  dsimp only
  rw [hp]
  exact ⟨fun m h => by rw [ringView_setPort_ne _ _ h, ringView_setPort_ne _ _ h], by rw [port_setPort_self, hd, port_setPort_self]⟩

theorem ringView_downSend_ne (s : State) {m : Nat} (h : m ≠ n) (j : Nat) (ovr : Bool) : (s.downSend n j ovr).ringView m = s.ringView m := by
  rw [ringView_downSend, (downPort_spec s n j ovr).1 m h, ringView_downBlocks_ne s h]

theorem txDown_downSend (s : State) (n j : Nat) (ovr : Bool) : ((s.downSend n j ovr).port n).txDown = (s.downBlocks n j ovr).1 := by
  rw [port_of_view (ringView_downSend s n j ovr n), (downPort_spec s n j ovr).2]

theorem still_downSend (s : State) (n j : Nat) (ovr : Bool) : (s.downSend n j ovr).still = s.still :=
  still_of_view (ringView_downSend_ne s (Nat.succ_ne_self n) j ovr)

/-! ## All rings -/

/-- The rings whose frames leave. -/
def State.downAll (s : State) (j : Nat) (ovr : Bool) : State := (s.rings.filter s.sendsTime).foldl (fun s n => s.downSend n j ovr) s

theorem still_downAll (s : State) (j : Nat) (ovr : Bool) : (s.downAll j ovr).still = s.still := still_foldl (fun s n => still_downSend s n j ovr) _ s

theorem downAll_eq (s : State) (j : Nat) (ovr : Bool) : s.downAll j ovr =
    (List.range 64).foldl (fun v n => if s.enabled n then (if s.sendsTime n then v.downSend n j ovr else v) else v) s := by
  rw [State.downAll, List.foldl_filter, State.rings, List.foldl_filter]

theorem txDown_downAll (s : State) (j : Nat) (ovr : Bool) (hr : r ∈ s.rings) (hs : s.sendsTime r = true) :
    ((s.downAll j ovr).port r).txDown = (s.downBlocks r j ovr).1 := by
  have hen : s.enabled r = true := (List.mem_filter.1 hr).2
  rw [downAll_eq]
  obtain ⟨v, hv, hf⟩ := ringView_foldl
    (f := fun v n => if s.enabled n then (if s.sendsTime n then v.downSend n j ovr else v) else v)
    (fun v n m hm => by
      split
      · split
        · exact ringView_downSend_ne v hm j ovr
        · rfl
      · rfl) s (mem_rings hr)
  rw [port_of_view hf, if_pos hen, if_pos hs, txDown_downSend, downBlocks_of_view hv]

/-! ## DOWN_FRAME_SEND -/

/-- The down frames have left. -/
def State.downMoment (s : State) (j : Nat) (ovr : Bool) : State :=
  { s.downAll j ovr with cyc := { (s.downAll j ovr).cyc with frame := none } }

theorem exec_downFrameSend (s : State) (t : Nat) : exec (.downFrameSend t) s = .next (s.onDie t fun s =>
    match s.cyc.frame with
    | none => s
    | some (j, ovr) => if t = (j - 1) * s.tc ∧ s.role ≠ roleInit then s.downMoment j ovr else s) := rfl

theorem frame_downMoment (s : State) (j : Nat) (ovr : Bool) : Frame [] [] []
    { s with cyc := { s.cyc with frame := none }, ports := (s.downMoment j ovr).ports, ltx := (s.downMoment j ovr).ltx } (s.downMoment j ovr) := by
  have hall := eq_of_still (still_downAll s j ovr)
  unfold State.downMoment
  generalize s.downAll j ovr = v at hall
  have hc : v.cyc = s.cyc := (congrArg State.cyc hall :)
  have heq : ({ v with cyc := { v.cyc with frame := none } } : State) =
      { s with cyc := { s.cyc with frame := none }, ports := v.ports, ltx := v.ltx, freeCtr := v.freeCtr } := by
    rw [hc]
    exact congrArg (fun x : State => { x with cyc := { s.cyc with frame := none } }) hall
  have hfree : Frame [] [] [] ({ s with cyc := { s.cyc with frame := none }, ports := v.ports, ltx := v.ltx } : State)
      { s with cyc := { s.cyc with frame := none }, ports := v.ports, ltx := v.ltx, freeCtr := v.freeCtr } := (Frame.refl _ _ _ _).free _
  rw [← heq] at hfree
  exact hfree

end Sys2Proof.Machine
end

section
/-! The control cycle: each command at its instant (R33, R37, R38, R44 to R48, R110, R203). -/

namespace Sys2Proof.Machine

variable {s t u : State} {time : Nat}

/-! ## Each command's part of the statement -/

/-- Clause by clause what a port sends at a cycle start. -/
theorem portUp_spec (u : State) (r k : Nat) : (u.portUp r k).askedIdent = none ∧
    (u.originates r k = false → (u.portUp r k).txUp = [] ∧ (u.portUp r k).txOp = []) ∧
    (u.originates r k = true → (u.portUp r k).txUp = u.buildUp r k ftCollect (u.ncfg r) ∧
      (∀ m, (u.port r).askedIdent = some m → (u.portUp r k).txOp = u.buildUp r k ftIdent m) ∧
      ((u.port r).askedIdent = none → (u.portUp r k).txOp = if k % 4 = 0 then u.buildUp r k ftTstamp (u.ncfg r) else [])) := by
  cases ho : u.originates r k with
  | false => simp [State.portUp, ho]
  | true =>
    simp only [State.portUp, ho, if_true, State.opFrame]
    exact ⟨trivial, nofun, fun _ => ⟨trivial, fun m hm => by rw [hm], fun hm => by rw [hm]⟩⟩

/-- A computation that is not in time at its boundary: late once. -/
theorem phaseMoment_once {c : Comp} {n : Nat} (hr : c.rel ≤ n) (hi : ¬ (c.p0At.isSome = true ∧ c.done = n ∧ c.doneAt < time))
    (hl : n ≤ c.late) : s.phaseMoment c time n = s.rankJudged n := by
  rw [phaseMoment_late hr hi, State.boundaryLate, if_neg (Nat.not_lt.2 hl)]

/-- Settles O49: one lemma for each command's effect at its instant, with the frame rules of the operations that it is made of. -/
theorem cyclesPhasesAndSendPoints : Obligations.CyclesPhasesAndSendPoints := by
  intro s time n
  refine ⟨answers_of (exec_cycleStart s time) ?_, answers_of (exec_p0Release s time) ?_, fun c hn hc => answers_phaseRelease hn hc ?_,
    fun c hc hr hd hi => answers_phaseComplete hc hr hd hi ?_, answers_of (exec_sendPoint s time) ?_,
    answers_of (exec_downFrameSend s time) ?_⟩
  · refine ⟨fun h => if_neg h, fun h => ?_⟩
    rw [if_pos h]
    refine ⟨cyc_cycleMoment _ _, rd_cycleMoment _ _, lease_cycleMoment _ _, frame_cycleMoment _ _, fun r hr => ?_⟩
    rw [port_cycleMoment _ _ hr]
    exact portUp_spec _ r _
  · refine ⟨p0Moment_of_not, p0Moment_init, p0Moment_idle, fun h hr hi => ?_⟩
    rw [p0Moment_busy h hr hi]
    obtain ⟨hcnt, hbit, hfld, hp⟩ := latePhase_phaseLate ((s.tick time).beginComp time (time / (s.tick time).tc - 1)) (p := 0) (by decide)
    exact ⟨hcnt, hbit, hfld, hp, frame_phaseLate _ 0⟩
  · have hm : c ∈ (s.tick time).cyc.comps := List.mem_of_find?_eq_some hc
    refine ⟨fun h => if_pos h, fun hr hi => ⟨_, phaseMoment_inTime hm hr hi, rfl, rfl, rfl⟩, fun hr hi hl => phaseMoment_once hr hi hl,
      fun hr hi hl => ?_⟩
    rw [phaseMoment_late hr hi]
    obtain ⟨⟨hcnt, hbit, hfld, hp⟩, hframe⟩ := boundaryLate_rankJudged (s := s.tick time) n.isLt hl
    exact ⟨hcnt, hbit, hfld, hp, hframe⟩
  · exact phaseEnds_spec (s := s.tick time) hc n.isLt
  · refine ⟨fun h => if_neg h, fun h => ?_⟩
    rw [if_pos h]
    generalize s.tick time = u at h
    refine ⟨compOver_comps _ _, fun c hc hg => ?_, fun c hc hg => ?_, fun hr hb hgu he hf => frame_sendMoment hr hb hgu he hf time⟩
    · exact ((cycleKept_sendMoment u time _).fields _ (by decide)).trans (run_sendComp hc hg)
    · exact (overran_sendComp hc hg).kept (cycleKept_sendMoment u time _)
  · generalize s.tick time = u
    refine ⟨fun h => by rw [h], fun j ovr h => ?_⟩
    rw [h]
    refine ⟨fun hno => if_neg fun hyes => ?_, fun ht hr => ?_⟩
    · exact hno.elim (· hyes.1) hyes.2
    · dsimp only
      rw [if_pos ⟨ht, hr⟩]
      exact ⟨frame_downMoment u j ovr, fun r hr hs => (txDown_downAll u j ovr hr hs).trans (downBlocks_fst u r j ovr)⟩

end Sys2Proof.Machine
end

section
/-! What the partner link, the time base and the ring ports leave alone in the lanes: their receivers and transmitters, their registers, and
the lock of the partner lanes, with memory. -/

namespace Sys2Proof.Machine

variable {rs es ks : List Nat} {s t u : State}

/-! ## The relation -/

/-- A register of the lane block (Table 17.9). -/
abbrev laneReg (a : Nat) : Prop := 0x200000 ≤ a ∧ a < 0x300000

/-- From `s` to `t` the lanes, their registers, LANE_LOCK of the partner link and memory stay. -/
structure LanesKept (s t : State) : Prop where
  regs : ∀ a, laneReg a → t.rd a = s.rd a
  lock : t.fld F.PL_STAT_LANE_LOCK = s.fld F.PL_STAT_LANE_LOCK
  lanes : t.lanes = s.lanes
  mem : SameMem s t

theorem LanesKept.refl (s : State) : LanesKept s s := ⟨fun _ _ => rfl, rfl, rfl, fun _ => rfl⟩

theorem LanesKept.trans (h : LanesKept s t) (h' : LanesKept t u) : LanesKept s u :=
  ⟨fun a ha => (h'.regs a ha).trans (h.regs a ha), h'.lock.trans h.lock, h'.lanes.trans h.lanes, fun a => (h'.mem a).trans (h.mem a)⟩

theorem LanesKept.fld (h : LanesKept s t) {f : RF} (hf : laneReg f.addr) : t.fld f = s.fld f := by simp only [State.fld, h.regs _ hf]
theorem LanesKept.bit (h : LanesKept s t) {f : RF} (hf : laneReg f.addr) : t.bit f = s.bit f := by simp only [State.bit, h.fld hf]

theorem LanesKept.lane (h : LanesKept s t) (l : Nat) : t.lane l = s.lane l := by simp only [State.lane, h.lanes]

/-- A register of lane `l`. -/
theorem laneReg_at {c l : Nat} (hl : l < 72) (h : 0x200000 ≤ c ∧ c < 0x201000 := by decide) : laneReg (c + l * 0x1000) := by unfold laneReg; omega

/-! ## Operations that keep the lanes -/

/-- Parts of the state that are neither registers nor lanes nor memory change freely. -/
theorem LanesKept.parts (h : LanesKept s t) (hr : u.regs = t.regs := by rfl) (hl : u.lanes = t.lanes := by rfl) (hm : u.mem = t.mem := by rfl) :
    LanesKept s u := h.trans ⟨fun a _ => rd_of_regs hr a, fld_of_regs hr _, hl, fun a => mb_of_mem hm a⟩

/-- A frame outside the lane block and PL_STAT. -/
theorem LanesKept.frame (h : LanesKept s t) (hf : Frame rs es ks t u) (hr : ∀ a ∈ rs, ¬ laneReg a ∧ a ≠ R.PL_STAT) : LanesKept s u :=
  h.trans ⟨fun a ha => hf.regs a (fun hm => (hr a hm).1 ha) fun n _ => not_mem_evRegs (by omega) n,
    hf.fld (fun hm => (hr _ hm).2 rfl) (by decide), show u.bare.lanes = t.bare.lanes from congrArg _ hf.bare, hf.mem⟩

theorem LanesKept.setFld (h : LanesKept s t) {f : RF} (x : Nat) (hr : ¬ laneReg f.addr := by decide)
    (hf : f.clears [F.PL_STAT_LANE_LOCK] := by decide) : LanesKept s (t.setFld f x) :=
  h.trans ⟨fun _ ha => rd_setFld_ne _ _ _ _ fun e => hr (e ▸ ha),
    (hf _ (by simp)).elim (fld_setFld_ne _ _ _ _) fun ⟨hok, hap⟩ => fld_setFld_apart _ _ _ _ hok hap, rfl, fun _ => rfl⟩

theorem LanesKept.setBit (h : LanesKept s t) {f : RF} (b : Bool) (hr : ¬ laneReg f.addr := by decide)
    (hf : f.clears [F.PL_STAT_LANE_LOCK] := by decide) : LanesKept s (t.setBit f b) := h.setFld _ hr hf

theorem LanesKept.wr (h : LanesKept s t) {a : Nat} (v : BitVec 32) (ha : ¬ laneReg a ∧ a ≠ R.PL_STAT := by decide) : LanesKept s (t.wr a v) :=
  h.frame (rs := [a]) (es := []) (ks := []) ((Frame.refl _ _ _ _).wr v (by simp)) (by simpa using ha)

theorem LanesKept.raiseKey (h : LanesKept s t) (n key : Nat) : LanesKept s (t.raiseKey n key) :=
  h.frame (((Frame.refl [] [n] [] t).free _).free _ |>.raiseWith _ _ _ (by simp)) (by simp)

theorem LanesKept.raise (h : LanesKept s t) (n : Nat) : LanesKept s (t.raise n) := h.raiseKey n _

theorem LanesKept.sendFco (h : LanesKept s t) (region inst unit kind : Nat) (level qual : Option Nat) :
    LanesKept s (t.sendFco region inst unit kind level qual) :=
  h.frame (rs := []) (es := []) ((Frame.refl _ _ [kind % 256] _).sendFco _ _ _ _ _ _ (by simp)) (by simp)

theorem LanesKept.ite {c : Prop} [Decidable c] (ht : LanesKept s t) (hu : LanesKept s u) : LanesKept s (if c then t else u) := by
  by_cases h : c
  · rw [if_pos h]; exact ht
  · rw [if_neg h]; exact hu

theorem LanesKept.foldl {α : Type} (h : LanesKept s t) {f : State → α → State} {l : List α} (hf : ∀ x ∈ l, ∀ u, LanesKept u (f u x)) :
    LanesKept s (l.foldl f t) :=
  List.foldlRecOn l f (motive := LanesKept s) h fun u hu x hx => hu.trans (hf x hx u)

theorem LanesKept.setPort (h : LanesKept s t) (n : Nat) (p : Port) : LanesKept s (t.setPort n p) := h.parts

theorem LanesKept.setPhase (h : LanesKept s t) {n : Nat} (hn : n < 64) (ph : Nat) : LanesKept s (t.setPhase n ph) := by
  refine .ite h (.raiseKey (h.setFld _ ?_ fun g hg => .inl ?_) _ _)
  · simp only [F.RPU_PORT_STAT_PHASE, R.RPU_PORT_STAT]; omega
  · rw [List.mem_singleton.1 hg]
    simp only [F.PL_STAT_LANE_LOCK, R.PL_STAT, F.RPU_PORT_STAT_PHASE, R.RPU_PORT_STAT]; omega

/-! ## The partner link goes down (R280) -/

theorem lanesKept_relayCut (s : State) {n : Nat} (hn : n < 64) : LanesKept s (s.relayCut n) :=
  .ite (((((LanesKept.refl s).setPort n _).setPhase hn _).setPort n _).setPort n _) (.refl s)

theorem lanesKept_linkLower (s : State) : LanesKept s s.linkLower := by
  rw [linkLower_eq]
  have hbits : LanesKept s (s.linkBits false) := (((LanesKept.refl s).setBit false).setBit false).setBit true
  have hoff : LanesKept s (s.linkBits false).linkOff := hbits.parts
  generalize (s.linkBits false).linkOff = v at hoff
  have hcut : LanesKept s ((List.range 64).foldl State.relayCut v) := hoff.foldl fun n hn w => lanesKept_relayCut w (List.mem_range.1 hn)
  have hready : LanesKept s ((List.range 64).foldl State.relayCut v).refreshReady := hcut.setBit _
  exact (hready.raise 186).sendFco 0 0 4 0x05 none none

/-- A link that is up, with all its lanes locked and not two bad frames in a row, or that is not up, stays as it is. -/
def State.linkCalm (s : State) : Prop := s.bit F.PL_STAT_UP = false ∨ (s.fld F.PL_STAT_LANE_LOCK = 0xF ∧ s.rdu.pBad < 2)

theorem linkCheck_of_calm (h : s.linkCalm) : s.linkCheck = s := by
  refine if_neg ?_
  rcases h with h | ⟨hl, hb⟩
  · simp [h]
  · simp [hl, Nat.not_le.2 hb]

theorem lanesKept_linkCheck (s : State) : LanesKept s s.linkCheck := .ite (lanesKept_linkLower s) (.refl s)

/-- A partner lane without lock takes the link down with source 186. -/
theorem linkCheck_of_unlocked (h : s.fld F.PL_STAT_LANE_LOCK ≠ 0xF) : s.linkCheck.bit F.PL_STAT_UP = false ∧
    (s.bit F.PL_STAT_UP = true → s.linkCheck.bit F.RDU_STAT_PL_UP = false ∧ s.linkCheck.pends 186 = true) := by
  by_cases hup : s.bit F.PL_STAT_UP = true
  · have he : s.linkCheck = s.linkLower := if_pos (by simp [hup, h])
    obtain ⟨hshow, -⟩ := linkLower_spec s
    rw [he]
    exact ⟨hshow.link, fun _ => ⟨hshow.unit, hshow.source⟩⟩
  · rw [linkCheck_of_calm (.inl (by simpa using hup))]
    exact ⟨by simpa using hup, fun h => absurd h hup⟩

/-! ## The time base takes an offset (R246, R250) -/

theorem tbuStep_servo (s : State) (d : Int) : TbuStep s (s.servo d) :=
  ((tbuStep_tbu s _).trans (tbuStep_servoRate _ d)).trans (tbuStep_tbu _ _)

theorem tbuStep_lockStep (s : State) (d : Int) : TbuStep s (s.lockStep d) := by
  unfold State.lockStep
  extract_lets _ n _ v w
  have hv : TbuStep s v := tbuStep_tbu s _
  have hw : TbuStep s w := tbuStep_tbu s _
  split_ifs
  · exact hv.trans (tbuStep_setLock v true)
  · exact hv
  · exact hw.trans (tbuStep_setLock w false)
  · exact hw

theorem tbuStep_correct (s : State) (d : Int) : TbuStep s (s.correct d) := by
  unfold State.correct
  extract_lets _ v
  have hv : TbuStep s v := (TbuStep.of_frame ((Frame.refl _ _ _ s).setBit false (by decide))).trans (tbuStep_setSlew _ false)
  clear_value v
  generalize (if 0 < d then -rateMax else rateMax) = r
  split_ifs
  · exact (hv.trans (tbuStep_tbu v _)).trans (tbuStep_servo _ _)
  · exact hv.trans (tbuStep_servo v d)
  · exact (tbuStep_tbu s _).trans (tbuStep_setSlew _ true)
  · exact (tbuStep_setSlew s false).trans (tbuStep_servo _ d)

theorem LanesKept.tbuStep (h : LanesKept s t) (hf : TbuStep t u) : LanesKept s u :=
  LanesKept.frame (t := { t with tbu := u.tbu }) h.parts hf (by decide)

theorem lanesKept_pairCheck (s : State) (i : Nat) (d : Int) : LanesKept s (s.pairCheck i d) := by
  unfold State.pairCheck
  refine .ite (.parts (.refl s)) (.ite ?_ (.refl s))
  cases s.tbu.lastPartner with
  | none => exact .refl s
  | some p => exact .ite (((LanesKept.refl s).setBit true).raise 158) (.refl s)

theorem lanesKept_offset (s : State) (i : Nat) (d : Int) : LanesKept s (s.offset i d) := by
  unfold State.offset
  extract_lets x v w y z
  have hv : LanesKept s v := .parts (.refl s)
  have hw : LanesKept s w := .ite (hv.raise 148) hv
  have hy : LanesKept s y := hw.trans (lanesKept_pairCheck w i d)
  have hz : LanesKept s z := (hy.wr (lastOfs d)).tbuStep (tbuStep_tbuHold _)
  exact .ite (.ite ((hz.tbuStep (tbuStep_correct z d)).tbuStep (tbuStep_lockStep _ d)) hz) hy

/-! ## A control block at a ring port (R9, R63, R114) -/

theorem lanesKept_uidConflict (s : State) : LanesKept s s.uidConflict := by
  unfold State.uidConflict
  refine .ite (.refl s) ?_
  extract_lets _ v w
  have hv : LanesKept s v := .parts (.refl s)
  have hw : LanesKept s w := ((hv.setBit true).sendFco 0 0 4 0x01 none none).raise 191
  exact .ite hw.parts hw

theorem lanesKept_ringBlock (s : State) (n tenths : Nat) (b : Blk) : LanesKept s (s.ringBlock n tenths b) := by
  unfold State.ringBlock
  have hp (p : Port) : LanesKept s (s.setPort n p) := (LanesKept.refl s).setPort n p
  exact .ite (.refl s) (.ite (.ite (.ite ((hp _).trans (lanesKept_uidConflict _)) (hp _)) (.ite (hp _) (.refl s))) (.ite (hp _) (.refl s)))

theorem lanesKept_timeBlock (s : State) (l tenths : Nat) (b : Blk) (ofs : Option Int) : LanesKept s (s.timeBlock l tenths b ofs) := by
  unfold State.timeBlock
  refine .ite (.refl s) (.ite ?_ (.ite (lanesKept_offset s 4 _) (.refl s)))
  cases ofs with
  | none => exact .refl s
  | some d => exact .ite (lanesKept_offset s 3 d) (.refl s)

end Sys2Proof.Machine
end

section
/-! Rules of the operations on one lane: what stopping and waking its transmitter, stopping its receiver and bringing its stream up to the
present change in its status register and in the lane, and what they leave alone. -/

namespace Sys2Proof.Machine

variable {rs : List Nat} {s t u : State} {l : Nat}

/-! ## Bits and fields of a register -/

/-- One-bit fields of one register. -/
theorem bit_setBit_one (s : State) (a : Nat) {i j : Nat} (b : Bool) (hi : i < 32) :
    (s.setBit ⟨a, j, 1⟩ b).bit ⟨a, i, 1⟩ = if i = j then b else s.bit ⟨a, i, 1⟩ := by
  by_cases h : i = j
  · subst h; rw [if_pos rfl, bit_setBit_at_self _ _ _ hi]
  · rw [if_neg h, bit_setBit_at _ _ _ hi (Ne.symm h)]

theorem getLsbD_rd (s : State) (a i : Nat) : (s.rd a).getLsbD i = s.bit ⟨a, i, 1⟩ := by
  simp only [State.bit, State.fld, RF.get, BitVec.getLsbD, Nat.testBit_eq_decide_div_mod_eq, Nat.pow_one]
  rcases Nat.mod_two_eq_zero_or_one ((s.rd a).toNat / 2 ^ i) with h | h <;> simp [h]

theorem RF.get_lt (f : RF) (v : BitVec 32) : f.get v < 2 ^ f.w := Nat.mod_lt _ (Nat.two_pow_pos _)

/-! ## Lanes -/

@[simp] theorem lane_setLane_self (s : State) (l : Nat) (x : Lane) : (s.setLane l x).lane l = x := by simp [State.lane, State.setLane]

theorem lane_setLane_ne (s : State) {l m : Nat} (x : Lane) (h : m ≠ l) : (s.setLane l x).lane m = s.lane m := by
  simp [State.lane, State.setLane, spGet_spSet_ne _ _ _ _ _ _ h]

@[simp] theorem txOf_setTx_self (s : State) (l : Nat) (x : LaneTx) : (s.setTx l x).txOf l = x := by simp [State.txOf, State.setTx]

/-- A step of the lanes: registers of `rs`, the lanes and their transmit streams. -/
def LaneStep (rs : List Nat) (s t : State) : Prop := Frame rs [] [] { s with lanes := t.lanes, ltx := t.ltx } t

theorem Frame.withLanes {es ks : List Nat} (h : Frame rs es ks s t) (x : Sparse Lane) (y : Sparse LaneTx) :
    Frame rs es ks { s with lanes := x, ltx := y } { t with lanes := x, ltx := y } :=
  ⟨h.regs, h.mem, h.inbox, h.notes, h.msgs, congrArg (fun b : State => { b with lanes := x, ltx := y }) h.bare⟩

theorem LaneStep.refl (rs : List Nat) (s : State) : LaneStep rs s s := Frame.refl _ _ _ _

theorem LaneStep.trans (h : LaneStep rs s t) (h' : LaneStep rs t u) : LaneStep rs s u := (Frame.withLanes h u.lanes u.ltx).trans h'

theorem LaneStep.mono {rs' : List Nat} (h : LaneStep rs s t) (hr : rs ⊆ rs') : LaneStep rs' s t := Frame.mono h hr (by simp) (by simp)

theorem LaneStep.setFld (h : LaneStep rs s t) {f : RF} (x : Nat) (hf : f.addr ∈ rs) : LaneStep rs s (t.setFld f x) := Frame.setFld h x hf
theorem LaneStep.setBit (h : LaneStep rs s t) {f : RF} (b : Bool) (hf : f.addr ∈ rs) : LaneStep rs s (t.setBit f b) := h.setFld _ hf
theorem LaneStep.setFbit (h : LaneStep rs s t) {f : RF} (i : Nat) (b : Bool) (hf : f.addr ∈ rs) : LaneStep rs s (t.setFbit f i b) := h.setFld _ hf
theorem LaneStep.inc (h : LaneStep rs s t) {f : RF} (hf : f.addr ∈ rs) : LaneStep rs s (t.inc f) := h.setFld _ hf
theorem LaneStep.addFld (h : LaneStep rs s t) {f : RF} (n : Nat) (hf : f.addr ∈ rs) : LaneStep rs s (t.addFld f n) := h.setFld _ hf
theorem LaneStep.setLane (h : LaneStep rs s t) (l : Nat) (x : Lane) : LaneStep rs s (t.setLane l x) := h.trans (Frame.refl _ _ _ _)
theorem LaneStep.setTx (h : LaneStep rs s t) (l : Nat) (x : LaneTx) : LaneStep rs s (t.setTx l x) := h.trans (Frame.refl _ _ _ _)
theorem LaneStep.free (h : LaneStep rs s t) (n : Nat) : LaneStep rs s { t with freeCtr := n } := Frame.free h n
theorem LaneStep.txUpTo (h : LaneStep rs s t) (l : Nat) : LaneStep rs s (t.txUpTo l) := (h.free _).setTx l _

theorem LaneStep.ite {c : Prop} [Decidable c] (ht : c → LaneStep rs s t) (hu : ¬ c → LaneStep rs s u) : LaneStep rs s (if c then t else u) := by
  by_cases h : c
  · rw [if_pos h]; exact ht h
  · rw [if_neg h]; exact hu h

theorem LaneStep.foldl {α : Type} (h : LaneStep rs s t) {f : State → α → State} {l : List α} (hf : ∀ x ∈ l, ∀ u, LaneStep rs u (f u x)) :
    LaneStep rs s (l.foldl f t) :=
  List.foldlRecOn l f (motive := LaneStep rs s) h fun u hu x hx => hu.trans (hf x hx u)

/-- A step without the transmit streams. -/
theorem LaneStep.receive (h : LaneStep rs s t) (hl : t.ltx = s.ltx) : Frame rs [] [] { s with lanes := t.lanes } t := by
  rw [LaneStep, hl] at h; exact h

theorem LaneStep.rd (h : LaneStep rs s t) {a : Nat} (ha : a ∉ rs) : t.rd a = s.rd a := Frame.regs h a ha (by simp)
theorem LaneStep.fld (h : LaneStep rs s t) {f : RF} (hf : f.addr ∉ rs) : t.fld f = s.fld f := by simp only [State.fld, h.rd hf]
theorem LaneStep.bit (h : LaneStep rs s t) {f : RF} (hf : f.addr ∉ rs) : t.bit f = s.bit f := by simp only [State.bit, h.fld hf]
theorem LaneStep.fbit (h : LaneStep rs s t) {f : RF} (i : Nat) (hf : f.addr ∉ rs) : t.fbit f i = s.fbit f i := by simp only [State.fbit, h.fld hf]

/-! ## Lock of a partner lane (R280) -/

/-- LANE_LOCK follows the lock of a partner lane. -/
def State.partnerLock (s : State) (l : Nat) (b : Bool) : State := if 68 ≤ l then s.setFbit F.PL_STAT_LANE_LOCK (l - 68) b else s

/-- The register that shows it. -/
abbrev lockRegs (l : Nat) : List Nat := if 68 ≤ l then [R.PL_STAT] else []

theorem laneStep_partnerLock (s : State) (l : Nat) (b : Bool) : LaneStep (lockRegs l) s (s.partnerLock l b) := by
  refine .ite (fun h => (LaneStep.refl _ s).setFbit _ b ?_) fun _ => .refl _ s
  simp [lockRegs, h, F.PL_STAT_LANE_LOCK]

theorem partnerLock_parts (s : State) (l : Nat) (b : Bool) :
    (s.partnerLock l b).lanes = s.lanes ∧ (s.partnerLock l b).ltx = s.ltx ∧ (s.partnerLock l b).rdu = s.rdu := by
  unfold State.partnerLock; split <;> exact ⟨rfl, rfl, rfl⟩

theorem rd_partnerLock (s : State) (l : Nat) (b : Bool) {a : Nat} (ha : a ≠ R.PL_STAT) : (s.partnerLock l b).rd a = s.rd a :=
  (laneStep_partnerLock s l b).rd (by unfold lockRegs; split <;> simp [ha])

theorem bit_partnerLock (s : State) (l : Nat) (b : Bool) {f : RF} (hf : f.addr ≠ R.PL_STAT) : (s.partnerLock l b).bit f = s.bit f := by
  simp only [State.bit, State.fld, rd_partnerLock s l b hf]

theorem up_partnerLock (s : State) (l : Nat) (b : Bool) : (s.partnerLock l b).bit F.PL_STAT_UP = s.bit F.PL_STAT_UP := by
  unfold State.partnerLock
  split
  · simp only [State.bit, State.setFbit, fld_setFld_apart _ F.PL_STAT_LANE_LOCK F.PL_STAT_UP _ (by decide) (by decide)]
  · rfl

theorem fbit_partnerLock (s : State) (b : Bool) (h : 68 ≤ l) (hl : l < 72) : (s.partnerLock l b).fbit F.PL_STAT_LANE_LOCK (l - 68) = b := by
  rw [State.partnerLock, if_pos h]
  exact fbit_setFbit_self _ _ _ _ (by decide) (by simp only [F.PL_STAT_LANE_LOCK]; omega)

/-- The link has not all its lanes where one of them holds no lock. -/
theorem lock_ne_of_fbit (h : 68 ≤ l) (hl : l < 72) (hb : s.fbit F.PL_STAT_LANE_LOCK (l - 68) = false) : s.fld F.PL_STAT_LANE_LOCK ≠ 0xF := by
  intro he
  have : ∀ i, i < 4 → Nat.testBit 0xF i = true := by decide
  simp [State.fbit, he, this (l - 68) (by omega)] at hb

/-! ## Registers of a lane are registers of their own -/

theorem laneStat_ne_plStat (l : Nat) : R.LPH_LANE_STAT l ≠ R.PL_STAT := by simp only [R.LPH_LANE_STAT, R.PL_STAT]; omega

/-! ## Transmitter and receiver stop and wake (R65, R67, R68) -/

theorem laneStep_txStop (s : State) (l : Nat) : LaneStep [R.LPH_LANE_STAT l] s (s.txStop l) :=
  ((LaneStep.refl _ s).setBit false (by simp [F.LPH_LANE_STAT_TX_ACTIVE])).setBit false (by simp [F.LPH_LANE_STAT_INJECT])

theorem stat_txStop (s : State) (l : Nat) {i : Nat} (hi : i < 32) :
    (s.txStop l).bit ⟨R.LPH_LANE_STAT l, i, 1⟩ = if i = 1 ∨ i = 2 then false else s.bit ⟨R.LPH_LANE_STAT l, i, 1⟩ := by
  simp only [State.txStop, F.LPH_LANE_STAT_TX_ACTIVE, F.LPH_LANE_STAT_INJECT, bit_setBit_one _ _ _ hi]
  grind

theorem laneStep_txWake (s : State) (l : Nat) : LaneStep [R.LPH_LANE_STAT l] s (s.txWake l) :=
  .ite (fun _ => .refl _ s) fun _ => ((((LaneStep.refl _ s).setLane l _).setTx l _).setBit _ (by simp [F.LPH_LANE_STAT_INJECT])).setBit true
    (by simp [F.LPH_LANE_STAT_TX_ACTIVE])

theorem stat_txWake (s : State) (l : Nat) {i : Nat} (hi : i < 32) (h1 : i ≠ 1) (h2 : i ≠ 2) :
    (s.txWake l).bit ⟨R.LPH_LANE_STAT l, i, 1⟩ = s.bit ⟨R.LPH_LANE_STAT l, i, 1⟩ := by
  unfold State.txWake
  split
  · rfl
  · simp only [F.LPH_LANE_STAT_INJECT, F.LPH_LANE_STAT_TX_ACTIVE, bit_setBit_one _ _ _ hi, h1, h2, if_false]
    rfl

theorem txActive_txWake (s : State) (l : Nat) : (s.txWake l).bit (F.LPH_LANE_STAT_TX_ACTIVE l) = true := by
  unfold State.txWake
  split
  · assumption
  · exact bit_setBit_at_self _ _ _ (by decide)

/-- What a lane keeps of its receiver when it stops. -/
def Lane.stopped (x : Lane) : Lane := { x with good := 0, winCnt := 0, winBad := 0, run := 0, inFrame := false, rxWoken := false }

theorem rxStop_eq (s : State) (l : Nat) : s.rxStop l = ((((s.setLane l (s.lane l).stopped).setBit (F.LPH_LANE_STAT_BLOCK_LOCK l) false).setBit
    (F.LPH_LANE_STAT_CDR_LOCK l) false).setBit (F.LPH_LANE_STAT_BLOCK_RX l) false).partnerLock l false := rfl

theorem laneStep_rxStop (s : State) (l : Nat) : LaneStep (R.LPH_LANE_STAT l :: lockRegs l) s (s.rxStop l) := by
  rw [rxStop_eq]
  exact (((((LaneStep.refl _ s).setLane l _).setBit false (by simp [F.LPH_LANE_STAT_BLOCK_LOCK])).setBit false (by simp [F.LPH_LANE_STAT_CDR_LOCK])).setBit
    false (by simp [F.LPH_LANE_STAT_BLOCK_RX])).trans ((laneStep_partnerLock _ l false).mono (by simp))

theorem stat_rxStop (s : State) (l : Nat) {i : Nat} (hi : i < 32) :
    (s.rxStop l).bit ⟨R.LPH_LANE_STAT l, i, 1⟩ = if i = 4 ∨ i = 5 ∨ i = 6 then false else s.bit ⟨R.LPH_LANE_STAT l, i, 1⟩ := by
  rw [rxStop_eq, bit_partnerLock _ _ _ (laneStat_ne_plStat l)]
  simp only [F.LPH_LANE_STAT_BLOCK_LOCK, F.LPH_LANE_STAT_CDR_LOCK, F.LPH_LANE_STAT_BLOCK_RX, bit_setBit_one _ _ _ hi]
  have : (s.setLane l (s.lane l).stopped).bit ⟨R.LPH_LANE_STAT l, i, 1⟩ = s.bit ⟨R.LPH_LANE_STAT l, i, 1⟩ := rfl
  grind

theorem up_rxStop (s : State) (l : Nat) : (s.rxStop l).bit F.PL_STAT_UP = s.bit F.PL_STAT_UP := by
  have h : R.PL_STAT ≠ R.LPH_LANE_STAT l := (laneStat_ne_plStat l).symm
  rw [rxStop_eq, up_partnerLock, bit_setBit_ne _ _ _ _ h, bit_setBit_ne _ _ _ _ h, bit_setBit_ne _ _ _ _ h]
  rfl

theorem lock_rxStop (s : State) (h : 68 ≤ l) (hl : l < 72) : (s.rxStop l).fbit F.PL_STAT_LANE_LOCK (l - 68) = false :=
  fbit_partnerLock _ false h hl

end Sys2Proof.Machine
end

section
/-! Reception on a lane (R54 to R57, R61, R64, R70): what line bits change in a receiver, hunting, locked or on a station lane, and what the ring
port and the time base do with a block that it hands on. -/

namespace Sys2Proof.Machine

variable {s t u : State} {l : Nat}

/-! ## What reception on one lane leaves alone -/

/-- From `s` to `t` memory and every lane but `l` stay. -/
structure OnLane (l : Nat) (s t : State) : Prop where
  mem : SameMem s t
  others : ∀ m, m ≠ l → t.lane m = s.lane m

theorem OnLane.refl (l : Nat) (s : State) : OnLane l s s := ⟨fun _ => rfl, fun _ _ => rfl⟩

theorem OnLane.trans (h : OnLane l s t) (h' : OnLane l t u) : OnLane l s u :=
  ⟨fun a => (h'.mem a).trans (h.mem a), fun m hm => (h'.others m hm).trans (h.others m hm)⟩

theorem OnLane.setLane (h : OnLane l s t) (x : Lane) : OnLane l s (t.setLane l x) := h.trans ⟨fun _ => rfl, fun _ hm => lane_setLane_ne t x hm⟩

/-- A step of the lanes' registers that leaves the lanes alone. -/
theorem OnLane.step {rs : List Nat} (h : OnLane l s t) (hs : LaneStep rs t u) (hl : u.lanes = t.lanes) : OnLane l s u :=
  h.trans ⟨hs.mem, fun m _ => by simp only [State.lane, hl]⟩

/-- What follows the reception of a line block: lane `l` gets stamps at most, the registers of the lanes stay. -/
structure AfterLine (l : Nat) (s t : State) : Prop extends OnLane l s t where
  regs : ∀ a, laneReg a → t.rd a = s.rd a
  run : (t.lane l).run = (s.lane l).run

theorem AfterLine.refl (l : Nat) (s : State) : AfterLine l s s := ⟨.refl l s, fun _ _ => rfl, rfl⟩

theorem AfterLine.trans (h : AfterLine l s t) (h' : AfterLine l t u) : AfterLine l s u :=
  ⟨h.toOnLane.trans h'.toOnLane, fun a ha => (h'.regs a ha).trans (h.regs a ha), h'.run.trans h.run⟩

theorem LanesKept.afterLine (h : LanesKept s t) (l : Nat) : AfterLine l s t := ⟨⟨h.mem, fun m _ => h.lane m⟩, h.regs, congrArg Lane.run (h.lane l)⟩

theorem AfterLine.bit (h : AfterLine l s t) {f : RF} (hf : laneReg f.addr) : t.bit f = s.bit f := by simp only [State.bit, State.fld, h.regs _ hf]

theorem afterLine_rxStamp (s : State) (l tenths : Nat) (b : Blk) : AfterLine l s (s.rxStamp l tenths b) := by
  unfold State.rxStamp
  split_ifs
  · exact ⟨(OnLane.refl l s).setLane _, fun _ _ => rfl, by rw [lane_setLane_self]⟩
  · exact ⟨(OnLane.refl l s).setLane _, fun _ _ => rfl, by rw [lane_setLane_self]⟩
  · exact .refl l s

/-- What becomes of the block that a receiver hands on. -/
def State.blockHandled (l tenths : Nat) (ofs : Option Int) : Option Blk × State → State
  | (none, s) => s
  | (some b, s) => ((s.rxStamp l tenths b).when (decide (l < 64)) (·.ringBlock l tenths b)).timeBlock l tenths b ofs

theorem exec_blockReceived (s : State) (time : Nat) (tenth : Fin 10) (lane : Fin 72) (line : BitVec 66) (off : Int) (ofs : Option Int) :
    exec (.blockReceived time tenth lane line off ofs) s =
      .next (s.onDie time fun s => State.blockHandled lane (10 * time + tenth) ofs (s.laneReceive lane line off)) := rfl

theorem afterLine_blockHandled (l tenths : Nat) (ofs : Option Int) (r : Option Blk × State) : AfterLine l r.2 (State.blockHandled l tenths ofs r) := by
  match r with
  | (none, v) => exact .refl l v
  | (some b, v) =>
    have hring : AfterLine l v ((v.rxStamp l tenths b).when (decide (l < 64)) (·.ringBlock l tenths b)) := by
      refine (afterLine_rxStamp v l tenths b).trans ?_
      unfold State.when
      split
      · exact (lanesKept_ringBlock _ l tenths b).afterLine l
      · exact .refl l _
    exact hring.trans ((lanesKept_timeBlock _ l tenths b ofs).afterLine l)

/-! ## The signal is seen, the checker looks at it (R54, R75) -/

/-- Line bits reach the receiver: it shows a signal, and its pattern checker sees them. -/
def State.rxSeen (s : State) (l : Nat) (line : BitVec 66) : State :=
  ((s.setBit (F.LPH_LANE_STAT_SIG_DET l) true).setBit (F.LPH_LANE_STAT_CDR_LOCK l) true).checkLine l line

/-- From `s` to `t` the registers `rs` and the checker of lane `l` change alone. -/
structure Checked (rs : List Nat) (l : Nat) (s t : State) : Prop where
  step : LaneStep rs s t
  ltx : t.ltx = s.ltx
  others : ∀ m, m ≠ l → t.lane m = s.lane m
  own : ∃ c, t.lane l = { s.lane l with chk := c }

theorem checked_checkLine (s : State) (l : Nat) (line : BitVec 66) : Checked [R.LPH_LANE_TEST l, R.LPH_LANE_PRBS_ERR l] l s (s.checkLine l line) := by
  unfold State.checkLine
  dsimp only
  split
  · exact ⟨.refl _ s, rfl, fun _ _ => rfl, (s.lane l).chk, rfl⟩
  · split
    · exact ⟨((LaneStep.refl _ s).setLane l _).addFld _ (by simp [F.LPH_LANE_PRBS_ERR_V]), rfl, fun m hm => lane_setLane_ne s _ hm,
        _, lane_setLane_self s l _⟩
    · exact ⟨(((LaneStep.refl _ s).free _).setLane l _).setBit _ (by simp [F.LPH_LANE_TEST_CHK_LOCK]), rfl, fun m hm => lane_setLane_ne s _ hm,
        _, lane_setLane_self s l _⟩

/-- The registers that the signal and the checker change. -/
abbrev seenRegs (l : Nat) : List Nat := [R.LPH_LANE_STAT l, R.LPH_LANE_TEST l, R.LPH_LANE_PRBS_ERR l]

theorem checked_rxSeen (s : State) (l : Nat) (line : BitVec 66) : Checked (seenRegs l) l s (s.rxSeen l line) := by
  have hstep : LaneStep (seenRegs l) s ((s.setBit (F.LPH_LANE_STAT_SIG_DET l) true).setBit (F.LPH_LANE_STAT_CDR_LOCK l) true) :=
    ((LaneStep.refl _ s).setBit true (by simp [F.LPH_LANE_STAT_SIG_DET])).setBit true (by simp [F.LPH_LANE_STAT_CDR_LOCK])
  have hltx : ((s.setBit (F.LPH_LANE_STAT_SIG_DET l) true).setBit (F.LPH_LANE_STAT_CDR_LOCK l) true).ltx = s.ltx := by simp
  have hlane (m : Nat) : ((s.setBit (F.LPH_LANE_STAT_SIG_DET l) true).setBit (F.LPH_LANE_STAT_CDR_LOCK l) true).lane m = s.lane m := by simp [State.lane]
  unfold State.rxSeen
  generalize (s.setBit (F.LPH_LANE_STAT_SIG_DET l) true).setBit (F.LPH_LANE_STAT_CDR_LOCK l) true = v at hstep hltx hlane
  have h := checked_checkLine v l line
  exact ⟨hstep.trans (h.step.mono (by simp)), h.ltx.trans hltx, fun m hm => (h.others m hm).trans (hlane m), hlane l ▸ h.own⟩

theorem stat_rxSeen (s : State) (l : Nat) (line : BitVec 66) {i : Nat} (hi : i < 32) :
    (s.rxSeen l line).bit ⟨R.LPH_LANE_STAT l, i, 1⟩ = if i = 6 ∨ i = 7 then true else s.bit ⟨R.LPH_LANE_STAT l, i, 1⟩ := by
  have hne : R.LPH_LANE_STAT l ∉ [R.LPH_LANE_TEST l, R.LPH_LANE_PRBS_ERR l] := by
    simp only [R.LPH_LANE_STAT, R.LPH_LANE_TEST, R.LPH_LANE_PRBS_ERR, List.mem_cons, List.not_mem_nil, or_false]; omega
  rw [State.rxSeen, (checked_checkLine _ l line).step.bit hne]
  simp only [F.LPH_LANE_STAT_SIG_DET, F.LPH_LANE_STAT_CDR_LOCK, bit_setBit_one _ _ _ hi]
  grind

theorem Checked.onLane {rs : List Nat} (h : Checked rs l s t) : OnLane l s t := ⟨h.step.mem, h.others⟩

theorem Checked.setLane {rs : List Nat} (h : Checked rs l s t) (x : Lane) :
    Frame rs [] [] { s with lanes := (t.setLane l x).lanes } (t.setLane l x) := (h.step.setLane l x).receive h.ltx

/-! ## The checker takes no part in decoding -/

theorem lineDecode_seen (s : State) (l : Nat) (line' : BitVec 66) (x : Lane) (c : BitVec 31) (line : BitVec 66) :
    (s.rxSeen l line').lineDecode l { x with chk := c } line =
      ((s.lineDecode l x line).1, { (s.lineDecode l x line).2 with chk := c }) := by
  have hctl (f : RF) (hf : f.addr = R.LPH_LANE_CTL l) : (s.rxSeen l line').bit f = s.bit f := (checked_rxSeen s l line').step.bit (by
    simp only [hf, R.LPH_LANE_CTL, R.LPH_LANE_STAT, R.LPH_LANE_TEST, R.LPH_LANE_PRBS_ERR, List.mem_cons, List.not_mem_nil, or_false]; omega)
  unfold State.lineDecode
  rw [hctl (F.LPH_LANE_CTL_RX_INV l) rfl, hctl (F.LPH_LANE_CTL_PRECODE l) rfl]

theorem Lane.pcs_chk (x : Lane) (c : BitVec 31) (lock valid : Bool) : ({ x with chk := c } : Lane).pcs lock valid = { x.pcs lock valid with chk := c } := by
  unfold Lane.pcs; dsimp only; split_ifs <;> rfl

theorem Lane.hunt_chk (x : Lane) (c : BitVec 31) (l : Nat) (valid : Bool) : ({ x with chk := c } : Lane).hunt l valid = { x.hunt l valid with chk := c } := by
  unfold Lane.hunt; split <;> rfl

theorem Lane.window_run (x : Lane) (valid : Bool) : (x.window valid).run = x.run := by
  unfold Lane.window; dsimp only; split_ifs <;> rfl

/-! ## Delivery by a locked receiver (R57, R61, R64) -/

/-- The receiver of a lane after the delivery of block `b` with its elastic buffer `off` blocks from centre. -/
def Lane.delivered (x : Lane) (b : Blk) (off : Int) : Lane :=
  let x := { x with elastic := off }
  let ovf := decide (2 ≤ off.natAbs)
  let x := if ovf then { x with discard := true, elastic := 0 } else x
  let sof := b.isCtl && b.ct == ctSof
  let x := if sof && !ovf then { x with discard := false } else x
  let x := { x with run := if b.isBlockSet then x.run + 1 else 0 }
  if sof then { x with inFrame := true } else if b.isCtl && b.ct == ctEof then { x with inFrame := false } else x

theorem Lane.delivered_run (x : Lane) (b : Blk) (off : Int) : (x.delivered b off).run = if b.isBlockSet then x.run + 1 else 0 := by
  unfold Lane.delivered; grind

/-- The status of a lane after a delivery: overflow of the elastic buffer, end of a BLOCK stream. -/
def State.deliveryShown (s : State) (l : Nat) (b : Blk) (off : Int) : State :=
  let s := if decide (2 ≤ off.natAbs) then s.setBit (F.LPH_LANE_STAT_RM_OVF l) true else s
  let s := s.setLane l ((s.lane l).delivered b off)
  if b.isBlockSet then s else s.setBit (F.LPH_LANE_STAT_BLOCK_RX l) false

theorem deliver_snd (s : State) (l : Nat) (b : Blk) (off : Int) : (s.deliver l b off).2 =
    (((s.deliveryShown l b off).when b.errored (·.inc (F.LPH_LANE_HDR_ERR_V l))).when (b.isCtl && !knownCt b.ct)
      (·.inc (F.LPH_LANE_UNK_CNT_V l))) := by
  unfold State.deliver State.deliveryShown Lane.delivered State.when
  by_cases h : 2 ≤ off.natAbs <;> simp only [h, decide_true, decide_false, if_true, if_false, Bool.false_eq_true] <;> rfl

theorem deliveryShown_parts (s : State) (l : Nat) (b : Blk) (off : Int) :
    LaneStep [R.LPH_LANE_STAT l] s (s.deliveryShown l b off) ∧ (s.deliveryShown l b off).lanes = (s.setLane l ((s.lane l).delivered b off)).lanes := by
  have hstep : ∀ v : State, LaneStep [R.LPH_LANE_STAT l] v (if b.isBlockSet then v else v.setBit (F.LPH_LANE_STAT_BLOCK_RX l) false) := fun v =>
    .ite (fun _ => .refl _ v) fun _ => (LaneStep.refl _ v).setBit false (by simp [F.LPH_LANE_STAT_BLOCK_RX])
  have hlanes : ∀ v : State, (if b.isBlockSet then v else v.setBit (F.LPH_LANE_STAT_BLOCK_RX l) false).lanes = v.lanes := fun v => by split <;> rfl
  unfold State.deliveryShown
  refine ⟨LaneStep.trans (LaneStep.setLane (.ite (fun _ => ?_) fun _ => .refl _ s) l _) (hstep _), (hlanes _).trans ?_⟩
  · exact (LaneStep.refl _ s).setBit true (by simp [F.LPH_LANE_STAT_RM_OVF])
  · split <;> rfl

theorem stat_deliveryShown (s : State) (l : Nat) (b : Blk) (off : Int) {i : Nat} (hi : i < 32) :
    (s.deliveryShown l b off).bit ⟨R.LPH_LANE_STAT l, i, 1⟩ =
      if i = 4 ∧ b.isBlockSet = false then false else if i = 30 ∧ 2 ≤ off.natAbs then true else s.bit ⟨R.LPH_LANE_STAT l, i, 1⟩ := by
  have hset (v : State) (x : Lane) : (v.setLane l x).bit ⟨R.LPH_LANE_STAT l, i, 1⟩ = v.bit ⟨R.LPH_LANE_STAT l, i, 1⟩ := rfl
  unfold State.deliveryShown
  by_cases h : 2 ≤ off.natAbs <;> cases b.isBlockSet <;>
    simp only [h, decide_true, decide_false, if_true, if_false, Bool.false_eq_true, F.LPH_LANE_STAT_RM_OVF, F.LPH_LANE_STAT_BLOCK_RX, hset,
      bit_setBit_one _ _ _ hi, and_true, and_false, reduceCtorEq]

/-- A counter of a lane that counts where a condition holds, and stands where it does not. -/
structure CountedIf (c : Bool) (f : RF) (u t : State) : Prop where
  counts : c = true → Counted f u t
  stands : c = false → t.rd f.addr = u.rd f.addr

theorem countedIf_when (s : State) (c : Bool) {f : RF} (hf : f.ok) : CountedIf c f s (s.when c (·.inc f)) := by
  cases c
  · exact ⟨fun h => absurd h (by decide), fun _ => rfl⟩
  · exact ⟨fun _ => fld_inc_self s f hf, fun h => absurd h (by decide)⟩

theorem CountedIf.congr {c : Bool} {f : RF} {s' t' : State} (h : CountedIf c f s t) (hs : s'.rd f.addr = s.rd f.addr) (ht : t'.rd f.addr = t.rd f.addr) :
    CountedIf c f s' t' :=
  ⟨fun hc => by simpa only [Counted, State.fld, hs, ht] using h.counts hc, fun hc => ht.trans ((h.stands hc).trans hs.symm)⟩

theorem CountedIf.ite {c : Bool} {f : RF} (h : CountedIf c f s t) : if c then Counted f s t else t.rd f.addr = s.rd f.addr := by
  cases c
  · exact h.stands rfl
  · exact h.counts rfl

theorem LaneStep.when {rs : List Nat} (s : State) (c : Bool) {f : RF} (hf : f.addr ∈ rs) : LaneStep rs s (s.when c (·.inc f)) :=
  .ite (fun _ => (LaneStep.refl _ s).inc hf) fun _ => .refl _ s

theorem lanes_when (s : State) (c : Bool) (f : RF) : (s.when c (·.inc f)).lanes = s.lanes := by cases c <;> rfl

/-- What block `b` changes in the locked receiver of lane `l`: its run of BLOCK blocks, status bits and counters. -/
structure Delivered (l : Nat) (b : Blk) (off : Int) (s t : State) : Prop extends OnLane l s t where
  run : (t.lane l).run = if b.isBlockSet then (s.lane l).run + 1 else 0
  stat : ∀ i, i < 32 → t.bit ⟨R.LPH_LANE_STAT l, i, 1⟩ =
    if i = 4 ∧ b.isBlockSet = false then false else if i = 30 ∧ 2 ≤ off.natAbs then true else s.bit ⟨R.LPH_LANE_STAT l, i, 1⟩
  errors : CountedIf b.errored (F.LPH_LANE_HDR_ERR_V l) s t
  unknown : CountedIf (b.isCtl && !knownCt b.ct) (F.LPH_LANE_UNK_CNT_V l) s t

theorem not_mem_singleton_comm {a b : Nat} (h : a ∉ [b]) : b ∉ [a] := fun hm => h (List.mem_singleton.2 (List.mem_singleton.1 hm).symm)

theorem delivered_deliver (s : State) (l : Nat) (b : Blk) (off : Int) : Delivered l b off s (s.deliver l b off).2 := by
  have hHdr : (F.LPH_LANE_HDR_ERR_V l).addr ∉ [R.LPH_LANE_STAT l] := by
    simp only [F.LPH_LANE_HDR_ERR_V, R.LPH_LANE_HDR_ERR, R.LPH_LANE_STAT, List.mem_singleton]; omega
  have hUnk : (F.LPH_LANE_UNK_CNT_V l).addr ∉ [R.LPH_LANE_STAT l] := by
    simp only [F.LPH_LANE_UNK_CNT_V, R.LPH_LANE_UNK_CNT, R.LPH_LANE_STAT, List.mem_singleton]; omega
  have hne : (F.LPH_LANE_UNK_CNT_V l).addr ∉ [R.LPH_LANE_HDR_ERR l] := by
    simp only [F.LPH_LANE_UNK_CNT_V, R.LPH_LANE_UNK_CNT, R.LPH_LANE_HDR_ERR, List.mem_singleton]; omega
  obtain ⟨hstep, hlanes⟩ := deliveryShown_parts s l b off
  have hstat := fun {i} => stat_deliveryShown s l b off (i := i)
  rw [deliver_snd]
  generalize s.deliveryShown l b off = v at hstep hlanes hstat
  have hw : LaneStep [R.LPH_LANE_HDR_ERR l] v (v.when b.errored (·.inc (F.LPH_LANE_HDR_ERR_V l))) := .when v _ (by simp [F.LPH_LANE_HDR_ERR_V])
  have hwl := lanes_when v b.errored (F.LPH_LANE_HDR_ERR_V l)
  have herr := countedIf_when v b.errored (f := F.LPH_LANE_HDR_ERR_V l) (by simp [RF.ok, F.LPH_LANE_HDR_ERR_V])
  generalize v.when b.errored (·.inc (F.LPH_LANE_HDR_ERR_V l)) = w at hw hwl herr
  have hz : LaneStep [R.LPH_LANE_UNK_CNT l] w (w.when (b.isCtl && !knownCt b.ct) (·.inc (F.LPH_LANE_UNK_CNT_V l))) :=
    .when w _ (by simp [F.LPH_LANE_UNK_CNT_V])
  have hzl := lanes_when w (b.isCtl && !knownCt b.ct) (F.LPH_LANE_UNK_CNT_V l)
  have hunk := countedIf_when w (b.isCtl && !knownCt b.ct) (f := F.LPH_LANE_UNK_CNT_V l) (by simp [RF.ok, F.LPH_LANE_UNK_CNT_V])
  generalize w.when (b.isCtl && !knownCt b.ct) (·.inc (F.LPH_LANE_UNK_CNT_V l)) = z at hz hzl hunk
  have hlane (m : Nat) : z.lane m = (s.setLane l ((s.lane l).delivered b off)).lane m := by simp only [State.lane, hzl, hwl, hlanes]
  refine ⟨⟨fun a => (hz.mem a).trans ((hw.mem a).trans (hstep.mem a)), fun m hm => (hlane m).trans (lane_setLane_ne s _ hm)⟩, ?_, fun i hi => ?_, ?_, ?_⟩
  · rw [hlane, lane_setLane_self, Lane.delivered_run]
  · rw [hz.bit (not_mem_singleton_comm hUnk), hw.bit (not_mem_singleton_comm hHdr), hstat hi]
  · exact herr.congr (hstep.rd hHdr).symm (hz.rd (not_mem_singleton_comm hne))
  · exact hunk.congr ((hw.rd hne).trans (hstep.rd hUnk)).symm rfl

/-! ## One block time at a receiver (R54, R55, R57, R70) -/

/-- What a GimenLink receiver decodes once its checker has seen the line bits. -/
def State.seenDecode (s : State) (l : Nat) (line : BitVec 66) : Blk × Lane := (s.rxSeen l line).lineDecode l ((s.rxSeen l line).lane l) line

theorem rxLine_gimen (hg : isGimen l = true) (line : BitVec 66) (off : Int) : s.rxLine l line off =
    if (s.rxSeen l line).bit (F.LPH_LANE_STAT_BLOCK_LOCK l) then
      ((s.rxSeen l line).setLane l ((s.seenDecode l line).2.window (!(s.seenDecode l line).1.errored))).deliver l (s.seenDecode l line).1 off
    else (none, (s.rxSeen l line).setLane l ((s.seenDecode l line).2.hunt l (!(s.seenDecode l line).1.errored))) := by
  rcases hd : s.seenDecode l line with ⟨b, x⟩
  simp only [State.seenDecode, State.rxSeen] at hd
  simp only [State.rxLine, State.rxSeen, hg, if_true, hd] <;> rfl

theorem seenDecode_eq (s : State) (l : Nat) (line : BitVec 66) : ∃ c, s.seenDecode l line =
    ((s.lineDecode l (s.lane l) line).1, { (s.lineDecode l (s.lane l) line).2 with chk := c }) := by
  obtain ⟨c, hc⟩ := (checked_rxSeen s l line).own
  exact ⟨c, by rw [State.seenDecode, hc, lineDecode_seen]⟩

theorem lock_rxSeen (s : State) (l : Nat) (line : BitVec 66) :
    (s.rxSeen l line).bit (F.LPH_LANE_STAT_BLOCK_LOCK l) = s.bit (F.LPH_LANE_STAT_BLOCK_LOCK l) := stat_rxSeen s l line (i := 5) (by decide)

/-- A hunting receiver counts the header of the block that it decodes. -/
theorem rxLine_unlocked (hg : isGimen l = true) (hu : s.bit (F.LPH_LANE_STAT_BLOCK_LOCK l) = false) (line : BitVec 66) (off : Int) :
    ∃ c, s.rxLine l line off = (none, (s.rxSeen l line).setLane l
      { (s.lineDecode l (s.lane l) line).2.hunt l (!(s.lineDecode l (s.lane l) line).1.errored) with chk := c }) := by
  obtain ⟨c, hc⟩ := seenDecode_eq s l line
  refine ⟨c, ?_⟩
  rw [rxLine_gimen hg, lock_rxSeen, hu, if_neg (by decide), hc, Lane.hunt_chk]

/-- A locked receiver counts the header in its window and delivers the block. -/
theorem rxLine_locked (hg : isGimen l = true) (hu : s.bit (F.LPH_LANE_STAT_BLOCK_LOCK l) = true) (line : BitVec 66) (off : Int) :
    ∃ x : Lane, x.run = (s.lane l).run ∧
      s.rxLine l line off = ((s.rxSeen l line).setLane l x).deliver l (s.lineDecode l (s.lane l) line).1 off := by
  obtain ⟨c, hc⟩ := seenDecode_eq s l line
  exact ⟨_, Lane.window_run { (s.lineDecode l (s.lane l) line).2 with chk := c } _, by rw [rxLine_gimen hg, lock_rxSeen, hu, if_pos rfl, hc]⟩

/-- A receiver on a station lane counts the headers of its own block code. -/
theorem rxLine_station (hg : isGimen l = false) (line : BitVec 66) (off : Int) : ∃ c, s.rxLine l line off = (none, (s.rxSeen l line).setLane l
    { (s.lane l).pcs (s.bit (F.LPH_LANE_STAT_BLOCK_LOCK l)) ((pcsDecode (s.lane l).rxScr line).1 == 1 || (pcsDecode (s.lane l).rxScr line).1 == 2) with
      rxScr := (pcsDecode (s.lane l).rxScr line).2.2, chk := c }) := by
  obtain ⟨c, hc⟩ := (checked_rxSeen s l line).own
  refine ⟨c, ?_⟩
  have hlock := lock_rxSeen s l line
  rcases hd : pcsDecode (s.lane l).rxScr line with ⟨h, p, r⟩
  simp only [State.rxSeen] at hc hlock ⊢
  simp only [State.rxLine, hg, Bool.false_eq_true, if_false, hc, hd, hlock, Lane.pcs_chk]

theorem onLane_rxLine (s : State) (l : Nat) (line : BitVec 66) (off : Int) : OnLane l s (s.rxLine l line off).2 := by
  have hseen := (checked_rxSeen s l line).onLane
  cases hg : isGimen l with
  | false =>
    obtain ⟨c, he⟩ := rxLine_station hg line off
    rw [he]
    exact hseen.setLane _
  | true =>
    cases hu : s.bit (F.LPH_LANE_STAT_BLOCK_LOCK l) with
    | false =>
      obtain ⟨c, he⟩ := rxLine_unlocked hg hu line off
      rw [he]
      exact hseen.setLane _
    | true =>
      obtain ⟨x, -, he⟩ := rxLine_locked hg hu line off
      rw [he]
      exact (hseen.setLane x).trans (delivered_deliver _ l _ off).toOnLane

/-! ## Near-end and far-end loops (R74) -/

/-- A far-end loop sends out again what has been received. -/
def State.farSend (l : Nat) : Option Blk × State → Option Blk × State
  | (some b, s) =>
    if s.fld (F.LPH_LANE_TEST_LOOP l) = 3 ∧ s.bit (F.LPH_LANE_STAT_TX_ACTIVE l) = true ∧ s.bit (F.LPH_LANE_STAT_INJECT l) = false then
      (some b, s.setTx l { (s.txLine l (s.txOf l) b).2 with line := [(s.txLine l (s.txOf l) b).1], at' := s.mono })
    else (some b, s)
  | (none, s) => (none, s)

theorem laneReceive_stopped (h : s.rxRuns l = false) (line : BitVec 66) (off : Int) : s.laneReceive l line off = (none, s) := by
  simp [State.laneReceive, h]

theorem laneReceive_ball (hr : s.rxRuns l = true) (hn : s.nearLoop l = false) (line : BitVec 66) (off : Int) :
    s.laneReceive l line off = State.farSend l (s.rxLine l line off) := by
  simp only [State.laneReceive, hr, hn, Bool.not_true, Bool.false_and, Bool.false_eq_true, if_false]
  rcases s.rxLine l line off with ⟨_ | b, v⟩
  · rfl
  · rcases hx : v.txLine l (v.txOf l) b with ⟨w, x⟩
    simp only [State.farSend, hx]

/-- A near-end loop ignores what is at the ball. -/
theorem laneReceive_nearLoop (h : s.nearLoop l = true) (line line' : BitVec 66) (off off' : Int) :
    s.laneReceive l line' off' = s.laneReceive l line off := by
  simp only [State.laneReceive, h, if_true]

theorem afterLine_farSend (l : Nat) (r : Option Blk × State) : AfterLine l r.2 (State.farSend l r).2 := by
  match r with
  | (none, v) => exact .refl l v
  | (some b, v) =>
    unfold State.farSend
    dsimp only
    split
    · exact (LanesKept.parts (.refl v)).afterLine l
    · exact .refl l v

/-- A receiver in a near-end loop takes the next block of the lane's own stream, through the line coding or as it is. -/
def State.nearTake (l : Nat) : Blk × State → Option Blk × State
  | (b, s) =>
    if s.fld (F.LPH_LANE_TEST_LOOP l) = 1 then (s.setTx l (s.txLine l (s.txOf l) b).2).rxLine l (s.txLine l (s.txOf l) b).1 0
    else s.deliver l b 0

theorem laneReceive_loop (hr : s.rxRuns l = true) (hn : s.nearLoop l = true) (line : BitVec 66) (off : Int) :
    s.laneReceive l line off = if isGimen l then State.nearTake l (s.loopNext l) else (none, s) := by
  cases hg : isGimen l with
  | false => simp [State.laneReceive, hr, hn, hg]
  | true =>
    simp only [State.laneReceive, hr, hn, hg, Bool.not_true, Bool.and_false, Bool.false_eq_true, if_true, if_false]
    rcases s.loopNext l with ⟨b, v⟩
    rcases hx : v.txLine l (v.txOf l) b with ⟨w, x⟩
    simp only [State.nearTake, hx]

theorem onLane_setTx (s : State) (l : Nat) (x : LaneTx) : OnLane l s (s.setTx l x) := ⟨fun _ => rfl, fun _ _ => rfl⟩

theorem onLane_nearTake (l : Nat) (r : Blk × State) : OnLane l r.2 (State.nearTake l r).2 := by
  rcases r with ⟨b, v⟩
  unfold State.nearTake
  dsimp only
  split
  · exact (onLane_setTx v l _).trans (onLane_rxLine _ l _ 0)
  · exact (delivered_deliver v l b 0).toOnLane

theorem onLane_laneReceive (s : State) (l : Nat) (line : BitVec 66) (off : Int) : OnLane l s (s.laneReceive l line off).2 := by
  cases hr : s.rxRuns l with
  | false => rw [laneReceive_stopped hr]; exact .refl l s
  | true =>
    cases hn : s.nearLoop l with
    | false =>
      rw [laneReceive_ball hr hn]
      exact (onLane_rxLine s l line off).trans (afterLine_farSend l _).toOnLane
    | true =>
      rw [laneReceive_loop hr hn]
      split
      · exact (onLane_setTx s l _).trans (onLane_nearTake l (s.loopNext l))
      · exact .refl l s

/-! ## Line bits at a receiver that takes them -/

/-- A receiver that takes line bits shows a signal, whatever its state. -/
theorem signal_rxLine (s : State) (l : Nat) (line : BitVec 66) (off : Int) :
    (s.rxLine l line off).2.bit (F.LPH_LANE_STAT_SIG_DET l) = true ∧ (s.rxLine l line off).2.bit (F.LPH_LANE_STAT_CDR_LOCK l) = true := by
  have h7 : (s.rxSeen l line).bit (F.LPH_LANE_STAT_SIG_DET l) = true := stat_rxSeen s l line (i := 7) (by decide)
  have h6 : (s.rxSeen l line).bit (F.LPH_LANE_STAT_CDR_LOCK l) = true := stat_rxSeen s l line (i := 6) (by decide)
  cases hg : isGimen l with
  | false =>
    obtain ⟨c, he⟩ := rxLine_station hg line off
    rw [he]
    exact ⟨h7, h6⟩
  | true =>
    cases hu : s.bit (F.LPH_LANE_STAT_BLOCK_LOCK l) with
    | false =>
      obtain ⟨c, he⟩ := rxLine_unlocked hg hu line off
      rw [he]
      exact ⟨h7, h6⟩
    | true =>
      obtain ⟨x, -, he⟩ := rxLine_locked hg hu line off
      rw [he]
      have hd := delivered_deliver ((s.rxSeen l line).setLane l x) l (s.lineDecode l (s.lane l) line).1 off
      exact ⟨(hd.stat 7 (by decide)).trans h7, (hd.stat 6 (by decide)).trans h6⟩

/-- A block that a locked receiver takes, over the whole of the command. -/
theorem locked_rxLine (hg : isGimen l = true) (hu : s.bit (F.LPH_LANE_STAT_BLOCK_LOCK l) = true) (line : BitVec 66) (off : Int)
    (h : AfterLine l (s.rxLine l line off).2 t) (hl : l < 72) :
    let b := (s.lineDecode l (s.lane l) line).1
    (t.lane l).run = (if b.isBlockSet then (s.lane l).run + 1 else 0) ∧
      (b.isBlockSet = false → t.bit (F.LPH_LANE_STAT_BLOCK_RX l) = false) ∧
      (if b.errored then Counted (F.LPH_LANE_HDR_ERR_V l) s t else t.rd (R.LPH_LANE_HDR_ERR l) = s.rd (R.LPH_LANE_HDR_ERR l)) ∧
      (if b.isCtl && !knownCt b.ct then Counted (F.LPH_LANE_UNK_CNT_V l) s t else t.rd (R.LPH_LANE_UNK_CNT l) = s.rd (R.LPH_LANE_UNK_CNT l)) ∧
      (2 ≤ off.natAbs → t.bit (F.LPH_LANE_STAT_RM_OVF l) = true) := by
  intro b
  obtain ⟨x, hx, he⟩ := rxLine_locked hg hu line off
  rw [he] at h
  have hd := delivered_deliver ((s.rxSeen l line).setLane l x) l b off
  have hstat (i : Nat) (hi : i < 32) := (h.bit (f := ⟨R.LPH_LANE_STAT l, i, 1⟩) (laneReg_at hl)).trans (hd.stat i hi)
  have hseen (a : Nat) (ha : a ∉ seenRegs l) : ((s.rxSeen l line).setLane l x).rd a = s.rd a := (checked_rxSeen s l line).step.rd ha
  have hregs (c : Nat) (hc : 0x20001c ≤ c ∧ c < 0x200030) : c + l * 0x1000 ∉ seenRegs l := by
    simp only [seenRegs, R.LPH_LANE_STAT, R.LPH_LANE_TEST, R.LPH_LANE_PRBS_ERR, List.mem_cons, List.not_mem_nil, or_false]; omega
  refine ⟨?_, fun hb => ?_, ?_, ?_, fun ho => ?_⟩
  · rw [h.run, hd.run, lane_setLane_self, hx]
  · exact (hstat 4 (by decide)).trans (by simp [hb])
  · exact (hd.errors.congr (hseen _ (hregs _ (by decide))).symm (h.regs _ (laneReg_at hl))).ite
  · exact (hd.unknown.congr (hseen _ (hregs _ (by decide))).symm (h.regs _ (laneReg_at hl))).ite
  · exact (hstat 30 (by decide)).trans (by simp [ho])

end Sys2Proof.Machine
end

section
/-! Block lock, rate matching, the BLOCK set and signal detect (R55, R56, R59, R60, R64, R68), and the whole of reception on the lanes. -/

namespace Sys2Proof.Machine

variable {s t u : State} {l : Nat}

/-! ## GIMENLINK_BLOCK_RECEIVED -/

/-- A GimenLink receiver that hunts, and one on a station lane, hand nothing on: what they answer is the state itself. -/
theorem rest_of_rxLine {x : Lane} {line : BitVec 66} {off : Int} (hr : s.rxRuns l = true) (hn : s.nearLoop l = false)
    (he : s.rxLine l line off = (none, (s.rxSeen l line).setLane l x)) (tenths : Nat) (ofs : Option Int) :
    let t := State.blockHandled l tenths ofs (s.laneReceive l line off)
    Frame (seenRegs l) [] [] { s with lanes := t.lanes } t ∧ t.lane l = x := by
  rw [laneReceive_ball hr hn, he]
  exact ⟨(checked_rxSeen s l line).setLane x, lane_setLane_self _ l x⟩

/-! ## Block lock (R55, R56) -/

/-- Lane `l` gains block lock. -/
def State.lockGained (s : State) (l : Nat) : State :=
  ((s.setLane l { s.lane l with winCnt := 0, winBad := 0 }).setBit (F.LPH_LANE_STAT_BLOCK_LOCK l) true).partnerLock l true

theorem laneStep_lockGained (s : State) (l : Nat) : LaneStep (R.LPH_LANE_STAT l :: lockRegs l) s (s.lockGained l) :=
  (((LaneStep.refl _ s).setLane l _).setBit true (by simp [F.LPH_LANE_STAT_BLOCK_LOCK])).trans ((laneStep_partnerLock _ l true).mono (by simp))

theorem lockGained_shows (s : State) (l : Nat) : (s.lockGained l).bit (F.LPH_LANE_STAT_BLOCK_LOCK l) = true ∧
    (s.lockGained l).lane l = { s.lane l with winCnt := 0, winBad := 0 } ∧ (s.lockGained l).ltx = s.ltx := by
  obtain ⟨hlanes, hltx, -⟩ :=
    partnerLock_parts ((s.setLane l { s.lane l with winCnt := 0, winBad := 0 }).setBit (F.LPH_LANE_STAT_BLOCK_LOCK l) true) l true
  refine ⟨?_, ?_, hltx⟩
  · exact (bit_partnerLock _ l true (laneStat_ne_plStat l)).trans (bit_setBit_at_self _ _ _ (by decide))
  · rw [State.lane, State.lockGained, hlanes]
    exact lane_setLane_self s l _

/-- Lane `l` loses block lock: what its registers show. -/
def State.lockShown (s : State) (l : Nat) : State :=
  (((s.setBit (F.LPH_LANE_STAT_BLOCK_LOCK l) false).setBit (F.LPH_LANE_STAT_LOCK_LOST l) true).inc (F.LPH_LANE_LOCK_CNT_V l)).setBit
    (F.LPH_LANE_STAT_BLOCK_RX l) false

/-- A receiver that has lost block lock. -/
def Lane.unlocked (x : Lane) : Lane := { x with good := 0, winCnt := 0, winBad := 0, run := 0, inFrame := false }

/-- Lane `l` loses block lock. -/
def State.lockGone (s : State) (l : Nat) : State :=
  ((s.setLane l (s.lane l).unlocked).lockShown l).partnerLock l false

theorem blockLockLost_eq (s : State) (l : Nat) : s.blockLockLost l =
    if isGimen l && s.bit (F.LPH_LANE_STAT_BLOCK_LOCK l) && decide (24 ≤ (s.lane l).winBad) then s.lockGone l else s := rfl

/-- The registers of a lane that a loss of lock changes. -/
abbrev lostRegs (l : Nat) : List Nat := [R.LPH_LANE_STAT l, R.LPH_LANE_LOCK_CNT l]

theorem laneStep_lockShown (s : State) (l : Nat) : LaneStep (lostRegs l) s (s.lockShown l) :=
  ((((LaneStep.refl _ s).setBit false (by simp [F.LPH_LANE_STAT_BLOCK_LOCK])).setBit true (by simp [F.LPH_LANE_STAT_LOCK_LOST])).inc
    (by simp [F.LPH_LANE_LOCK_CNT_V])).setBit false (by simp [F.LPH_LANE_STAT_BLOCK_RX])

theorem lockCnt_ne_stat (l : Nat) : R.LPH_LANE_LOCK_CNT l ≠ R.LPH_LANE_STAT l := by simp only [R.LPH_LANE_LOCK_CNT, R.LPH_LANE_STAT]; omega

theorem lockShown_spec (s : State) (l : Nat) : (s.lockShown l).bit (F.LPH_LANE_STAT_BLOCK_LOCK l) = false ∧
    (s.lockShown l).bit (F.LPH_LANE_STAT_LOCK_LOST l) = true ∧ (s.lockShown l).bit (F.LPH_LANE_STAT_BLOCK_RX l) = false ∧
    Counted (F.LPH_LANE_LOCK_CNT_V l) s (s.lockShown l) := by
  have hne := lockCnt_ne_stat l
  have hinc (v : State) (i : Nat) : (v.inc (F.LPH_LANE_LOCK_CNT_V l)).bit ⟨R.LPH_LANE_STAT l, i, 1⟩ = v.bit ⟨R.LPH_LANE_STAT l, i, 1⟩ :=
    bit_setFld_ne _ _ _ _ hne.symm
  have hcnt (v : State) (i : Nat) (b : Bool) : (v.setBit ⟨R.LPH_LANE_STAT l, i, 1⟩ b).fld (F.LPH_LANE_LOCK_CNT_V l) = v.fld (F.LPH_LANE_LOCK_CNT_V l) :=
    fld_setBit_ne _ _ _ _ hne
  simp only [State.lockShown, Counted, F.LPH_LANE_STAT_BLOCK_LOCK, F.LPH_LANE_STAT_LOCK_LOST, F.LPH_LANE_STAT_BLOCK_RX]
  refine ⟨?_, ?_, bit_setBit_at_self _ _ _ (by decide), ?_⟩
  · simp (disch := decide) [bit_setBit_one, hinc]
  · simp (disch := decide) [bit_setBit_one, hinc]
  · rw [hcnt, fld_inc_self _ _ (by simp [RF.ok, F.LPH_LANE_LOCK_CNT_V]), hcnt, hcnt]

theorem laneStep_lockGone (s : State) (l : Nat) : LaneStep (R.LPH_LANE_STAT l :: R.LPH_LANE_LOCK_CNT l :: lockRegs l) s (s.lockGone l) :=
  (((LaneStep.refl _ s).setLane l _).trans ((laneStep_lockShown _ l).mono (by simp))).trans ((laneStep_partnerLock _ l false).mono (by simp))

theorem lockShown_parts (s : State) (l : Nat) :
    (s.lockShown l).lanes = s.lanes ∧ (s.lockShown l).ltx = s.ltx ∧ (s.lockShown l).rdu = s.rdu := by
  simp [State.lockShown]

theorem lockGone_parts (s : State) (l : Nat) :
    (s.lockGone l).lane l = (s.lane l).unlocked ∧ (s.lockGone l).ltx = s.ltx ∧ (s.lockGone l).rdu = s.rdu := by
  obtain ⟨hlanes, hltx, hrdu⟩ := lockShown_parts (s.setLane l (s.lane l).unlocked) l
  obtain ⟨hlanes', hltx', hrdu'⟩ := partnerLock_parts ((s.setLane l (s.lane l).unlocked).lockShown l) l false
  refine ⟨?_, hltx'.trans hltx, hrdu'.trans hrdu⟩
  rw [State.lane, State.lockGone, hlanes', hlanes]
  exact lane_setLane_self s l _

theorem lockGone_spec (s : State) (l : Nat) : (s.lockGone l).bit (F.LPH_LANE_STAT_BLOCK_LOCK l) = false ∧
    (s.lockGone l).bit (F.LPH_LANE_STAT_LOCK_LOST l) = true ∧ (s.lockGone l).bit (F.LPH_LANE_STAT_BLOCK_RX l) = false ∧
    Counted (F.LPH_LANE_LOCK_CNT_V l) s (s.lockGone l) := by
  obtain ⟨h1, h2, h3, h4⟩ := lockShown_spec (s.setLane l (s.lane l).unlocked) l
  have hbit (f : RF) (hf : f.addr = R.LPH_LANE_STAT l) := bit_partnerLock
    ((s.setLane l (s.lane l).unlocked).lockShown l) l false (f := f) (hf ▸ laneStat_ne_plStat l)
  have hne : (F.LPH_LANE_LOCK_CNT_V l).addr ≠ R.PL_STAT := by simp only [F.LPH_LANE_LOCK_CNT_V, R.LPH_LANE_LOCK_CNT, R.PL_STAT]; omega
  refine ⟨(hbit _ rfl).trans h1, (hbit _ rfl).trans h2, (hbit _ rfl).trans h3, ?_⟩
  exact (congrArg _ (rd_partnerLock _ l false hne)).trans h4

/-- A loss of lock leaves the link's own state, and on a lane that is none of the partner's its lanes too. -/
theorem up_lockGone (s : State) (l : Nat) : (s.lockGone l).bit F.PL_STAT_UP = s.bit F.PL_STAT_UP := by
  have h : R.PL_STAT ∉ lostRegs l := by
    simp only [lostRegs, R.PL_STAT, R.LPH_LANE_STAT, R.LPH_LANE_LOCK_CNT, List.mem_cons, List.not_mem_nil, or_false]; omega
  exact (up_partnerLock _ l false).trans ((laneStep_lockShown _ l).bit h)

theorem lock_lockGone (h : l < 68) : (s.lockGone l).fld F.PL_STAT_LANE_LOCK = s.fld F.PL_STAT_LANE_LOCK := by
  refine (laneStep_lockGone s l).fld ?_
  simp only [lockRegs, if_neg (Nat.not_le.2 h), F.PL_STAT_LANE_LOCK, R.PL_STAT, R.LPH_LANE_STAT, R.LPH_LANE_LOCK_CNT, List.mem_cons, List.not_mem_nil,
    or_false]
  omega

theorem lockLost_of_due (hl : l < 72) : let t := (s.lockGone l).linkCheck
    t.bit (F.LPH_LANE_STAT_BLOCK_LOCK l) = false ∧ t.bit (F.LPH_LANE_STAT_LOCK_LOST l) = true ∧ t.bit (F.LPH_LANE_STAT_BLOCK_RX l) = false ∧
      Counted (F.LPH_LANE_LOCK_CNT_V l) s t ∧ (t.lane l).good = 0 ∧ (t.lane l).run = 0 ∧
      (68 ≤ l → t.fbit F.PL_STAT_LANE_LOCK (l - 68) = false ∧ t.bit F.PL_STAT_UP = false ∧
        (s.bit F.PL_STAT_UP = true → t.bit F.RDU_STAT_PL_UP = false ∧ t.pends 186 = true)) ∧
      (s.bit F.PL_STAT_UP = false ∨ (l < 68 ∧ s.linkCalm) →
        Frame (R.LPH_LANE_STAT l :: R.LPH_LANE_LOCK_CNT l :: lockRegs l) [] [] { s with lanes := t.lanes } t) := by
  intro t
  obtain ⟨hlock, hlost, hrx, hcnt⟩ := lockGone_spec s l
  obtain ⟨hlane, hltx, hrdu⟩ := lockGone_parts s l
  have hk : LanesKept (s.lockGone l) t := lanesKept_linkCheck _
  have hstat (f : RF) (hf : f.addr = R.LPH_LANE_STAT l) : t.bit f = (s.lockGone l).bit f := hk.bit (hf ▸ laneReg_at hl)
  refine ⟨(hstat _ rfl).trans hlock, (hstat _ rfl).trans hlost, (hstat _ rfl).trans hrx, ?_, ?_, ?_, fun h => ?_, fun h => ?_⟩
  · exact (hk.fld (laneReg_at hl)).trans hcnt
  · rw [hk.lane, hlane, Lane.unlocked]
  · rw [hk.lane, hlane, Lane.unlocked]
  · have hbit : (s.lockGone l).fbit F.PL_STAT_LANE_LOCK (l - 68) = false := fbit_partnerLock _ false h hl
    obtain ⟨hup, hdown⟩ := linkCheck_of_unlocked (lock_ne_of_fbit h hl hbit)
    refine ⟨?_, hup, fun hu => hdown ((up_lockGone s l).trans hu)⟩
    rw [State.fbit, hk.lock]
    exact hbit
  · have hcalm : (s.lockGone l).linkCalm := by
      unfold State.linkCalm
      rw [up_lockGone, hrdu]
      rcases h with h | ⟨h68, h | h⟩
      · exact .inl h
      · exact .inl h
      · exact .inr ⟨(lock_lockGone h68).trans h.1, h.2⟩
    simp only [t, linkCheck_of_calm hcalm]
    exact (laneStep_lockGone s l).receive hltx

/-! ## Rate matching (R59, R60) -/

/-- A block is taken out of the stream of lane `l` (`f` counts it) or put into it, which leaves the elastic buffer at `e`. -/
theorem rateMatched (s : State) (l : Nat) (e : Int) {f : RF} (hf : f.addr = R.LPH_LANE_RM_CNT l) (hok : f.ok) :
    let t := (s.setLane l { s.lane l with elastic := e }).inc f
    t.lane l = { s.lane l with elastic := e } ∧ Counted f s t ∧ Frame [R.LPH_LANE_RM_CNT l] [] [] { s with lanes := t.lanes } t :=
  ⟨lane_setLane_self s l _, fld_inc_self _ f hok, (((LaneStep.refl _ s).setLane l _).inc (by simp [hf])).receive rfl⟩

/-! ## Signal detect (R68) -/

/-- A signal at lane `l`: a sleeping receiver with RX_AUTO_WAKE wakes. -/
def State.signalRise (s : State) (l : Nat) : State :=
  let s := s.setBit (F.LPH_LANE_STAT_SIG_DET l) true
  if s.bit (F.LPH_LANE_PWR_RX_SLEEP l) && s.bit (F.LPH_LANE_PWR_RX_AUTO_WAKE l) then s.setLane l { s.lane l with rxWoken := true } else s

theorem signalRise_spec (s : State) (l : Nat) :
    let wakes := s.bit (F.LPH_LANE_PWR_RX_SLEEP l) && s.bit (F.LPH_LANE_PWR_RX_AUTO_WAKE l)
    (s.signalRise l).bit (F.LPH_LANE_STAT_SIG_DET l) = true ∧ Frame [R.LPH_LANE_STAT l] [] [] { s with lanes := (s.signalRise l).lanes } (s.signalRise l) ∧
      (wakes = true → (s.signalRise l).lane l = { s.lane l with rxWoken := true }) ∧ (wakes = false → (s.signalRise l).lanes = s.lanes) := by
  have hpwr (f : RF) (hf : f.addr = R.LPH_LANE_PWR l) : (s.setBit (F.LPH_LANE_STAT_SIG_DET l) true).bit f = s.bit f :=
    bit_setBit_ne _ _ _ _ (by simp only [hf, F.LPH_LANE_STAT_SIG_DET, R.LPH_LANE_PWR, R.LPH_LANE_STAT]; omega)
  have hsig : (s.setBit (F.LPH_LANE_STAT_SIG_DET l) true).bit (F.LPH_LANE_STAT_SIG_DET l) = true := bit_setBit_at_self _ _ _ (by decide)
  have hstep : LaneStep [R.LPH_LANE_STAT l] s (s.setBit (F.LPH_LANE_STAT_SIG_DET l) true) :=
    (LaneStep.refl _ s).setBit true (by simp [F.LPH_LANE_STAT_SIG_DET])
  unfold State.signalRise
  simp only [hpwr (F.LPH_LANE_PWR_RX_SLEEP l) rfl, hpwr (F.LPH_LANE_PWR_RX_AUTO_WAKE l) rfl]
  cases s.bit (F.LPH_LANE_PWR_RX_SLEEP l) && s.bit (F.LPH_LANE_PWR_RX_AUTO_WAKE l) with
  | false => exact ⟨hsig, hstep.receive rfl, fun h => absurd h (by decide), fun _ => rfl⟩
  | true => exact ⟨hsig, (hstep.setLane l _).receive rfl, fun _ => lane_setLane_self _ l _, fun h => absurd h (by decide)⟩

/-- Settles O51: line bits by the state of the receiver that takes them, lock and its loss by what follows at the partner link. -/
theorem lanesReceiveAndLock : Obligations.LanesReceiveAndLock := by
  unfold Obligations.LanesReceiveAndLock
  intro s time tenth lane line off ofs
  have hl : lane.val < 72 := lane.isLt
  refine ⟨fun hs => ⟨_, (exec_blockReceived s time tenth lane line off ofs).trans (congrArg _ (onDie_live s time _ hs)), ?_⟩, ?_, ?_, ?_, ?_, ?_⟩
  · have hafter (h : (s.tick time).rxRuns lane = true ∧ (s.tick time).nearLoop lane = false) :
        AfterLine lane ((s.tick time).rxLine lane line off).2
          (State.blockHandled lane (10 * time + tenth) ofs ((s.tick time).laneReceive lane line off)) := by
      rw [laneReceive_ball h.1 h.2]
      exact (afterLine_farSend lane _).trans (afterLine_blockHandled lane _ ofs _)
    have hon := (onLane_laneReceive (s.tick time) lane line off).trans (afterLine_blockHandled lane (10 * time + tenth) ofs _).toOnLane
    refine ⟨fun hr => ?_, fun hn line' off' => ?_, hon.mem, hon.others, fun h => ?_, fun h hg => ?_, fun h hg hu => ?_, fun h hg hu => ?_⟩
    · rw [laneReceive_stopped hr]; rfl
    · rw [exec_blockReceived, onDie_live _ _ _ hs, laneReceive_nearLoop hn line line' off off']
    · obtain ⟨h7, h6⟩ := signal_rxLine (s.tick time) lane line off
      exact ⟨((hafter h).bit (laneReg_at hl)).trans h7, ((hafter h).bit (laneReg_at hl)).trans h6⟩
    · obtain ⟨c, he⟩ := rxLine_station hg line off
      obtain ⟨hrest, hlane⟩ := rest_of_rxLine h.1 h.2 he (10 * time + tenth) ofs
      exact ⟨hrest, c, hlane⟩
    · obtain ⟨c, he⟩ := rxLine_unlocked hg hu line off
      obtain ⟨hrest, hlane⟩ := rest_of_rxLine h.1 h.2 he (10 * time + tenth) ofs
      exact ⟨hrest, c, hlane⟩
    · exact locked_rxLine hg hu line off (hafter h) hl
  · refine answers_of rfl ?_
    generalize s.tick time = u
    refine ⟨fun hno => if_neg fun h => hno ?_, fun hdue => ?_⟩
    · simpa [and_assoc] using h
    · rw [if_pos (by simpa [and_assoc] using hdue)]
      obtain ⟨hbit, hlane, hltx⟩ := lockGained_shows u lane
      exact ⟨hbit, hlane, fun h => fbit_partnerLock _ true h hl, (laneStep_lockGained u lane).receive hltx⟩
  · refine answers_of rfl ?_
    generalize s.tick time = u
    refine ⟨fun hno hcalm => ?_, fun hdue => ?_⟩
    · rw [blockLockLost_eq, if_neg fun h => hno (by simpa [and_assoc] using h)]
      exact linkCheck_of_calm hcalm
    · rw [blockLockLost_eq, if_pos (by simpa [and_assoc] using hdue)]
      exact lockLost_of_due hl
  · refine answers_of rfl ?_
    generalize s.tick time = u
    dsimp only
    have hmay : (isGimen lane && (!(u.lane lane).inFrame || decide (0 < (u.lane lane).run))) = true ↔
        isGimen lane = true ∧ ((u.lane lane).inFrame = false ∨ 0 < (u.lane lane).run) := by simp
    refine ⟨fun h => ?_, fun h he => ?_, fun h he => ?_⟩
    · rcases h with h | h
      · exact if_neg fun hc => h (hmay.1 hc)
      · simp [h]
    · rw [if_pos (hmay.2 h), if_pos he]
      exact rateMatched u lane _ rfl (by simp [RF.ok, F.LPH_LANE_RM_CNT_DEL])
    · rw [if_pos (hmay.2 h), if_neg (by omega), if_pos he]
      exact rateMatched u lane _ rfl (by simp [RF.ok, F.LPH_LANE_RM_CNT_INS])
  · refine answers_of rfl ⟨fun h => if_neg (Nat.not_le.2 h), fun h => ?_⟩
    rw [if_pos h]
    exact ⟨bit_setBit_at_self _ _ _ (by decide), (Frame.refl _ _ _ _).setBit true (by simp [F.LPH_LANE_STAT_BLOCK_RX])⟩
  · exact answers_of rfl (signalRise_spec (s.tick time) lane)

end Sys2Proof.Machine
end

section
/-! Electrical idle, sleep of a lane and power of a quad (R67 to R69): what a transmitter and a receiver do when a rest begins or ends, and
what of the partner link follows. -/

namespace Sys2Proof.Machine

variable {rs : List Nat} {s t u : State} {l : Nat}

/-! ## What holds a lane -/

/-- A step of lane registers leaves what shows whether a lane is in use. -/
theorem LaneStep.laneInUse (h : LaneStep rs s t) (hrs : ∀ a ∈ rs, laneReg a) (l : Nat) : t.laneInUse l = s.laneInUse l := by
  have hrd {a : Nat} (ha : ¬ laneReg a) : t.rd a = s.rd a := h.rd fun hm => ha (hrs a hm)
  unfold State.laneInUse
  split_ifs with h64 h68
  · exact h.bit fun hm => absurd (hrs _ hm) (by simp only [laneReg, F.RPU_PORT_CTL_EN, R.RPU_PORT_CTL]; omega)
  · exact h.bit fun hm => absurd (hrs _ hm) (by simp only [laneReg, F.SPU_PAIR_CTL_EN, R.SPU_PAIR_CTL]; omega)
  · exact h.bit fun hm => absurd (hrs _ hm) (by decide)

/-- A step of other registers than those of lane `l` and SYS_LC that leaves the power of its quad leaves what holds its transmitter idle. -/
theorem LaneStep.txIdle (h : LaneStep rs s t) (hr : ∀ a ∈ [R.LPH_LANE_STAT l, R.LPH_LANE_PWR l, R.LPH_LANE_TEST l, R.SYS_LC], a ∉ rs)
    (hpd : t.bit (F.LPH_QUAD_CTL_PD (l / 4)) = s.bit (F.LPH_QUAD_CTL_PD (l / 4))) : t.txIdle l = s.txIdle l := by
  simp only [List.forall_mem_cons, List.not_mem_nil, false_implies, implies_true, and_true] at hr
  obtain ⟨hstat, hpwr, htest, hlc⟩ := hr
  simp only [State.txIdle, State.nearLoop, h.bit (f := F.LPH_LANE_STAT_HBL_IDLE l) hstat, h.bit (f := F.LPH_LANE_STAT_INJECT l) hstat,
    h.bit (f := F.LPH_LANE_PWR_TX_SLEEP l) hpwr, h.fld (f := F.LPH_LANE_TEST_LOOP l) htest, hpd, h.fld (f := F.SYS_LC_STATE) hlc]

theorem txIdle_of_sleep (h : s.bit (F.LPH_LANE_PWR_TX_SLEEP l) = true) : s.txIdle l = true := by simp [State.txIdle, h]

theorem txIdle_of_nearLoop (h : s.nearLoop l = true) : s.txIdle l = true := by simp [State.txIdle, h]

/-! ## The transmitter settles -/

/-- The transmitter of lane `l` goes to electrical idle where something holds it there; else it wakes where `go` says so. -/
def State.txSettle (s : State) (l : Nat) (go : Bool) : State := if s.txIdle l then s.txStop l else if go then s.txWake l else s

theorem laneStep_txSettle (s : State) (l : Nat) (go : Bool) : LaneStep [R.LPH_LANE_STAT l] s (s.txSettle l go) :=
  .ite (fun _ => laneStep_txStop s l) fun _ => .ite (fun _ => laneStep_txWake s l) fun _ => .refl _ s

theorem stat_txSettle (s : State) (l : Nat) (go : Bool) {i : Nat} (hi : i < 32) (h1 : i ≠ 1) (h2 : i ≠ 2) :
    (s.txSettle l go).bit ⟨R.LPH_LANE_STAT l, i, 1⟩ = s.bit ⟨R.LPH_LANE_STAT l, i, 1⟩ := by
  unfold State.txSettle
  split_ifs
  · rw [stat_txStop s l hi, if_neg (by omega)]
  · exact stat_txWake s l hi h1 h2
  · rfl

theorem txActive_txSettle (go : Bool) (h : s.txIdle l = true) : (s.txSettle l go).bit (F.LPH_LANE_STAT_TX_ACTIVE l) = false := by
  rw [State.txSettle, if_pos h]
  exact (stat_txStop s l (by decide)).trans (if_pos (.inr rfl))

/-! ## The receiver settles -/

/-- The receiver of lane `l` stops where sleep begins, RX_SLEEP having been `old`; without sleep it needs no signal to be awake. -/
def State.rxSettle (s : State) (l : Nat) (old : Bool) : State :=
  if s.bit (F.LPH_LANE_PWR_RX_SLEEP l) && !old then s.rxStop l
  else if !s.bit (F.LPH_LANE_PWR_RX_SLEEP l) then s.setLane l { s.lane l with rxWoken := false } else s

theorem rxSettle_of_sleep {old : Bool} (h : s.bit (F.LPH_LANE_PWR_RX_SLEEP l) = true) (ho : old = false) : s.rxSettle l old = s.rxStop l :=
  if_pos (by simp [h, ho])

/-- Where no sleep begins, no register changes. -/
theorem laneStep_rxSettle_awake {old : Bool} (h : (s.bit (F.LPH_LANE_PWR_RX_SLEEP l) && !old) = false) : LaneStep [] s (s.rxSettle l old) := by
  rw [State.rxSettle, if_neg (by simp [h])]
  exact .ite (fun _ => (LaneStep.refl _ s).setLane l _) fun _ => .refl _ s

theorem laneStep_rxSettle (s : State) (l : Nat) (old : Bool) : LaneStep (R.LPH_LANE_STAT l :: lockRegs l) s (s.rxSettle l old) := by
  by_cases h : (s.bit (F.LPH_LANE_PWR_RX_SLEEP l) && !old) = true
  · rw [State.rxSettle, if_pos h]
    exact laneStep_rxStop s l
  · exact (laneStep_rxSettle_awake (by simpa using h)).mono (by simp)

theorem stat_rxSettle (s : State) (old : Bool) {i : Nat} (hi : i < 32) (h : i ≠ 4 ∧ i ≠ 5 ∧ i ≠ 6) :
    (s.rxSettle l old).bit ⟨R.LPH_LANE_STAT l, i, 1⟩ = s.bit ⟨R.LPH_LANE_STAT l, i, 1⟩ := by
  by_cases hs : (s.bit (F.LPH_LANE_PWR_RX_SLEEP l) && !old) = true
  · rw [State.rxSettle, if_pos hs, stat_rxStop s l hi, if_neg (by omega)]
  · exact (laneStep_rxSettle_awake (by simpa using hs)).bit (by simp)

theorem up_rxSettle (s : State) (l : Nat) (old : Bool) : (s.rxSettle l old).bit F.PL_STAT_UP = s.bit F.PL_STAT_UP := by
  by_cases hs : (s.bit (F.LPH_LANE_PWR_RX_SLEEP l) && !old) = true
  · rw [State.rxSettle, if_pos hs, up_rxStop]
  · exact (laneStep_rxSettle_awake (by simpa using hs)).bit (by simp)

/-! ## A write to LPH_LANEl_PWR (R67) -/

/-- The registers after a write of `v` to LPH_LANEl_PWR. -/
def State.pwrSet (s : State) (l : Nat) (v : BitVec 32) : State :=
  let r := s.setBit (F.LPH_LANE_PWR_RX_AUTO_WAKE l) (v.getLsbD 2)
  let r := if s.laneInUse l && (v.getLsbD 1 || v.getLsbD 0) then r.setBit (F.LPH_LANE_STAT_SLEEP_REFUSED l) true else r
  (r.setBit (F.LPH_LANE_PWR_TX_SLEEP l) (v.getLsbD 1 && (!s.laneInUse l || s.bit (F.LPH_LANE_PWR_TX_SLEEP l)))).setBit
    (F.LPH_LANE_PWR_RX_SLEEP l) (v.getLsbD 0 && (!s.laneInUse l || s.bit (F.LPH_LANE_PWR_RX_SLEEP l)))

/-- A refused request keeps the bit, any other value is taken. -/
theorem sleepBit_eq (use req old : Bool) : (if use && req then old else if use then false else req) = (req && (!use || old)) := by
  cases use <;> cases req <;> rfl

theorem pwrWrite_eq (s : State) (l : Nat) (v : BitVec 32) : s.pwrWrite l v =
    ((s.pwrSet l v).txSettle l (s.bit (F.LPH_LANE_PWR_TX_SLEEP l))).rxSettle l (s.bit (F.LPH_LANE_PWR_RX_SLEEP l)) := by
  unfold State.pwrWrite
  simp only [sleepBit_eq, getLsbD_rd]
  rfl

theorem laneStep_pwrSet (s : State) (l : Nat) (v : BitVec 32) : LaneStep [R.LPH_LANE_PWR l, R.LPH_LANE_STAT l] s (s.pwrSet l v) := by
  have h : LaneStep [R.LPH_LANE_PWR l, R.LPH_LANE_STAT l] s (s.setBit (F.LPH_LANE_PWR_RX_AUTO_WAKE l) (v.getLsbD 2)) :=
    (LaneStep.refl _ s).setBit _ (by simp [F.LPH_LANE_PWR_RX_AUTO_WAKE])
  exact ((LaneStep.ite (fun _ => h.setBit true (by simp [F.LPH_LANE_STAT_SLEEP_REFUSED])) fun _ => h).setBit _ (by simp [F.LPH_LANE_PWR_TX_SLEEP])).setBit _
    (by simp [F.LPH_LANE_PWR_RX_SLEEP])

theorem lanePwr_ne_stat (l : Nat) : R.LPH_LANE_PWR l ≠ R.LPH_LANE_STAT l := by simp only [R.LPH_LANE_PWR, R.LPH_LANE_STAT]; omega

/-- The power bits after the write. -/
theorem pwr_pwrSet (s : State) (l : Nat) (v : BitVec 32) :
    (s.pwrSet l v).bit (F.LPH_LANE_PWR_RX_AUTO_WAKE l) = v.getLsbD 2 ∧
      (s.pwrSet l v).bit (F.LPH_LANE_PWR_TX_SLEEP l) = (v.getLsbD 1 && (!s.laneInUse l || s.bit (F.LPH_LANE_PWR_TX_SLEEP l))) ∧
      (s.pwrSet l v).bit (F.LPH_LANE_PWR_RX_SLEEP l) = (v.getLsbD 0 && (!s.laneInUse l || s.bit (F.LPH_LANE_PWR_RX_SLEEP l))) := by
  have hflag (r : State) {c : Prop} [Decidable c] (i : Nat) :
      (if c then r.setBit (F.LPH_LANE_STAT_SLEEP_REFUSED l) true else r).bit ⟨R.LPH_LANE_PWR l, i, 1⟩ = r.bit ⟨R.LPH_LANE_PWR l, i, 1⟩ := by
    split
    · exact bit_setBit_ne _ _ _ _ (lanePwr_ne_stat l)
    · rfl
  unfold State.pwrSet
  simp (disch := decide) only [F.LPH_LANE_PWR_RX_AUTO_WAKE, F.LPH_LANE_PWR_TX_SLEEP, F.LPH_LANE_PWR_RX_SLEEP, bit_setBit_at, bit_setBit_at_self, hflag,
    and_self]

theorem sleepRefused_pwrSet {v : BitVec 32} (hu : s.laneInUse l = true) (hv : v.getLsbD 1 = true ∨ v.getLsbD 0 = true) :
    (s.pwrSet l v).bit (F.LPH_LANE_STAT_SLEEP_REFUSED l) = true := by
  have hne : R.LPH_LANE_STAT l ≠ R.LPH_LANE_PWR l := (lanePwr_ne_stat l).symm
  rw [State.pwrSet, bit_setBit_ne _ _ _ _ hne, bit_setBit_ne _ _ _ _ hne, if_pos (by simpa [hu] using hv)]
  exact bit_setBit_at_self _ _ _ (by decide)

/-! ## The partner link afterwards (R280) -/

/-- A step that leaves PL_STAT alone leaves a calm link calm. -/
theorem LaneStep.linkCalm (h : LaneStep rs s t) (hr : R.PL_STAT ∉ rs) (hs : s.linkCalm) : t.linkCalm := by
  have hrdu : t.rdu = s.rdu := Frame.rdu (s := { s with lanes := t.lanes, ltx := t.ltx }) h
  unfold State.linkCalm
  rwa [h.bit (f := F.PL_STAT_UP) hr, h.fld (f := F.PL_STAT_LANE_LOCK) hr, hrdu]

end Sys2Proof.Machine
end

section
/-! Sleep requests, power of a quad and its PLL (R67 to R69, R280). -/

namespace Sys2Proof.Machine

variable {rs : List Nat} {s t u : State} {l : Nat}

/-! ## Sleep request (R67, R68) -/

/-- Lane `l` after a write to its PWR register, before the partner link is judged: PWR and status, with LANE_LOCK where a receiver stops. -/
theorem laneStep_pwrWrite (s : State) (l : Nat) (v : BitVec 32) :
    LaneStep (R.LPH_LANE_PWR l :: R.LPH_LANE_STAT l :: lockRegs l) s (s.pwrWrite l v) := by
  rw [pwrWrite_eq]
  exact (((laneStep_pwrSet s l v).mono (by simp)).trans ((laneStep_txSettle _ l _).mono (by simp))).trans ((laneStep_rxSettle _ l _).mono (by simp))

/-- The power bits are those of the register write. -/
theorem pwr_pwrWrite (s : State) (v : BitVec 32) {f : RF} (hf : f.addr = R.LPH_LANE_PWR l) : (s.pwrWrite l v).bit f = (s.pwrSet l v).bit f := by
  have hne := lanePwr_ne_stat l
  have hpl : R.LPH_LANE_PWR l ≠ R.PL_STAT := by simp only [R.LPH_LANE_PWR, R.PL_STAT]; omega
  rw [pwrWrite_eq, (laneStep_rxSettle _ l _).bit, (laneStep_txSettle _ l _).bit]
  · simpa [hf] using hne
  · unfold lockRegs
    split <;> simp [hf, hne, hpl]

/-- A request that begins no sleep of the receiver leaves the partner link's register alone. -/
theorem laneStep_pwrWrite_awake {v : BitVec 32} (h : v.getLsbD 0 = false ∨ s.laneInUse l = true) :
    LaneStep [R.LPH_LANE_PWR l, R.LPH_LANE_STAT l] s (s.pwrWrite l v) := by
  have hrx : (((s.pwrSet l v).txSettle l (s.bit (F.LPH_LANE_PWR_TX_SLEEP l))).bit (F.LPH_LANE_PWR_RX_SLEEP l) &&
      !s.bit (F.LPH_LANE_PWR_RX_SLEEP l)) = false := by
    rw [(laneStep_txSettle _ l _).bit (by simpa [F.LPH_LANE_PWR_RX_SLEEP] using lanePwr_ne_stat l), (pwr_pwrSet s l v).2.2]
    rcases h with h | h
    · rw [h]; rfl
    · rw [h]; cases v.getLsbD 0 <;> cases s.bit (F.LPH_LANE_PWR_RX_SLEEP l) <;> rfl
  rw [pwrWrite_eq]
  exact ((laneStep_pwrSet s l v).trans ((laneStep_txSettle _ l _).mono (by simp))).trans ((laneStep_rxSettle_awake hrx).mono (by simp))

theorem up_pwrWrite (s : State) (l : Nat) (v : BitVec 32) : (s.pwrWrite l v).bit F.PL_STAT_UP = s.bit F.PL_STAT_UP := by
  have hset : (F.PL_STAT_UP).addr ∉ [R.LPH_LANE_PWR l, R.LPH_LANE_STAT l] := by
    simp only [F.PL_STAT_UP, R.PL_STAT, R.LPH_LANE_PWR, R.LPH_LANE_STAT, List.mem_cons, List.not_mem_nil, or_false]; omega
  rw [pwrWrite_eq, up_rxSettle, (laneStep_txSettle _ l _).bit fun h => hset (by simp_all), (laneStep_pwrSet s l v).bit hset]

theorem sleepRefused_pwrWrite {v : BitVec 32} (hu : s.laneInUse l = true) (hv : v.getLsbD 1 = true ∨ v.getLsbD 0 = true) :
    (s.pwrWrite l v).bit (F.LPH_LANE_STAT_SLEEP_REFUSED l) = true := by
  rw [pwrWrite_eq]
  exact (stat_rxSettle _ _ (by decide) (by decide)).trans ((stat_txSettle _ l _ (by decide) (by decide) (by decide)).trans (sleepRefused_pwrSet hu hv))

theorem txActive_pwrWrite {v : BitVec 32} (h : (s.pwrWrite l v).bit (F.LPH_LANE_PWR_TX_SLEEP l) = true) :
    (s.pwrWrite l v).bit (F.LPH_LANE_STAT_TX_ACTIVE l) = false := by
  rw [pwr_pwrWrite s v rfl] at h
  rw [pwrWrite_eq]
  exact (stat_rxSettle _ _ (by decide) (by decide)).trans (txActive_txSettle _ (txIdle_of_sleep h))

/-- A receiver that goes to sleep stops. -/
theorem rxStop_pwrWrite {v : BitVec 32} (h : (s.pwrWrite l v).bit (F.LPH_LANE_PWR_RX_SLEEP l) = true) (ho : s.bit (F.LPH_LANE_PWR_RX_SLEEP l) = false) :
    ∃ w : State, s.pwrWrite l v = w.rxStop l := by
  rw [pwr_pwrWrite s v rfl] at h
  rw [pwrWrite_eq]
  exact ⟨_, rxSettle_of_sleep (((laneStep_txSettle _ l _).bit (by simpa [F.LPH_LANE_PWR_RX_SLEEP] using lanePwr_ne_stat l)).trans h) ho⟩

/-- A partner receiver that goes to sleep ends a link that is up. -/
theorem linkDown_pwrWrite {v : BitVec 32} (h : 68 ≤ l) (hl : l < 72) (hs : (s.pwrWrite l v).bit (F.LPH_LANE_PWR_RX_SLEEP l) = true)
    (ho : s.bit (F.LPH_LANE_PWR_RX_SLEEP l) = false) (hup : s.bit F.PL_STAT_UP = true) :
    (s.pwrWrite l v).linkCheck.bit F.PL_STAT_UP = false ∧ (s.pwrWrite l v).linkCheck.pends 186 = true := by
  obtain ⟨w, hw⟩ := rxStop_pwrWrite hs ho
  have hlock : (s.pwrWrite l v).fbit F.PL_STAT_LANE_LOCK (l - 68) = false := by rw [hw]; exact lock_rxStop w h hl
  obtain ⟨hdown, hshown⟩ := linkCheck_of_unlocked (lock_ne_of_fbit h hl hlock)
  exact ⟨hdown, (hshown ((up_pwrWrite s l v).trans hup)).2⟩

/-- What a request changes while the link is down. -/
theorem laneStep_sleep_of_down {v : BitVec 32} (h : s.bit F.PL_STAT_UP = false) :
    LaneStep [R.LPH_LANE_PWR l, R.LPH_LANE_STAT l, R.PL_STAT] s (s.pwrWrite l v).linkCheck := by
  rw [linkCheck_of_calm (.inl ((up_pwrWrite s l v).trans h))]
  refine (laneStep_pwrWrite s l v).mono ?_
  unfold lockRegs
  split <;> simp

/-- What a request changes that puts no partner receiver to sleep. -/
theorem laneStep_sleep_of_calm {v : BitVec 32} (h : l < 68 ∨ v.getLsbD 0 = false ∨ s.laneInUse l = true) (hc : s.linkCalm) :
    LaneStep [R.LPH_LANE_PWR l, R.LPH_LANE_STAT l] s (s.pwrWrite l v).linkCheck := by
  have hstep : LaneStep [R.LPH_LANE_PWR l, R.LPH_LANE_STAT l] s (s.pwrWrite l v) := by
    rcases h with h | h
    · simpa [lockRegs, Nat.not_le.2 h] using laneStep_pwrWrite s l v
    · exact laneStep_pwrWrite_awake h
  have hpl : R.PL_STAT ∉ [R.LPH_LANE_PWR l, R.LPH_LANE_STAT l] := by
    simp only [R.PL_STAT, R.LPH_LANE_PWR, R.LPH_LANE_STAT, List.mem_cons, List.not_mem_nil, or_false]; omega
  rwa [linkCheck_of_calm (hstep.linkCalm hpl hc)]

/-! ## Power-down of a quad (R69) -/

/-- A lane of a quad that powers down. -/
def State.laneDown (s : State) (l : Nat) : State := ((s.txStop l).rxStop l).setBit (F.LPH_LANE_STAT_SIG_DET l) false

/-- The quad's own register at power-down. -/
def State.quadOff (s : State) (q : Nat) : State := (s.setBit (F.LPH_QUAD_CTL_PD q) true).setBit (F.LPH_QUAD_CTL_PLL_LOCK q) false

/-- The lanes of quad `q`. -/
abbrev quadLanes (q : Nat) : List Nat := [4 * q, 4 * q + 1, 4 * q + 2, 4 * q + 3]

theorem mem_quadLanes {q : Nat} (h : l ∈ quadLanes q) : 4 * q ≤ l ∧ l ≤ 4 * q + 3 := by
  simp only [quadLanes, List.mem_cons, List.not_mem_nil, or_false] at h; omega

theorem quadWrite_eq (s : State) (q : Nat) (pd : Bool) : s.quadWrite q pd =
    if pd then if (quadLanes q).any s.laneInUse then s.setBit (F.LPH_QUAD_CTL_Q_REFUSED q) true else (quadLanes q).foldl State.laneDown (s.quadOff q)
    else s.setBit (F.LPH_QUAD_CTL_PD q) false := rfl

theorem laneStep_quadOff (s : State) (q : Nat) : LaneStep [R.LPH_QUAD_CTL q] s (s.quadOff q) :=
  ((LaneStep.refl _ s).setBit true (by simp [F.LPH_QUAD_CTL_PD])).setBit false (by simp [F.LPH_QUAD_CTL_PLL_LOCK])

theorem laneStep_laneDown (s : State) (l : Nat) : LaneStep (R.LPH_LANE_STAT l :: lockRegs l) s (s.laneDown l) :=
  (((laneStep_txStop s l).mono (by simp)).trans (laneStep_rxStop _ l)).setBit false (by simp [F.LPH_LANE_STAT_SIG_DET])

theorem ltx_rxStop (s : State) (l : Nat) : (s.rxStop l).ltx = s.ltx := by
  rw [rxStop_eq, (partnerLock_parts _ l false).2.1]; rfl

theorem ltx_laneDown (s : State) (l : Nat) : (s.laneDown l).ltx = s.ltx := ltx_rxStop (s.txStop l) l

theorem up_laneDown (s : State) (l : Nat) : (s.laneDown l).bit F.PL_STAT_UP = s.bit F.PL_STAT_UP := by
  have hne : (F.PL_STAT_UP).addr ≠ R.LPH_LANE_STAT l := (laneStat_ne_plStat l).symm
  rw [State.laneDown, bit_setBit_ne _ _ _ _ hne, up_rxStop, (laneStep_txStop s l).bit (by simpa using hne)]

/-- A lane without power: its transmitter is inactive, its receiver unlocked and without signal, and LANE_LOCK of a partner lane shows it. -/
structure LaneOff (l : Nat) (s : State) : Prop where
  tx : s.bit (F.LPH_LANE_STAT_TX_ACTIVE l) = false
  lock : s.bit (F.LPH_LANE_STAT_BLOCK_LOCK l) = false
  signal : s.bit (F.LPH_LANE_STAT_SIG_DET l) = false
  partner : 68 ≤ l → l < 72 → s.fbit F.PL_STAT_LANE_LOCK (l - 68) = false

theorem laneOff_laneDown (s : State) (l : Nat) : LaneOff l (s.laneDown l) := by
  have hstat {i : Nat} (hi : i < 32) : (s.laneDown l).bit ⟨R.LPH_LANE_STAT l, i, 1⟩ =
      if i = 7 then false else if i = 4 ∨ i = 5 ∨ i = 6 then false else if i = 1 ∨ i = 2 then false else s.bit ⟨R.LPH_LANE_STAT l, i, 1⟩ := by
    simp only [State.laneDown, F.LPH_LANE_STAT_SIG_DET, bit_setBit_one _ _ _ hi, stat_rxStop _ _ hi, stat_txStop _ _ hi]
  refine ⟨(hstat (by decide)).trans rfl, (hstat (by decide)).trans rfl, (hstat (by decide)).trans rfl, fun h hl => ?_⟩
  exact (fbit_setFld_ne _ _ _ _ _ (laneStat_ne_plStat l).symm).trans (lock_rxStop (s.txStop l) h hl)

/-- The bit of another lane in LANE_LOCK stays. -/
theorem fbit_partnerLock_ne (s : State) (b : Bool) {m : Nat} (h : m ≠ l) (hm : 68 ≤ m) :
    (s.partnerLock l b).fbit F.PL_STAT_LANE_LOCK (m - 68) = s.fbit F.PL_STAT_LANE_LOCK (m - 68) := by
  unfold State.partnerLock
  split
  · exact fbit_setFbit_bit_ne _ _ _ (by decide) (by omega)
  · rfl

theorem lock_laneDown_ne (s : State) {m : Nat} (h : m ≠ l) (hm : 68 ≤ m) :
    (s.laneDown l).fbit F.PL_STAT_LANE_LOCK (m - 68) = s.fbit F.PL_STAT_LANE_LOCK (m - 68) := by
  have hne : (F.PL_STAT_LANE_LOCK).addr ≠ R.LPH_LANE_STAT l := (laneStat_ne_plStat l).symm
  have hstep : LaneStep [R.LPH_LANE_STAT l] s (((((s.txStop l).setLane l ((s.txStop l).lane l).stopped).setBit (F.LPH_LANE_STAT_BLOCK_LOCK l) false).setBit
      (F.LPH_LANE_STAT_CDR_LOCK l) false).setBit (F.LPH_LANE_STAT_BLOCK_RX l) false) :=
    ((((laneStep_txStop s l).setLane l _).setBit false (by simp [F.LPH_LANE_STAT_BLOCK_LOCK])).setBit false (by simp [F.LPH_LANE_STAT_CDR_LOCK])).setBit
      false (by simp [F.LPH_LANE_STAT_BLOCK_RX])
  rw [State.laneDown, State.setBit, fbit_setFld_ne _ _ _ _ _ hne, rxStop_eq, fbit_partnerLock_ne _ _ h hm]
  exact hstep.fbit _ (by rwa [List.mem_singleton])

theorem LaneOff.laneDown {m : Nat} (h : LaneOff m s) (hne : l ≠ m) : LaneOff m (s.laneDown l) := by
  have hstat (f : RF) (hf : f.addr = R.LPH_LANE_STAT m) : (s.laneDown l).bit f = s.bit f := (laneStep_laneDown s l).bit (by
    rw [hf]
    have h1 : R.LPH_LANE_STAT m ≠ R.LPH_LANE_STAT l := fun e => hne (laneStat_inj e).symm
    have h2 := laneStat_ne_plStat m
    unfold lockRegs
    split <;> simp [h1, h2])
  refine ⟨(hstat _ rfl).trans h.tx, (hstat _ rfl).trans h.lock, (hstat _ rfl).trans h.signal, fun h68 hl => ?_⟩
  rw [lock_laneDown_ne s hne.symm h68]
  exact h.partner h68 hl

/-- Every lane of the list is off after the power-down of all. -/
theorem laneOff_foldl (ls : List Nat) (s : State) (h : l ∈ ls) : LaneOff l (ls.foldl State.laneDown s) :=
  foldl_establishes (P := LaneOff) laneOff_laneDown (fun _ _ _ hne hp => hp.laneDown hne) ls s l (.inl h)

/-- The registers of quad `q` that a power-down changes. -/
abbrev quadRegs (q : Nat) : List Nat := R.LPH_QUAD_CTL q :: (quadLanes q).map R.LPH_LANE_STAT ++ (if q = 17 then [R.PL_STAT] else [])

theorem lockRegs_quad {q : Nat} (hq : q < 18) (h : l ∈ quadLanes q) : lockRegs l ⊆ if q = 17 then [R.PL_STAT] else [] := by
  have := mem_quadLanes h
  by_cases h68 : 68 ≤ l
  · simp [lockRegs, h68, show q = 17 by omega]
  · simp [lockRegs, h68]

/-- The quad after a power-down that is not refused. -/
theorem laneStep_quadDown {q : Nat} (hq : q < 18) (s : State) : LaneStep (quadRegs q) s ((quadLanes q).foldl State.laneDown (s.quadOff q)) :=
  ((laneStep_quadOff s q).mono (by simp)).foldl fun l hl v => (laneStep_laneDown v l).mono (List.cons_subset.2
    ⟨List.mem_append_left _ (List.mem_cons_of_mem _ (List.mem_map_of_mem hl)), fun a ha => List.mem_append_right _ (lockRegs_quad hq hl ha)⟩)

theorem foldl_laneDown_parts (ls : List Nat) (s : State) :
    (ls.foldl State.laneDown s).ltx = s.ltx ∧ (ls.foldl State.laneDown s).bit F.PL_STAT_UP = s.bit F.PL_STAT_UP :=
  List.foldlRecOn ls State.laneDown (motive := fun t => t.ltx = s.ltx ∧ t.bit F.PL_STAT_UP = s.bit F.PL_STAT_UP) ⟨rfl, rfl⟩ fun t ⟨hx, hup⟩ l _ =>
    ⟨(ltx_laneDown t l).trans hx, (up_laneDown t l).trans hup⟩

/-- The quad's own bits are those of its register write. -/
theorem quadCtl_quadDown {q : Nat} (hq : q < 18) (s : State) {f : RF} (hf : f.addr = R.LPH_QUAD_CTL q) :
    ((quadLanes q).foldl State.laneDown (s.quadOff q)).bit f = (s.quadOff q).bit f := by
  refine (LaneStep.foldl (rs := (quadLanes q).flatMap fun l => R.LPH_LANE_STAT l :: lockRegs l) (.refl _ _) fun l hl v =>
    (laneStep_laneDown v l).mono fun a ha => List.mem_flatMap.2 ⟨l, hl, ha⟩).bit fun h => ?_
  obtain ⟨l, hl, ha⟩ := List.mem_flatMap.1 h
  have := mem_quadLanes hl
  rw [hf, List.mem_cons] at ha
  have hpl : ∀ a ∈ lockRegs l, a = R.PL_STAT := by unfold lockRegs; split <;> simp
  rcases ha with ha | ha
  · simp only [R.LPH_QUAD_CTL, R.LPH_LANE_STAT] at ha; omega
  · have := hpl _ ha
    simp only [R.LPH_QUAD_CTL, R.PL_STAT] at this; omega

/-! ## The PLL of a quad locks (R69) -/

/-- A lane in use that nothing holds in electrical idle, in normal operation. -/
def State.laneDue (s : State) (l : Nat) : Bool := !(!s.laneInUse l || s.txIdle l || s.fld F.SYS_LC_STATE != 2)

theorem laneUp_eq (s : State) (l : Nat) : s.laneUp l =
    if s.laneDue l then if isGimen l then s.txWake l else s.setBit (F.LPH_LANE_STAT_TX_ACTIVE l) true else s := by
  unfold State.laneUp State.laneDue
  cases !s.laneInUse l || s.txIdle l || s.fld F.SYS_LC_STATE != 2 <;> rfl

theorem laneStep_laneUp (s : State) (l : Nat) : LaneStep [R.LPH_LANE_STAT l] s (s.laneUp l) := by
  rw [laneUp_eq]
  exact .ite (fun _ => .ite (fun _ => laneStep_txWake s l) fun _ => (LaneStep.refl _ s).setBit true (by simp [F.LPH_LANE_STAT_TX_ACTIVE])) fun _ => .refl _ s

theorem txActive_laneUp (h : s.laneDue l = true) : (s.laneUp l).bit (F.LPH_LANE_STAT_TX_ACTIVE l) = true := by
  rw [laneUp_eq, if_pos h]
  split
  · exact txActive_txWake s l
  · exact bit_setBit_at_self _ _ _ (by decide)

/-- A transmitter that sends goes on, whichever lane comes up. -/
theorem txActive_laneUp_of_active {m : Nat} (h : s.bit (F.LPH_LANE_STAT_TX_ACTIVE m) = true) : (s.laneUp l).bit (F.LPH_LANE_STAT_TX_ACTIVE m) = true := by
  by_cases hm : m = l
  · subst hm
    by_cases hd : s.laneDue m = true
    · exact txActive_laneUp hd
    · rwa [laneUp_eq, if_neg hd]
  · rwa [(laneStep_laneUp s l).bit (by simpa [F.LPH_LANE_STAT_TX_ACTIVE] using fun e => hm (laneStat_inj e))]

theorem LaneStep.laneDue (h : LaneStep rs s t) (hrs : ∀ a ∈ rs, laneReg a)
    (hr : ∀ a ∈ [R.LPH_LANE_STAT l, R.LPH_LANE_PWR l, R.LPH_LANE_TEST l, R.SYS_LC], a ∉ rs)
    (hpd : t.bit (F.LPH_QUAD_CTL_PD (l / 4)) = s.bit (F.LPH_QUAD_CTL_PD (l / 4))) : t.laneDue l = s.laneDue l := by
  have hlc : t.fld F.SYS_LC_STATE = s.fld F.SYS_LC_STATE := h.fld (hr _ (by simp [F.SYS_LC_STATE]))
  rw [State.laneDue, h.laneInUse hrs, h.txIdle hr hpd, hlc, State.laneDue]

theorem laneDue_laneUp_ne {m : Nat} (hl : l < 72) (h : m ≠ l) : (s.laneUp l).laneDue m = s.laneDue m := by
  refine (laneStep_laneUp s l).laneDue (fun a ha => List.mem_singleton.1 ha ▸ laneReg_at hl) ?_ ((laneStep_laneUp s l).bit ?_)
  · simp only [List.forall_mem_cons, List.mem_singleton, R.LPH_LANE_STAT, R.LPH_LANE_PWR, R.LPH_LANE_TEST, R.SYS_LC, forall_eq]
    omega
  · simp only [F.LPH_QUAD_CTL_PD, R.LPH_QUAD_CTL, R.LPH_LANE_STAT, List.mem_singleton]
    omega

/-- Every lane of the list that is due sends when all have come up. -/
theorem txActive_foldl_laneUp {ls : List Nat} (hls : ∀ m ∈ ls, m < 72) (hl : l ∈ ls) (hd : s.laneDue l = true) :
    (ls.foldl State.laneUp s).bit (F.LPH_LANE_STAT_TX_ACTIVE l) = true := by
  induction ls generalizing s with
  | nil => exact absurd hl (by simp)
  | cons m ls ih =>
    rw [List.foldl_cons]
    by_cases h : l = m
    · subst h
      exact List.foldlRecOn ls State.laneUp (motive := fun t => t.bit (F.LPH_LANE_STAT_TX_ACTIVE l) = true) (txActive_laneUp hd) fun t ht y _ =>
        txActive_laneUp_of_active ht
    · exact ih (fun y hy => hls y (by simp [hy])) ((List.mem_cons.1 hl).resolve_left h) ((laneDue_laneUp_ne (hls m (by simp)) h).trans hd)

/-- Quad `q` after the lock of its PLL. -/
theorem pllLocked_spec {q : Nat} (hq : q < 18) (s : State) : let t := (quadLanes q).foldl State.laneUp (s.setBit (F.LPH_QUAD_CTL_PLL_LOCK q) true)
    t.bit (F.LPH_QUAD_CTL_PLL_LOCK q) = true ∧
      (∀ l ∈ quadLanes q, s.laneInUse l = true → s.txIdle l = false → s.fld F.SYS_LC_STATE = 2 → t.bit (F.LPH_LANE_STAT_TX_ACTIVE l) = true) ∧
      LaneStep (R.LPH_QUAD_CTL q :: (quadLanes q).map R.LPH_LANE_STAT) s t := by
  intro t
  have hset : LaneStep [R.LPH_QUAD_CTL q] s (s.setBit (F.LPH_QUAD_CTL_PLL_LOCK q) true) := (LaneStep.refl _ s).setBit true (by simp [F.LPH_QUAD_CTL_PLL_LOCK])
  have hfold : LaneStep ((quadLanes q).map R.LPH_LANE_STAT) (s.setBit (F.LPH_QUAD_CTL_PLL_LOCK q) true) t :=
    (LaneStep.refl _ _).foldl fun l hl v => (laneStep_laneUp v l).mono (by simpa using List.mem_map_of_mem (f := R.LPH_LANE_STAT) hl)
  refine ⟨(hfold.bit fun h => ?_).trans (bit_setBit_at_self _ _ _ (by decide)), fun l hl hu hi hlc => ?_, (hset.mono (by simp)).trans (hfold.mono (by simp))⟩
  · obtain ⟨l, hl, ha⟩ := List.mem_map.1 h
    have := mem_quadLanes hl
    simp only [F.LPH_QUAD_CTL_PLL_LOCK, R.LPH_QUAD_CTL, R.LPH_LANE_STAT] at ha
    omega
  · have hdue : s.laneDue l = true := by simp [State.laneDue, hu, hi, hlc]
    have hlanes : ∀ m ∈ quadLanes q, m < 72 := fun m hm => by have := mem_quadLanes hm; omega
    have h72 := hlanes l hl
    refine txActive_foldl_laneUp hlanes hl ((hset.laneDue (fun a ha => ?_) ?_ (bit_setBit_apart _ _ _ _ (by simp [RF.ok, F.LPH_QUAD_CTL_PD])
      (by simp [RF.apart, F.LPH_QUAD_CTL_PD, F.LPH_QUAD_CTL_PLL_LOCK]))).trans hdue)
    · rw [List.mem_singleton.1 ha]
      simp only [laneReg, R.LPH_QUAD_CTL]
      omega
    · simp only [List.forall_mem_cons, List.mem_singleton, R.LPH_LANE_STAT, R.LPH_LANE_PWR, R.LPH_LANE_TEST, R.SYS_LC, R.LPH_QUAD_CTL, forall_eq]
      omega

end Sys2Proof.Machine
end

section
/-! Equaliser, eye monitor, loops and patterns of a lane (R72 to R75). -/

namespace Sys2Proof.Machine

variable {rs : List Nat} {s t u : State} {l : Nat}

/-! ## Fields of one register -/

theorem fld_setFld_at (s : State) (a : Nat) {i j v w : Nat} (x : Nat) (hi : i + v ≤ 32) (h : j + w ≤ i ∨ i + v ≤ j) :
    (s.setFld ⟨a, j, w⟩ x).fld ⟨a, i, v⟩ = s.fld ⟨a, i, v⟩ := fld_setFld_apart _ _ _ _ hi h

theorem fld_setFld_at_self (s : State) (a : Nat) {i w x : Nat} (hi : i + w ≤ 32) (hx : x < 2 ^ w) : (s.setFld ⟨a, i, w⟩ x).fld ⟨a, i, w⟩ = x :=
  (fld_setFld_self _ _ _ hi).trans (Nat.mod_eq_of_lt hx)

theorem fld_setBit_at (s : State) (a : Nat) {i j v : Nat} (b : Bool) (hi : i + v ≤ 32) (h : j + 1 ≤ i ∨ i + v ≤ j) :
    (s.setBit ⟨a, j, 1⟩ b).fld ⟨a, i, v⟩ = s.fld ⟨a, i, v⟩ := fld_setFld_at s a _ hi h

theorem bit_setFld_at (s : State) (a : Nat) {i j w : Nat} (x : Nat) (hi : i + 1 ≤ 32) (h : j + w ≤ i ∨ i + 1 ≤ j) :
    (s.setFld ⟨a, j, w⟩ x).bit ⟨a, i, 1⟩ = s.bit ⟨a, i, 1⟩ := by simp only [State.bit, fld_setFld_at s a x hi h]

/-! ## Equaliser (R72) -/

/-- A setting within the sum is taken field by field. -/
theorem txeq_taken (s : State) (l : Nat) {pre main post : Nat} (hpre : pre < 2 ^ 4) (hmain : main < 2 ^ 6) (hpost : post < 2 ^ 5) :
    let t := ((s.setFld (F.LPH_LANE_TXEQ_PRE l) pre).setFld (F.LPH_LANE_TXEQ_MAIN l) main).setFld (F.LPH_LANE_TXEQ_POST l) post
    t.fld (F.LPH_LANE_TXEQ_PRE l) = pre ∧ t.fld (F.LPH_LANE_TXEQ_MAIN l) = main ∧ t.fld (F.LPH_LANE_TXEQ_POST l) = post ∧
      Frame [R.LPH_LANE_TXEQ l] [] [] s t := by
  refine ⟨?_, ?_, ?_, (((Frame.refl _ _ _ s).setFld _ (by simp [F.LPH_LANE_TXEQ_PRE])).setFld _ (by simp [F.LPH_LANE_TXEQ_MAIN])).setFld _
    (by simp [F.LPH_LANE_TXEQ_POST])⟩
  · exact ((fld_setFld_at _ _ _ (by decide) (by decide)).trans (fld_setFld_at _ _ _ (by decide) (by decide))).trans (fld_setFld_at_self _ _ (by decide) hpre)
  · exact (fld_setFld_at _ _ _ (by decide) (by decide)).trans (fld_setFld_at_self _ _ (by decide) hmain)
  · exact fld_setFld_at_self _ _ (by decide) hpost

/-- Adapted codes are free values; the freeze bit stays. -/
theorem adapt_spec (hf : s.bit (F.LPH_LANE_RXEQ_ADAPT_FREEZE l) = false) :
    (s.adapt l).bit (F.LPH_LANE_RXEQ_ADAPT_FREEZE l) = false ∧ Frame [R.LPH_LANE_RXEQ l] [] [] s (s.adapt l) := by
  rw [State.adapt, if_neg (by simp [hf])]
  refine ⟨?_, (((Frame.refl _ _ _ s).free _ |>.setFld _ (by simp [F.LPH_LANE_RXEQ_CTLE_CODE])).setFld _ (by simp [F.LPH_LANE_RXEQ_DFE1])).setFld _
    (by simp [F.LPH_LANE_RXEQ_VGA])⟩
  refine Eq.trans ?_ hf
  exact (bit_setFld_at _ _ _ (by decide) (by decide)).trans ((bit_setFld_at _ _ _ (by decide) (by decide)).trans
    (bit_setFld_at _ _ _ (by decide) (by decide)))

/-! ## Eye monitor (R73) -/

theorem eyeWrite_spec (s : State) (l : Nat) (v : BitVec 32) : let t := s.eyeWrite l v
    t.fld (F.LPH_LANE_EYE_EYE_SEL l) = (F.LPH_LANE_EYE_EYE_SEL l).get v ∧ t.bit (F.LPH_LANE_EYE_RUN l) = (v.getLsbD 31 || s.bit (F.LPH_LANE_EYE_RUN l)) ∧
      t.bit (F.LPH_LANE_EYE_DONE l) = (!v.getLsbD 31 && s.bit (F.LPH_LANE_EYE_DONE l)) ∧
      t.fld (F.LPH_LANE_EYE_HMARGIN l) = s.fld (F.LPH_LANE_EYE_HMARGIN l) ∧ t.fld (F.LPH_LANE_EYE_VMARGIN l) = s.fld (F.LPH_LANE_EYE_VMARGIN l) ∧
      Frame [R.LPH_LANE_EYE l] [] [] s t := by
  have hsel : (F.LPH_LANE_EYE_EYE_SEL l).get v < 2 ^ 2 := RF.get_lt _ v
  have hframe : Frame [R.LPH_LANE_EYE l] [] [] s (s.setFld (F.LPH_LANE_EYE_EYE_SEL l) ((F.LPH_LANE_EYE_EYE_SEL l).get v)) :=
    (Frame.refl _ _ _ s).setFld _ (by simp [F.LPH_LANE_EYE_EYE_SEL])
  unfold State.eyeWrite
  generalize (F.LPH_LANE_EYE_EYE_SEL l).get v = x at *
  have hfields : (s.setFld (F.LPH_LANE_EYE_EYE_SEL l) x).fld (F.LPH_LANE_EYE_EYE_SEL l) = x := fld_setFld_at_self _ _ (by decide) hsel
  cases v.getLsbD 31 with
  | false =>
    exact ⟨hfields, bit_setFld_at _ _ _ (by decide) (by decide), bit_setFld_at _ _ _ (by decide) (by decide),
      fld_setFld_at _ _ _ (by decide) (by decide), fld_setFld_at _ _ _ (by decide) (by decide), hframe⟩
  | true =>
    refine ⟨?_, ?_, ?_, ?_, ?_, (hframe.setBit _ (by simp [F.LPH_LANE_EYE_RUN])).setBit _ (by simp [F.LPH_LANE_EYE_DONE])⟩ <;>
      simp (disch := decide) only [if_true, F.LPH_LANE_EYE_EYE_SEL, F.LPH_LANE_EYE_RUN, F.LPH_LANE_EYE_DONE, F.LPH_LANE_EYE_HMARGIN,
        F.LPH_LANE_EYE_VMARGIN, fld_setBit_at, fld_setFld_at, bit_setBit_at, bit_setBit_at_self, Bool.true_or, Bool.not_true, Bool.false_and]
    exact hfields

/-- A scan ends with the margins found. -/
theorem eyeDone_spec (s : State) (l : Nat) (h w : BitVec 8) :
    let t := (((s.setBit (F.LPH_LANE_EYE_RUN l) false).setBit (F.LPH_LANE_EYE_DONE l) true).setFld (F.LPH_LANE_EYE_HMARGIN l) h.toNat).setFld
      (F.LPH_LANE_EYE_VMARGIN l) w.toNat
    t.bit (F.LPH_LANE_EYE_RUN l) = false ∧ t.bit (F.LPH_LANE_EYE_DONE l) = true ∧ t.fld (F.LPH_LANE_EYE_HMARGIN l) = h.toNat ∧
      t.fld (F.LPH_LANE_EYE_VMARGIN l) = w.toNat ∧ t.fld (F.LPH_LANE_EYE_EYE_SEL l) = s.fld (F.LPH_LANE_EYE_EYE_SEL l) ∧
      Frame [R.LPH_LANE_EYE l] [] [] s t := by
  have hframe : Frame [R.LPH_LANE_EYE l] [] [] s ((s.setBit (F.LPH_LANE_EYE_RUN l) false).setBit (F.LPH_LANE_EYE_DONE l) true) :=
    ((Frame.refl _ _ _ s).setBit _ (by simp [F.LPH_LANE_EYE_RUN])).setBit _ (by simp [F.LPH_LANE_EYE_DONE])
  refine ⟨?_, ?_, ?_, fld_setFld_at_self _ _ (by decide) w.isLt, ?_, (hframe.setFld _ (by simp [F.LPH_LANE_EYE_HMARGIN])).setFld _
    (by simp [F.LPH_LANE_EYE_VMARGIN])⟩
  · simp (disch := decide) only [F.LPH_LANE_EYE_RUN, F.LPH_LANE_EYE_DONE, F.LPH_LANE_EYE_HMARGIN, F.LPH_LANE_EYE_VMARGIN, bit_setFld_at, bit_setBit_at,
      bit_setBit_at_self]
  · simp (disch := decide) only [F.LPH_LANE_EYE_DONE, F.LPH_LANE_EYE_HMARGIN, F.LPH_LANE_EYE_VMARGIN, bit_setFld_at, bit_setBit_at_self]
  · exact (fld_setFld_at _ _ _ (by decide) (by decide)).trans (fld_setFld_at_self _ _ (by decide) h.isLt)
  · simp (disch := decide) only [F.LPH_LANE_EYE_RUN, F.LPH_LANE_EYE_DONE, F.LPH_LANE_EYE_HMARGIN, F.LPH_LANE_EYE_VMARGIN, F.LPH_LANE_EYE_EYE_SEL,
      fld_setFld_at, fld_setBit_at]

/-! ## Loops and patterns (R74, R75): the registers -/

/-- A code that the lane has not sets LOOP_REFUSED. -/
def State.codesFlagged (s : State) (l : Nat) (bad : Bool) : State := if bad then s.setBit (F.LPH_LANE_STAT_LOOP_REFUSED l) true else s

/-- A changed checker starts at 0. -/
def State.checkerSet (s : State) (l chk : Nat) : State :=
  if chk == s.fld (F.LPH_LANE_TEST_CHK l) then s else (s.setFld (F.LPH_LANE_PRBS_ERR_V l) 0).setBit (F.LPH_LANE_TEST_CHK_LOCK l) false

/-- The stream of a transmitter that sends is brought up to the present. -/
def State.txCaughtUp (s : State) (l : Nat) : State := if s.bit (F.LPH_LANE_STAT_TX_ACTIVE l) then s.txUpTo l else s

/-- The fields of the TEST register. -/
def State.testSet (s : State) (l loop gen chk : Nat) : State :=
  ((s.setFld (F.LPH_LANE_TEST_LOOP l) loop).setFld (F.LPH_LANE_TEST_GEN l) gen).setFld (F.LPH_LANE_TEST_CHK l) chk

/-- Lane `l` with its loop, generator and checker set, before its transmitter takes them up. -/
def State.testReady (s : State) (l : Nat) (bad : Bool) (loop gen chk : Nat) : State :=
  (((s.codesFlagged l bad).checkerSet l chk).txCaughtUp l).testSet l loop gen chk

theorem fld_codesFlagged (s : State) (l : Nat) (bad : Bool) {f : RF} (hf : f.addr = R.LPH_LANE_TEST l) : (s.codesFlagged l bad).fld f = s.fld f := by
  unfold State.codesFlagged
  split
  · exact fld_setBit_ne _ _ _ _ (by simp only [hf, F.LPH_LANE_STAT_LOOP_REFUSED, R.LPH_LANE_TEST, R.LPH_LANE_STAT]; omega)
  · rfl

/-- A write to the TEST register: refused as a whole on a lane in use; else a code that the lane has not keeps its field. -/
theorem testWrite_eq (s : State) (l : Nat) (v : BitVec 32) :
    let loop := (F.LPH_LANE_TEST_LOOP l).get v
    let gen := (F.LPH_LANE_TEST_GEN l).get v
    let chk := (F.LPH_LANE_TEST_CHK l).get v
    let badGen : Bool := decide (64 ≤ l) && gen == 2
    let badChk : Bool := (decide (64 ≤ l) && chk == 2) || chk == 3
    let gen' := if badGen then s.fld (F.LPH_LANE_TEST_GEN l) else gen
    let chk' := if badChk then s.fld (F.LPH_LANE_TEST_CHK l) else chk
    s.testWrite l v = if s.laneInUse l && (loop == 1 || loop == 2 || loop == 3 || (gen != 0 && !badGen)) then
        s.setBit (F.LPH_LANE_STAT_LOOP_REFUSED l) true
      else ((s.testReady l (badGen || badChk) loop gen' chk').txSettle l (gen' != 0 || loop == 3)).genStart l gen' := by
  intro loop gen chk badGen badChk gen' chk'
  have hgen : (s.codesFlagged l (badGen || badChk)).fld (F.LPH_LANE_TEST_GEN l) = s.fld (F.LPH_LANE_TEST_GEN l) := fld_codesFlagged s l _ rfl
  have hchk : (s.codesFlagged l (badGen || badChk)).fld (F.LPH_LANE_TEST_CHK l) = s.fld (F.LPH_LANE_TEST_CHK l) := fld_codesFlagged s l _ rfl
  simp only [gen', chk', ← hgen, ← hchk]
  rfl

end Sys2Proof.Machine
end

section
/-! A write to LPH_LANEl_TEST that is not refused (R74, R75), and the statement of sleep, quads and tests of a lane. -/

namespace Sys2Proof.Machine

variable {rs : List Nat} {s t u : State} {l : Nat}

/-! ## The stages of the write -/

theorem laneStep_codesFlagged (s : State) (l : Nat) (bad : Bool) : LaneStep [R.LPH_LANE_STAT l] s (s.codesFlagged l bad) :=
  .ite (fun _ => (LaneStep.refl _ s).setBit true (by simp [F.LPH_LANE_STAT_LOOP_REFUSED])) fun _ => .refl _ s

theorem laneStep_checkerSet (s : State) (l chk : Nat) : LaneStep [R.LPH_LANE_TEST l, R.LPH_LANE_PRBS_ERR l] s (s.checkerSet l chk) :=
  .ite (fun _ => .refl _ s) fun _ => ((LaneStep.refl _ s).setFld 0 (by simp [F.LPH_LANE_PRBS_ERR_V])).setBit false (by simp [F.LPH_LANE_TEST_CHK_LOCK])

theorem laneStep_txCaughtUp (s : State) (l : Nat) : LaneStep [] s (s.txCaughtUp l) := .ite (fun _ => (LaneStep.refl _ s).txUpTo l) fun _ => .refl _ s

theorem laneStep_testSet (s : State) (l loop gen chk : Nat) : LaneStep [R.LPH_LANE_TEST l] s (s.testSet l loop gen chk) :=
  (((LaneStep.refl _ s).setFld loop (by simp [F.LPH_LANE_TEST_LOOP])).setFld gen (by simp [F.LPH_LANE_TEST_GEN])).setFld chk
    (by simp [F.LPH_LANE_TEST_CHK])

theorem laneStep_genStart (s : State) (l gen : Nat) : LaneStep [] s (s.genStart l gen) :=
  .ite (fun _ => .refl _ s) fun _ => ((LaneStep.refl _ s).free _).setTx l _

theorem checkerSet_changed {chk : Nat} (h : chk ≠ s.fld (F.LPH_LANE_TEST_CHK l)) :
    (s.checkerSet l chk).fld (F.LPH_LANE_PRBS_ERR_V l) = 0 ∧ (s.checkerSet l chk).bit (F.LPH_LANE_TEST_CHK_LOCK l) = false := by
  have hne : R.LPH_LANE_PRBS_ERR l ≠ R.LPH_LANE_TEST l := by simp only [R.LPH_LANE_PRBS_ERR, R.LPH_LANE_TEST]; omega
  rw [State.checkerSet, if_neg (by simpa using h)]
  exact ⟨(fld_setBit_ne _ _ _ _ hne).trans (fld_setFld_at_self _ _ (by decide) (by decide)), bit_setBit_at_self _ _ _ (by decide)⟩

/-- The fields of the TEST register take their values. -/
theorem testSet_fields (s : State) (l : Nat) {loop gen chk : Nat} (hl : loop < 2 ^ 3) (hg : gen < 2 ^ 2) (hc : chk < 2 ^ 2) :
    (s.testSet l loop gen chk).fld (F.LPH_LANE_TEST_LOOP l) = loop ∧ (s.testSet l loop gen chk).fld (F.LPH_LANE_TEST_GEN l) = gen ∧
      (s.testSet l loop gen chk).fld (F.LPH_LANE_TEST_CHK l) = chk := by
  refine ⟨?_, ?_, fld_setFld_at_self _ _ (by decide) hc⟩
  · exact ((fld_setFld_at _ _ _ (by decide) (by decide)).trans (fld_setFld_at _ _ _ (by decide) (by decide))).trans (fld_setFld_at_self _ _ (by decide) hl)
  · exact (fld_setFld_at _ _ _ (by decide) (by decide)).trans (fld_setFld_at_self _ _ (by decide) hg)

theorem chkLock_testSet (s : State) (l loop gen chk : Nat) :
    (s.testSet l loop gen chk).bit (F.LPH_LANE_TEST_CHK_LOCK l) = s.bit (F.LPH_LANE_TEST_CHK_LOCK l) :=
  ((bit_setFld_at _ _ _ (by decide) (by decide)).trans (bit_setFld_at _ _ _ (by decide) (by decide))).trans
    (bit_setFld_at _ _ _ (by decide) (by decide))

/-- The pattern of a generator is sent. -/
theorem line_genStart {gen : Nat} (h : gen ≠ 0) : ∃ f, ((s.genStart l gen).txOf l).line = [(patternLine l gen (Config.prbsSeed f)).1] := by
  rw [State.genStart, if_neg h]
  exact ⟨Config.freeNat s.freeCtr, congrArg LaneTx.line (txOf_setTx_self _ l _)⟩

/-! ## The lane before its transmitter takes them up -/

/-- The status register after the checks of the codes. -/
theorem stat_testReady (s : State) (l : Nat) (bad : Bool) (loop gen chk : Nat) {i : Nat} (hi : i < 32) :
    (s.testReady l bad loop gen chk).bit ⟨R.LPH_LANE_STAT l, i, 1⟩ = if i = 28 ∧ bad then true else s.bit ⟨R.LPH_LANE_STAT l, i, 1⟩ := by
  have hset : R.LPH_LANE_STAT l ∉ [R.LPH_LANE_TEST l] := by simp only [R.LPH_LANE_STAT, R.LPH_LANE_TEST, List.mem_singleton]; omega
  have hchk : R.LPH_LANE_STAT l ∉ [R.LPH_LANE_TEST l, R.LPH_LANE_PRBS_ERR l] := by
    simp only [R.LPH_LANE_STAT, R.LPH_LANE_TEST, R.LPH_LANE_PRBS_ERR, List.mem_cons, List.not_mem_nil, or_false]; omega
  rw [State.testReady, (laneStep_testSet _ l loop gen chk).bit hset, (laneStep_txCaughtUp _ l).bit (by simp), (laneStep_checkerSet _ l chk).bit hchk,
    State.codesFlagged]
  cases bad
  · simp
  · simp only [if_true, and_true, F.LPH_LANE_STAT_LOOP_REFUSED, bit_setBit_one _ _ _ hi]

theorem laneStep_testReady (s : State) (l : Nat) (bad : Bool) (loop gen chk : Nat) :
    LaneStep [R.LPH_LANE_TEST l, R.LPH_LANE_PRBS_ERR l, R.LPH_LANE_STAT l] s (s.testReady l bad loop gen chk) :=
  ((((laneStep_codesFlagged s l bad).mono (by simp)).trans ((laneStep_checkerSet _ l chk).mono (by simp))).trans
    ((laneStep_txCaughtUp _ l).mono (by simp))).trans ((laneStep_testSet _ l loop gen chk).mono (by simp))

/-- A checker code that differs starts the checker at 0. -/
theorem checker_testReady {bad : Bool} {loop gen chk : Nat} (h : chk ≠ s.fld (F.LPH_LANE_TEST_CHK l)) :
    (s.testReady l bad loop gen chk).fld (F.LPH_LANE_PRBS_ERR_V l) = 0 ∧ (s.testReady l bad loop gen chk).bit (F.LPH_LANE_TEST_CHK_LOCK l) = false := by
  have hset : R.LPH_LANE_PRBS_ERR l ∉ [R.LPH_LANE_TEST l] := by simp only [R.LPH_LANE_PRBS_ERR, R.LPH_LANE_TEST, List.mem_singleton]; omega
  obtain ⟨herr, hlock⟩ := checkerSet_changed (s := s.codesFlagged l bad) (h.trans_eq (fld_codesFlagged s l bad rfl).symm)
  rw [State.testReady]
  refine ⟨?_, ?_⟩
  · rw [(laneStep_testSet _ l loop gen chk).fld hset, (laneStep_txCaughtUp _ l).fld (by simp), herr]
  · rw [chkLock_testSet, (laneStep_txCaughtUp _ l).bit (by simp), hlock]

/-! ## The lane after the write -/

/-- What a write to the TEST register that is not refused leaves, with a generator and a checker code that the lane has or holds. -/
theorem testTaken (s : State) (l : Nat) (bad : Bool) {loop gen chk : Nat} (go : Bool) (hloop : loop < 2 ^ 3) (hgen : gen < 2 ^ 2) (hchk : chk < 2 ^ 2) :
    let t := ((s.testReady l bad loop gen chk).txSettle l go).genStart l gen
    t.fld (F.LPH_LANE_TEST_LOOP l) = loop ∧ t.fld (F.LPH_LANE_TEST_GEN l) = gen ∧ t.fld (F.LPH_LANE_TEST_CHK l) = chk ∧
      (bad = true → t.bit (F.LPH_LANE_STAT_LOOP_REFUSED l) = true) ∧
      (chk ≠ s.fld (F.LPH_LANE_TEST_CHK l) → t.fld (F.LPH_LANE_PRBS_ERR_V l) = 0 ∧ t.bit (F.LPH_LANE_TEST_CHK_LOCK l) = false) ∧
      (loop = 1 ∨ loop = 2 → s.bit (F.LPH_LANE_STAT_INJECT l) = false → t.bit (F.LPH_LANE_STAT_TX_ACTIVE l) = false) ∧
      (gen ≠ 0 → ∃ f, (t.txOf l).line = [(patternLine l gen (Config.prbsSeed f)).1]) ∧
      LaneStep [R.LPH_LANE_TEST l, R.LPH_LANE_PRBS_ERR l, R.LPH_LANE_STAT l] s t := by
  intro t
  have hT : R.LPH_LANE_TEST l ∉ [R.LPH_LANE_STAT l] := by simp only [R.LPH_LANE_STAT, R.LPH_LANE_TEST, List.mem_singleton]; omega
  have hE : R.LPH_LANE_PRBS_ERR l ∉ [R.LPH_LANE_STAT l] := by simp only [R.LPH_LANE_STAT, R.LPH_LANE_PRBS_ERR, List.mem_singleton]; omega
  have hlast : LaneStep [R.LPH_LANE_STAT l] (s.testReady l bad loop gen chk) t :=
    (laneStep_txSettle _ l go).trans ((laneStep_genStart _ l gen).mono (by simp))
  have hstat {f : RF} : t.bit f = ((s.testReady l bad loop gen chk).txSettle l go).bit f := (laneStep_genStart _ l gen).bit (by simp)
  obtain ⟨h1, h2, h3⟩ := testSet_fields (((s.codesFlagged l bad).checkerSet l chk).txCaughtUp l) l hloop hgen hchk
  refine ⟨(hlast.fld hT).trans h1, (hlast.fld hT).trans h2, (hlast.fld hT).trans h3, fun hb => ?_, fun hne => ?_, fun hn hi => ?_,
    fun hg => line_genStart hg, (laneStep_testReady s l bad loop gen chk).trans (hlast.mono (by simp))⟩
  · rw [hstat]
    exact (stat_txSettle _ l go (by decide) (by decide) (by decide)).trans ((stat_testReady s l bad loop gen chk (by decide)).trans (if_pos ⟨rfl, hb⟩))
  · obtain ⟨herr, hlock⟩ := checker_testReady (s := s) (l := l) (bad := bad) (loop := loop) (gen := gen) hne
    exact ⟨(hlast.fld hE).trans herr, (hlast.bit hT).trans hlock⟩
  · have hinj : (s.testReady l bad loop gen chk).bit (F.LPH_LANE_STAT_INJECT l) = false :=
      (stat_testReady s l bad loop gen chk (by decide)).trans ((if_neg fun h => absurd h.1 (by decide)).trans hi)
    rw [hstat]
    refine txActive_txSettle go (txIdle_of_nearLoop ?_)
    have h1' : (s.testReady l bad loop gen chk).fld (F.LPH_LANE_TEST_LOOP l) = loop := h1
    rw [State.nearLoop, h1', hinj]
    simpa using hn

/-- A loop, or a generator that the lane has, asks for the lane. -/
theorem testRefused_iff (use badGen : Bool) (loop gen : Nat) :
    (use && (loop == 1 || loop == 2 || loop == 3 || (gen != 0 && !badGen))) = true ↔
      use = true ∧ (1 ≤ loop ∧ loop ≤ 3 ∨ (gen ≠ 0 ∧ badGen = false)) := by
  simp only [Bool.and_eq_true, Bool.or_eq_true, beq_iff_eq, bne_iff_ne, Bool.not_eq_true']
  have : ((loop = 1 ∨ loop = 2) ∨ loop = 3) ↔ 1 ≤ loop ∧ loop ≤ 3 := by omega
  rw [this]

/-- A code that is held or taken fits its field. -/
theorem heldCode_lt (s : State) (f : RF) (v : BitVec 32) (held : Bool) : (if held then s.fld f else f.get v) < 2 ^ f.w := by
  split
  · exact RF.get_lt f _
  · exact RF.get_lt f v

/-! ## The statement -/

/-- A quad that powers down with no lane in use, and the partner link after it. -/
theorem quadDown_spec {q : Nat} (hq : q < 18) (s : State) : let t := ((quadLanes q).foldl State.laneDown (s.quadOff q)).linkCheck
    t.bit (F.LPH_QUAD_CTL_PD q) = true ∧ t.bit (F.LPH_QUAD_CTL_PLL_LOCK q) = false ∧
      (∀ l ∈ quadLanes q, t.bit (F.LPH_LANE_STAT_TX_ACTIVE l) = false ∧ t.bit (F.LPH_LANE_STAT_BLOCK_LOCK l) = false ∧
        t.bit (F.LPH_LANE_STAT_SIG_DET l) = false) ∧
      (q = 17 → t.bit F.PL_STAT_UP = false) ∧
      (s.bit F.PL_STAT_UP = false ∨ (q < 17 ∧ s.linkCalm) → Frame (quadRegs q) [] [] { s with lanes := t.lanes } t) := by
  intro t
  have hk : LanesKept ((quadLanes q).foldl State.laneDown (s.quadOff q)) t := lanesKept_linkCheck _
  have hquad : laneReg (R.LPH_QUAD_CTL q) := by simp only [laneReg, R.LPH_QUAD_CTL]; omega
  have hctl (f : RF) (hf : f.addr = R.LPH_QUAD_CTL q) : t.bit f = (s.quadOff q).bit f := (hk.bit (hf ▸ hquad)).trans (quadCtl_quadDown hq s hf)
  have hoff {l : Nat} (hl : l ∈ quadLanes q) : LaneOff l ((quadLanes q).foldl State.laneDown (s.quadOff q)) := laneOff_foldl _ _ hl
  have hstep := laneStep_quadDown hq s
  obtain ⟨hltx, hup⟩ := foldl_laneDown_parts (quadLanes q) (s.quadOff q)
  have hup' : (s.quadOff q).bit F.PL_STAT_UP = s.bit F.PL_STAT_UP := (laneStep_quadOff s q).bit (by
    simp only [F.PL_STAT_UP, R.PL_STAT, R.LPH_QUAD_CTL, List.mem_singleton]; omega)
  refine ⟨(hctl _ rfl).trans ?_, (hctl _ rfl).trans (bit_setBit_at_self _ _ _ (by decide)), fun l hl => ?_, fun h17 => ?_, fun h => ?_⟩
  · exact (bit_setBit_at _ _ _ (by decide) (by decide)).trans (bit_setBit_at_self _ _ _ (by decide))
  · have hlane : laneReg (R.LPH_LANE_STAT l) := laneReg_at (by have := mem_quadLanes hl; omega)
    exact ⟨(hk.bit hlane).trans (hoff hl).tx, (hk.bit hlane).trans (hoff hl).lock, (hk.bit hlane).trans (hoff hl).signal⟩
  · have h68 : 68 ∈ quadLanes q := by subst h17; decide
    exact (linkCheck_of_unlocked (lock_ne_of_fbit (Nat.le_refl 68) (by decide) ((hoff h68).partner (Nat.le_refl 68) (by decide)))).1
  · have hcalm : State.linkCalm ((quadLanes q).foldl State.laneDown (s.quadOff q)) := by
      rcases h with h | ⟨h17, hc⟩
      · exact .inl (hup.trans (hup'.trans h))
      · refine hstep.linkCalm (fun hm => ?_) hc
        simp only [quadRegs, if_neg (Nat.ne_of_lt h17), R.PL_STAT, R.LPH_QUAD_CTL, R.LPH_LANE_STAT, List.map_cons, List.map_nil, List.append_nil,
          List.mem_cons, List.not_mem_nil, or_false] at hm
        omega
    simp only [t, linkCheck_of_calm hcalm]
    exact hstep.receive hltx

/-- Settles O52: sleep and power by how transmitter and receiver settle and what the partner link makes of it, tests by the stages of their write. -/
theorem lanesSleepAndAreTested : Obligations.LanesSleepAndAreTested := by
  unfold Obligations.LanesSleepAndAreTested
  intro s time lane q pd v h w
  have hl : lane.val < 72 := lane.isLt
  have hq : q.val < 18 := q.isLt
  refine ⟨?_, ?_, ?_, ?_, ?_, ?_, ?_, ?_⟩
  · refine answers_of rfl ?_
    generalize s.tick time = u
    have hk : LanesKept (u.pwrWrite lane v) (u.pwrWrite lane v).linkCheck := lanesKept_linkCheck _
    have hpwr (f : RF) (hf : f.addr = R.LPH_LANE_PWR lane) : (u.pwrWrite lane v).linkCheck.bit f = (u.pwrWrite lane v).bit f := hk.bit (hf ▸ laneReg_at hl)
    have hstat (f : RF) (hf : f.addr = R.LPH_LANE_STAT lane) : (u.pwrWrite lane v).linkCheck.bit f = (u.pwrWrite lane v).bit f :=
      hk.bit (hf ▸ laneReg_at hl)
    obtain ⟨hwake, htx, hrx⟩ := pwr_pwrSet u lane v
    refine ⟨?_, ?_, ?_, fun hu hv => ?_, fun ht => ?_, fun ht ho => ?_, fun hu h68 ht ho => ?_, fun hu => ?_, fun hc hcalm => ?_⟩
    · rw [hpwr _ rfl, pwr_pwrWrite u v rfl, hwake]
    · rw [hpwr _ rfl, pwr_pwrWrite u v rfl, htx]
    · rw [hpwr _ rfl, pwr_pwrWrite u v rfl, hrx]
    · rw [hstat _ rfl, sleepRefused_pwrWrite hu hv]
    · rw [hpwr _ rfl] at ht
      rw [hstat _ rfl, txActive_pwrWrite ht]
    · rw [hpwr _ rfl] at ht
      obtain ⟨x, hx⟩ := rxStop_pwrWrite ht ho
      rw [hstat _ rfl, hstat _ rfl, hx]
      exact ⟨(stat_rxStop x lane (by decide)).trans rfl, (stat_rxStop x lane (by decide)).trans rfl⟩
    · rw [hpwr _ rfl] at ht
      exact linkDown_pwrWrite h68 hl ht ho hu
    · exact laneStep_sleep_of_down hu
    · exact laneStep_sleep_of_calm hc hcalm
  · refine answers_of rfl ?_
    generalize s.tick time = u
    have hkeep (r : State) (f : RF) (hf : f.addr = R.LPH_QUAD_CTL q) : r.linkCheck.bit f = r.bit f :=
      (lanesKept_linkCheck r).bit (by simp only [hf, laneReg, R.LPH_QUAD_CTL]; omega)
    have hcalm {r : State} (h : LaneStep [R.LPH_QUAD_CTL q] u r) (hc : u.linkCalm) : r.linkCheck = r :=
      linkCheck_of_calm (h.linkCalm (by simp only [R.PL_STAT, R.LPH_QUAD_CTL, List.mem_singleton]; omega) hc)
    refine ⟨fun hpd => ?_, fun hpd hin => ?_, fun hpd hout => ?_⟩
    · rw [quadWrite_eq, if_neg (by simp [hpd])]
      refine ⟨(hkeep _ _ rfl).trans (bit_setBit_at_self _ _ _ (by decide)), fun hc => ?_⟩
      rw [hcalm ((LaneStep.refl _ u).setBit false (by simp [F.LPH_QUAD_CTL_PD])) hc]
      exact (Frame.refl _ _ _ u).setBit false (by simp [F.LPH_QUAD_CTL_PD])
    · rw [quadWrite_eq, if_pos hpd, if_pos (List.any_eq_true.2 hin)]
      refine ⟨(hkeep _ _ rfl).trans (bit_setBit_at_self _ _ _ (by decide)), (hkeep _ _ rfl).trans (bit_setBit_at _ _ _ (by decide) (by decide)), fun hc => ?_⟩
      rw [hcalm ((LaneStep.refl _ u).setBit true (by simp [F.LPH_QUAD_CTL_Q_REFUSED])) hc]
      exact (Frame.refl _ _ _ u).setBit true (by simp [F.LPH_QUAD_CTL_Q_REFUSED])
    · have hnone : ¬ (quadLanes q).any u.laneInUse = true := fun h => by
        obtain ⟨l, hl, hu⟩ := List.any_eq_true.1 h
        simp [hout l hl] at hu
      rw [quadWrite_eq, if_pos hpd, if_neg hnone]
      exact quadDown_spec hq u
  · refine answers_of rfl ?_
    generalize s.tick time = u
    refine ⟨fun hpd => if_pos hpd, fun hpd => ?_⟩
    rw [if_neg (by simp [hpd])]
    exact pllLocked_spec hq u
  · refine answers_of rfl ⟨fun hsum => ?_, fun hsum => ?_⟩
    · simp only [State.txeq, if_pos hsum]
      exact ⟨bit_setBit_at_self _ _ _ (by decide), (Frame.refl _ _ _ _).setBit true (by simp [F.LPH_LANE_STAT_TXEQ_ERR])⟩
    · simp only [State.txeq, if_neg (Nat.not_lt.2 hsum)]
      exact txeq_taken _ lane (RF.get_lt _ v) (RF.get_lt _ v) (RF.get_lt _ v)
  · exact answers_of rfl ⟨fun hf => if_pos hf, adapt_spec⟩
  · exact answers_of rfl (eyeWrite_spec _ lane v)
  · refine answers_of rfl ⟨fun hr => if_neg (by simp [hr]), fun hr => ?_⟩
    rw [if_pos hr]
    exact eyeDone_spec _ lane h w
  · refine answers_of rfl ?_
    generalize s.tick time = u
    intro loop gen chk badGen badChk gen' chk' refused
    refine ⟨fun h => ?_, fun h => ?_⟩
    · rw [testWrite_eq, if_pos ((testRefused_iff _ _ _ _).2 h)]
      exact ⟨bit_setBit_at_self _ _ _ (by decide), (Frame.refl _ _ _ u).setBit true (by simp [F.LPH_LANE_STAT_LOOP_REFUSED])⟩
    · rw [testWrite_eq, if_neg fun hc => h ((testRefused_iff _ _ _ _).1 hc)]
      obtain ⟨h1, h2, h3, hbad, hrest⟩ := testTaken u lane (badGen || badChk) (gen' != 0 || loop == 3) (RF.get_lt (F.LPH_LANE_TEST_LOOP lane) v)
        (heldCode_lt u (F.LPH_LANE_TEST_GEN lane) v badGen) (heldCode_lt u (F.LPH_LANE_TEST_CHK lane) v badChk)
      exact ⟨h1, h2, h3, fun hb => hbad (Bool.or_eq_true_iff.2 hb), hrest⟩

end Sys2Proof.Machine
end

section
/-! What a change of role, a break, the end of a relay or an order of the safety unit leaves alone (R127 to R131, R271, R281 to R288, R295): memory,
the report table, what is noted of the partner's frames, and named fields outside of the ring ports. -/

namespace Sys2Proof.Machine

variable {fs : List RF} {rs es ks : List Nat} {s t u : State} {n : Nat}

/-! ## The relation -/

/-- What is noted of the partner's frames and of the cycles judged, and the report table. -/
def State.frameNotes (s : State) : (Option LeaseRec × Nat × Option Nat) × Sparse (Option Report) :=
  ((s.rdu.partner, s.rdu.pOk, s.rdu.judged), s.reports)

/-- From `s` to `t` the fields `fs`, memory, messages on their way, pending sources and the notes of frames stay. -/
structure LinkStep (fs : List RF) (s t : State) : Prop where
  keeps : Keeps fs s t
  noted : t.frameNotes = s.frameNotes

/-- The fields stand in registers behind those of the ring ports and below the INT block. -/
abbrev offPorts (fs : List RF) : Prop := ∀ g ∈ fs, 0x200000 ≤ g.addr ∧ g.addr < 0x880000

theorem LinkStep.refl (fs : List RF) (s : State) : LinkStep fs s s := ⟨.refl fs s, rfl⟩
theorem LinkStep.trans (h : LinkStep fs s t) (h' : LinkStep fs t u) : LinkStep fs s u := ⟨h.keeps.trans h'.keeps, h'.noted.trans h.noted⟩
theorem LinkStep.mono {gs : List RF} (h : LinkStep fs s t) (hs : gs ⊆ fs) : LinkStep gs s t := ⟨h.keeps.mono hs, h.noted⟩

theorem LinkStep.mem (h : LinkStep fs s t) : SameMem s t := h.keeps.mem
theorem LinkStep.fld (h : LinkStep fs s t) {f : RF} (hf : f ∈ fs) : t.fld f = s.fld f := h.keeps.fields f hf
theorem LinkStep.bit (h : LinkStep fs s t) {f : RF} (hf : f ∈ fs) : t.bit f = s.bit f := h.keeps.bit hf
theorem LinkStep.partner (h : LinkStep fs s t) : t.rdu.partner = s.rdu.partner := congrArg (·.1.1) h.noted
theorem LinkStep.pOk (h : LinkStep fs s t) : t.rdu.pOk = s.rdu.pOk := congrArg (·.1.2.1) h.noted
theorem LinkStep.judged (h : LinkStep fs s t) : t.rdu.judged = s.rdu.judged := congrArg (·.1.2.2) h.noted
theorem LinkStep.reports (h : LinkStep fs s t) : t.reports = s.reports := congrArg (·.2) h.noted

/-! ## Operations -/

/-- Parts of the state that the relation does not speak of change freely. -/
theorem LinkStep.parts (h : LinkStep fs s t) (hr : u.regs = t.regs := by rfl) (hm : u.mem = t.mem := by rfl) (hf : u.fco = t.fco := by rfl)
    (hn : u.notes = t.notes := by rfl) (hx : u.frameNotes = t.frameNotes := by rfl) : LinkStep fs s u :=
  ⟨h.keeps.parts hr hm hf hn, hx.trans h.noted⟩

theorem LinkStep.setFld (h : LinkStep fs s t) {f : RF} (x : Nat) (hf : f.clears fs := by decide) (hb : f.addr < 0x880000 := by decide) :
    LinkStep fs s (t.setFld f x) := ⟨h.keeps.setFld x hf hb, h.noted⟩

theorem LinkStep.setBit (h : LinkStep fs s t) {f : RF} (b : Bool) (hf : f.clears fs := by decide) (hb : f.addr < 0x880000 := by decide) :
    LinkStep fs s (t.setBit f b) := h.setFld _ hf hb

theorem LinkStep.inc (h : LinkStep fs s t) {f : RF} (hf : f.clears fs := by decide) (hb : f.addr < 0x880000 := by decide) :
    LinkStep fs s (t.inc f) := h.setFld _ hf hb

theorem LinkStep.wr (h : LinkStep fs s t) {a : Nat} (v : BitVec 32) (ha : ∀ g ∈ fs, g.addr ≠ a := by decide) (hb : a < 0x880000 := by decide) :
    LinkStep fs s (t.wr a v) := ⟨h.keeps.wr v ha hb, h.noted⟩

/-- A step of which a frame is known. -/
theorem LinkStep.frame (h : LinkStep fs s t) (hf : Frame rs es ks t u) (hk : Keeps fs t u) : LinkStep fs s u :=
  ⟨h.keeps.trans hk, (show u.frameNotes = t.frameNotes by simp only [State.frameNotes, hf.rdu, hf.reports]).trans h.noted⟩

theorem LinkStep.raiseKey (h : LinkStep fs s t) (n key : Nat) (hb : belowInt fs := by decide) : LinkStep fs s (t.raiseKey n key) :=
  h.frame (((Frame.refl [] [n] [] t).free _).free _ |>.raiseWith _ _ _ (by simp)) ((Keeps.refl fs t).raiseKey n key hb)

theorem LinkStep.raise (h : LinkStep fs s t) (n : Nat) (hb : belowInt fs := by decide) : LinkStep fs s (t.raise n) := h.raiseKey n _ hb

theorem LinkStep.sendFco (h : LinkStep fs s t) (region inst unit kind : Nat) (level qual : Option Nat) (hb : belowInt fs := by decide) :
    LinkStep fs s (t.sendFco region inst unit kind level qual) :=
  h.frame (rs := []) (es := []) ((Frame.refl _ _ [kind % 256] _).sendFco _ _ _ _ _ _ (by simp)) ((Keeps.refl fs t).sendFco _ _ _ _ _ _ hb)

theorem LinkStep.ite {c : Prop} [Decidable c] (ht : LinkStep fs s t) (hu : LinkStep fs s u) : LinkStep fs s (if c then t else u) := by
  by_cases h : c
  · rw [if_pos h]; exact ht
  · rw [if_neg h]; exact hu

theorem LinkStep.foldl {α : Type} (h : LinkStep fs s t) {f : State → α → State} {l : List α} (hf : ∀ x ∈ l, ∀ u, LinkStep fs u (f u x)) :
    LinkStep fs s (l.foldl f t) :=
  List.foldlRecOn l f (motive := LinkStep fs s) h fun u hu x hx => hu.trans (hf x hx u)

/-! ## Ring ports -/

theorem LinkStep.setPort (h : LinkStep fs s t) (n : Nat) (p : Port) : LinkStep fs s (t.setPort n p) := h.parts

/-- A register of a ring port. -/
theorem portReg_at {c : Nat} (hn : n < 64) (h : c < 0x104000 := by decide) : c + n * 0x4000 < 0x200000 := by omega

/-- A field of a ring port's register. -/
theorem LinkStep.setPortFld (h : LinkStep fs s t) {f : RF} (x : Nat) (hf : f.addr < 0x200000) (hp : offPorts fs) : LinkStep fs s (t.setFld f x) :=
  h.setFld x (fun g hg => .inl (by have := (hp g hg).1; omega)) (by omega)

theorem offPorts.belowInt (hp : offPorts fs) : belowInt fs := fun g hg => (hp g hg).2

theorem LinkStep.setPhase (h : LinkStep fs s t) (hn : n < 64) (ph : Nat) (hp : offPorts fs := by decide) : LinkStep fs s (t.setPhase n ph) :=
  .ite h ((h.setPortFld _ (portReg_at hn) hp).raiseKey _ _ hp.belowInt)

theorem LinkStep.setBroken (h : LinkStep fs s t) (hn : n < 64) (b : Bool) (hp : offPorts fs := by decide) : LinkStep fs s (t.setBroken n b) :=
  .ite h ((h.setPortFld _ (portReg_at hn) hp).raiseKey _ _ hp.belowInt)

/-- A flag of a port's status. -/
theorem LinkStep.portFlagAt (h : LinkStep fs s t) {f : Nat → RF} (key : Nat) (hf : (f n).addr < 0x200000) (hp : offPorts fs := by decide) :
    LinkStep fs s (t.portFlagAt n key f) :=
  .ite h ((h.setPortFld _ hf hp).raiseKey _ _ hp.belowInt)

theorem linkStep_endRelay (s : State) (hn : n < 64) (hp : offPorts fs := by decide) : LinkStep fs s (s.endRelay n) :=
  (((LinkStep.refl fs s).setPort n _).setPhase hn _ hp).setPort n _

theorem linkStep_relayCut (s : State) (hn : n < 64) (hp : offPorts fs := by decide) : LinkStep fs s (s.relayCut n) :=
  .ite ((linkStep_endRelay s hn hp).setPort n _) (.refl fs s)

theorem linkStep_endRelays (s : State) (hp : offPorts fs := by decide) : LinkStep fs s s.endRelays := by
  unfold State.endRelays
  extract_lets v
  have h : LinkStep fs s v :=
    (LinkStep.refl fs s).foldl fun n hn u => .ite (((LinkStep.refl fs u).setPort n _).setPhase (List.mem_range.1 hn) _ hp) (.refl fs u)
  clear_value v
  exact h.parts

theorem linkStep_holderPorts (s : State) (hp : offPorts fs := by decide) : LinkStep fs s s.holderPorts := by
  unfold State.holderPorts
  refine (LinkStep.refl fs s).foldl fun n hn u => ?_
  have hset (p : Port) : LinkStep fs u (u.setPort n p) := (LinkStep.refl fs u).setPort n p
  exact .ite (hset _) ((hset _).setPhase (mem_rings hn) _ hp)

/-- Where ring `n` is broken, as far as collect frames from SMs told in or just before cycle `k` (R127). -/
def State.breakPlaced (s : State) (n k : Nat) : State :=
  match (s.port n).smOrig with
  | some (c, pos) =>
    if k ≤ c + 1 then (s.setFld (F.RPU_PORT_STAT_BRK_POS n) pos).setBit (F.RPU_PORT_STAT_BRK_UNK n) false
    else (s.setFld (F.RPU_PORT_STAT_BRK_POS n) 0).setBit (F.RPU_PORT_STAT_BRK_UNK n) true
  | none => (s.setFld (F.RPU_PORT_STAT_BRK_POS n) 0).setBit (F.RPU_PORT_STAT_BRK_UNK n) true

/-- Ring `n` is declared broken. -/
def State.breakShown (s : State) (n : Nat) : State := (s.setPort n { s.port n with declared := true }).setBroken n true

/-- What follows: a relay, or the ring is over capacity (R129). -/
def State.breakRelayed (s : State) (n : Nat) : State :=
  if s.farSegment n = 0 then s
  else if s.bit (F.RPU_PORT_CTL_RELAY_EN n) && s.relayAdmits n then
    { s with rdu := { s.rdu with relays := s.rdu.relays ++ [n], direct := spSet none s.rdu.direct n none } }
  else (s.portFlag n F.RPU_PORT_STAT_OVER_CAP).sendFco 0 n 0 0x02 none none

theorem declareBreak_eq (s : State) (n k : Nat) : s.declareBreak n k =
    if s.bit (F.RPU_PORT_STAT_BROKEN n) && (s.port n).declared then s else ((s.breakPlaced n k).breakShown n).breakRelayed n := rfl

theorem linkStep_breakPlaced (s : State) (hn : n < 64) (k : Nat) (hp : offPorts fs) : LinkStep fs s (s.breakPlaced n k) := by
  have hset (x : Nat) (b : Bool) : LinkStep fs s ((s.setFld (F.RPU_PORT_STAT_BRK_POS n) x).setBit (F.RPU_PORT_STAT_BRK_UNK n) b) :=
    ((LinkStep.refl fs s).setPortFld x (portReg_at hn) hp).setPortFld _ (portReg_at hn) hp
  unfold State.breakPlaced
  split
  · exact .ite (hset _ _) (hset _ _)
  · exact hset _ _

theorem linkStep_declareBreak (s : State) (hn : n < 64) (k : Nat) (hp : offPorts fs := by decide) : LinkStep fs s (s.declareBreak n k) := by
  have hshown (v : State) : LinkStep fs v (v.breakShown n) := ((LinkStep.refl fs v).setPort n _).setBroken hn true hp
  have hrelay (v : State) : LinkStep fs v (v.breakRelayed n) :=
    .ite (.refl fs v) (.ite (.parts (.refl fs v))
      (((LinkStep.refl fs v).portFlagAt _ (portReg_at hn) hp).sendFco 0 n 0 0x02 none none hp.belowInt))
  rw [declareBreak_eq]
  exact .ite (.refl fs s) (((linkStep_breakPlaced s hn k hp).trans (hshown _)).trans (hrelay _))

/-! ## Roles -/

/-- What the unit shows of the partner's frames and of tails, and the safety unit's state and self-tests. -/
def frameFields : List RF :=
  [F.PL_CRC_CNT_V, F.PL_AUTH_CNT_V, F.RDU_STAT_P_READY, F.RDU_PTAIL_LO_V, F.RDU_PTAIL_HI_V, F.RDU_TAIL_LO_V, F.RDU_TAIL_HI_V, F.SFI_STAT_STATE,
    F.SFI_STAT_TEST_FAIL]

theorem LinkStep.setRole (h : LinkStep fs s t) (r : Nat) (hf : F.RDU_STAT_ROLE.clears fs := by decide) : LinkStep fs s (t.setRole r) :=
  LinkStep.setFld (.parts h) r hf

theorem LinkStep.noteEpoch (h : LinkStep fs s t) (e : BitVec 32) (hf : ∀ g ∈ fs, g.addr ≠ R.RDU_EPOCH_MAX := by decide) :
    LinkStep fs s (t.noteEpoch e) := .ite (.parts (h.wr e hf)) h

theorem linkStep_refreshReady (s : State) : LinkStep frameFields s s.refreshReady := (LinkStep.refl _ s).setBit _

/-- The new holder's registers, before its ports turn to it. -/
theorem linkStep_takeLease (s : State) : LinkStep frameFields s s.takeLease := by
  unfold State.takeLease
  refine .ite (.refl _ s) ?_
  cases s.newEpoch with
  | none => exact (LinkStep.setBit (.parts (.refl _ s)) true).raise 191
  | some e =>
    have h1 := ((((LinkStep.refl frameFields s).noteEpoch e).wr (a := R.RDU_EPOCH) e).setRole roleActive)
    have h2 := (h1.setBit (f := F.RDU_STAT_READY) false).setFld (f := F.RDU_STAT_SILENT) 0
    exact ((LinkStep.trans (.parts h2) (linkStep_endRelays _)).trans (linkStep_holderPorts _)).raise 184

theorem linkStep_tryClaim (s : State) : LinkStep frameFields s s.tryClaim :=
  .ite (.ite ((LinkStep.refl _ s).setRole _) (.ite (linkStep_takeLease s) (.refl _ s))) (.refl _ s)

/-- What the unit that has left ACTIVE lets go of, and its ports (R295). -/
def State.leaseOut (s : State) : State :=
  let s : State := { s with rdu := { s.rdu with giveUp := false, backToInit := false, eqxN := none, mirOk := 0, mirIn := [], silent := 0 } }
  let sms := spMap {} (fun (r : SmRec) => { r with mirCause := if r.cause = 7 then 0 else r.cause, mirFrozen := r.frozen }) s.mdu.sms
  let s : State := { s with mdu := { s.mdu with sms := sms } }
  let s := s.setBit F.RDU_EQX_CTL_GO false
  s.rings.foldl (fun s n =>
    if s.inService n then s.becomeOrigin n (s.cycNow + 1)
    else if phLight < s.phase n ∧ s.phase n < phService then s.setPhase n phLight else s) s

theorem dropLease_eq (s : State) (role : Nat) : s.dropLease role = (s.endRelays.setRole role).leaseOut := rfl

theorem linkStep_leaseOut (s : State) (hp : offPorts fs := by decide) (hf : F.RDU_EQX_CTL_GO.clears fs := by decide) : LinkStep fs s s.leaseOut := by
  unfold State.leaseOut
  extract_lets _ v sms _ w x
  have hv : LinkStep fs s v := .parts (.refl fs s)
  have hx : LinkStep fs s x := hv.parts.setBit false hf
  refine hx.trans (.foldl (.refl fs x) fun n hn u => ?_)
  exact .ite ((LinkStep.refl fs u).setPort n _) (.ite ((LinkStep.refl fs u).setPhase (mem_rings hn) _ hp) (.refl fs u))

theorem linkStep_dropLease (s : State) (role : Nat) (hp : offPorts fs := by decide) (hr : F.RDU_STAT_ROLE.clears fs := by decide)
    (hf : F.RDU_EQX_CTL_GO.clears fs := by decide) : LinkStep fs s (s.dropLease role) := by
  rw [dropLease_eq]
  exact ((linkStep_endRelays s hp).setRole role hr).trans (linkStep_leaseOut _ hp hf)

theorem role_dropLease (s : State) {role : Nat} (h : role < 4) : (s.dropLease role).role = role := by
  have hset : (s.endRelays.setRole role).fld F.RDU_STAT_ROLE = role := (fld_setFld_self _ _ _ (by decide)).trans (Nat.mod_eq_of_lt h)
  rw [dropLease_eq]
  exact ((linkStep_leaseOut (fs := [F.RDU_STAT_ROLE]) _).fld (by decide)).trans hset

/-- The holder that a higher epoch has fenced, as its registers show it (R287). -/
def State.fencedShown (s : State) : State :=
  ((((s.dropLease roleStandby).setBit F.RDU_STAT_REL_HOLD true).setBit F.RDU_STAT_FENCED true).inc F.RDU_FENCE_CNT_V).setLt
    fun l => { l with fencings := l.fencings + 1 }

theorem fence_eq (s : State) : s.fence = if s.role = roleActive then (s.fencedShown.raise 190).sendFco 0 0 4 0x04 none none else s := rfl

theorem linkStep_fencedShown (s : State) : LinkStep frameFields s s.fencedShown :=
  have hbits := ((linkStep_dropLease s roleStandby).setBit (f := F.RDU_STAT_REL_HOLD) true).setBit (f := F.RDU_STAT_FENCED) true
  (hbits.inc (f := F.RDU_FENCE_CNT_V)).parts

theorem linkStep_fence (s : State) : LinkStep frameFields s s.fence := by
  rw [fence_eq]
  exact .ite (((linkStep_fencedShown s).raise 190).sendFco 0 0 4 0x04 none none) (.refl _ s)

/-- The registers that show a fencing, behind the change of role. -/
theorem fencingShown (v : State) {w : State} (hw : w = ((v.setBit F.RDU_STAT_REL_HOLD true).setBit F.RDU_STAT_FENCED true).inc F.RDU_FENCE_CNT_V) :
    w.role = v.role ∧ w.bit F.RDU_STAT_REL_HOLD = true ∧ w.bit F.RDU_STAT_FENCED = true ∧ Counted F.RDU_FENCE_CNT_V v w := by
  subst hw
  refine ⟨?_, ?_, ?_, ?_⟩
  · show State.fld _ F.RDU_STAT_ROLE = v.fld F.RDU_STAT_ROLE
    rw [fld_inc_ne _ _ _ (by decide), fld_setBit_apart _ _ _ _ (by decide) (by decide), fld_setBit_apart _ _ _ _ (by decide) (by decide)]
  · rw [State.bit, fld_inc_ne _ _ _ (by decide), ← State.bit, bit_setBit_apart _ _ _ _ (by decide) (by decide), bit_setBit_self _ _ _ (by decide) rfl]
  · rw [State.bit, fld_inc_ne _ _ _ (by decide), ← State.bit, bit_setBit_self _ _ _ (by decide) rfl]
  · rw [Counted, fld_inc_self _ _ (by decide), fld_setBit_ne _ _ _ _ (by decide), fld_setBit_ne _ _ _ _ (by decide)]

/-- What the fenced holder shows in its registers. -/
theorem fencedShown_spec (s : State) : s.fencedShown.role = roleStandby ∧ s.fencedShown.bit F.RDU_STAT_REL_HOLD = true ∧
    s.fencedShown.bit F.RDU_STAT_FENCED = true ∧ Counted F.RDU_FENCE_CNT_V s s.fencedShown := by
  obtain ⟨hrole, hhold, hfenced, hcnt⟩ := fencingShown (s.dropLease roleStandby) rfl
  refine ⟨hrole.trans (role_dropLease s (by decide)), hhold, hfenced, ?_⟩
  have hdrop := (linkStep_dropLease (fs := [F.RDU_FENCE_CNT_V]) s roleStandby).fld (f := F.RDU_FENCE_CNT_V) (by decide)
  rw [Counted, hdrop] at hcnt
  exact hcnt

/-- A fenced holder is STANDBY under REL_HOLD, counts it, and reports with source 190 and kind 0x04 (R287). -/
theorem fence_spec (h : s.role = roleActive) : s.fence.role = roleStandby ∧ s.fence.bit F.RDU_STAT_REL_HOLD = true ∧
    s.fence.bit F.RDU_STAT_FENCED = true ∧ Counted F.RDU_FENCE_CNT_V s s.fence ∧ s.fence.pends 190 = true ∧ Sent 0x04 s s.fence := by
  rw [fence_eq, if_pos h]
  obtain ⟨hrole, hhold, hfenced, hcnt⟩ := fencedShown_spec s
  have hk := (linkStep_fencedShown s).keeps
  generalize s.fencedShown = v at *
  have hraise : LinkStep [F.RDU_STAT_ROLE, F.RDU_STAT_REL_HOLD, F.RDU_STAT_FENCED, F.RDU_FENCE_CNT_V] v (v.raise 190) := (LinkStep.refl _ v).raise 190
  have hsent := sent_sendFco (v.raise 190) 0 0 4 0x04 none none
  have hpend := ((Keeps.refl [] (v.raise 190)).sendFco 0 0 4 0x04 none none).pends 190 (by decide) (pends_raise v 190 (by decide) (by decide))
  have hall := hraise.sendFco 0 0 4 0x04 none none
  refine ⟨(hall.fld (by decide)).trans hrole, (hall.bit (by decide)).trans hhold, (hall.bit (by decide)).trans hfenced,
    (hall.fld (by decide)).trans hcnt, hpend, hk.sentSince (((Keeps.refl [] v).raise 190).sentSince hsent)⟩

/-! ## The lease is taken (R282) -/

/-- What the right to hold and the next epoch rest on. -/
def claimFields : List RF := [F.SFI_STAT_SFS_OK, F.RDU_STAT_UID_CONF, F.CFC_STAT_NOIMG, F.RDU_EPOCH_MAX_V]

/-- A register that is one field of 32 bits. -/
theorem rd_of_fld (s t : State) (a : Nat) (h : t.fld ⟨a, 0, 32⟩ = s.fld ⟨a, 0, 32⟩) : t.rd a = s.rd a := by
  simp only [State.fld, RF.get] at h
  exact BitVec.eq_of_toNat_eq (by omega)

theorem claims_of_fields (h : ∀ f ∈ claimFields, t.fld f = s.fld f) (hsys : t.bare.sys = s.bare.sys) :
    t.mayHold = s.mayHold ∧ t.newEpoch = s.newEpoch := by
  have hbit {f : RF} (hf : f ∈ claimFields) : t.bit f = s.bit f := by simp only [State.bit, h f hf]
  have hboot : t.sys.booting = s.sys.booting := (congrArg SysSt.booting hsys :)
  have huid : t.sys.uid = s.sys.uid := (congrArg SysSt.uid hsys :)
  have hmax : t.rd R.RDU_EPOCH_MAX = s.rd R.RDU_EPOCH_MAX := rd_of_fld s t _ (h F.RDU_EPOCH_MAX_V (by decide))
  refine ⟨?_, by simp only [State.newEpoch, hmax, huid]⟩
  simp only [State.mayHold, State.imageOn, hbit (f := F.SFI_STAT_SFS_OK) (by decide), hbit (f := F.RDU_STAT_UID_CONF) (by decide),
    hbit (f := F.CFC_STAT_NOIMG) (by decide), hboot]

/-- The new holder, before its ports turn to it. -/
def State.leaseIn (s : State) (e : BitVec 32) : State :=
  let s := ((s.noteEpoch e).wr R.RDU_EPOCH e).setRole roleActive
  let s := (s.setBit F.RDU_STAT_READY false).setFld F.RDU_STAT_SILENT 0
  let s : State := { s with rdu := { s.rdu with sendFrom := s.cycNow + 1, extLeft := 16, silent := 0, giveUp := false, outTrans := [], outCond := [] } }
  { s with mdu := { s.mdu with sms := spMap {} (fun r => { r with stale := 0, clean := 0 }) s.mdu.sms } }

theorem takeLease_of_mayHold {e : BitVec 32} (hm : s.mayHold = true) (he : s.newEpoch = some e) :
    s.takeLease = ((s.leaseIn e).endRelays.holderPorts).raise 184 := by
  unfold State.takeLease
  rw [if_neg (by simp [hm]), he]
  rfl

theorem leaseIn_shows (s : State) (e : BitVec 32) : (s.leaseIn e).role = roleActive ∧ (s.leaseIn e).rd R.RDU_EPOCH = e := by
  have hrole (v : State) : (((v.setRole roleActive).setBit F.RDU_STAT_READY false).setFld F.RDU_STAT_SILENT 0).fld F.RDU_STAT_ROLE = roleActive := by
    rw [fld_setFld_apart _ _ _ _ (by decide) (by decide), fld_setBit_apart _ _ _ _ (by decide) (by decide), State.setRole, fld_setFld_self _ _ _ (by decide)]
    rfl
  refine ⟨hrole _, ?_⟩
  exact ((rd_wr_ne _ _ _ _ (by decide)).trans ((rd_wr_ne _ _ _ _ (by decide)).trans (rd_wr_ne _ _ _ _ (by decide)))).trans (rd_wr_self _ _ _)

/-- A unit that may hold takes the lease under the new epoch. -/
theorem takeLease_spec {e : BitVec 32} (hm : s.mayHold = true) (he : s.newEpoch = some e) :
    s.takeLease.role = roleActive ∧ s.takeLease.rd R.RDU_EPOCH = e ∧ s.takeLease.pends 184 = true := by
  rw [takeLease_of_mayHold hm he]
  obtain ⟨hrole, hep⟩ := leaseIn_shows s e
  generalize s.leaseIn e = v at *
  have hk : LinkStep [F.RDU_STAT_ROLE, F.RDU_EPOCH_V] v (v.endRelays.holderPorts.raise 184) :=
    ((linkStep_endRelays v).trans (linkStep_holderPorts _)).raise 184
  exact ⟨(hk.fld (by decide)).trans hrole, (rd_of_fld _ _ _ (hk.fld (f := F.RDU_EPOCH_V) (by decide))).trans hep, pends_raise _ 184 (by decide) (by decide)⟩

end Sys2Proof.Machine
end

section
/-! Orders of the safety unit under a lease record (R264, R271): SAFE STOP and SAFE BLOCK leave the record and what shows of it alone. -/

namespace Sys2Proof.Machine

variable {fs : List RF} {rs es : List Nat} {s t u : State} {n cause : Nat}

/-! ## The record of the partner's frame -/

/-- What RDU shows of a lease record. -/
def recordFields : List RF := [F.RDU_STAT_P_READY, F.RDU_PTAIL_LO_V, F.RDU_PTAIL_HI_V]

/-- The state holds lease record `l` as the last one, the `k`-th in a row, and shows it. -/
structure State.HoldsRecord (s : State) (l : LeaseRec) (k : Nat) : Prop where
  partner : s.rdu.partner = some l
  run : s.rdu.pOk = k
  ready : s.bit F.RDU_STAT_P_READY = l.ready
  tails : s.fld64 F.RDU_PTAIL_LO_V F.RDU_PTAIL_HI_V = l.tails.toNat

theorem State.HoldsRecord.keep {l : LeaseRec} {k : Nat} (h : s.HoldsRecord l k) (hk : LinkStep recordFields s t) : t.HoldsRecord l k :=
  ⟨hk.partner.trans h.partner, hk.pOk.trans h.run, (hk.bit (by decide)).trans h.ready, by
    rw [State.fld64, hk.fld (by decide), hk.fld (by decide)]; exact h.tails⟩

/-- A register of none of the blocks of the redundancy unit. -/
abbrev offRdu (a : Nat) : Prop := a < 0x380000 ∨ 0x400000 ≤ a ∧ a < 0x880000

theorem LinkStep.setOther (h : LinkStep recordFields s t) {f : RF} (x : Nat) (hf : offRdu f.addr := by decide) :
    LinkStep recordFields s (t.setFld f x) := by
  have hrec : ∀ g ∈ recordFields, 0x380000 ≤ g.addr ∧ g.addr < 0x400000 := by decide
  exact h.setFld x (fun g hg => .inl (by have := hrec g hg; omega)) (by omega)

/-! ## Orders -/

theorem SafetyStep.linkStep (h : SafetyStep rs es s t) (hr : ∀ g ∈ fs, g.addr ∉ rs := by decide) (hb : belowInt fs := by decide) : LinkStep fs s t := by
  have hsys : (t.sys.uid, t.sys.strapConf) = (s.sys.uid, s.sys.strapConf) :=
    show (t.bare.sys.uid, t.bare.sys.strapConf) = (s.sys.uid, s.sys.strapConf) by rw [h.frame.bare]; rfl
  obtain ⟨huid, hstrap⟩ := Prod.mk.inj hsys
  obtain ⟨l, hl, -⟩ := h.frame.msgs
  refine ⟨⟨fun g hg => h.fld (hr g hg) (hb g hg), h.mem, h.pends, ⟨l, hl⟩, ?_⟩, ?_⟩
  · simp only [State.notes, huid, hstrap, h.vsafLost, h.d9Lost, h.frame.rdu]
  · simp only [State.frameNotes, h.frame.rdu, h.frame.reports]

theorem linkStep_safeStop (s : State) (cause : Nat) : LinkStep recordFields s (s.safeStop cause) := (safetyStep_safeStop s cause).linkStep

theorem linkStep_singleTech (s : State) : LinkStep recordFields s s.singleTech := (safetyStep_singleTech s).linkStep

/-- An order of SAFE STOP leaves the self-tests' results. -/
theorem scpDead_safeStop (s : State) (cause : Nat) : (s.safeStop cause).scpDead = s.scpDead := by
  have ht (v : State) : (v.tellStop cause).fld F.SFI_STAT_TEST_FAIL = v.fld F.SFI_STAT_TEST_FAIL :=
    (safetyStep_tellStop (rs := []) (es := []) v cause).fld (by simp) (by decide)
  have hs (v : State) : (v.stopShown cause).fld F.SFI_STAT_TEST_FAIL = v.fld F.SFI_STAT_TEST_FAIL := by
    simp (disch := decide) only [State.stopShown, fld_inc_ne, fld_setFld_apart]
  have h : (s.safeStop cause).fld F.SFI_STAT_TEST_FAIL = s.fld F.SFI_STAT_TEST_FAIL := by
    rw [safeStop_eq]
    split_ifs
    · exact (safetyStep_hblTimer (rs := []) (es := []) s).fld (by simp) (by decide)
    · rfl
    · rw [(safetyStep_stopBegun _).fld (by simp) (by decide), hs, ht]
    · exact ht s
  simp only [State.scpDead, State.fbit, h]

theorem linkStep_apwAll (s : State) : LinkStep recordFields s s.apwAll := .foldl (.refl _ s) fun _ _ u => .parts (.refl _ u)

theorem linkStep_injectLane (s : State) (on : Bool) {l : Nat} (hl : l < 64) : LinkStep recordFields s (s.injectLane on l) := by
  have hlane : offRdu (R.LPH_LANE_STAT l) := .inl (by simp only [R.LPH_LANE_STAT]; omega)
  have h1 : LinkStep recordFields s ((s.txUpTo l).setBit (F.LPH_LANE_STAT_INJECT l) on) := (LinkStep.parts (.refl _ s)).setOther _ hlane
  exact .ite (.ite ((h1.setOther _ hlane).setOther _ hlane) h1) (.refl _ s)

theorem linkStep_injectAll (s : State) (on : Bool) : LinkStep recordFields s (s.injectAll on) :=
  .foldl (.refl _ s) fun _ hl u => linkStep_injectLane u on (List.mem_range.1 hl)

theorem linkStep_armsOff (s : State) : LinkStep recordFields s s.armsOff :=
  .foldl (.refl _ s) fun m hm u => (LinkStep.refl _ u).setOther _ (.inr (by
    have := List.mem_range.1 hm
    simp only [F.MDU_ARM_CTL_RUN, R.MDU_ARM_CTL]; omega))

theorem linkStep_blockShown (s : State) (cause : Nat) : LinkStep recordFields s (s.blockShown cause) :=
  ((((LinkStep.refl _ s).setOther _).setOther _).setOther _).setOther _

theorem linkStep_safetyHit (s : State) (a : Nat) : LinkStep recordFields s (s.safetyHit a) := .parts (.refl _ s)

theorem linkStep_blockBegun (s : State) : LinkStep recordFields s s.blockBegun :=
  have hoff := (linkStep_injectAll s true).trans (linkStep_armsOff _)
  ((hoff.trans (linkStep_safetyHit _ 1)).raise 177).trans (linkStep_apwAll _)

theorem linkStep_blockNow (s : State) (cause : Nat) : LinkStep recordFields s (s.blockNow cause) := by
  have htell (v : State) : LinkStep recordFields v (v.tellBlock cause) := .ite (.refl _ v) (.parts (.refl _ v))
  have hhbl : LinkStep recordFields s (s.hblTold cause) := .parts (.refl _ s)
  have htold := hhbl.trans (htell _)
  rw [blockNow_eq]
  refine .ite (.ite htold (((htold.setOther _).setOther _).trans (linkStep_injectAll _ true))) ?_
  exact ((htold.trans (linkStep_apwAll _)).trans (linkStep_blockShown _ cause)).trans (linkStep_blockBegun _)

theorem linkStep_safeBlock (s : State) (cause : Nat) : LinkStep recordFields s (s.safeBlock cause) := .ite (.refl _ s) (linkStep_blockNow s cause)

/-- An order of SAFE BLOCK to a living SCP brings SAFE BLOCK. -/
theorem safeBlock_state (hd : s.scpDead = false) (cause : Nat) : (s.safeBlock cause).sfiState = stBlock := by
  rw [State.safeBlock, if_neg (by simp [hd])]
  exact (blockNow_spec s cause).1

/-! ## The partner's orders (R271) -/

/-- The partner's order of SAFE STOP, which is no order to the partner where it changes nothing. -/
def State.partnerStop (s : State) (l : LeaseRec) : State :=
  let t := if l.stopOrd then s.safeStop 2 else s
  if t.sfiState = s.sfiState then { t with sfi := { t.sfi with sendStop := s.sfi.sendStop } } else t

/-- The partner's order of SAFE BLOCK, likewise. -/
def State.partnerBlock (s : State) (l : LeaseRec) : State :=
  let u := if l.blockOrd then s.safeBlock 5 else s
  if u.sfiState = s.sfiState then { u with sfi := { u.sfi with sendBlock := s.sfi.sendBlock } } else u

theorem partnerOrders_eq (s : State) (l : LeaseRec) : s.partnerOrders l = (s.partnerStop l).partnerBlock l := rfl

theorem partnerStop_spec (s : State) (l : LeaseRec) : LinkStep recordFields s (s.partnerStop l) ∧ (s.partnerStop l).scpDead = s.scpDead := by
  have hif : LinkStep recordFields s (if l.stopOrd then s.safeStop 2 else s) ∧ (if l.stopOrd then s.safeStop 2 else s : State).scpDead = s.scpDead := by
    split
    · exact ⟨linkStep_safeStop s 2, scpDead_safeStop s 2⟩
    · exact ⟨.refl _ s, rfl⟩
  unfold State.partnerStop
  dsimp only
  generalize (if l.stopOrd then s.safeStop 2 else s : State) = v at *
  split
  · exact ⟨hif.1.parts, hif.2⟩
  · exact hif

theorem partnerBlock_spec (s : State) (l : LeaseRec) : LinkStep recordFields s (s.partnerBlock l) ∧
    (l.blockOrd = true → s.scpDead = false → (s.partnerBlock l).sfiState = stBlock) := by
  have hif : LinkStep recordFields s (if l.blockOrd then s.safeBlock 5 else s) ∧
      (l.blockOrd = true → s.scpDead = false → (if l.blockOrd then s.safeBlock 5 else s : State).sfiState = stBlock) := by
    split
    · exact ⟨linkStep_safeBlock s 5, fun _ hd => safeBlock_state hd 5⟩
    · exact ⟨.refl _ s, fun h => absurd h ‹_›⟩
  unfold State.partnerBlock
  dsimp only
  generalize (if l.blockOrd then s.safeBlock 5 else s : State) = v at *
  split
  · exact ⟨hif.1.parts, hif.2⟩
  · exact hif

/-- The partner's SFI_SAFE_CRC as the unit shows it (R275). -/
def State.partnerCrc (s : State) (l : LeaseRec) : State :=
  let differs := s.rd R.SFI_SAFE_CRC != l.safeCrc
  let was := s.rd R.SFI_SAFE_CRC != s.rd R.SFI_PARTNER_CRC
  let s := s.wr R.SFI_PARTNER_CRC l.safeCrc
  if differs && (!was || !s.bit F.SFI_STAT_PARTNER_DIFF) then (s.setBit F.SFI_STAT_PARTNER_DIFF true).raise 182 else s

theorem partnerSafety_eq (s : State) (l : LeaseRec) : s.partnerSafety l = ((s.partnerOrders l).partnerCrc l).singleTech := rfl

theorem linkStep_partnerCrc (s : State) (l : LeaseRec) : LinkStep (F.SFI_STAT_STATE :: recordFields) s (s.partnerCrc l) :=
  have hwr : LinkStep (F.SFI_STAT_STATE :: recordFields) s (s.wr R.SFI_PARTNER_CRC l.safeCrc) := (LinkStep.refl _ s).wr _
  .ite ((hwr.setBit true).raise 182) hwr

theorem singleTech_of_block (h : s.sfiState = stBlock) : s.singleTech = s := by
  have hr : (s.sfiState == stRun) = false := by rw [h]; rfl
  simp [State.singleTech, hr]

/-- The safety part of a lease record leaves the record, and its BLOCK order brings SAFE BLOCK where the SCP lives. -/
theorem partnerSafety_spec (s : State) (l : LeaseRec) : LinkStep recordFields s (s.partnerSafety l) ∧
    (l.blockOrd = true → s.scpDead = false → (s.partnerSafety l).sfiState = stBlock) := by
  obtain ⟨h1, hd⟩ := partnerStop_spec s l
  obtain ⟨h2, hb⟩ := partnerBlock_spec (s.partnerStop l) l
  rw [partnerSafety_eq, partnerOrders_eq]
  have h3 := linkStep_partnerCrc ((s.partnerStop l).partnerBlock l) l
  generalize (s.partnerStop l).partnerBlock l = v at *
  refine ⟨((h1.trans h2).trans (h3.mono (List.subset_cons_self _ _))).trans (linkStep_singleTech _), fun ho hs => ?_⟩
  have hstate : (v.partnerCrc l).sfiState = stBlock := (h3.fld (by simp)).trans (hb ho (hd.trans hs))
  rw [singleTech_of_block hstate, hstate]

end Sys2Proof.Machine
end

section
/-! Partner frames (R271, R279 to R284, R287, R288, R292): one that fails ends the run of good frames and may take the link down; a verified one
becomes the last lease record and acts. -/

namespace Sys2Proof.Machine

variable {s t u : State} {n : Nat}

/-! ## A frame that fails -/

/-- The counters of frames that fail. -/
def failFields : List RF := [F.PL_CRC_CNT_V, F.PL_AUTH_CNT_V]

/-- A loss of the link leaves those counters. -/
theorem fld_linkLower {f : RF} (hf : f ∈ failFields) (s : State) : s.linkLower.fld f = s.fld f := by
  have hbits : Keeps failFields s (s.linkBits false) := (((Keeps.refl _ s).setBit false).setBit false).setBit true
  have hoff : (s.linkBits false).linkOff.fld f = (s.linkBits false).fld f := rfl
  rw [linkLower_eq]
  generalize (s.linkBits false).linkOff = v at *
  have hcut : LinkStep failFields v ((List.range 64).foldl State.relayCut v) :=
    (LinkStep.refl _ v).foldl fun n hn w => linkStep_relayCut w (List.mem_range.1 hn)
  have hready : LinkStep failFields v ((List.range 64).foldl State.relayCut v).refreshReady := hcut.setBit _
  exact (((hready.raise 186).sendFco 0 0 4 0x05 none none).fld hf).trans (hoff.trans (hbits.fields f hf))

/-- The run of good frames ends. -/
def State.runEnded (s : State) : State := { s with rdu := { s.rdu with pOk := 0, pBad := s.rdu.pBad + 1 } }

theorem partnerBad_eq (s : State) : s.partnerBad = s.runEnded.linkCheck := rfl

theorem fld_partnerBad {f : RF} (hf : f ∈ failFields) (s : State) : s.partnerBad.fld f = s.fld f := by
  rw [partnerBad_eq, State.linkCheck]
  split
  · exact fld_linkLower hf s.runEnded
  · rfl

/-- The first bad frame in a row leaves the link, and every bad frame one that is down. -/
theorem partnerBad_calm (h : s.bit F.PL_STAT_UP = false ∨ (s.fld F.PL_STAT_LANE_LOCK = 0xF ∧ s.rdu.pBad = 0)) : s.partnerBad = s.runEnded :=
  linkCheck_of_calm (h.imp_right fun ⟨hl, hb⟩ => ⟨hl, show s.rdu.pBad + 1 < 2 by omega⟩)

/-- The second bad frame in a row takes the link down with source 186. -/
theorem partnerBad_drops (hup : s.bit F.PL_STAT_UP = true) (hb : 1 ≤ s.rdu.pBad) :
    s.partnerBad.bit F.PL_STAT_UP = false ∧ s.partnerBad.bit F.RDU_STAT_PL_UP = false ∧ s.partnerBad.pends 186 = true ∧ SameMem s s.partnerBad := by
  have hdown : s.partnerBad = s.runEnded.linkLower := if_pos (by
    simp only [Bool.and_eq_true, Bool.or_eq_true, decide_eq_true_eq]
    exact ⟨hup, .inr (show 2 ≤ s.rdu.pBad + 1 by omega)⟩)
  obtain ⟨hshow, -, -, -, hmem⟩ := linkLower_spec s.runEnded
  rw [hdown]
  exact ⟨hshow.link, hshow.unit, hshow.source, hmem⟩

/-- The fields that show the link. -/
def upFields : List RF := [F.PL_STAT_UP, F.RDU_STAT_PL_UP]

theorem counted_partnerBad {f : RF} (hf : f ∈ failFields) (hok : f.ok) (s : State) : Counted f s (s.partnerBad.inc f) := by
  rw [Counted, fld_inc_self _ _ hok, fld_partnerBad hf]

theorem drops_after (hup : s.bit F.PL_STAT_UP = true) (hb : 1 ≤ s.rdu.pBad) (hk : Keeps upFields s.partnerBad t) :
    t.bit F.PL_STAT_UP = false ∧ t.bit F.RDU_STAT_PL_UP = false ∧ t.pends 186 = true ∧ SameMem s t := by
  obtain ⟨h1, h2, h3, h4⟩ := partnerBad_drops hup hb
  exact ⟨(hk.bit (by decide)).trans h1, (hk.bit (by decide)).trans h2, hk.pends _ (by decide) h3, fun a => (hk.mem a).trans (h4 a)⟩

/-! ## A verified frame -/

/-- The lease record becomes the last one (R281). -/
def State.recordNoted (s : State) (l : LeaseRec) : State :=
  { s with rdu := { s.rdu with pOk := s.rdu.pOk + 1, pOkAt := s.mono, pBad := 0, partner := some l,
                               lastActive := if l.role = roleActive then s.mono else s.rdu.lastActive } }

/-- It shows (R281). -/
def State.recordIn (s : State) (l : LeaseRec) : State :=
  ((s.recordNoted l).partnerReadyIn l).setFld64 F.RDU_PTAIL_LO_V F.RDU_PTAIL_HI_V l.tails.toNat

/-- What it brings about in the unit's role, the record being of cycle `j` and `highest` the highest epoch known before it. -/
def State.recordActs (s : State) (l : LeaseRec) (m : Option Mirror) (j : Nat) (highest : BitVec 32) : State :=
  if s.role = roleActive then s.holderFrame l j
  else if s.role = roleStandby then (if highest ≤ l.epoch then s.standbyFrame l m j else s.standbyFrame { l with role := roleInit } none j)
  else s

/-- The unit in INIT that follows the record. -/
def State.recordFollowed (s : State) (l : LeaseRec) : State :=
  if l.role = roleActive ∧ s.mayLeaveInit = true then s.setRole roleStandby else s.tryClaim

/-- READY and the way out of INIT at the end. -/
def State.recordEnds (s : State) (l : LeaseRec) : State :=
  if s.role = roleInit then
    if (s.recordFollowed l).role = roleStandby ∧ l.role = roleActive then (s.recordFollowed l).wr R.RDU_EPOCH l.epoch else s.recordFollowed l
  else s.refreshReady

theorem partnerVerified_eq (s : State) (l : LeaseRec) (m : Option Mirror) : s.partnerVerified l m =
    (((((s.recordIn l).noteEpoch l.epoch).recordActs l m (fullCycle s.cycNow l.cycle) (s.rd R.RDU_EPOCH_MAX)).partnerSafety l).recordEnds l) := rfl

theorem fld64_setFld64 (s : State) {lo hi : RF} (hl : lo.lo = 0 ∧ lo.w = 32) (hh : hi.lo = 0 ∧ hi.w = 32) (ha : lo.addr ≠ hi.addr) {x : Nat}
    (hx : x < 2 ^ 64) : (s.setFld64 lo hi x).fld64 lo hi = x := by
  have hlo : lo.ok := by simp only [RF.ok]; omega
  have hhi : hi.ok := by simp only [RF.ok]; omega
  rw [State.fld64, State.setFld64, fld_setFld_ne _ _ _ _ ha, fld_setFld_self _ _ _ hlo, fld_setFld_self _ _ _ hhi, hl.2, hh.2]
  omega

theorem partnerReadyIn_spec (s : State) (l : LeaseRec) : LinkStep [F.SFI_STAT_TEST_FAIL] s (s.partnerReadyIn l) ∧
    (s.partnerReadyIn l).bit F.RDU_STAT_P_READY = l.ready := by
  unfold State.partnerReadyIn
  extract_lets v rs
  have hv : LinkStep [F.SFI_STAT_TEST_FAIL] s v := .ite (.refl _ s) (((LinkStep.refl _ s).setBit l.ready).raise 187)
  have hb : v.bit F.RDU_STAT_P_READY = l.ready := by
    by_cases h : s.bit F.RDU_STAT_P_READY = l.ready
    · simp only [v, h, beq_self_eq_true, if_true]
    · simp only [v, beq_iff_eq, if_neg h]
      rw [bit_raise _ _ _ (not_mem_evRegs (by decide) _), bit_setBit_self _ _ _ (by decide) (by decide)]
  clear_value v
  exact ⟨hv.parts, hb⟩

/-- The record shows, and the self-tests' results stay. -/
theorem recordIn_spec (s : State) (l : LeaseRec) : (s.recordIn l).HoldsRecord l (s.rdu.pOk + 1) ∧ (s.recordIn l).scpDead = s.scpDead ∧
    SameMem s (s.recordIn l) := by
  have hp : (s.recordNoted l).rdu.partner = some l ∧ (s.recordNoted l).rdu.pOk = s.rdu.pOk + 1 ∧ (s.recordNoted l).scpDead = s.scpDead ∧
      SameMem s (s.recordNoted l) := ⟨rfl, rfl, rfl, fun _ => rfl⟩
  obtain ⟨hpart, hrun, hdead, hmem⟩ := hp
  unfold State.recordIn
  generalize s.recordNoted l = v at *
  obtain ⟨hr, hready⟩ := partnerReadyIn_spec v l
  generalize v.partnerReadyIn l = w at *
  have h64 : LinkStep [F.SFI_STAT_TEST_FAIL] w (w.setFld64 F.RDU_PTAIL_LO_V F.RDU_PTAIL_HI_V l.tails.toNat) := ((LinkStep.refl _ w).setFld _).setFld _
  have hstep := hr.trans h64
  have hpr : (w.setFld64 F.RDU_PTAIL_LO_V F.RDU_PTAIL_HI_V l.tails.toNat).bit F.RDU_STAT_P_READY = w.bit F.RDU_STAT_P_READY :=
    (bit_setFld_ne _ _ _ _ (by decide)).trans (bit_setFld_ne _ _ _ _ (by decide))
  refine ⟨⟨hstep.partner.trans hpart, hstep.pOk.trans hrun, hpr.trans hready,
    fld64_setFld64 w (by decide) (by decide) (by decide) l.tails.isLt⟩, ?_, fun a => (hstep.mem a).trans (hmem a)⟩
  rw [← hdead]
  simp only [State.scpDead, State.fbit, hstep.fld (f := F.SFI_STAT_TEST_FAIL) (by decide)]

theorem linkStep_mirrorAcked (s : State) (ack : BitVec 32) : LinkStep frameFields s (s.mirrorAcked ack) :=
  .ite (.refl _ s) (LinkStep.setFld (.parts (.refl _ s)) _)

theorem linkStep_partnerTails (s : State) (l : LeaseRec) (j : Nat) : LinkStep frameFields s (s.partnerTails l j) := by
  refine .foldl (.refl _ s) fun n hn u => ?_
  have hset (v : State) (p : Port) : LinkStep frameFields v (v.setPort n p) := (LinkStep.refl _ v).setPort n p
  exact .ite (.ite (.parts (.refl _ u)) (.parts (.refl _ u)))
    (.ite (hset u _) (.ite (.ite ((hset u _).trans (linkStep_declareBreak _ (mem_rings hn) _)) (hset u _)) (.refl _ u)))

theorem linkStep_holderFrame (s : State) (l : LeaseRec) (j : Nat) : LinkStep frameFields s (s.holderFrame l j) := by
  have h := (linkStep_mirrorAcked s l.mirAck).trans (linkStep_partnerTails _ l j)
  exact .ite (h.trans (linkStep_fence _)) h

/-- The frame renews the lease of its sender in a STANDBY unit (R284). -/
def State.renewed (s : State) (l : LeaseRec) (j : Nat) : State :=
  if l.role = roleActive ∧ s.rd R.RDU_EPOCH_MAX ≤ l.epoch then
    ({ s with rdu := { s.rdu with renewals := (j :: s.rdu.renewals).take 8 } } : State).wr R.RDU_EPOCH l.epoch
  else s

/-- The frame's mirror waits for its P0 release (R292). -/
def State.mirrorIn (s : State) (l : LeaseRec) (m : Option Mirror) (j : Nat) : State :=
  match m with
  | some m => if l.role = roleActive ∨ l.release = true then { s with rdu := { s.rdu with mirIn := s.rdu.mirIn ++ [⟨j, m⟩] } } else s
  | none => s

/-- READY after the frame, and the lease where the partner gives it up (R279, R288). -/
def State.releaseTaken (s : State) (l : LeaseRec) : State :=
  if l.release && s.refreshReady.bit F.RDU_STAT_READY then s.refreshReady.takeLease else s.refreshReady

theorem standbyFrame_eq (s : State) (l : LeaseRec) (m : Option Mirror) (j : Nat) :
    s.standbyFrame l m j = ((s.renewed l j).mirrorIn l m j).releaseTaken l := rfl

theorem linkStep_standbyFrame (s : State) (l : LeaseRec) (m : Option Mirror) (j : Nat) : LinkStep frameFields s (s.standbyFrame l m j) := by
  have hrenew : LinkStep frameFields s (s.renewed l j) := .ite (LinkStep.wr (.parts (.refl _ s)) l.epoch) (.refl _ s)
  have hmir (v : State) : LinkStep frameFields v (v.mirrorIn l m j) := by
    unfold State.mirrorIn
    split
    · exact .ite (.parts (.refl _ v)) (.refl _ v)
    · exact .refl _ v
  have hrel (v : State) : LinkStep frameFields v (v.releaseTaken l) :=
    .ite ((linkStep_refreshReady v).trans (linkStep_takeLease _)) (linkStep_refreshReady v)
  rw [standbyFrame_eq]
  exact (hrenew.trans (hmir _)).trans (hrel _)

theorem linkStep_recordActs (s : State) (l : LeaseRec) (m : Option Mirror) (j : Nat) (highest : BitVec 32) :
    LinkStep frameFields s (s.recordActs l m j highest) :=
  .ite (linkStep_holderFrame s l j) (.ite (.ite (linkStep_standbyFrame s l m j) (linkStep_standbyFrame s _ none j)) (.refl _ s))

theorem linkStep_recordEnds (s : State) (l : LeaseRec) : LinkStep frameFields s (s.recordEnds l) := by
  have h : LinkStep frameFields s (s.recordFollowed l) := .ite ((LinkStep.refl _ s).setRole _) (linkStep_tryClaim s)
  exact .ite (.ite (h.wr l.epoch) h) (linkStep_refreshReady s)

/-- A verified frame: its record is the last one and shows, its BLOCK order brings SAFE BLOCK, and memory stays. -/
theorem partnerVerified_spec (s : State) (l : LeaseRec) (m : Option Mirror) :
    (s.partnerVerified l m).HoldsRecord l (s.rdu.pOk + 1) ∧
      (l.blockOrd = true → s.scpDead = false → (s.partnerVerified l m).sfiState = stBlock) ∧ SameMem s (s.partnerVerified l m) := by
  obtain ⟨hrec, hdead, hmem⟩ := recordIn_spec s l
  rw [partnerVerified_eq]
  generalize fullCycle s.cycNow l.cycle = j
  generalize s.rd R.RDU_EPOCH_MAX = highest
  generalize s.recordIn l = v at *
  have hacts : LinkStep frameFields v ((v.noteEpoch l.epoch).recordActs l m j highest) :=
    ((LinkStep.refl _ v).noteEpoch l.epoch).trans (linkStep_recordActs _ l m j highest)
  generalize (v.noteEpoch l.epoch).recordActs l m j highest = w at *
  obtain ⟨hsafe, hblock⟩ := partnerSafety_spec w l
  have hends := linkStep_recordEnds (w.partnerSafety l) l
  have hw : w.scpDead = s.scpDead := by rw [← hdead]; simp only [State.scpDead, State.fbit, hacts.fld (f := F.SFI_STAT_TEST_FAIL) (by decide)]
  refine ⟨((hrec.keep (hacts.mono (by decide))).keep hsafe).keep (hends.mono (by decide)), fun ho hs => ?_, fun a => ?_⟩
  · exact (hends.fld (by decide)).trans (hblock ho (hw.trans hs))
  · exact (hends.mem a).trans ((hsafe.mem a).trans ((hacts.mem a).trans (hmem a)))

end Sys2Proof.Machine
end

section
/-! Judgement of a cycle (R100, R284, R286): the tails that it shows, the silent cycles that it counts and the takeover; partner frames as commands. -/

namespace Sys2Proof.Machine

variable {fs : List RF} {s t u : State} {n j : Nat}

/-! ## Tails -/

/-- A word put together bit by bit. -/
theorem foldl_bits (p : Nat → Bool) (k : Nat) :
    (List.range k).foldl (fun v n => if p n then v + 2 ^ n else v) 0 < 2 ^ k ∧
      ∀ i, ((List.range k).foldl (fun v n => if p n then v + 2 ^ n else v) 0).testBit i = (decide (i < k) && p i) := by
  induction k with
  | zero => simp
  | succ k ih =>
    rw [List.range_succ, List.foldl_append, List.foldl_cons, List.foldl_nil]
    generalize (List.range k).foldl (fun v n => if p n then v + 2 ^ n else v) 0 = v at *
    obtain ⟨hlt, hbit⟩ := ih
    refine ⟨by split <;> (rw [Nat.pow_succ]; omega), fun i => ?_⟩
    have hor : v + 2 ^ k = 2 ^ k ||| v := by
      rw [Nat.add_comm]
      simpa using Nat.two_pow_add_eq_or_of_lt hlt 1
    rcases Nat.lt_trichotomy i k with hi | rfl | hi
    · have hne : k ≠ i := by omega
      split <;> simp [hor, hbit, hi, hne, Nat.lt_succ_of_lt hi]
    · have hself : v.testBit i = false := Nat.testBit_lt_two_pow hlt
      split <;> simp_all
    · have hne : k ≠ i := by omega
      split <;> simp [hor, hbit, hne, Nat.not_lt.2 hi.le, Nat.not_lt.2 (Nat.succ_le_of_lt hi)]

/-- The valid tails of cycle `j` as RDU_TAIL shows them. -/
def State.tailWord (s : State) (j : Nat) : Nat := (List.range 64).foldl (fun v n => if s.enabled n && s.tailOf j n then v + 2 ^ n else v) 0

/-- A unit that is not the holder counts the ring ports without a tail. -/
def State.tailsMissed (s : State) (j : Nat) : State :=
  s.rings.foldl (fun s n => if (s.port n).relaying || s.tailOf j n then s else s.inc (F.RPU_PORT_TAIL_CNT_V n)) s

/-- RDU_TAIL shows the tails. -/
def State.tailsShown (s : State) (j : Nat) : State := s.setFld64 F.RDU_TAIL_LO_V F.RDU_TAIL_HI_V (s.tailWord j)

theorem judgeTails_eq (s : State) (j : Nat) :
    s.judgeTails j = if (s.tailsShown j).role = roleActive then s.tailsShown j else (s.tailsShown j).tailsMissed j := rfl

/-- Registers that the judgement's tails change. -/
def tailRegs : List Nat := R.RDU_TAIL_LO :: R.RDU_TAIL_HI :: (List.range 64).map R.RPU_PORT_TAIL_CNT

theorem frame_tailsShown (s : State) (j : Nat) : Frame tailRegs [] [] s (s.tailsShown j) :=
  ((Frame.refl _ _ _ s).setFld _ (by simp [tailRegs, F.RDU_TAIL_LO_V])).setFld _ (by simp [tailRegs, F.RDU_TAIL_HI_V])

theorem frame_tailsMissed (s : State) (j : Nat) : Frame tailRegs [] [] s (s.tailsMissed j) := by
  refine List.foldlRecOn (motive := Frame tailRegs [] [] s) _ _ (.refl _ _ _ s) fun u hu n hn => ?_
  have hreg : R.RPU_PORT_TAIL_CNT n ∈ tailRegs := List.mem_cons_of_mem _ (List.mem_cons_of_mem _ (List.mem_map_of_mem (List.mem_range.2 (mem_rings hn))))
  exact .ite _ (fun _ => hu) fun _ => hu.inc hreg

theorem frame_judgeTails (s : State) (j : Nat) : Frame tailRegs [] [] s (s.judgeTails j) := by
  rw [judgeTails_eq]
  exact .ite _ (fun _ => frame_tailsShown s j) fun _ => (frame_tailsShown s j).trans (frame_tailsMissed _ j)

theorem linkStep_tailsMissed (s : State) (j : Nat) : LinkStep frameFields s (s.tailsMissed j) :=
  .foldl (.refl _ s) fun _ hn u => .ite (.refl _ u) ((LinkStep.refl _ u).setPortFld _ (portReg_at (mem_rings hn)) (by decide))

/-- RDU_TAIL has a bit for each enabled ring port with a valid tail. -/
theorem tail_judgeTails (s : State) (j : Nat) (hn : n < 64) :
    ((s.judgeTails j).fld64 F.RDU_TAIL_LO_V F.RDU_TAIL_HI_V).testBit n = (s.enabled n && s.tailOf j n) := by
  obtain ⟨hlt, hbit⟩ := foldl_bits (fun n => s.enabled n && s.tailOf j n) 64
  have hshown : (s.tailsShown j).fld64 F.RDU_TAIL_LO_V F.RDU_TAIL_HI_V = s.tailWord j := fld64_setFld64 s (by decide) (by decide) (by decide) hlt
  have hk : LinkStep frameFields (s.tailsShown j) (s.judgeTails j) := by
    rw [judgeTails_eq]
    exact .ite (.refl _ _) (linkStep_tailsMissed _ j)
  rw [State.fld64, hk.fld (by decide), hk.fld (by decide), ← State.fld64, hshown, State.tailWord, hbit n]
  simp [hn]

/-! ## What the lease rests on -/

/-- A register of the judgement's tails is none of the ports' controls, of the lease's, of the image's or of the safety unit's. -/
theorem not_tailReg {a : Nat} (h : a ≠ R.RDU_TAIL_LO ∧ a ≠ R.RDU_TAIL_HI) (hp : ∀ n, n < 64 → a ≠ R.RPU_PORT_TAIL_CNT n) : a ∉ tailRegs := by
  simp only [tailRegs, List.mem_cons, List.mem_map, List.mem_range, not_or, not_exists, not_and]
  exact ⟨h.1, h.2, fun n hn e => hp n hn e.symm⟩

/-- A register below the INT block that is neither a ring port's nor one of the tails. -/
abbrev tailApart (a : Nat) : Prop := (a < 0x100000 ∨ 0x200000 ≤ a ∧ a < 0x880000) ∧ a ≠ R.RDU_TAIL_LO ∧ a ≠ R.RDU_TAIL_HI

theorem fld_judgeTails (s : State) (j : Nat) {f : RF} (h : tailApart f.addr := by decide) : (s.judgeTails j).fld f = s.fld f :=
  (frame_judgeTails s j).fld (not_tailReg h.2 fun n hn => by simp only [R.RPU_PORT_TAIL_CNT]; omega) (by omega)

theorem enabled_judgeTails (s : State) (j : Nat) (hn : n < 64) : (s.judgeTails j).enabled n = s.enabled n :=
  (frame_judgeTails s j).bit (not_tailReg (by simp only [F.RPU_PORT_CTL_EN, R.RPU_PORT_CTL, R.RDU_TAIL_LO, R.RDU_TAIL_HI]; omega)
    fun m hm => by simp only [F.RPU_PORT_CTL_EN, R.RPU_PORT_CTL, R.RPU_PORT_TAIL_CNT]; omega) (by simp only [F.RPU_PORT_CTL_EN, R.RPU_PORT_CTL]; omega)

theorem Frame.ports {rs es ks : List Nat} (h : Frame rs es ks s t) : t.ports = s.ports := show t.bare.ports = s.bare.ports from congrArg _ h.bare

theorem port_judgeTails (s : State) (j n : Nat) : (s.judgeTails j).port n = s.port n := by
  simp only [State.port, (frame_judgeTails s j).ports]

theorem quorumRings_judgeTails (s : State) (j : Nat) : (s.judgeTails j).quorumRings = s.quorumRings := by
  have hrings : (s.judgeTails j).rings = s.rings := List.filter_congr fun n hn => enabled_judgeTails s j (List.mem_range.1 hn)
  simp only [State.quorumRings, hrings, port_judgeTails]

/-! ## Silent cycles and the takeover (R284, R286) -/

/-- `k` silent cycles in a row. -/
def State.silentFor (s : State) (k : Nat) : State := ({ s with rdu := { s.rdu with silent := k } } : State).setFld F.RDU_STAT_SILENT (min k 15)

theorem judgeLease_silent (hq : (s.quorumRings.filter (s.tailOf j)).length < s.quorum s.quorumRings.length) (hr : j + 1 ∉ s.rdu.renewals) :
    s.judgeLease j = if (s.silentFor (s.rdu.silent + 1)).fld F.RDU_LEASE_LEASE_L < s.rdu.silent + 1 then (s.silentFor (s.rdu.silent + 1)).takeover
      else s.silentFor (s.rdu.silent + 1) := by
  have hc : (decide (s.quorum s.quorumRings.length ≤ (s.quorumRings.filter (s.tailOf j)).length) || s.rdu.renewals.contains (j + 1)) = false := by
    simp [Nat.not_le.2 hq, hr]
  unfold State.judgeLease
  dsimp only
  rw [hc]
  rfl

/-- A takeover counts in the unit and in the lifetime store. -/
def State.takeoverCounted (s : State) : State := (s.inc F.RDU_EXP_CNT_V).setLt fun l => { l with takeovers := l.takeovers + 1 }

/-- The unit was not READY at its takeover. -/
def State.coldMarked (s : State) : State := ({ s with rdu := { s.rdu with coldStop := true } } : State).setBit F.RDU_STAT_COLD true

theorem takeover_eq (s : State) : s.takeover =
    if s.takeLease.role = roleActive then
      if s.bit F.RDU_STAT_READY then s.takeLease.takeoverCounted else s.takeLease.takeoverCounted.coldMarked
    else s.takeLease := rfl

theorem linkStep_coldMarked (s : State) (hf : F.RDU_STAT_COLD.clears fs := by decide) : LinkStep fs s s.coldMarked := LinkStep.setBit (.parts (.refl fs s)) true hf

theorem linkStep_takeoverCounted (s : State) (hf : F.RDU_EXP_CNT_V.clears fs := by decide) : LinkStep fs s s.takeoverCounted :=
  LinkStep.parts ((LinkStep.refl fs s).inc hf)

theorem linkStep_takeover (s : State) : LinkStep frameFields s s.takeover := by
  rw [takeover_eq]
  have hcount := (linkStep_takeLease s).trans (linkStep_takeoverCounted _)
  exact .ite (.ite hcount (hcount.trans (linkStep_coldMarked _))) (linkStep_takeLease s)

theorem linkStep_silentFor (s : State) (k : Nat) : LinkStep frameFields s (s.silentFor k) := LinkStep.setFld (.parts (.refl _ s)) _

theorem linkStep_judgeLease (s : State) (j : Nat) : LinkStep frameFields s (s.judgeLease j) :=
  .ite ((linkStep_silentFor s _).trans (linkStep_takeover _)) (linkStep_silentFor s _)

/-- A takeover by a unit that may hold takes the lease under the new epoch. -/
theorem takeover_spec {e : BitVec 32} (hm : s.mayHold = true) (he : s.newEpoch = some e) :
    s.takeover.role = roleActive ∧ s.takeover.rd R.RDU_EPOCH = e ∧ s.takeover.pends 184 = true := by
  obtain ⟨hrole, hep, hp⟩ := takeLease_spec hm he
  rw [takeover_eq, if_pos hrole]
  generalize s.takeLease = v at *
  have hcount : LinkStep [F.RDU_STAT_ROLE, F.RDU_EPOCH_V] v v.takeoverCounted := linkStep_takeoverCounted v
  have hk := LinkStep.ite (c := s.bit F.RDU_STAT_READY = true) hcount (hcount.trans (linkStep_coldMarked _))
  exact ⟨(hk.fld (by decide)).trans hrole, (rd_of_fld _ _ _ (hk.fld (f := F.RDU_EPOCH_V) (by decide))).trans hep, hk.keeps.pends _ (by decide) hp⟩

/-! ## The judgement -/

/-- Cycle `j` is the last one judged. -/
def State.judgedNow (s : State) (j : Nat) : State := { s with rdu := { s.rdu with judged := some j } }

/-- The judgement of cycle `j`. -/
def State.judgement (s : State) (j : Nat) : State :=
  if ((s.judgedNow j).judgeTails j).role = roleStandby then ((s.judgedNow j).judgeTails j).judgeLease j else (s.judgedNow j).judgeTails j

theorem exec_cycleJudgement (s : State) (time : Nat) :
    exec (.cycleJudgement time) s = .next (s.onDie time fun s => if s.judgeDue s.judged then s.judgement s.judged else s) := rfl

/-- What every judgement shows. -/
theorem judgement_spec (s : State) (j : Nat) : (s.judgement j).rdu.judged = some j ∧ SameMem s (s.judgement j) ∧
    ∀ n, n < 64 → ((s.judgement j).fld64 F.RDU_TAIL_LO_V F.RDU_TAIL_HI_V).testBit n = (s.enabled n && s.tailOf j n) := by
  have hf := frame_judgeTails (s.judgedNow j) j
  have htail := fun n hn => tail_judgeTails (n := n) (s.judgedNow j) j hn
  have hk : LinkStep frameFields ((s.judgedNow j).judgeTails j) (s.judgement j) := .ite (linkStep_judgeLease _ j) (.refl _ _)
  have hj : ((s.judgedNow j).judgeTails j).rdu.judged = some j := by rw [hf.rdu]; rfl
  refine ⟨hk.judged.trans hj, fun a => (hk.mem a).trans (hf.mem a), fun n hn => ?_⟩
  rw [State.fld64, hk.fld (by decide), hk.fld (by decide)]
  exact htail n hn

/-- A silent cycle in STANDBY counts; beyond L of them the unit takes the lease where it may hold it. -/
theorem judgement_silent (hs : s.role = roleStandby) (hq : (s.quorumRings.filter (s.tailOf j)).length < s.quorum s.quorumRings.length)
    (hr : j + 1 ∉ s.rdu.renewals) :
    (s.rdu.silent + 1 ≤ s.fld F.RDU_LEASE_LEASE_L →
      (s.judgement j).rdu.silent = s.rdu.silent + 1 ∧ (s.judgement j).fld F.RDU_STAT_SILENT = min (s.rdu.silent + 1) 15 ∧ (s.judgement j).role = roleStandby) ∧
    (s.fld F.RDU_LEASE_LEASE_L < s.rdu.silent + 1 → s.mayHold = true → ∀ e, s.newEpoch = some e →
      (s.judgement j).role = roleActive ∧ (s.judgement j).rd R.RDU_EPOCH = e ∧ (s.judgement j).pends 184 = true) := by
  have hf := frame_judgeTails (s.judgedNow j) j
  have hrings : ((s.judgedNow j).judgeTails j).quorumRings = s.quorumRings := quorumRings_judgeTails (s.judgedNow j) j
  have htails : ((s.judgedNow j).judgeTails j).tailOf j = s.tailOf j := by
    funext n
    simp only [State.tailOf, port_judgeTails]
    rfl
  have hfld {f : RF} (h : tailApart f.addr) : ((s.judgedNow j).judgeTails j).fld f = s.fld f := fld_judgeTails (s.judgedNow j) j h
  have hrdu : ((s.judgedNow j).judgeTails j).rdu = (s.judgedNow j).rdu := hf.rdu
  have hsys : ((s.judgedNow j).judgeTails j).bare.sys = s.bare.sys := (congrArg State.sys hf.bare :)
  unfold State.judgement
  generalize (s.judgedNow j).judgeTails j = w at *
  have hrole : w.role = roleStandby := (hfld (by decide)).trans hs
  have hsilent : w.rdu.silent = s.rdu.silent := by rw [hrdu]; rfl
  have hquorum (k : Nat) : w.quorum k = s.quorum k := by simp only [State.quorum, hfld (f := F.RDU_LEASE_TQ) (by decide)]
  rw [if_pos hrole, judgeLease_silent (by rw [hrings, htails, hquorum]; exact hq) (by rw [hrdu]; exact hr), hsilent]
  have hkeep : Keeps (F.RDU_LEASE_LEASE_L :: F.RDU_STAT_ROLE :: claimFields) w (w.silentFor (s.rdu.silent + 1)) := Keeps.setFld (.rdu (.refl _ w)) _
  have hL : (w.silentFor (s.rdu.silent + 1)).fld F.RDU_LEASE_LEASE_L = s.fld F.RDU_LEASE_LEASE_L := (hkeep.fields _ (by decide)).trans (hfld (by decide))
  rw [hL]
  refine ⟨fun hle => ?_, fun hlt hm e he => ?_⟩
  · rw [if_neg (by omega)]
    refine ⟨rfl, ?_, (hkeep.fields _ (by decide)).trans hrole⟩
    exact (fld_setFld_self _ _ _ (by decide)).trans (Nat.mod_eq_of_lt (show min (s.rdu.silent + 1) 15 < 2 ^ 4 by omega))
  · have hclaim : ∀ f ∈ claimFields, (w.silentFor (s.rdu.silent + 1)).fld f = s.fld f := fun f hf =>
      (hkeep.fields f (List.mem_cons_of_mem _ (List.mem_cons_of_mem _ hf))).trans (hfld (by revert f; decide))
    obtain ⟨hmay, hnew⟩ := claims_of_fields hclaim hsys
    rw [if_pos hlt]
    exact takeover_spec (hmay.trans hm) (hnew.trans he)

/-! ## The statement -/

/-- What a frame does to a unit that takes partner frames. -/
def State.pframeIn (s : State) (f : PFrame) : State :=
  if !f.crcOk then s.partnerBad.inc F.PL_CRC_CNT_V
  else if !f.tagOk then (s.partnerBad.inc F.PL_AUTH_CNT_V).setBit F.PL_STAT_AUTH_ERR true
  else s.partnerVerified f.lease f.mirror

theorem exec_partnerFrame {time : Nat} {fs : List Blk} {f : PFrame} (hs : s.Live) (hen : s.bit F.PL_CTL_EN = true) (hf : s.pframe fs = some f) :
    exec (.partnerFrame time fs) s = .next ((s.tick time).pframeIn f) := by
  have hp : (s.tick time).pframe fs = some f := hf
  have he : exec (.partnerFrame time fs) s = .next (s.onDie time fun s =>
    if !s.bit F.PL_CTL_EN then s
    else match s.pframe fs with
      | none => s
      | some f => s.pframeIn f) := rfl
  rw [he, onDie_live s time _ hs]
  simp only [tick_bit, hen, hp, Bool.not_true, Bool.false_eq_true, if_false]

/-- Settles O35: what a partner frame does by its CRC, its tag and its record, and what the judgement of a cycle shows and counts. -/
theorem partnerFramesAndJudgement : Obligations.PartnerFramesAndJudgement := by
  unfold Obligations.PartnerFramesAndJudgement
  intro s time
  refine ⟨fun fs f hs hen hf => ?_, fun j hs hj => ?_⟩
  · rw [exec_partnerFrame hs hen hf]
    generalize hu : s.tick time = u
    have hup : s.bit F.PL_STAT_UP = u.bit F.PL_STAT_UP := by rw [← hu]; rfl
    have hlock : s.fld F.PL_STAT_LANE_LOCK = u.fld F.PL_STAT_LANE_LOCK := by rw [← hu]; rfl
    have hrdu : s.rdu = u.rdu := by rw [← hu]; rfl
    have hdead : s.scpDead = u.scpDead := by rw [← hu]; rfl
    rw [hup, hlock, hrdu, hdead]
    unfold State.pframeIn
    refine ⟨fun hc => ?_, fun hc ht => ?_, fun hc ht => ?_⟩
    · simp only [hc, Bool.not_false, if_true]
      have hk : Keeps upFields u.partnerBad (u.partnerBad.inc F.PL_CRC_CNT_V) := (Keeps.refl _ _).setFld _
      refine ⟨_, rfl, counted_partnerBad (by decide) (by decide) u, fun hst => ?_, fun h1 h2 => drops_after h1 h2 hk⟩
      rw [partnerBad_calm hst]
      exact (Frame.refl _ _ _ _).inc (by simp [F.PL_CRC_CNT_V])
    · simp only [hc, ht, Bool.not_true, Bool.not_false, Bool.false_eq_true, if_false, if_true]
      have hk : Keeps upFields u.partnerBad ((u.partnerBad.inc F.PL_AUTH_CNT_V).setBit F.PL_STAT_AUTH_ERR true) := ((Keeps.refl _ _).setFld _).setBit _
      refine ⟨_, rfl, ?_, bit_setBit_self _ _ _ (by decide) (by decide), fun hst => ?_, fun h1 h2 => drops_after h1 h2 hk⟩
      · exact (fld_setBit_ne _ _ _ _ (by decide)).trans (counted_partnerBad (by decide) (by decide) u)
      · rw [partnerBad_calm hst]
        exact ((Frame.refl _ _ _ _).inc (by simp [F.PL_AUTH_CNT_V])).setBit _ (by simp [F.PL_STAT_AUTH_ERR])
    · simp only [hc, ht, Bool.not_true, Bool.false_eq_true, if_false]
      obtain ⟨hrec, hblock, hmem⟩ := partnerVerified_spec u f.lease f.mirror
      exact ⟨_, rfl, hrec.partner, hrec.run, hrec.ready, hrec.tails, hblock, hmem⟩
  · have hju : (s.tick time).judged = j := hj.symm
    have hdue : (s.tick time).judgeDue j = true ↔ (time = j * s.tc + s.tc / 2 ∧ s.rdu.judged ≠ some j) := by
      simp only [State.judgeDue, Bool.and_eq_true, beq_iff_eq, bne_iff_ne]
      rfl
    rw [exec_cycleJudgement, onDie_live s time _ hs, hju]
    refine ⟨fun hd => ?_, fun hd => ?_⟩
    · rw [if_pos (hdue.2 hd)]
      obtain ⟨h1, h2, h3⟩ := judgement_spec (s.tick time) j
      refine ⟨_, rfl, h1, h2, h3, fun ⟨hr, hq, hn⟩ => (judgement_silent (s := s.tick time) hr hq hn).1,
        fun ⟨hr, hq, hn⟩ => (judgement_silent (s := s.tick time) hr hq hn).2⟩
    · rw [if_neg (fun h => hd (hdue.1 h))]

end Sys2Proof.Machine
end

section
/-! What a ring port sends of its own: TIME and ENUM once per cycle, and a relayed frame (R62, R63, R114, R118, R128). -/

namespace Sys2Proof.Machine

variable {rs es ks : List Nat} {s t u v : State} {n k : Nat}

/-! ## Steps of the ring ports -/

/-- A step of the ring ports and their transmitters: beside them registers of `rs` and events of the sources `es`. -/
def PortStep (rs es : List Nat) (s t : State) : Prop := Frame rs es [] { s with ports := t.ports, ltx := t.ltx } t

theorem Frame.withPorts (h : Frame rs es ks s t) (x : Sparse Port) (y : Sparse LaneTx) :
    Frame rs es ks { s with ports := x, ltx := y } { t with ports := x, ltx := y } :=
  ⟨h.regs, h.mem, h.inbox, h.notes, h.msgs, congrArg (fun b : State => { b with ports := x, ltx := y }) h.bare⟩

theorem PortStep.trans (h : PortStep rs es s t) (h' : PortStep rs es t u) : PortStep rs es s u := (Frame.withPorts h u.ports u.ltx).trans h'

theorem PortStep.of_frame (h : Frame rs es [] s t) : PortStep rs es s t := by
  have hp : t.ports = s.ports := show t.bare.ports = s.bare.ports from congrArg _ h.bare
  have hx : t.ltx = s.ltx := show t.bare.ltx = s.bare.ltx from congrArg _ h.bare
  rw [PortStep, hp, hx]
  exact h

theorem PortStep.refl (rs es : List Nat) (s : State) : PortStep rs es s s := .of_frame (.refl _ _ _ s)

theorem PortStep.setPort (h : PortStep rs es s t) (n : Nat) (p : Port) : PortStep rs es s (t.setPort n p) := h.trans (Frame.refl _ _ _ _)

/-- Sending changes ports and transmitters alone. -/
theorem PortStep.still (h : PortStep rs es s t) (hu : u.still = t.still) : PortStep rs es s u := by
  refine h.trans ?_
  rw [PortStep]
  have hfree : Frame rs es [] { t with ports := u.ports, ltx := u.ltx } { t with ports := u.ports, ltx := u.ltx, freeCtr := u.freeCtr } :=
    (Frame.refl _ _ _ _).free _
  rwa [← eq_of_still hu] at hfree

theorem PortStep.fld (h : PortStep rs es s t) {f : RF} (hr : f.addr ∉ rs) (hb : f.addr < 0x880000) : t.fld f = s.fld f := Frame.fld h hr hb
theorem PortStep.bit (h : PortStep rs es s t) {f : RF} (hr : f.addr ∉ rs) (hb : f.addr < 0x880000) : t.bit f = s.bit f := Frame.bit h hr hb

/-- What the step leaves alone of the unit. -/
theorem PortStep.parts (h : PortStep rs es s t) : t.sys.uid = s.sys.uid ∧ t.cyc = s.cyc ∧ t.now = s.now ∧ t.cfg = s.cfg :=
  ⟨show t.bare.sys.uid = s.bare.sys.uid by rw [h.bare]; rfl, show t.bare.cyc = s.bare.cyc by rw [h.bare]; rfl,
    show t.bare.now = s.bare.now by rw [h.bare]; rfl, show t.bare.cfg = s.bare.cfg by rw [h.bare]; rfl⟩

theorem PortStep.ownEnd (h : PortStep rs es s t) : t.ownEnd = s.ownEnd := by rw [State.ownEnd, State.ownEnd, h.parts.1]
theorem PortStep.tc (h : PortStep rs es s t) : t.tc = s.tc := by rw [State.tc, State.tc, h.parts.2.1]
theorem PortStep.cycNow (h : PortStep rs es s t) : t.cycNow = s.cycNow := by rw [State.cycNow, State.cycNow, h.tc, h.parts.2.2.1]

/-! ## PHASE -/

theorem Frame.raiseKey (h : Frame rs es ks s t) (key : Nat) (hn : n ∈ es) : Frame rs es ks s (t.raiseKey n key) :=
  ((h.free _).free _).raiseWith _ _ _ hn

theorem frame_setPhase (s : State) (n ph : Nat) : Frame [R.RPU_PORT_STAT n] [n] [] s (s.setPhase n ph) :=
  .ite _ (fun _ => .refl _ _ _ s) fun _ => ((Frame.refl _ _ _ s).setFld _ (by simp [F.RPU_PORT_STAT_PHASE])).raiseKey _ (by simp)

theorem ports_of_frame (h : Frame rs es ks s t) : t.ports = s.ports := show t.bare.ports = s.bare.ports from congrArg _ h.bare

theorem port_setPhase (s : State) (n ph m : Nat) : (s.setPhase n ph).port m = s.port m := port_of_ports (ports_of_frame (frame_setPhase s n ph)) m

theorem phase_setPhase (s : State) {ph : Nat} (hn : n < 64) (hp : ph < 8) : (s.setPhase n ph).phase n = ph := by
  unfold State.setPhase
  split
  · assumption
  · have hb : belowInt [F.RPU_PORT_STAT_PHASE n] := by
      simp only [belowInt, List.mem_singleton, forall_eq]
      have := portReg_at (c := 0x100004) hn
      simp only [F.RPU_PORT_STAT_PHASE, R.RPU_PORT_STAT]
      omega
    have hset := fld_setFld_self s (F.RPU_PORT_STAT_PHASE n) ph (by simp [RF.ok, F.RPU_PORT_STAT_PHASE])
    exact (((Keeps.refl _ _).raiseKey n s.portKey hb).fields _ (by simp)).trans (hset.trans (Nat.mod_eq_of_lt hp))

/-! ## TIME and ENUM -/

/-- The port is lit and its lane holds block lock. -/
def State.portLit (s : State) (n : Nat) : Prop := s.phase n = phLight ∧ s.bit (F.LPH_LANE_STAT_BLOCK_LOCK n) = true

theorem portStep_lightDone (s : State) (n k : Nat) : PortStep [R.RPU_PORT_STAT n] [n] s (s.lightDone n k) := by
  unfold State.lightDone
  split
  · split
    · exact ((PortStep.refl _ _ s).setPort n _).trans (.of_frame (frame_setPhase _ n _))
    · exact (PortStep.of_frame (frame_setPhase s n _)).setPort n _
  · exact .refl _ _ s

theorem port_lightDone_ne (s : State) {m : Nat} (h : m ≠ n) (k : Nat) : (s.lightDone n k).port m = s.port m := by
  unfold State.lightDone
  split
  · split
    · rw [port_setPhase, port_setPort_ne _ _ h]
    · rw [State.becomeOrigin, port_setPort_ne _ _ h, port_setPhase]
  · rfl

/-- A holder's lit port with block lock asks for identification; another port asks where it did so before. -/
theorem reqIdent_lightDone (s : State) (n k : Nat) : ((s.lightDone n k).port n).reqIdent = true ↔
    (s.portLit n ∧ s.role = roleActive) ∨ (s.port n).reqIdent = true := by
  unfold State.lightDone State.portLit
  split
  next hl =>
    split
    next hr => simp [port_setPhase, hl, hr]
    next hr => simp [State.becomeOrigin, port_setPhase, hr]
  next hl => simp [hl]

/-- The port once TIME and ENUM of cycle `k` have left, an IDENT frame being asked for or not. -/
def State.timePort (s : State) (n k early : Nat) : Port :=
  let p := s.port n
  let ask := p.reqIdent && s.role == roleActive
  { p with
    reqIdent := p.reqIdent && !ask, identDue := if ask then some (k + 1) else p.identDue, identAt := if ask then k else p.identAt,
    timeAt := some k,
    txEnum := some (ctlBlk ctEnum (n * 2 ^ 48 + s.ownEnd * 2 ^ 40 + (if ask then 2 ^ 32 else 0) + (if ask then s.islot n * 2 ^ 24 else 0))),
    txTime := some (ctlBlk ctTime (n * 2 ^ 48 + s.ownEnd * 2 ^ 40 + k % 256 * 2 ^ 32 + early * 2 ^ 16)),
    dep := spSet 0 p.dep (k % 256) ((64 * ((k + 1) * s.tc - 64) - early) % 2 ^ 24) }

theorem ringView_sendTime (s : State) (n k early m : Nat) :
    (s.sendTime n k early).ringView m = ((s.lightDone n k).setPort n ((s.lightDone n k).timePort n k early)).ringView m :=
  ringView_txSend _ n _ _ _ _ m

theorem portStep_sendTime (s : State) (n k early : Nat) : PortStep [R.RPU_PORT_STAT n] [n] s (s.sendTime n k early) :=
  ((portStep_lightDone s n k).setPort n _).still (still_of_view (ringView_sendTime s n k early n))

theorem port_sendTime_ne (s : State) {m : Nat} (h : m ≠ n) (k early : Nat) : (s.sendTime n k early).port m = s.port m :=
  ((port_of_view (ringView_sendTime s n k early m)).trans (port_setPort_ne _ _ h)).trans (port_lightDone_ne s h k)

theorem port_sendTime (s : State) (n k early : Nat) : (s.sendTime n k early).port n = (s.lightDone n k).timePort n k early :=
  (port_of_view (ringView_sendTime s n k early n)).trans (port_setPort_self _ n _)

/-- What the port shows of the TIME and ENUM blocks that it has sent. -/
theorem port_sendTime_spec (s : State) (hn : n < 64) (k early : Nat) (p : Port) (hp : p = (s.sendTime n k early).port n) :
    p.txTime = some (ctlBlk ctTime (n * 2 ^ 48 + s.ownEnd * 2 ^ 40 + k % 256 * 2 ^ 32 + early * 2 ^ 16)) ∧
      spGet 0 p.dep (k % 256) = (64 * ((k + 1) * s.tc - 64) - early) % 2 ^ 24 ∧ p.timeAt = some k ∧
      (s.role ≠ roleActive ∨ ((s.port n).reqIdent = false ∧ ¬ s.portLit n) →
        p.txEnum = some (ctlBlk ctEnum (n * 2 ^ 48 + s.ownEnd * 2 ^ 40))) ∧
      (s.role = roleActive → (s.port n).reqIdent = true ∨ s.portLit n → p.identDue = some (k + 1) ∧
        p.txEnum = some (ctlBlk ctEnum (n * 2 ^ 48 + s.ownEnd * 2 ^ 40 + 2 ^ 32 + s.islot n * 2 ^ 24))) := by
  rw [hp, port_sendTime]
  have hstep := portStep_lightDone s n k
  have hreq := reqIdent_lightDone s n k
  generalize s.lightDone n k = v at *
  have hrole : v.role = s.role :=
    hstep.fld (by simp only [F.RDU_STAT_ROLE, R.RDU_STAT, R.RPU_PORT_STAT, List.mem_singleton]; omega) (by decide)
  have hncfg : v.islot n = s.islot n := by
    have := portReg_at (c := 0x100008) hn
    have h := hstep.fld (f := F.RPU_PORT_GEOM_NCFG n) (by simp [F.RPU_PORT_GEOM_NCFG, R.RPU_PORT_GEOM, R.RPU_PORT_STAT])
      (by simp only [F.RPU_PORT_GEOM_NCFG, R.RPU_PORT_GEOM]; omega)
    rw [State.islot, State.islot, State.ncfg, State.ncfg, h]
  unfold State.timePort
  simp only [hstep.ownEnd, hstep.tc, hrole, hncfg, spGet_spSet_self, true_and]
  refine ⟨fun h => ?_, fun h h' => ?_⟩
  · have hask : ((v.port n).reqIdent && s.role == roleActive) = false := by
      rw [Bool.and_eq_false_iff, beq_eq_false_iff_ne, ← Bool.not_eq_true, hreq]
      rcases h with h | ⟨h1, h2⟩
      · exact .inr h
      · exact .inl (by simp [h1, h2])
    simp [hask]
  · have hask : ((v.port n).reqIdent && s.role == roleActive) = true := by
      rw [Bool.and_eq_true, beq_iff_eq, hreq]
      exact ⟨h'.elim .inr fun hl => .inl ⟨hl, h⟩, h⟩
    simp [hask]

theorem exec_timeBlockSend (s : State) (t : Nat) (port : Fin 64) (early : Fin 410) : exec (.timeBlockSend t port early) s =
    .next (s.onDie t fun s =>
      if s.sendsTime port && s.timeSlot t early && (s.port port).timeAt != some s.cycNow then s.sendTime port s.cycNow early else s) := rfl

/-! ## A relayed frame -/

/-- The relaying port with the blocks `out` sent. -/
def State.relayPort (s : State) (n : Nat) (out : List Blk) : Port :=
  { s.port n with relaying := true, relayOver := none, origin := none, txDown := out,
                  tails := if (s.port n).relaying then (s.port n).tails else [] }

/-- What a relayed frame puts on the ring, behind a RELAY block. -/
def State.relayOut (s : State) (n : Nat) (fs : List Blk) : List Blk :=
  if s.txOpen n then ctlBlk ctRelay (n * 2 ^ 48 + s.ownEnd * 2 ^ 40) :: fs else []

/-- Port `n` sends the relayed frame `fs`, which left the partner at `t`. -/
def State.relayedOut (s : State) (t n : Nat) (fs : List Blk) : State :=
  ((((s.setPort n (s.relayPort n (s.relayOut n fs))).txSend n (s.relayOut n fs) (some (10 * t + 64)) none none).setPhase n phRelay).inc
    (F.RPU_PORT_RELAY_CNT_V n))

theorem exec_relayFrame (s : State) (t : Nat) (port : Fin 64) (fs : List Blk) : exec (.relayFrame t port fs) s = .next (s.onDie t fun s =>
    if s.enabled port && s.role != roleActive && s.bit F.RDU_STAT_PL_UP && !s.sys.strapConf &&
        !s.relayLate port (fullCycle s.cycNow (BitVec.ofNat 32 ((nthBlk (bodyOf fs) 0).f 63 32))) then
      s.relayedOut t port fs
    else s) := rfl

theorem relayedOut_spec (s : State) (hn : n < 64) (time : Nat) (fs : List Blk) (t : State) (ht : t = s.relayedOut time n fs) :
    t.port n = s.relayPort n (s.relayOut n fs) ∧ t.phase n = phRelay ∧ Counted (F.RPU_PORT_RELAY_CNT_V n) s t ∧
      PortStep [R.RPU_PORT_STAT n, R.RPU_PORT_RELAY_CNT n] [n] s t := by
  rw [ht, State.relayedOut]
  have hview := ringView_txSend (s.setPort n (s.relayPort n (s.relayOut n fs))) n (s.relayOut n fs) (some (10 * time + 64)) none none n
  generalize State.txSend _ n (s.relayOut n fs) (some (10 * time + 64)) none none = v at hview
  have hport : v.port n = s.relayPort n (s.relayOut n fs) := (port_of_view hview).trans (port_setPort_self s n _)
  have hstep : PortStep [R.RPU_PORT_STAT n, R.RPU_PORT_RELAY_CNT n] [n] s v := ((PortStep.refl _ _ s).setPort n _).still (still_of_view hview)
  have hphase := frame_setPhase v n phRelay
  have hcnt : (v.setPhase n phRelay).fld (F.RPU_PORT_RELAY_CNT_V n) = s.fld (F.RPU_PORT_RELAY_CNT_V n) := by
    have := portReg_at (c := 0x10003c) hn
    refine (hphase.fld (by simp [F.RPU_PORT_RELAY_CNT_V, R.RPU_PORT_RELAY_CNT, R.RPU_PORT_STAT]) ?_).trans ?_
    · simp only [F.RPU_PORT_RELAY_CNT_V, R.RPU_PORT_RELAY_CNT]; omega
    · exact fld_of_regs (congrArg State.regs (still_of_view hview) :) _
  refine ⟨?_, ?_, ?_, ?_⟩
  · exact (port_setPhase v n phRelay n).trans hport
  · exact (fld_inc_ne _ _ _ (by simp [F.RPU_PORT_STAT_PHASE, F.RPU_PORT_RELAY_CNT_V, R.RPU_PORT_RELAY_CNT, R.RPU_PORT_STAT])).trans
      (phase_setPhase v hn (by decide))
  · rw [Counted, fld_inc_self _ _ (by simp [RF.ok, F.RPU_PORT_RELAY_CNT_V]), hcnt]
  · exact hstep.trans (.of_frame ((hphase.mono (by simp) (by simp) (by simp)).inc (by simp [F.RPU_PORT_RELAY_CNT_V])))

end Sys2Proof.Machine
end

section
/-! Collect frames: the report of each slot, and what a frame tells the holder (R34, R89, R99, R127, R130, R133, R287). -/

namespace Sys2Proof.Machine

variable {rs es ks : List Nat} {s t u v : State} {n k p q : Nat}

/-! ## Folds in which one entry concerns an observation -/

theorem fst_zip_sublist {α β : Type} : ∀ (l : List α) (l' : List β), ((l.zip l').map Prod.fst).Sublist l
  | [], _ => by simp
  | _ :: _, [] => by simp
  | a :: l, _ :: l' => by simpa using fst_zip_sublist l l'

theorem mem_zip_range {β : Type} {m p : Nat} {l : List β} {x : β} : (p, x) ∈ (List.range m).zip l ↔ p < m ∧ l[p]? = some x := by
  simp only [List.mem_iff_getElem?, List.getElem?_zip_eq_some]
  constructor
  · rintro ⟨i, hi, hx⟩
    obtain ⟨hlt, rfl⟩ := List.getElem?_eq_some_iff.1 hi
    simp only [List.getElem_range, List.length_range] at hlt hx ⊢
    exact ⟨hlt, hx⟩
  · rintro ⟨hp, hx⟩
    exact ⟨p, by simp [hp], hx⟩

/-- Where steps with another key leave an observation alone, a fold over entries of different keys shows what the entry of the key does,
or nothing. -/
theorem foldl_keyed {σ β γ : Type} {f : σ → Nat × β → σ} {obs : σ → γ} {p : Nat} {l : List (Nat × β)}
    (hf : ∀ x ∈ l, x.1 ≠ p → ∀ s, obs (f s x) = obs s) (hd : (l.map Prod.fst).Nodup) (s : σ) :
    (∀ x, (p, x) ∈ l → ∃ v, obs v = obs s ∧ obs (l.foldl f s) = obs (f v (p, x))) ∧ ((∀ x, (p, x) ∉ l) → obs (l.foldl f s) = obs s) := by
  induction l generalizing s with
  | nil => exact ⟨fun x hx => absurd hx (by simp), fun _ => rfl⟩
  | cons y l ih =>
    obtain ⟨hy, hd⟩ := List.nodup_cons.1 hd
    obtain ⟨ihin, ihout⟩ := ih (fun x hx => hf x (List.mem_cons_of_mem _ hx)) hd (f s y)
    have hstep (h : y.1 ≠ p) : obs (f s y) = obs s := hf y (by simp) h s
    refine ⟨fun x hx => ?_, fun hno => ?_⟩
    · rcases List.mem_cons.1 hx with rfl | hx
      · exact ⟨s, rfl, ihout fun z hz => hy (List.mem_map.2 ⟨_, hz, rfl⟩)⟩
      · have hne : y.1 ≠ p := fun h => hy (h ▸ List.mem_map_of_mem (f := Prod.fst) hx)
        obtain ⟨v, hv, hr⟩ := ihin x hx
        exact ⟨v, hv.trans (hstep hne), hr⟩
    · have hne : y.1 ≠ p := fun h => hno y.2 (by simp [← h])
      exact (ihout fun x hx => hno x (List.mem_cons_of_mem _ hx)).trans (hstep hne)

/-! ## Quarantine -/

/-- The registers that quarantine of position `p` writes. -/
abbrev quarRegs (n p : Nat) : List Nat := [R.RPU_PORT_QUAR_LO n, R.RPU_PORT_QUAR_HI n, R.RPU_PORT_POS n p, R.RPU_PORT_STAT n]

theorem frame_quarantine (s : State) (n p : Nat) : Frame (quarRegs n p) [n] [3] s (s.quarantine n p) := by
  unfold State.quarantine
  extract_lets v w
  refine .ite _ (fun _ => .refl _ _ _ s) fun _ => ?_
  have hv : Frame (quarRegs n p) [n] [3] s v :=
    .ite _ (fun _ => (Frame.refl _ _ _ s).setFbit _ _ (by simp [F.RPU_PORT_QUAR_LO_V]))
      fun _ => (Frame.refl _ _ _ s).setFbit _ _ (by simp [F.RPU_PORT_QUAR_HI_V])
  have hw : Frame (quarRegs n p) [n] [3] s w := hv.setBit _ (by simp [F.RPU_PORT_POS_QUAR])
  exact ((hw.setBit _ (by simp [F.RPU_PORT_STAT_QUAR_NEW])).raiseKey _ (by simp)).sendFco _ _ _ _ _ _ (by simp)

/-- The registers that a slot of position `p` can write. -/
abbrev slotRegs (n p : Nat) : List Nat :=
  R.RPU_PORT_VALID_CNT n :: R.RPU_PORT_EMPTY_CNT n :: R.RPU_PORT_TAGBAD_CNT n :: R.RPU_PORT_LATE_CNT n :: quarRegs n p

theorem frame_tagBad (s : State) (n p : Nat) : Frame (slotRegs n p) [n] [3] s (s.tagBad n p) := by
  have hinc : Frame (slotRegs n p) [n] [3] s (s.inc (F.RPU_PORT_POS_TAGBAD n p)) := (Frame.refl _ _ _ s).inc (by simp [F.RPU_PORT_POS_TAGBAD])
  exact .ite _ (fun _ => hinc.trans ((frame_quarantine _ n p).mono (by simp) (by simp) (by simp))) fun _ => hinc

/-! ## One slot -/

/-- The report table's cell of position `p` for cycle `k`. -/
abbrev reportCell (n k p : Nat) : Nat := k % 2 * 4096 + smAddr n p

/-- The slot's report is taken: it verifies, its position is not quarantined, and it is in time. -/
def State.takesSlot (s : State) (n k p : Nat) (hi lo : Blk) : Bool :=
  s.slotOk 0xC0 n p k hi lo && !s.bit (F.RPU_PORT_POS_QUAR n p) && !s.p0Past k

theorem p0Past_of (hc : t.cyc = s.cyc) (hn : t.now = s.now) (hf : t.fld F.TDS_CYC_P0_P0_Q = s.fld F.TDS_CYC_P0_P0_Q) (k : Nat) :
    t.p0Past k = s.p0Past k := by
  unfold State.p0Past State.p0Of State.p0Ofs State.tc
  rw [hc, hn, hf]

/-- The port's registers stand ahead of the cycle's. -/
theorem posReg_lt (hn : n < 64) (hp : p < 128) : R.RPU_PORT_POS n p < 0x200000 := by simp only [R.RPU_PORT_POS]; omega

/-- A slot that verifies, with its VALID count and TIMEOK shown. -/
def State.validShown (s : State) (n p : Nat) (r : Report) : State :=
  (s.inc (F.RPU_PORT_VALID_CNT_V n)).setBit (F.RPU_PORT_POS_TIMEOK n p) (r.status.getLsbD 0)

theorem frame_validShown (s : State) (n p : Nat) (r : Report) : Frame (slotRegs n p) [n] [3] s (s.validShown n p r) :=
  ((Frame.refl _ _ _ s).inc (by simp [F.RPU_PORT_VALID_CNT_V])).setBit _ (by simp [F.RPU_PORT_POS_TIMEOK])

theorem validShown_keeps (s : State) (hn : n < 64) (hp : p < 128) (r : Report) (k : Nat) :
    (s.validShown n p r).bit (F.RPU_PORT_POS_QUAR n p) = s.bit (F.RPU_PORT_POS_QUAR n p) ∧ (s.validShown n p r).p0Past k = s.p0Past k := by
  have hlt := posReg_lt hn hp
  refine ⟨?_, p0Past_of (s := s) (t := s.validShown n p r) rfl rfl ?_ k⟩
  · rw [State.validShown, bit_setBit_apart _ _ _ _ (by simp [RF.ok, F.RPU_PORT_POS_QUAR])
      (by simp [RF.apart, F.RPU_PORT_POS_QUAR, F.RPU_PORT_POS_TIMEOK]), State.bit,
      fld_inc_ne _ _ _ (by simp only [F.RPU_PORT_POS_QUAR, F.RPU_PORT_VALID_CNT_V, R.RPU_PORT_POS, R.RPU_PORT_VALID_CNT]; omega)]
    rfl
  · have h1 : F.TDS_CYC_P0_P0_Q.addr = 0x480004 := rfl
    rw [State.validShown, fld_setBit_ne _ _ _ _ (by simp only [h1, F.RPU_PORT_POS_TIMEOK]; omega),
      fld_inc_ne _ _ _ (by simp only [h1, F.RPU_PORT_VALID_CNT_V, R.RPU_PORT_VALID_CNT]; omega)]

theorem reports_reportIn (s : State) (n p k : Nat) (r : Report) : (s.reportIn n p k r).reports =
    if s.bit (F.RPU_PORT_POS_QUAR n p) || s.p0Past k then s.reports else spSet none s.reports (reportCell n k p) (some r) := by
  unfold State.reportIn
  by_cases hq : s.bit (F.RPU_PORT_POS_QUAR n p) = true
  · simp [hq]
  · by_cases hp : s.p0Past k = true
    · simp only [hq, hp, if_true, if_false, Bool.or_true, Bool.false_eq_true]
      rfl
    · simp only [hq, hp, Bool.or_self, Bool.false_eq_true, if_false]
      split <;> rfl

theorem frame_reportIn (s : State) (n p k : Nat) (r : Report) :
    Frame (slotRegs n p) [n] [3] { s with reports := (s.reportIn n p k r).reports, rdu := (s.reportIn n p k r).rdu } (s.reportIn n p k r) := by
  unfold State.reportIn
  split
  · exact .refl _ _ _ s
  · split
    · exact (Frame.refl _ _ _ s).inc (by simp [F.RPU_PORT_LATE_CNT_V])
    · split
      · exact .refl _ _ _ _
      · exact .refl _ _ _ _

theorem reports_collectSlot (s : State) (hn : n < 64) (hp : p < 128) (k : Nat) (hi lo : Blk) : (s.collectSlot n k p hi lo).reports =
    if s.takesSlot n k p hi lo then spSet none s.reports (reportCell n k p) (some (reportOf k hi.pl lo.pl)) else s.reports := by
  unfold State.collectSlot State.takesSlot
  extract_lets r w
  by_cases hok : s.slotOk 0xC0 n p k hi lo = true
  · obtain ⟨hq, hpast⟩ := validShown_keeps s hn hp r k
    have hr := reports_reportIn (s.validShown n p r) n p k r
    rw [hq, hpast] at hr
    rw [if_pos hok]
    refine hr.trans ?_
    simp only [hok, Bool.true_and, ← Bool.not_or, Bool.not_eq_true']
    cases s.bit (F.RPU_PORT_POS_QUAR n p) || s.p0Past k <;> rfl
  · simp only [hok, if_false, Bool.false_and, Bool.false_eq_true]
    split
    · rfl
    · split
      · rfl
      · exact (frame_tagBad w n p).reports

theorem Frame.withIntake (h : Frame rs es ks s t) (x : Sparse (Option Report)) (y : RduSt) :
    Frame rs es ks { s with reports := x, rdu := y } { t with reports := x, rdu := y } :=
  ⟨h.regs, h.mem, h.inbox, h.notes, h.msgs, congrArg (fun b : State => { b with reports := x, rdu := y }) h.bare⟩

theorem frame_collectSlot (s : State) (n k p : Nat) (hi lo : Blk) :
    Frame (slotRegs n p) [n] [3] { s with reports := (s.collectSlot n k p hi lo).reports, rdu := (s.collectSlot n k p hi lo).rdu }
      (s.collectSlot n k p hi lo) := by
  unfold State.collectSlot
  extract_lets r w
  split
  · have hv := frame_validShown s n p r
    have hr := frame_reportIn (s.validShown n p r) n p k r
    exact Frame.trans (Frame.withIntake hv _ _) hr
  · split
    · exact (Frame.refl _ _ _ s).inc (by simp [F.RPU_PORT_EMPTY_CNT_V])
    · have hw : Frame (slotRegs n p) [n] [3] s w := (Frame.refl _ _ _ s).inc (by simp [F.RPU_PORT_TAGBAD_CNT_V])
      split
      · exact hw
      · have h := hw.trans (frame_tagBad w n p)
        rw [h.reports, h.rdu]
        exact h

/-! ## All slots of a frame -/

/-- What the slot of position `p` shows and rests on. -/
def State.slotView (s : State) (n k p : Nat) : Option Report × Bool × Bool × CfgSt × Option Session :=
  (spGet none s.reports (reportCell n k p), s.bit (F.RPU_PORT_POS_QUAR n p), s.p0Past k, s.cfg, (s.port n).sessFor k)

theorem slotOk_of (hc : t.cfg = s.cfg) (hx : (t.port n).sessFor k = (s.port n).sessFor k) (b0 p : Nat) (hi lo : Blk) :
    t.slotOk b0 n p k hi lo = s.slotOk b0 n p k hi lo := by
  simp only [State.slotOk, State.smOf, hc, hx]

theorem takesSlot_of_view (h : t.slotView n k p = s.slotView n k p) (hi lo : Blk) : t.takesSlot n k p hi lo = s.takesSlot n k p hi lo := by
  simp only [State.slotView, Prod.mk.injEq] at h
  obtain ⟨-, hq, hp, hc, hx⟩ := h
  rw [State.takesSlot, State.takesSlot, slotOk_of hc hx, hq, hp]

theorem posReg_not_mem_slotRegs (n : Nat) (h : q ≠ p) : R.RPU_PORT_POS n p ∉ slotRegs n q := by
  simp only [slotRegs, quarRegs, List.mem_cons, List.not_mem_nil, or_false, R.RPU_PORT_VALID_CNT, R.RPU_PORT_EMPTY_CNT, R.RPU_PORT_TAGBAD_CNT,
    R.RPU_PORT_LATE_CNT, R.RPU_PORT_QUAR_LO, R.RPU_PORT_QUAR_HI, R.RPU_PORT_POS, R.RPU_PORT_STAT]
  omega

theorem p0Reg_not_mem_slotRegs (hn : n < 64) (hq : q < 128) : R.TDS_CYC_P0 ∉ slotRegs n q := by
  simp only [slotRegs, quarRegs, List.mem_cons, List.not_mem_nil, or_false, R.RPU_PORT_VALID_CNT, R.RPU_PORT_EMPTY_CNT, R.RPU_PORT_TAGBAD_CNT,
    R.RPU_PORT_LATE_CNT, R.RPU_PORT_QUAR_LO, R.RPU_PORT_QUAR_HI, R.RPU_PORT_POS, R.RPU_PORT_STAT, R.TDS_CYC_P0]
  omega

/-- The slot of a position leaves what the others show and rest on. -/
theorem slotView_collectSlot_ne (s : State) (hn : n < 64) (hp : p < 64) (hq : q < 128) (h : q ≠ p) (k : Nat) (hi lo : Blk) :
    (s.collectSlot n k q hi lo).slotView n k p = s.slotView n k p := by
  have hrep := reports_collectSlot s hn hq k hi lo
  have hf := frame_collectSlot s n k q hi lo
  generalize s.collectSlot n k q hi lo = t at hrep hf
  have hcell : spGet none t.reports (reportCell n k p) = spGet none s.reports (reportCell n k p) := by
    rw [hrep]
    split
    · exact spGet_spSet_ne _ _ _ _ _ _ (by simp only [reportCell, smAddr]; omega)
    · rfl
  have hquar : t.bit (F.RPU_PORT_POS_QUAR n p) = s.bit (F.RPU_PORT_POS_QUAR n p) :=
    hf.bit (posReg_not_mem_slotRegs n h) (Nat.lt_trans (posReg_lt hn (Nat.lt_trans hp (by decide))) (by decide))
  have hp0 : t.fld F.TDS_CYC_P0_P0_Q = s.fld F.TDS_CYC_P0_P0_Q := hf.fld (p0Reg_not_mem_slotRegs hn hq) (by decide)
  have hcyc : t.cyc = s.cyc := show t.bare.cyc = s.bare.cyc by rw [hf.bare]; rfl
  have hcfg : t.cfg = s.cfg := show t.bare.cfg = s.bare.cfg by rw [hf.bare]; rfl
  have hport : t.port n = s.port n := port_of_ports (ports_of_frame hf) n
  simp only [State.slotView, hcell, hquar, p0Past_of hcyc hf.now hp0, hcfg, hport]

/-- The slots of a frame, position by position. -/
def State.slotsIn (s : State) (n k : Nat) (slots : List (Blk × Blk)) : State :=
  ((List.range (s.ncfg n)).zip slots).foldl (fun s (x : Nat × Blk × Blk) => s.collectSlot n k x.1 x.2.1 x.2.2) s

theorem ncfg_lt (s : State) (n : Nat) : s.ncfg n < 128 := RF.get_lt _ _

theorem sameMem_slotsIn (s : State) (n k : Nat) (slots : List (Blk × Blk)) : SameMem s (s.slotsIn n k slots) :=
  List.foldlRecOn _ _ (motive := SameMem s) (fun _ => rfl) fun u hu x _ a => ((frame_collectSlot u n k x.1 x.2.1 x.2.2).mem a).trans (hu a)

/-- The cell of a position holds the report of its slot where that is taken, else what it held. -/
theorem cell_slotsIn (s : State) (hn : n < 64) (hp : p < 64) (k : Nat) (slots : List (Blk × Blk)) :
    (∀ hi lo, slots[p]? = some (hi, lo) → p < s.ncfg n → s.takesSlot n k p hi lo = true →
      spGet none (s.slotsIn n k slots).reports (reportCell n k p) = some (reportOf k hi.pl lo.pl)) ∧
    ((∀ hi lo, ¬ (slots[p]? = some (hi, lo) ∧ p < s.ncfg n ∧ s.takesSlot n k p hi lo = true)) →
      spGet none (s.slotsIn n k slots).reports (reportCell n k p) = spGet none s.reports (reportCell n k p)) := by
  have hother : ∀ x ∈ (List.range (s.ncfg n)).zip slots, x.1 ≠ p → ∀ v : State, (v.collectSlot n k x.1 x.2.1 x.2.2).slotView n k p = v.slotView n k p :=
    fun x hx hne v => slotView_collectSlot_ne v hn hp
      (Nat.lt_trans (mem_zip_range.1 (show (x.1, x.2) ∈ _ from hx)).1 (ncfg_lt s n)) hne k _ _
  have hkeys := List.nodup_range.sublist (fst_zip_sublist (List.range (s.ncfg n)) slots)
  obtain ⟨hin, hout⟩ := foldl_keyed (obs := fun v : State => v.slotView n k p) hother hkeys s
  have hcell {u v : State} (h : u.slotView n k p = v.slotView n k p) : spGet none u.reports (reportCell n k p) = spGet none v.reports (reportCell n k p) :=
    congrArg Prod.fst h
  have hown (x : Blk × Blk) (hx : slots[p]? = some x) (hlt : p < s.ncfg n) :
      spGet none (s.slotsIn n k slots).reports (reportCell n k p) =
        if s.takesSlot n k p x.1 x.2 then some (reportOf k x.1.pl x.2.pl) else spGet none s.reports (reportCell n k p) := by
    obtain ⟨v, hv, hr⟩ := hin x (mem_zip_range.2 ⟨hlt, hx⟩)
    refine (hcell hr).trans ?_
    rw [reports_collectSlot v hn (by omega), takesSlot_of_view hv]
    split
    · exact spGet_spSet_self _ _ _ _
    · exact hcell hv
  refine ⟨fun hi lo hx hlt ht => ?_, fun hno => ?_⟩
  · rw [hown _ hx hlt, if_pos ht]
  · by_cases h : ∃ x, (p, x) ∈ (List.range (s.ncfg n)).zip slots
    · obtain ⟨x, hx⟩ := h
      obtain ⟨hlt, hx⟩ := mem_zip_range.1 hx
      rw [hown x hx hlt, if_neg fun ht => hno x.1 x.2 ⟨hx, hlt, ht⟩]
    · exact hcell (hout fun x hx => h ⟨x, hx⟩)

end Sys2Proof.Machine
end

section
/-! COLLECT_FRAME_RECEIVED: the window of tag errors, what the holder reads from the frame, and the whole of the command (R34, R99, R127 to
R130, R133, R287). -/

namespace Sys2Proof.Machine

variable {s t u v : State} {n k p q : Nat}

/-! ## A new window of tag errors -/

theorem slotView_setTagbad (s : State) (hn : n < 64) (hq : q < 64) (k x : Nat) :
    (s.setFld (F.RPU_PORT_POS_TAGBAD n q) x).slotView n k p = s.slotView n k p := by
  have hlt := posReg_lt hn (p := q) (by omega)
  have hquar : (s.setFld (F.RPU_PORT_POS_TAGBAD n q) x).bit (F.RPU_PORT_POS_QUAR n p) = s.bit (F.RPU_PORT_POS_QUAR n p) := by
    by_cases h : p = q
    · subst h
      simp only [State.bit, fld_setFld_apart s (F.RPU_PORT_POS_TAGBAD n p) (F.RPU_PORT_POS_QUAR n p) x (by simp [RF.ok, F.RPU_PORT_POS_QUAR])
        (by simp [RF.apart, F.RPU_PORT_POS_QUAR, F.RPU_PORT_POS_TAGBAD])]
    · simp only [State.bit, fld_setFld_ne s (F.RPU_PORT_POS_TAGBAD n q) (F.RPU_PORT_POS_QUAR n p) x
        (by simp only [F.RPU_PORT_POS_QUAR, F.RPU_PORT_POS_TAGBAD, R.RPU_PORT_POS]; omega)]
  have hp0 : (s.setFld (F.RPU_PORT_POS_TAGBAD n q) x).fld F.TDS_CYC_P0_P0_Q = s.fld F.TDS_CYC_P0_P0_Q :=
    fld_setFld_ne _ _ _ _ (by simp only [F.TDS_CYC_P0_P0_Q, R.TDS_CYC_P0, F.RPU_PORT_POS_TAGBAD]; omega)
  have hpast := p0Past_of (s := s) (t := s.setFld (F.RPU_PORT_POS_TAGBAD n q) x) rfl rfl hp0 k
  simp only [State.slotView, hquar, hpast]
  rfl

theorem slotView_qwin (s : State) (hn : n < 64) (k j : Nat) : (s.qwin n j).slotView n k p = s.slotView n k p := by
  have hport (x : Nat) : (s.setPort n { s.port n with win := x }).slotView n k p = s.slotView n k p := by
    simp only [State.slotView, port_setPort_self]
    rfl
  unfold State.qwin
  extract_lets
  split
  · exact List.foldlRecOn _ _ (motive := fun t : State => t.slotView n k p = s.slotView n k p) (hport j) fun u hu q hq =>
      (slotView_setTagbad u hn (List.mem_range.1 hq) k 0).trans hu
  · rfl

theorem ncfg_qwin (s : State) (n k : Nat) : (s.qwin n k).ncfg n = s.ncfg n := by
  unfold State.qwin
  extract_lets
  split
  · exact List.foldlRecOn _ _ (motive := fun t : State => t.ncfg n = s.ncfg n) rfl fun u hu q _ =>
      (fld_setFld_ne _ _ _ _ (by simp only [F.RPU_PORT_GEOM_NCFG, F.RPU_PORT_POS_TAGBAD, R.RPU_PORT_GEOM, R.RPU_PORT_POS]; omega)).trans hu
  · rfl

theorem linkStep_qwin (s : State) (hn : n < 64) (k : Nat) : LinkStep [] s (s.qwin n k) :=
  .ite (((LinkStep.refl [] s).setPort n _).trans (.foldl (.refl [] _) fun q hq u =>
    (LinkStep.refl [] u).setPortFld _ (posReg_lt hn (Nat.lt_trans (List.mem_range.1 hq) (by decide))) (by decide))) (.refl [] s)

/-! ## What the frame tells the holder -/

theorem LinkStep.setStat (h : LinkStep [] s t) {f : RF} (x : Nat) (hf : f.addr < 0x200000) : LinkStep [] s (t.setFld f x) :=
  h.setPortFld x hf (by decide)

theorem linkStep_reidentPort (s : State) (n : Nat) : LinkStep [] s (s.reidentPort n) := .ite ((LinkStep.refl [] s).setPort n _) (.refl [] s)

/-- The position of a break that was unknown becomes known from an SM's own frame. -/
def State.breakFound (s : State) (n opos : Nat) : State :=
  if s.bit (F.RPU_PORT_STAT_BROKEN n) && s.bit (F.RPU_PORT_STAT_BRK_UNK n) then
    (s.setFld (F.RPU_PORT_STAT_BRK_POS n) opos).setBit (F.RPU_PORT_STAT_BRK_UNK n) false
  else s

theorem linkStep_breakFound (s : State) (hn : n < 64) (opos : Nat) : LinkStep [] s (s.breakFound n opos) :=
  .ite (((LinkStep.refl [] s).setStat opos (portReg_at hn)).setStat _ (portReg_at hn)) (.refl [] s)

theorem linkStep_originSeen (s : State) (hn : n < 64) (k origin opos : Nat) : LinkStep [] s (s.originSeen n k origin opos) := by
  unfold State.originSeen
  extract_lets p v again w x unit y
  have hw : LinkStep [] s w :=
    (((LinkStep.refl [] s).setStat _ (portReg_at hn)).setStat (f := F.RPU_PORT_SMORIG_CNT_V n) _ (portReg_at hn)).setPort n _
  have hx : LinkStep [] s x := hw.trans (linkStep_breakFound w hn opos)
  have hy : LinkStep [] s y := ((LinkStep.refl [] s).setPort n _).setStat _ (portReg_at hn)
  have hheal : LinkStep [] s ((y.setBroken n false).setBit (F.RPU_PORT_STAT_BRK_UNK n) false) := (hy.setBroken hn false).setStat _ (portReg_at hn)
  exact .ite (.ite (hx.trans (linkStep_declareBreak x hn k)) hx)
    (.ite (.ite (hheal.trans (.ite (linkStep_reidentPort _ n) (.refl [] _))) hy) (.refl [] s))

theorem linkStep_timeokCheck (s : State) (hn : n < 64) : LinkStep [] s (s.timeokCheck n) := by
  have hset (b : Bool) : LinkStep [] s (s.setBit (F.RPU_PORT_STAT_ALL_TIMEOK n) b) := (LinkStep.refl [] s).setStat _ (portReg_at hn)
  exact .ite (((hset _).setPort n _).setPhase hn phService) (hset _)

theorem linkStep_fenceCheck (s : State) (k : Nat) : LinkStep [] s (s.fenceCheck k) := .ite ((linkStep_fence s).mono (by simp)) (.refl [] s)

/-- What a collect frame of cycle `k` tells the holder beside its reports. -/
def State.holderReads (s : State) (n k : Nat) (via : Bool) (fs : List Blk) : State :=
  if s.role = roleActive then
    ((if via then s else s.originSeen n k ((sofOf fs).f 39 32) ((sofOf fs).f 31 24)).timeokCheck n).fenceCheck k
  else s

theorem linkStep_holderReads (s : State) (hn : n < 64) (k : Nat) (via : Bool) (fs : List Blk) : LinkStep [] s (s.holderReads n k via fs) :=
  .ite (((LinkStep.ite (.refl [] s) (linkStep_originSeen s hn k _ _)).trans (linkStep_timeokCheck _ hn)).trans (linkStep_fenceCheck _ k)) (.refl [] s)

/-! ## The command -/

theorem linkStep_observed (s : State) (t : Nat) (f : State → State) : LinkStep [] (f s) (s.observed t f) := .parts (.refl [] (f s))

/-- The slots of the frame, once the window of its cycle runs. -/
def State.collectSlots (s : State) (n k : Nat) (fs : List Blk) : State := (s.qwin n k).slotsIn n k (pairUp ((bodyOf fs).drop 1))

theorem collectTake_eq (s : State) (n k : Nat) (via : Bool) (fs : List Blk) :
    s.collectTake n k via fs = s.observed (k * s.tc) fun s => (s.collectSlots n k fs).holderReads n k via fs := rfl

theorem linkStep_collectTake (s : State) (hn : n < 64) (k : Nat) (via : Bool) (fs : List Blk) :
    LinkStep [] (s.collectSlots n k fs) (s.collectTake n k via fs) := by
  rw [collectTake_eq]
  exact (linkStep_holderReads _ hn k via fs).trans (linkStep_observed s (k * s.tc) fun s => (s.collectSlots n k fs).holderReads n k via fs)

theorem sameMem_collectTake (s : State) (hn : n < 64) (k : Nat) (via : Bool) (fs : List Blk) : SameMem s (s.collectTake n k via fs) := fun a =>
  ((linkStep_collectTake s hn k via fs).mem a).trans ((sameMem_slotsIn _ n k _ a).trans ((linkStep_qwin s hn k).mem a))

/-- The report table after a frame of cycle `k`. -/
theorem cell_collectTake (s : State) (hn : n < 64) (hp : p < 64) (k : Nat) (via : Bool) (fs : List Blk) :
    (∀ hi lo, (pairUp ((bodyOf fs).drop 1))[p]? = some (hi, lo) → p < s.ncfg n → s.takesSlot n k p hi lo = true →
      spGet none (s.collectTake n k via fs).reports (reportCell n k p) = some (reportOf k hi.pl lo.pl)) ∧
    ((∀ hi lo, ¬ ((pairUp ((bodyOf fs).drop 1))[p]? = some (hi, lo) ∧ p < s.ncfg n ∧ s.takesSlot n k p hi lo = true)) →
      spGet none (s.collectTake n k via fs).reports (reportCell n k p) = spGet none s.reports (reportCell n k p)) := by
  have hview := slotView_qwin (p := p) s hn k k
  have hcell : spGet none (s.qwin n k).reports (reportCell n k p) = spGet none s.reports (reportCell n k p) := congrArg Prod.fst hview
  have h := cell_slotsIn (s.qwin n k) hn hp k (pairUp ((bodyOf fs).drop 1))
  rw [(linkStep_collectTake s hn k via fs).reports, ← hcell]
  simp only [ncfg_qwin, takesSlot_of_view hview] at h
  exact h

/-- The header of a frame of type `ft` at port `n` names the port (R99). -/
def ownFrame (n ft : Nat) (fs : List Blk) : Bool :=
  (sofOf fs).isSof && (sofOf fs).f 55 48 == ft && (sofOf fs).f 47 40 == n && (nthBlk (bodyOf fs) 0).f 31 24 == n

/-- A collect frame at a port that does not relay. -/
def State.collectIn (s : State) (n : Nat) (via : Bool) (fs : List Blk) : State :=
  match s.collectCyc fs.length ((nthBlk (bodyOf fs) 0).f 63 32) with
  | some k => if ownFrame n ftCollect fs then s.collectTake n k via fs else s.inc (F.RPU_PORT_FDISC_CNT_V n)
  | none => s.inc (F.RPU_PORT_FDISC_CNT_V n)

theorem exec_collectFrame (s : State) (t : Nat) (port : Fin 64) (via : Bool) (fs : List Blk) :
    exec (.collectFrame t port via fs) s = .next (s.onDie t fun s =>
      if !s.enabled port then s else if (s.port port).relaying then s.forward port fs none else s.collectIn port via fs) := rfl

theorem collectIn_taken {via : Bool} {fs : List Blk} (hown : ownFrame n ftCollect fs = true)
    (hk : s.collectCyc fs.length ((nthBlk (bodyOf fs) 0).f 63 32) = some k) : s.collectIn n via fs = s.collectTake n k via fs := by
  simp only [State.collectIn, hk, hown, if_true]

/-- A frame whose header fails is counted and acts no further (R99). -/
theorem collectIn_discarded {via : Bool} {fs : List Blk}
    (h : ownFrame n ftCollect fs = false ∨ s.collectCyc fs.length ((nthBlk (bodyOf fs) 0).f 63 32) = none) :
    s.collectIn n via fs = s.inc (F.RPU_PORT_FDISC_CNT_V n) := by
  unfold State.collectIn
  split
  next k hk => rw [if_neg (by simpa [hk] using h)]
  next => rfl

theorem discarded_inc (s : State) (n : Nat) :
    Counted (F.RPU_PORT_FDISC_CNT_V n) s (s.inc (F.RPU_PORT_FDISC_CNT_V n)) ∧ Frame [R.RPU_PORT_FDISC_CNT n] [] [] s (s.inc (F.RPU_PORT_FDISC_CNT_V n)) :=
  ⟨fld_inc_self _ _ (by simp [RF.ok, F.RPU_PORT_FDISC_CNT_V]), (Frame.refl _ _ _ s).inc (by simp [F.RPU_PORT_FDISC_CNT_V])⟩

end Sys2Proof.Machine
end

section
/-! DOWN_FRAME_RECEIVED: epochs noted, the fencing of the holder, and tails of the other unit (R100, R282 to R287). -/

namespace Sys2Proof.Machine

variable {s t u : State} {n j time : Nat} {ep : BitVec 32}

/-! ## Epochs -/

theorem Frame.withAon {rs es ks : List Nat} (h : Frame rs es ks s t) (x : AonSt) : Frame rs es ks { s with aon := x } { t with aon := x } :=
  ⟨h.regs, h.mem, h.inbox, h.notes, h.msgs, congrArg (fun b : State => { b with aon := x }) h.bare⟩

theorem frame_noteEpoch (s : State) (e : BitVec 32) : Frame [R.RDU_EPOCH_MAX] [] [] { s with aon := (s.noteEpoch e).aon } (s.noteEpoch e) := by
  unfold State.noteEpoch
  split
  · exact ((Frame.refl _ _ _ s).wr e (by simp)).withAon _
  · exact .refl _ _ _ s

theorem rd_noteEpoch (h : s.rd R.RDU_EPOCH_MAX ≤ ep) : (s.noteEpoch ep).rd R.RDU_EPOCH_MAX = ep := by
  unfold State.noteEpoch
  split
  next => exact rd_wr_self s _ _
  next hlt => exact BitVec.le_antisymm h (BitVec.not_lt.1 hlt)

theorem fld_noteEpoch (s : State) (e : BitVec 32) {f : RF} (hf : f.addr ≠ R.RDU_EPOCH_MAX) (hb : f.addr < 0x880000) :
    (s.noteEpoch e).fld f = s.fld f := (frame_noteEpoch s e).fld (by simpa using hf) hb

/-- A holder that sees a higher epoch. -/
theorem fence_noteEpoch (hr : s.role = roleActive) (ep : BitVec 32) (t : State) (ht : t = (s.noteEpoch ep).fence) :
    t.role = roleStandby ∧ t.bit F.RDU_STAT_REL_HOLD = true ∧ t.bit F.RDU_STAT_FENCED = true ∧ Counted F.RDU_FENCE_CNT_V s t ∧
      t.pends 190 = true ∧ Sent 0x04 s t ∧ SameMem s t := by
  have hrole : (s.noteEpoch ep).role = roleActive := (fld_noteEpoch s ep (by decide) (by decide)).trans hr
  obtain ⟨h1, h2, h3, h4, h5, h6⟩ := fence_spec hrole
  have hnote : LinkStep [] s (s.noteEpoch ep) := (LinkStep.refl [] s).noteEpoch ep
  rw [Counted, fld_noteEpoch s ep (by decide) (by decide)] at h4
  rw [ht]
  exact ⟨h1, h2, h3, h4, h5, hnote.keeps.sentSince h6, fun a => ((linkStep_fence _).mem a).trans (hnote.mem a)⟩

/-! ## Tails -/

theorem setRole_standby (h : s.leaseHeld = false) : s.setRole roleStandby = s.setFld F.RDU_STAT_ROLE roleStandby := by
  have hb : (s.leaseHeld == (roleStandby == roleActive)) = true := by rw [h]; rfl
  unfold State.setRole
  rw [if_pos hb]

theorem frame_tailsSeen (s : State) (j : Nat) : Frame [R.RDU_STAT] [] [] s (s.tailsSeen j) := by
  unfold State.tailsSeen
  extract_lets rs
  refine .ite _ (fun h => ?_) fun _ => .refl _ _ _ s
  have hinit : s.leaseHeld = false := by
    simp only [State.mayLeaveInit, Bool.and_eq_true, beq_iff_eq] at h
    obtain ⟨⟨⟨⟨⟨hrole, -⟩, -⟩, -⟩, -⟩, -⟩ := h
    have hfld : s.fld F.RDU_STAT_ROLE = roleInit := hrole
    rw [State.leaseHeld, hfld]
    rfl
  rw [setRole_standby hinit]
  exact (Frame.refl _ _ _ s).setFld _ (by simp [F.RDU_STAT_ROLE])

/-- The port once the tail of cycle `j` has come. -/
def Port.tailIn (p : Port) (j : Nat) : Port := { p with tails := (j :: p.tails.filter (· != j)).take 8, cut := false }

/-- The other unit sees the tail of cycle `j` at port `n`. -/
def State.tailIn (s : State) (n j : Nat) : State := (s.setPort n ((s.port n).tailIn j)).tailsSeen j

theorem frame_tailIn (s : State) (n j : Nat) : Frame [R.RDU_STAT] [] [] { s with ports := (s.tailIn n j).ports } (s.tailIn n j) := by
  have h := frame_tailsSeen (s.setPort n ((s.port n).tailIn j)) j
  rw [State.tailIn, ports_of_frame h]
  exact h

theorem tails_tailIn (s : State) (n j : Nat) : ((s.tailIn n j).port n).tails.head? = some j := by
  rw [State.tailIn, port_of_ports (ports_of_frame (frame_tailsSeen _ j)), port_setPort_self]
  rfl

/-! ## The command -/

/-- What a valid down frame of cycle `j` with epoch `ep` does. -/
def State.downIn (s : State) (n j : Nat) (ep : BitVec 32) : State :=
  if s.role = roleActive then (if s.rd R.RDU_EPOCH < ep then (s.noteEpoch ep).fence else s.noteEpoch ep)
  else if ep < s.rd R.RDU_EPOCH_MAX then s
  else if (s.noteEpoch ep).now ≤ (s.noteEpoch ep).judgeAt j then (s.noteEpoch ep).tailIn n j
  else s.noteEpoch ep

theorem exec_downFrame (s : State) (t : Nat) (port : Fin 64) (fs : List Blk) : exec (.downFrame t port fs) s = .next (s.onDie t fun s =>
    if !s.enabled port then s
    else if (sofOf fs).f 55 48 = ftSession then (if s.role = roleActive then s else s.adoptSession port fs)
    else match s.downCheck port fs with
      | none => s
      | some (j, ep) => s.downIn port j ep) := rfl

theorem Frame.thenTail {n : Nat} (h : Frame [R.RDU_EPOCH_MAX] [] [] { s with aon := u.aon } u) :
    Frame [R.RDU_EPOCH_MAX, R.RDU_STAT] [] [] { s with aon := (u.tailIn n j).aon, ports := (u.tailIn n j).ports } (u.tailIn n j) := by
  have ht := frame_tailIn u n j
  have hx : (u.tailIn n j).ltx = u.ltx := show (u.tailIn n j).bare.ltx = u.bare.ltx by rw [ht.bare]; rfl
  have hl : u.ltx = s.ltx := show u.bare.ltx = s.bare.ltx by rw [h.bare]; rfl
  have hp := h.withPorts (u.tailIn n j).ports u.ltx
  rw [ht.aon]
  rw [hl] at hp
  refine Frame.trans (hp.mono (by simp) (by simp) (by simp)) ?_
  have : ({ u with ports := (u.tailIn n j).ports, ltx := s.ltx } : State) = { u with ports := (u.tailIn n j).ports } := by rw [← hl]
  rw [this]
  exact ht.mono (by simp) (by simp) (by simp)

/-- In the other unit: an older epoch has no effect; another is noted, and the frame is a tail where it is in time. -/
theorem downIn_other (hr : s.role ≠ roleActive) (t : State) (ht : t = s.downIn n j ep) :
    (ep < s.rd R.RDU_EPOCH_MAX → t = s) ∧
    (s.rd R.RDU_EPOCH_MAX ≤ ep → t.rd R.RDU_EPOCH_MAX = ep ∧
      (s.now ≤ s.judgeAt j → (t.port n).tails.head? = some j ∧
        Frame [R.RDU_EPOCH_MAX, R.RDU_STAT] [] [] { s with aon := t.aon, ports := t.ports } t) ∧
      (s.judgeAt j < s.now → Frame [R.RDU_EPOCH_MAX] [] [] { s with aon := t.aon } t)) := by
  rw [ht, State.downIn, if_neg hr]
  refine ⟨fun h => if_pos h, fun h => ?_⟩
  have hf := frame_noteEpoch s ep
  have hrd := rd_noteEpoch h
  have hnow : (s.noteEpoch ep).now = s.now := hf.now
  have hjudge : (s.noteEpoch ep).judgeAt j = s.judgeAt j := by
    have hc : (s.noteEpoch ep).cyc = s.cyc := show (s.noteEpoch ep).bare.cyc = s.bare.cyc by rw [hf.bare]; rfl
    simp only [State.judgeAt, State.tc, hc]
  rw [if_neg (BitVec.not_lt.2 h), hnow, hjudge]
  generalize s.noteEpoch ep = v at hf hrd
  by_cases hin : s.now ≤ s.judgeAt j
  · rw [if_pos hin]
    refine ⟨?_, fun _ => ⟨tails_tailIn v n j, hf.thenTail⟩, fun h => absurd hin (Nat.not_le.2 h)⟩
    exact ((frame_tailIn v n j).regs _ (by decide) (by simp)).trans hrd
  · rw [if_neg hin]
    exact ⟨hrd, fun h => absurd h hin, fun _ => hf⟩

/-- In the holder: a higher epoch fences it, another is noted where it is the highest. -/
theorem downIn_holder (hr : s.role = roleActive) (t : State) (ht : t = s.downIn n j ep) :
    (s.rd R.RDU_EPOCH < ep → t.role = roleStandby ∧ t.bit F.RDU_STAT_REL_HOLD = true ∧ t.bit F.RDU_STAT_FENCED = true ∧
      Counted F.RDU_FENCE_CNT_V s t ∧ t.pends 190 = true ∧ Sent 0x04 s t ∧ SameMem s t) ∧
    (ep ≤ s.rd R.RDU_EPOCH → Frame [R.RDU_EPOCH_MAX] [] [] { s with aon := t.aon } t) := by
  rw [ht, State.downIn, if_pos hr]
  refine ⟨fun h => ?_, fun h => ?_⟩
  · rw [if_pos h]
    exact fence_noteEpoch hr ep _ rfl
  · rw [if_neg (BitVec.not_lt.2 h)]
    exact frame_noteEpoch s ep

end Sys2Proof.Machine
end

section
/-! IDENT_FRAME_RECEIVED: the match of a ring's SMs, and the session that follows (R116 to R119, R122, R132). -/

namespace Sys2Proof.Machine

variable {rs es ks : List Nat} {s t u v : State} {n k p q time : Nat}

/-! ## What matching leaves alone -/

/-- The fields of a port's status that show the step of its bring-up and the SMs found. -/
abbrev bringUp (n : Nat) : List RF := [F.RPU_PORT_STAT_NFOUND n, F.RPU_PORT_STAT_PHASE n]

/-- From `s` to `t` memory, the bring-up that port `n` shows, the port without its nonces, and the cycle stay. -/
structure IdentKept (n : Nat) (s t : State) : Prop where
  keeps : Keeps (bringUp n) s t
  port : ({ t.port n with nonces := [] } : Port) = { s.port n with nonces := [] }
  cycle : t.cycNow = s.cycNow

theorem IdentKept.refl (n : Nat) (s : State) : IdentKept n s s := ⟨.refl _ s, rfl, rfl⟩
theorem IdentKept.trans (h : IdentKept n s t) (h' : IdentKept n t u) : IdentKept n s u :=
  ⟨h.keeps.trans h'.keeps, h'.port.trans h.port, h'.cycle.trans h.cycle⟩

theorem IdentKept.mem (h : IdentKept n s t) : SameMem s t := h.keeps.mem
theorem IdentKept.nfound (h : IdentKept n s t) : t.fld (F.RPU_PORT_STAT_NFOUND n) = s.fld (F.RPU_PORT_STAT_NFOUND n) := h.keeps.fields _ (by simp)
theorem IdentKept.phase (h : IdentKept n s t) : t.phase n = s.phase n := h.keeps.fields _ (by simp)

/-- A field of another register. -/
theorem IdentKept.setFld (h : IdentKept n s t) {f : RF} (x : Nat) (hf : f.addr ≠ R.RPU_PORT_STAT n) (hb : f.addr < 0x880000) :
    IdentKept n s (t.setFld f x) :=
  h.trans ⟨(Keeps.refl _ t).setFld x (fun g hg => .inl fun he => hf (by
    simp only [bringUp, List.mem_cons, List.not_mem_nil, or_false] at hg
    rcases hg with rfl | rfl <;> exact he.symm)) hb, rfl, rfl⟩

theorem IdentKept.foldl {α : Type} (h : IdentKept n s t) {f : State → α → State} {l : List α} (hf : ∀ x ∈ l, ∀ u, IdentKept n u (f u x)) :
    IdentKept n s (l.foldl f t) :=
  List.foldlRecOn l f (motive := IdentKept n s) h fun u hu x hx => hu.trans (hf x hx u)

theorem identKept_nonces (s : State) (n : Nat) (x : Sparse (Option (BitVec 64))) : IdentKept n s (s.setPort n { s.port n with nonces := x }) :=
  ⟨.parts (.refl _ s), by rw [port_setPort_self], rfl⟩

theorem posReg_ne_stat (n q : Nat) : R.RPU_PORT_POS n q ≠ R.RPU_PORT_STAT n := by simp only [R.RPU_PORT_POS, R.RPU_PORT_STAT]; omega

theorem IdentKept.setPos (h : IdentKept n s t) (hn : n < 64) (hq : q < 128) {f : RF} (x : Nat) (hf : f.addr = R.RPU_PORT_POS n q) :
    IdentKept n s (t.setFld f x) := by
  have := posReg_lt hn hq
  exact h.setFld x (hf ▸ posReg_ne_stat n q) (by omega)

theorem bringUp_below (hn : n < 64) : belowInt (bringUp n) := by
  have := portReg_at (c := 0x100004) hn
  simp only [belowInt, List.forall_mem_cons, List.not_mem_nil, false_imp_iff, implies_true, and_true, F.RPU_PORT_STAT_NFOUND,
    F.RPU_PORT_STAT_PHASE, R.RPU_PORT_STAT]
  omega

theorem cycNow_of_frame (h : Frame rs es ks s t) : t.cycNow = s.cycNow := by
  have hc : t.cyc = s.cyc := show t.bare.cyc = s.bare.cyc by rw [h.bare]
  simp only [State.cycNow, State.tc, hc, h.now]

theorem identKept_mapErr (s : State) (hn : n < 64) : IdentKept n s (s.portFlag n F.RPU_PORT_STAT_MAP_ERR) := by
  unfold State.portFlag State.portFlagAt
  split
  · exact .refl n s
  · have hf : Frame [R.RPU_PORT_STAT n] [n] [] s ((s.setBit (F.RPU_PORT_STAT_MAP_ERR n) true).raiseKey n s.portKey) :=
      ((Frame.refl _ _ _ s).setBit _ (by simp [F.RPU_PORT_STAT_MAP_ERR])).raiseKey _ (by simp)
    have hset : Keeps (bringUp n) s (s.setBit (F.RPU_PORT_STAT_MAP_ERR n) true) :=
      (Keeps.refl _ s).setBit true (fun g hg => .inr (by
        simp only [bringUp, List.mem_cons, List.not_mem_nil, or_false] at hg
        rcases hg with rfl | rfl <;>
          simp [RF.ok, RF.apart, F.RPU_PORT_STAT_MAP_ERR, F.RPU_PORT_STAT_NFOUND, F.RPU_PORT_STAT_PHASE]))
        (Nat.lt_trans (portReg_at hn) (by decide))
    exact ⟨hset.raiseKey _ _ (bringUp_below hn), by rw [port_of_ports (ports_of_frame hf)], cycNow_of_frame hf⟩

/-! ## The match (R116, R117) -/

theorem identPos_lt (s : State) {found i : Nat} (h : i < found) : s.identPos found i < found := by
  unfold State.identPos
  split <;> omega

theorem identKept_identEntry (s : State) (hn : n < 64) {found i : Nat} (hi : i < found) (hfound : found ≤ 64) (id nonce : BitVec 64)
    (all : List (BitVec 64)) : IdentKept n s (s.identEntry n found i id nonce all) := by
  have hpos := identPos_lt s hi
  unfold State.identEntry
  extract_lets pos v w _ x
  have hlt : pos < 64 := Nat.lt_of_lt_of_le hpos hfound
  have hid (c : Nat) (hc : c = 0x100600 ∨ c = 0x100604) :
      c + n * 0x4000 + pos * 8 ≠ R.RPU_PORT_STAT n ∧ c + n * 0x4000 + pos * 8 < 0x880000 := by
    simp only [R.RPU_PORT_STAT]; omega
  obtain ⟨hlo, hlob⟩ := hid 0x100600 (.inl rfl)
  obtain ⟨hhi, hhib⟩ := hid 0x100604 (.inr rfl)
  have hv : IdentKept n s v := by
    refine ⟨(Keeps.refl _ s).wr _ (fun g hg he => hlo ?_) hlob, rfl, rfl⟩
    simp only [bringUp, List.mem_cons, List.not_mem_nil, or_false] at hg
    rcases hg with rfl | rfl <;> exact he.symm
  have hw : IdentKept n s w := (hv.setFld _ hhi hhib).setFld (f := F.RPU_PORT_ID_HI_SERIAL n pos) _ hhi hhib
  have hx : IdentKept n s x := hw.trans (identKept_nonces w n _)
  exact hx.setPos hn (Nat.lt_trans hlt (by decide)) _ rfl

/-- The entries that the slots hold. -/
def identEntries (slots : List (Blk × Blk)) : List (BitVec 64 × BitVec 64) :=
  (slots.filter (fun e => e.1.pl != BitVec.allOnes 64)).map (fun e => (e.1.pl, e.2.pl))

/-- The match begins: NFOUND shows the SMs found. -/
def State.foundShown (s : State) (n found : Nat) : State := (s.setPort n { s.port n with nonces := [] }).setFld (F.RPU_PORT_STAT_NFOUND n) found

/-- The identity registers and MATCH codes of the entries. -/
def State.entriesIn (s : State) (n : Nat) (es : List (BitVec 64 × BitVec 64)) : State :=
  let s := (List.range 64).foldl (fun s p =>
    s.setFld (F.RPU_PORT_POS_MATCH n p) (if s.smOf (smAddr n p) ≠ 0 ∧ p < s.ncfg n then 6 else 0)) s
  ((List.range es.length).zip es).foldl (fun s (x : Nat × BitVec 64 × BitVec 64) =>
    s.identEntry n es.length x.1 x.2.1 x.2.2 (es.map (·.1))) s

/-- MAP_ERR where a position does not match. -/
def State.matchJudged (s : State) (n : Nat) : State :=
  if (List.range 64).any (fun p => decide (2 ≤ s.fld (F.RPU_PORT_POS_MATCH n p))) then s.portFlag n F.RPU_PORT_STAT_MAP_ERR else s

theorem identTake_eq (s : State) (n : Nat) (slots : List (Blk × Blk)) :
    s.identTake n slots = ((s.foundShown n (identEntries slots).length).entriesIn n (identEntries slots)).matchJudged n := rfl

theorem identKept_entriesIn (s : State) (hn : n < 64) {es : List (BitVec 64 × BitVec 64)} (hes : es.length ≤ 64) :
    IdentKept n s (s.entriesIn n es) := by
  unfold State.entriesIn
  extract_lets v
  have hv : IdentKept n s v := (IdentKept.refl n s).foldl fun q hq u =>
    (IdentKept.refl n u).setPos hn (Nat.lt_trans (List.mem_range.1 hq) (by decide)) _ rfl
  exact hv.foldl fun x hx u => identKept_identEntry u hn (mem_zip_range.1 (show (x.1, x.2) ∈ _ from hx)).1 hes _ _ _

theorem identKept_identTake (s : State) (hn : n < 64) (slots : List (Blk × Blk)) (h : (identEntries slots).length ≤ 64) :
    IdentKept n (s.foundShown n (identEntries slots).length) (s.identTake n slots) := by
  rw [identTake_eq]
  refine (identKept_entriesIn _ hn h).trans ?_
  unfold State.matchJudged
  split
  · exact identKept_mapErr _ hn
  · exact .refl n _

/-- What the match of a whole IDENT frame shows, and what it leaves alone. -/
theorem identTake_spec (s : State) (hn : n < 64) (slots : List (Blk × Blk)) (h : (identEntries slots).length ≤ 64) (t : State)
    (ht : t = s.identTake n slots) :
    t.fld (F.RPU_PORT_STAT_NFOUND n) = (identEntries slots).length ∧ SameMem s t ∧ t.phase n = s.phase n ∧ t.cycNow = s.cycNow ∧
      (t.port n).identDue = (s.port n).identDue ∧ (t.port n).join = (s.port n).join ∧ (t.port n).sess = (s.port n).sess ∧
      (t.port n).next = (s.port n).next := by
  have hk := identKept_identTake s hn slots h
  rw [← ht] at hk
  generalize (identEntries slots).length = found at h hk
  have hfound : (s.foundShown n found).fld (F.RPU_PORT_STAT_NFOUND n) = found :=
    (fld_setFld_self _ _ _ (by simp [RF.ok, F.RPU_PORT_STAT_NFOUND])).trans (Nat.mod_eq_of_lt (show found < 2 ^ 7 by omega))
  have hphase : (s.foundShown n found).phase n = s.phase n := fld_setFld_apart _ _ _ _
    (by simp [RF.ok, F.RPU_PORT_STAT_PHASE]) (by simp [RF.apart, F.RPU_PORT_STAT_PHASE, F.RPU_PORT_STAT_NFOUND])
  have hport : ({ t.port n with nonces := [] } : Port) = { s.port n with nonces := [] } :=
    hk.port.trans (identKept_nonces s n []).port
  exact ⟨hk.nfound.trans hfound, fun a => hk.mem a, hk.phase.trans hphase, hk.cycle, (congrArg Port.identDue hport :),
    (congrArg Port.join hport :), (congrArg Port.sess hport :), (congrArg Port.next hport :)⟩

/-! ## What follows the match (R118, R119, R132) -/

/-- Unadmitted SMs that match join the session in force. -/
def State.joinTaken (s : State) (n : Nat) : State :=
  let js := (s.matched n).filter (fun q => !s.bit (F.RPU_PORT_POS_ADM n q))
  let s := js.foldl (fun s q => s.setBit (F.RPU_PORT_POS_ADM n q) true) s
  s.setPort n { s.port n with joiners := js, join := false }

/-- The positions that match are admitted, and no others. -/
def State.matchAdmitted (s : State) (n : Nat) : State :=
  (List.range 64).foldl (fun v q => v.setBit (F.RPU_PORT_POS_ADM n q) ((s.matched n).contains q)) s

/-- Session `x` waits for its start. -/
def State.sessionSet (s : State) (n : Nat) (x : Session) : State :=
  (s.setPort n { s.port n with next := some x, join := false }).setPhase n phSession

/-- The session of salt `salt` that starts 64 cycles after the next one. -/
def State.sessionOf (s : State) (n : Nat) (salt : BitVec 128) : Session :=
  ⟨s.cycNow + 65, salt, hkdfExtract (beBytes 16 salt.toNat) (beBytes 32 (s.ringKey n).toNat), false⟩

/-- A new session is set up, its salt drawn. -/
def State.sessionMade (s : State) (n : Nat) : State :=
  let v := s.free64.2.free64.2
  (v.matchAdmitted n).sessionSet n (v.sessionOf n (s.free64.1 ++ s.free64.2.free64.1))

theorem identDone_eq (s : State) (n : Nat) : s.identDone n =
    if (s.port n).join && (s.port n).sess.isSome then s.joinTaken n
    else if s.fld (F.RPU_PORT_STAT_NFOUND n) = 0 then s else s.sessionMade n := rfl

theorem joinTaken_spec (s : State) (hn : n < 64) (t : State) (ht : t = s.joinTaken n) :
    t.fld (F.RPU_PORT_STAT_NFOUND n) = s.fld (F.RPU_PORT_STAT_NFOUND n) ∧ SameMem s t ∧ t.phase n = s.phase n ∧
      (t.port n).identDue = (s.port n).identDue ∧ (t.port n).join = false ∧ (t.port n).sess = (s.port n).sess ∧
      (t.port n).next = (s.port n).next := by
  rw [ht]
  unfold State.joinTaken
  extract_lets js v
  have hv : IdentKept n s v := (IdentKept.refl n s).foldl fun q hq u => by
    have hlt : q < s.ncfg n := List.mem_range.1 (List.mem_filter.1 (List.mem_filter.1 hq).1).1
    exact (IdentKept.refl n u).setPos hn (Nat.lt_trans hlt (ncfg_lt s n)) _ rfl
  clear_value v
  refine ⟨hv.nfound, fun a => hv.mem a, hv.phase, ?_⟩
  simp only [port_setPort_self, true_and]
  exact ⟨(congrArg Port.identDue hv.port :), (congrArg Port.sess hv.port :), (congrArg Port.next hv.port :)⟩

theorem identKept_matchAdmitted (s : State) (hn : n < 64) : IdentKept n s (s.matchAdmitted n) :=
  (IdentKept.refl n s).foldl fun _ hq u => (IdentKept.refl n u).setPos hn (Nat.lt_trans (List.mem_range.1 hq) (by decide)) _ rfl

theorem keeps_nfound_setPhase (s : State) (hn : n < 64) (ph : Nat) : Keeps [F.RPU_PORT_STAT_NFOUND n] s (s.setPhase n ph) := by
  have hclear : (F.RPU_PORT_STAT_PHASE n).clears [F.RPU_PORT_STAT_NFOUND n] := fun g hg => .inr (by
    rw [List.mem_singleton.1 hg]
    simp [RF.ok, RF.apart, F.RPU_PORT_STAT_PHASE, F.RPU_PORT_STAT_NFOUND])
  have hset : Keeps [F.RPU_PORT_STAT_NFOUND n] s (s.setFld (F.RPU_PORT_STAT_PHASE n) ph) :=
    (Keeps.refl _ s).setFld ph hclear (Nat.lt_trans (portReg_at hn) (by decide))
  exact .ite (fun _ => .refl _ s) fun _ => hset.raiseKey _ _ fun g hg => bringUp_below hn g (by simp [List.mem_singleton.1 hg])

theorem sessionSet_spec (s : State) (hn : n < 64) (x : Session) :
    Keeps [F.RPU_PORT_STAT_NFOUND n] s (s.sessionSet n x) ∧ (s.sessionSet n x).phase n = phSession ∧
      (s.sessionSet n x).port n = { s.port n with next := some x, join := false } := by
  have hset : Keeps [F.RPU_PORT_STAT_NFOUND n] s (s.setPort n { s.port n with next := some x, join := false }) := .parts (.refl _ s)
  exact ⟨hset.trans (keeps_nfound_setPhase _ hn _), phase_setPhase _ hn (by decide), (port_setPhase _ n _ n).trans (port_setPort_self s n _)⟩

theorem sessionMade_spec (s : State) (hn : n < 64) (t : State) (ht : t = s.sessionMade n) :
    t.fld (F.RPU_PORT_STAT_NFOUND n) = s.fld (F.RPU_PORT_STAT_NFOUND n) ∧ SameMem s t ∧ t.phase n = phSession ∧
      (t.port n).identDue = (s.port n).identDue ∧ ∃ x, (t.port n).next = some x ∧ x.start = s.cycNow + 65 := by
  have hfree : IdentKept n s s.free64.2.free64.2 := ⟨.parts (.refl _ s), rfl, rfl⟩
  rw [ht, State.sessionMade]
  generalize s.free64.1 ++ s.free64.2.free64.1 = salt
  have hstart : (s.free64.2.free64.2.sessionOf n salt).start = s.cycNow + 65 := rfl
  generalize s.free64.2.free64.2.sessionOf n salt = x at hstart
  have hw := hfree.trans (identKept_matchAdmitted _ hn)
  generalize s.free64.2.free64.2.matchAdmitted n = w at hw
  obtain ⟨hk, hphase, hport⟩ := sessionSet_spec w hn x
  rw [hport]
  exact ⟨(hk.fields _ (by simp)).trans hw.nfound, fun a => (hk.mem a).trans (hw.mem a), hphase, (congrArg Port.identDue hw.port :), x, rfl, hstart⟩

/-! ## The command -/

theorem length_pairUp_le : ∀ l : List Blk, 2 * (pairUp l).length ≤ l.length
  | [] => by simp [pairUp]
  | [_] => by simp [pairUp]
  | _ :: _ :: l => by
    have := length_pairUp_le l
    simp only [pairUp, List.length_cons]
    omega

/-- The holder takes the IDENT frame that it asked for. -/
def State.identIn (s : State) (n k : Nat) (fs : List Blk) : State :=
  let v := s.setPort n { s.port n with identDue := none }
  if (nthBlk (bodyOf fs) 0).f 63 32 = (cyc32 k).toNat ∧ (bodyOf fs).length = 2 * s.islot n + 1 then
    (v.identTake n (pairUp ((bodyOf fs).drop 1))).identDone n
  else v.setPort n { v.port n with reqIdent := true }

theorem exec_identFrame (s : State) (t : Nat) (port : Fin 64) (fs : List Blk) : exec (.identFrame t port fs) s = .next (s.onDie t fun s =>
    if s.role ≠ roleActive then s.forward port fs none
    else match (s.port port).identDue with
      | none => s
      | some k => s.identIn port k fs) := rfl

/-- A frame of the wrong cycle or length is asked for again. -/
theorem identIn_wrong (s : State) (n : Nat) {fs : List Blk}
    (h : ¬ ((nthBlk (bodyOf fs) 0).f 63 32 = (cyc32 k).toNat ∧ (bodyOf fs).length = 2 * s.islot n + 1)) (t : State) (ht : t = s.identIn n k fs) :
    (t.port n).identDue = none ∧ (t.port n).reqIdent = true ∧ Frame [] [] [] { s with ports := t.ports } t := by
  rw [ht, State.identIn, if_neg h]
  refine ⟨?_, ?_, .refl _ _ _ _⟩ <;> simp only [port_setPort_self]

/-- The right frame shows the SMs found; a join goes into the session in force, else SMs found lead to a new one. -/
theorem identIn_right (s : State) (hn : n < 64) {fs : List Blk}
    (h : (nthBlk (bodyOf fs) 0).f 63 32 = (cyc32 k).toNat ∧ (bodyOf fs).length = 2 * s.islot n + 1) (t : State) (ht : t = s.identIn n k fs) :
    (t.port n).identDue = none ∧ t.fld (F.RPU_PORT_STAT_NFOUND n) = (identEntries (pairUp ((bodyOf fs).drop 1))).length ∧ SameMem s t ∧
      ((identEntries (pairUp ((bodyOf fs).drop 1))).length ≠ 0 → (s.port n).join = false ∨ (s.port n).sess = none →
        t.phase n = phSession ∧ ∃ x, (t.port n).next = some x ∧ x.start = s.cycNow + 65) ∧
      ((s.port n).join = true → (s.port n).sess ≠ none → (t.port n).join = false ∧ (t.port n).sess = (s.port n).sess ∧
        (t.port n).next = (s.port n).next ∧ t.phase n = s.phase n) := by
  rw [ht, State.identIn, if_pos h]
  clear ht
  have hlen : (identEntries (pairUp ((bodyOf fs).drop 1))).length ≤ 64 := by
    have hp := length_pairUp_le ((bodyOf fs).drop 1)
    have hfilter := List.length_filter_le (fun e : Blk × Blk => e.1.pl != BitVec.allOnes 64) (pairUp ((bodyOf fs).drop 1))
    have hslots : s.islot n ≤ 64 := Nat.min_le_left _ _
    simp only [identEntries, List.length_map, List.length_drop] at hp hfilter ⊢
    omega
  obtain ⟨hfound, hmem, hphase, hcyc, hdue, hjoin, hsess, hnext⟩ :=
    identTake_spec (s.setPort n { s.port n with identDue := none }) hn (pairUp ((bodyOf fs).drop 1)) hlen _ rfl
  rw [port_setPort_self] at hdue hjoin hsess hnext
  generalize State.identTake _ n (pairUp ((bodyOf fs).drop 1)) = v at *
  rw [identDone_eq, hjoin, hsess]
  by_cases hj : ((s.port n).join && (s.port n).sess.isSome) = true
  · rw [if_pos hj]
    obtain ⟨h1, h2, h3, h4, h5, h6, h7⟩ := joinTaken_spec v hn _ rfl
    refine ⟨h4.trans hdue, h1.trans hfound, fun a => (h2 a).trans (hmem a), fun _ hno => ?_, fun _ _ => ⟨h5, h6.trans hsess, h7.trans hnext, h3.trans hphase⟩⟩
    rcases hno with hno | hno <;> simp [hno] at hj
  · rw [if_neg hj]
    have hno : (s.port n).join = true → (s.port n).sess ≠ none → False := fun h1 h2 => hj (by
      simpa [h1] using Option.isSome_iff_ne_none.2 h2)
    by_cases h0 : v.fld (F.RPU_PORT_STAT_NFOUND n) = 0
    · rw [if_pos h0]
      exact ⟨hdue, hfound, hmem, fun hne => absurd (hfound.symm.trans h0) hne, fun h1 h2 => (hno h1 h2).elim⟩
    · rw [if_neg h0]
      obtain ⟨h1, h2, h3, h4, x, h5, h6⟩ := sessionMade_spec v hn _ rfl
      exact ⟨h4.trans hdue, h1.trans hfound, fun a => (h2 a).trans (hmem a), fun _ _ => ⟨h3, x, h5, by rw [h6, hcyc]; rfl⟩,
        fun h1 h2 => (hno h1 h2).elim⟩

end Sys2Proof.Machine
end

section
/-! TSTAMP_FRAME_RECEIVED: the walk over the hops from the reference end (R123, R124, R133). -/

namespace Sys2Proof.Machine

variable {rs es ks : List Nat} {s t u v : State} {n k p q time : Nat}

/-! ## Hops -/

/-- The hop into position `p` of ring `n`. -/
def State.hopOf (s : State) (n p : Nat) : Hop := spGet {} (s.port n).hops p

/-- From `s` to `t` memory stays, and the hops of ring `n` but those into the positions `ps`. -/
structure HopsKept (n : Nat) (ps : List Nat) (s t : State) : Prop where
  mem : SameMem s t
  hops : ∀ q, q ∉ ps → t.hopOf n q = s.hopOf n q

variable {ps : List Nat}

theorem HopsKept.refl (n : Nat) (ps : List Nat) (s : State) : HopsKept n ps s s := ⟨fun _ => rfl, fun _ _ => rfl⟩
theorem HopsKept.trans (h : HopsKept n ps s t) (h' : HopsKept n ps t u) : HopsKept n ps s u :=
  ⟨fun a => (h'.mem a).trans (h.mem a), fun q hq => (h'.hops q hq).trans (h.hops q hq)⟩

theorem HopsKept.mono {qs : List Nat} (h : HopsKept n ps s t) (hs : ps ⊆ qs) : HopsKept n qs s t :=
  ⟨h.mem, fun q hq => h.hops q fun hm => hq (hs hm)⟩

theorem hopOf_of_ports (h : t.ports = s.ports) (n q : Nat) : t.hopOf n q = s.hopOf n q := by rw [State.hopOf, State.hopOf, port_of_ports h]

/-- Registers, events and messages leave the hops alone. -/
theorem HopsKept.of_frame (h : Frame rs es ks s t) : HopsKept n ps s t := ⟨h.mem, fun q _ => hopOf_of_ports (ports_of_frame h) n q⟩

/-- Ring `n` with the hop `x` into position `p`. -/
def State.setHop (s : State) (n p : Nat) (x : Hop) : State := s.setPort n { s.port n with hops := spSet {} (s.port n).hops p x }

theorem hopOf_setHop_self (s : State) (n p : Nat) (x : Hop) : (s.setHop n p x).hopOf n p = x := by
  simp only [State.hopOf, State.setHop, port_setPort_self, spGet_spSet_self]

theorem hopsKept_setHop (s : State) (n p : Nat) (x : Hop) : HopsKept n [p] s (s.setHop n p x) :=
  ⟨fun _ => rfl, fun q hq => by
    simp only [State.hopOf, State.setHop, port_setPort_self]
    exact spGet_spSet_ne _ _ _ _ _ _ (by simpa using hq)⟩

/-! ## A hop measured -/

theorem rounds_put (x : Hop) (fromB : Bool) (h : Int) (jump : Bool) : (x.put fromB h jump).rounds fromB = (h :: x.rounds fromB).take 16 := by
  cases fromB <;> rfl

/-- The delay `h` of a round, put before the earlier ones. -/
theorem hopIn_spec (s : State) (n p : Nat) (fromB : Bool) (h : Int) (t : State) (ht : t = s.hopIn n p fromB h) :
    HopsKept n [p] s t ∧ (t.hopOf n p).rounds fromB = (h :: (s.hopOf n p).rounds fromB).take 16 := by
  rw [ht]
  unfold State.hopIn
  extract_lets x l sum cnt jump y _ v
  have hv : v = s.setHop n p y := rfl
  have hy : y.rounds fromB = (h :: (s.hopOf n p).rounds fromB).take 16 := rounds_put x fromB h jump
  clear_value v y
  subst hv
  have hset := hopsKept_setHop s n p y
  have hself : ((s.setHop n p y).hopOf n p).rounds fromB = (h :: (s.hopOf n p).rounds fromB).take 16 := by rw [hopOf_setHop_self, hy]
  generalize (if fromB = true then y.jumpsB else y.jumps) = jumps
  split
  · have hf := frame_quarantine (s.setHop n p y) n p
    exact ⟨hset.trans (.of_frame hf), by rw [hopOf_of_ports (ports_of_frame hf), hself]⟩
  · exact ⟨hset, hself⟩

theorem hopAvg_eq (s : State) (n p : Nat) (fromB : Bool) :
    s.hopAvg n p fromB = divFree (((s.hopOf n p).rounds fromB).foldl (· + ·) 0) (max 1 ((s.hopOf n p).rounds fromB).length) := rfl

/-- The delay of position `p`, `d` being that ahead of the hop. -/
def State.delayShown (s : State) (n p : Nat) (dv : Int) : State :=
  (s.setHop n p { s.hopOf n p with dly := some dv }).setFld (F.RPU_PORT_POS_DELAY n p) (Int.toNat (divFree dv 8))

theorem delayShown_spec (s : State) (n p : Nat) (dv : Int) :
    HopsKept n [p] s (s.delayShown n p dv) ∧ (s.delayShown n p dv).hopOf n p = { s.hopOf n p with dly := some dv } :=
  ⟨(hopsKept_setHop s n p { s.hopOf n p with dly := some dv }).trans
    (.of_frame (rs := [R.RPU_PORT_POS n p]) (es := []) (ks := []) ((Frame.refl _ _ _ _).setFld _ (by simp [F.RPU_PORT_POS_DELAY]))),
    hopOf_setHop_self s n p _⟩

theorem frame_portFlagAt (s : State) (n key : Nat) (f : Nat → RF) : Frame [(f n).addr] [n] [] s (s.portFlagAt n key f) :=
  .ite _ (fun _ => .refl _ _ _ s) fun _ => ((Frame.refl _ _ _ s).setBit _ (by simp)).raiseKey _ (by simp)

/-- SLOW follows the residence; the rounds and the delay of the hop stay. -/
theorem residence_spec (s : State) (n p : Nat) (r : Int) (t : State) (ht : t = s.residence n p r) :
    HopsKept n [p] s t ∧ (∀ fromB, (t.hopOf n p).rounds fromB = (s.hopOf n p).rounds fromB) ∧ (t.hopOf n p).dly = (s.hopOf n p).dly := by
  rw [ht]
  unfold State.residence
  extract_lets x slow y _ v
  have hv : v = s.setHop n p y := rfl
  have hy : (∀ fromB, y.rounds fromB = (s.hopOf n p).rounds fromB) ∧ y.dly = (s.hopOf n p).dly := ⟨fun _ => rfl, rfl⟩
  clear_value v y
  subst hv
  have hset := hopsKept_setHop s n p y
  have hself := hopOf_setHop_self s n p y
  have hbit (b : Bool) : Frame [R.RPU_PORT_POS n p, R.RPU_PORT_STAT n] [n] [] (s.setHop n p y) ((s.setHop n p y).setBit (F.RPU_PORT_POS_SLOW n p) b) :=
    (Frame.refl _ _ _ _).setBit _ (by simp [F.RPU_PORT_POS_SLOW])
  have hall {w : State} (hf : Frame [R.RPU_PORT_POS n p, R.RPU_PORT_STAT n] [n] [] (s.setHop n p y) w) :
      HopsKept n [p] s w ∧ (∀ fromB, (w.hopOf n p).rounds fromB = (s.hopOf n p).rounds fromB) ∧ (w.hopOf n p).dly = (s.hopOf n p).dly := by
    rw [hopOf_of_ports (ports_of_frame hf), hself]
    exact ⟨hset.trans (.of_frame hf), hy⟩
  split
  · exact hall ((hbit true).trans ((frame_portFlagAt _ n _ F.RPU_PORT_STAT_SLOW).mono (by simp [F.RPU_PORT_STAT_SLOW]) (by simp) (by simp)))
  · exact hall (hbit false)

/-! ## The walk -/

/-- One hop of the walk: its round `h`, the delay `d` ahead of it, the residence `r`. -/
def State.hopTaken (s : State) (n p : Nat) (fromB : Bool) (h d r : Int) : State :=
  ((s.hopIn n p fromB h).delayShown n p (d + (s.hopIn n p fromB h).hopAvg n p fromB)).residence n p r

theorem walk_cons {slotAt : Nat → Option Stamps} {x : Stamps} (hx : slotAt p = some x) (s : State) (n : Nat) (fromB : Bool) (dFar aFar : Nat)
    (d : Int) (ps : List Nat) :
    s.walk n fromB slotAt dFar aFar d (p :: ps) =
      (s.hopTaken n p fromB (stampDiff x.aRef dFar + stampDiff aFar x.dRef) d (stampDiff x.dFar x.aRef)).walk n fromB slotAt x.dFar x.aFar
        (d + (s.hopIn n p fromB (stampDiff x.aRef dFar + stampDiff aFar x.dRef)).hopAvg n p fromB + 2 * stampDiff x.dFar x.aRef) ps := by
  rw [State.walk, hx]
  rfl

theorem walk_none {slotAt : Nat → Option Stamps} (hx : slotAt p = none) (s : State) (n : Nat) (fromB : Bool) (dFar aFar : Nat)
    (d : Int) (ps : List Nat) : s.walk n fromB slotAt dFar aFar d (p :: ps) = s := by
  rw [State.walk, hx]

/-- A hop taken shows its round, and the delay behind the one ahead of it by the average of its rounds. -/
theorem hopTaken_spec (s : State) (n p : Nat) (fromB : Bool) (h d r : Int) (t : State) (ht : t = s.hopTaken n p fromB h d r) :
    let l := (h :: (s.hopOf n p).rounds fromB).take 16
    HopsKept n [p] s t ∧ (t.hopOf n p).rounds fromB = l ∧ (t.hopOf n p).dly = some (d + divFree (l.foldl (· + ·) 0) (max 1 l.length)) := by
  obtain ⟨hin, hrounds⟩ := hopIn_spec s n p fromB h _ rfl
  have havg := hopAvg_eq (s.hopIn n p fromB h) n p fromB
  rw [hrounds] at havg
  rw [State.hopTaken, havg] at ht
  generalize s.hopIn n p fromB h = v at *
  obtain ⟨hshown, hhop⟩ := delayShown_spec v n p (d + divFree (((h :: (s.hopOf n p).rounds fromB).take 16).foldl (· + ·) 0)
    (max 1 ((h :: (s.hopOf n p).rounds fromB).take 16).length))
  obtain ⟨hres, hkeep, hdly⟩ := residence_spec _ n p r t ht
  rw [hhop] at hkeep hdly
  exact ⟨(hin.trans hshown).trans hres, (hkeep fromB).trans hrounds, hdly⟩

/-- The walk changes the hops of its positions alone. -/
theorem hopsKept_walk (slotAt : Nat → Option Stamps) (n : Nat) (fromB : Bool) (ps : List Nat) (s : State) (dFar aFar : Nat) (d : Int) :
    HopsKept n ps s (s.walk n fromB slotAt dFar aFar d ps) := by
  induction ps generalizing s dFar aFar d with
  | nil => exact .refl n [] s
  | cons p ps ih =>
    cases hx : slotAt p with
    | none =>
      rw [walk_none hx]
      exact .refl n _ s
    | some x =>
      rw [walk_cons hx]
      exact ((hopTaken_spec s n p fromB _ d _ _ rfl).1.mono (by simp)).trans ((ih _ _ _ _).mono (by simp))

/-- The first hop of a walk, whose position does not come again. -/
theorem walk_head {slotAt : Nat → Option Stamps} {x : Stamps} (hx : slotAt p = some x) {ps : List Nat} (hp : p ∉ ps) (s : State) (n : Nat)
    (fromB : Bool) (dFar aFar : Nat) (t : State) (ht : t = s.walk n fromB slotAt dFar aFar 0 (p :: ps)) :
    let l := ((stampDiff x.aRef dFar + stampDiff aFar x.dRef) :: (s.hopOf n p).rounds fromB).take 16
    (t.hopOf n p).rounds fromB = l ∧ (t.hopOf n p).dly = some (divFree (l.foldl (· + ·) 0) (max 1 l.length)) := by
  rw [ht, walk_cons hx, (hopsKept_walk slotAt n fromB ps _ _ _ _).hops p hp]
  obtain ⟨-, hrounds, hdly⟩ := hopTaken_spec s n p fromB (stampDiff x.aRef dFar + stampDiff aFar x.dRef) 0 (stampDiff x.dFar x.aRef) _ rfl
  rw [Int.zero_add] at hdly
  exact ⟨hrounds, hdly⟩

/-! ## The command -/

/-- The stamps of the slots that verify. -/
def State.stampSlot (s : State) (n k : Nat) (fs : List Blk) (p : Nat) : Option Stamps :=
  match (pairUp ((bodyOf fs).drop 1))[p]? with
  | some (hi, lo) => if s.slotOk 0xC2 n p k hi lo then some (stampsOf hi.pl lo.pl) else none
  | none => none

theorem stampSlot_some {hi lo : Blk} {fs : List Blk} (hs : (pairUp ((bodyOf fs).drop 1))[p]? = some (hi, lo)) (hok : s.slotOk 0xC2 n p k hi lo = true) :
    s.stampSlot n k fs p = some (stampsOf hi.pl lo.pl) := by
  simp only [State.stampSlot, hs, hok, if_true]

/-- The positions from the reference end. -/
def State.hopOrder (s : State) (n : Nat) (fromB : Bool) : List Nat := if fromB then (List.range (s.ncfg n)).reverse else List.range (s.ncfg n)

theorem nodup_hopOrder (s : State) (n : Nat) (fromB : Bool) : (s.hopOrder n fromB).Nodup := by
  unfold State.hopOrder
  split
  · exact List.nodup_reverse.2 List.nodup_range
  · exact List.nodup_range

theorem tstampTake_eq (s : State) (n k : Nat) (far : Bool) (dep arr : Nat) (fs : List Blk) : s.tstampTake n k far dep arr fs =
    s.observed (k * s.tc) fun v => v.walk n (s.sys.uid != far) (s.stampSlot n k fs) dep arr 0 (s.hopOrder n (s.sys.uid != far)) := rfl

theorem hopOf_observed (s : State) (t : Nat) (f : State → State) (n p : Nat) : (s.observed t f).hopOf n p = (f s).hopOf n p := rfl

theorem sameMem_tstampTake (s : State) (n k : Nat) (far : Bool) (dep arr : Nat) (fs : List Blk) : SameMem s (s.tstampTake n k far dep arr fs) :=
  fun a => ((linkStep_observed s (k * s.tc) _).mem a).trans ((hopsKept_walk (s.stampSlot n k fs) n (s.sys.uid != far) _ s dep arr 0).mem a)

/-- A TSTAMP frame measures the hop at the reference end. -/
theorem tstampTake_head (s : State) (n k : Nat) (far : Bool) (dep arr : Nat) {fs : List Blk} {hi lo : Blk}
    (hp : (s.hopOrder n (s.sys.uid != far)).head? = some p) (hs : (pairUp ((bodyOf fs).drop 1))[p]? = some (hi, lo))
    (hok : s.slotOk 0xC2 n p k hi lo = true) (t : State) (ht : t = s.tstampTake n k far dep arr fs) :
    let x := stampsOf hi.pl lo.pl
    let l := ((stampDiff x.aRef dep + stampDiff arr x.dRef) :: (s.hopOf n p).rounds (s.sys.uid != far)).take 16
    (t.hopOf n p).rounds (s.sys.uid != far) = l ∧ (t.hopOf n p).dly = some (divFree (l.foldl (· + ·) 0) (max 1 l.length)) := by
  have hnodup := nodup_hopOrder s n (s.sys.uid != far)
  obtain ⟨ps, hps⟩ := List.head?_eq_some_iff.1 hp
  rw [hps] at hnodup
  rw [ht, tstampTake_eq, hopOf_observed, hps]
  exact walk_head (stampSlot_some hs hok) (List.nodup_cons.1 hnodup).1 s n _ dep arr _ rfl

/-- The stamps of the round that a frame with header `head` measures, at port `n`. -/
def State.roundStamps (s : State) (n : Nat) (head : Blk) : Nat × Nat :=
  (spGet 0 (s.port n).dep ((head.f 63 32 + 254) % 256), spGet 0 (s.port n).arr ((head.f 63 32 + 254) % 256))

/-- The holder takes a TSTAMP frame of cycle `k`. -/
def State.tstampIn (s : State) (n k : Nat) (ref : Option (Nat × Nat)) (fs : List Blk) : State :=
  let da := ref.getD (s.roundStamps n (nthBlk (bodyOf fs) 0))
  s.tstampTake n k ref.isSome da.1 da.2 fs

theorem exec_tstampFrame (s : State) (t : Nat) (port : Fin 64) (ref : Option (Nat × Nat)) (fs : List Blk) :
    exec (.tstampFrame t port ref fs) s = .next (s.onDie t fun s =>
      if s.role ≠ roleActive then s.forward port fs (some (s.roundStamps port (nthBlk (bodyOf fs) 0)))
      else match s.collectCyc fs.length ((nthBlk (bodyOf fs) 0).f 63 32) with
        | none => s
        | some k => if ownFrame port ftTstamp fs && k % 4 == 0 then s.tstampIn port k ref fs else s) := by
  cases ref <;> rfl

end Sys2Proof.Machine
end

section
/-! Ring ports: each frame at its port, and what the port sends itself (R99, R100, R114, R117 to R119, R123 to R128, R133, R287). -/

namespace Sys2Proof.Machine

variable {s t u : State} {time : Nat}

/-! ## Each frame's part of the statement -/

/-- A report that is taken, as the statement names its conditions. -/
theorem takesSlot_iff {n k p : Nat} {hi lo : Blk} : s.takesSlot n k p hi lo = true ↔
    s.slotOk 0xC0 n p k hi lo = true ∧ s.bit (F.RPU_PORT_POS_QUAR n p) = false ∧ s.p0Past k = false := by
  simp [State.takesSlot, and_assoc]

/-- The port sends, it is the instant for TIME, and the cycle's TIME has not left. -/
theorem timeDue_iff (s : State) (t n early : Nat) :
    (s.sendsTime n && s.timeSlot t early && (s.port n).timeAt != some s.cycNow) = true ↔
      s.sendsTime n = true ∧ t = (64 * ((s.cycNow + 1) * s.tc - 64) - early) / 64 ∧ (s.port n).timeAt ≠ some s.cycNow := by
  simp [State.timeSlot, and_assoc]

/-- The port may send a relayed frame of cycle `j`. -/
theorem relayMay_iff (s : State) (n j : Nat) :
    (s.enabled n && s.role != roleActive && s.bit F.RDU_STAT_PL_UP && !s.sys.strapConf && !s.relayLate n j) = true ↔
      s.enabled n = true ∧ s.role ≠ roleActive ∧ s.bit F.RDU_STAT_PL_UP = true ∧ s.sys.strapConf = false ∧ s.relayLate n j = false := by
  simp [and_assoc]

/-- Settles O53: each command's lemma says what its frame does at the port; here their cases meet the statement's. -/
theorem ringPortsSendAndReceiveFrames : Obligations.RingPortsSendAndReceiveFrames := by
  unfold Obligations.RingPortsSendAndReceiveFrames
  intro s time port early via fs ref
  refine ⟨answers_of (exec_timeBlockSend s time port early) ?_, fun hen hrel => answers_of (exec_collectFrame s time port via fs) ?_,
    fun hen hrel => answers_of (exec_collectFrame s time port via fs) ?_, fun hen hft => answers_of (exec_downFrame s time port fs) ?_,
    fun hr => answers_of (exec_identFrame s time port fs) ?_, fun hr => answers_of (exec_tstampFrame s time port ref fs) ?_,
    fun hr => answers_of (exec_identFrame s time port fs) ?_, fun hr => answers_of (exec_tstampFrame s time port ref fs) ?_,
    answers_of (exec_relayFrame s time port fs) ?_⟩
  · generalize s.tick time = u
    refine ⟨fun h => if_neg fun hd => h ((timeDue_iff u time port early).1 hd), fun h => ?_⟩
    rw [if_pos ((timeDue_iff u time port early).2 h)]
    obtain ⟨h1, h2, h3, h4, h5⟩ := port_sendTime_spec u port.isLt u.cycNow early _ rfl
    exact ⟨h1, h2, h3, h4, h5, fun m hm => port_sendTime_ne u hm _ _, portStep_sendTime u port _ _⟩
  · have hen' : (s.tick time).enabled port = true := hen
    have hrel' : ((s.tick time).port port).relaying = false := hrel
    generalize s.tick time = u at hen' hrel'
    simp only [hen', hrel', Bool.not_true, Bool.false_eq_true, if_false]
    refine ⟨fun h => ?_, fun hown k hk => ?_⟩
    · rw [collectIn_discarded h]
      exact discarded_inc u port
    · rw [collectIn_taken hown hk]
      refine ⟨sameMem_collectTake u port.isLt k via fs, fun p hp => ?_⟩
      obtain ⟨hin, hout⟩ := cell_collectTake u port.isLt hp k via fs
      exact ⟨fun hi lo ⟨hslot, hcfg, ht⟩ => hin hi lo hslot hcfg (takesSlot_iff.2 ht),
        fun hno => hout fun hi lo ⟨hslot, hcfg, ht⟩ => hno hi lo ⟨hslot, hcfg, takesSlot_iff.1 ht⟩⟩
  · have hen' : (s.tick time).enabled port = true := hen
    have hrel' : ((s.tick time).port port).relaying = true := hrel
    simp only [hen', hrel', Bool.not_true, Bool.false_eq_true, if_false, if_true, State.forward]
  · have hen' : (s.tick time).enabled port = true := hen
    simp only [hen', Bool.not_true, Bool.false_eq_true, if_false, if_neg hft]
    have hnow : (s.tick time).now = time := rfl
    generalize s.tick time = u at hnow
    refine ⟨fun h => by rw [h], fun j ep h => ?_⟩
    rw [h]
    subst hnow
    exact ⟨fun hr => (downIn_other hr _ rfl).1, fun hr => (downIn_other hr _ rfl).2, fun hr => (downIn_holder hr _ rfl).1,
      fun hr => (downIn_holder hr _ rfl).2⟩
  · have hr' : (s.tick time).role = roleActive := hr
    generalize s.tick time = u at hr'
    rw [if_neg (not_not.2 hr')]
    refine ⟨fun h => by rw [h], fun k h => ?_⟩
    rw [h]
    by_cases hright : (nthBlk (bodyOf fs) 0).f 63 32 = (cyc32 k).toNat ∧ (bodyOf fs).length = 2 * u.islot port + 1
    · obtain ⟨hdue, hfound, hmem, hnew, hjoin⟩ := identIn_right u port.isLt hright _ rfl
      rw [identEntries, List.length_map] at hfound hnew
      exact ⟨hdue, fun hno => absurd hright hno, fun _ => ⟨hfound, hmem⟩, fun _ => hnew, fun _ => hjoin⟩
    · obtain ⟨hdue, hreq, hframe⟩ := identIn_wrong u port hright _ rfl
      exact ⟨hdue, fun _ => ⟨hreq, hframe⟩, fun h => absurd h hright, fun h => absurd h hright, fun h => absurd h hright⟩
  · have hr' : (s.tick time).role = roleActive := hr
    generalize s.tick time = u at hr'
    rw [if_neg (not_not.2 hr')]
    refine ⟨fun h => by rw [h], fun k h => ?_⟩
    rw [h]
    have hok : (ownFrame port ftTstamp fs && k % 4 == 0) = true ↔ ownFrame port ftTstamp fs = true ∧ k % 4 = 0 := by simp
    refine ⟨fun hno => if_neg fun h => hno (hok.1 h), fun h => ?_⟩
    dsimp only
    rw [if_pos (hok.2 h)]
    exact ⟨sameMem_tstampTake u port k ref.isSome _ _ fs, fun p hi lo hp hs hslot =>
      tstampTake_head u port k ref.isSome _ _ hp hs hslot _ rfl⟩
  · have hr' : (s.tick time).role ≠ roleActive := hr
    rw [if_pos hr']
    rfl
  · have hr' : (s.tick time).role ≠ roleActive := hr
    rw [if_pos hr']
    rfl
  · generalize s.tick time = u
    refine ⟨fun hno => if_neg fun h => hno ((relayMay_iff u port _).1 h), fun h => ?_⟩
    rw [if_pos ((relayMay_iff u port _).2 h)]
    obtain ⟨hport, hphase, hcnt, hstep⟩ := relayedOut_spec u port.isLt time fs _ rfl
    rw [hport]
    exact ⟨rfl, rfl, hphase, hcnt, rfl, hstep⟩

end Sys2Proof.Machine
end

section
/-! SESSION_START, QUAR_CLEAR, and what asks a ring for identification (R118, R121, R122, R132, R133). -/

namespace Sys2Proof.Machine

variable {rs : List Nat} {s t u : State} {n p q m off : Nat} {c : Nat → Bool} {x : Session}

/-! ## What the end of a quarantine leaves alone -/

/-- From `s` to `t` the registers but `rs`, the transmitters, and port `n` but for its hops stay. -/
structure QuarStep (rs : List Nat) (n : Nat) (s t : State) : Prop where
  step : PortStep rs [] s t
  ltx : t.ltx = s.ltx
  port : ({ t.port n with hops := [] } : Port) = { s.port n with hops := [] }

theorem QuarStep.refl (rs : List Nat) (n : Nat) (s : State) : QuarStep rs n s s := ⟨.refl _ _ s, rfl, rfl⟩

theorem QuarStep.trans (h : QuarStep rs n s t) (h' : QuarStep rs n t u) : QuarStep rs n s u :=
  ⟨h.step.trans h'.step, h'.ltx.trans h.ltx, h'.port.trans h.port⟩

/-- A step of the ports in which no transmitter takes part. -/
theorem PortStep.frame {es : List Nat} (h : PortStep rs es s t) (hx : t.ltx = s.ltx) : Frame rs es [] { s with ports := t.ports } t := by
  rw [PortStep, hx] at h
  exact h

theorem ltx_of_frame {es ks : List Nat} (h : Frame rs es ks s t) : t.ltx = s.ltx := show t.bare.ltx = s.bare.ltx from congrArg _ h.bare

/-! ## The quarantine of one position -/

/-- The word of RPU_PORT_QUAR that shows position `p`. -/
def quarWord (n p : Nat) : RF := if p < 32 then F.RPU_PORT_QUAR_LO_V n else F.RPU_PORT_QUAR_HI_V n

/-- The quarantine of position `p` as RPU_PORT_QUAR and RPU_PORT_POS show it. -/
def State.quarShown (s : State) (n p : Nat) : Bool × Bool := (s.fbit (quarWord n p) (p % 32), s.bit (F.RPU_PORT_POS_QUAR n p))

/-- Port `n` with the time steps of the hop into position `p` forgotten. -/
def State.calmPort (s : State) (n p : Nat) : Port :=
  { s.port n with hops := spSet {} (s.port n).hops p { spGet {} (s.port n).hops p with jumps := 0, jumpsB := 0 } }

theorem unquarantine_eq (s : State) (n : Nat) (hp : p < 64) :
    s.unquarantine n p = ((s.setFbit (quarWord n p) (p % 32) false).setPort n (s.calmPort n p)).setBit (F.RPU_PORT_POS_QUAR n p) false := by
  unfold State.unquarantine quarWord
  split
  next h => rw [Nat.mod_eq_of_lt h]; rfl
  next h => rw [show p % 32 = p - 32 by omega]; rfl

theorem quarWord_ok (n p : Nat) : (quarWord n p).ok ∧ (quarWord n p).w = 32 := by
  unfold quarWord
  split <;> exact ⟨Nat.le_refl 32, rfl⟩

theorem quarWord_addr (n p : Nat) : (quarWord n p).addr = if p < 32 then R.RPU_PORT_QUAR_LO n else R.RPU_PORT_QUAR_HI n :=
  apply_ite RF.addr _ _ _

theorem quarWord_ne_pos (n p q : Nat) : (quarWord n p).addr ≠ R.RPU_PORT_POS n q := by
  rw [quarWord_addr]
  simp only [R.RPU_PORT_QUAR_LO, R.RPU_PORT_QUAR_HI, R.RPU_PORT_POS]
  split <;> omega

theorem quarStep_unquarantine (s : State) (n : Nat) (hp : p < 64) :
    QuarStep [(quarWord n p).addr, R.RPU_PORT_POS n p] n s (s.unquarantine n p) := by
  rw [unquarantine_eq s n hp]
  have hword : PortStep [(quarWord n p).addr, R.RPU_PORT_POS n p] [] s (s.setFbit (quarWord n p) (p % 32) false) :=
    .of_frame ((Frame.refl _ _ _ s).setFbit _ _ (by simp))
  refine ⟨(hword.setPort n _).trans (.of_frame ((Frame.refl _ _ _ _).setBit _ (by simp [F.RPU_PORT_POS_QUAR]))), rfl, ?_⟩
  exact congrArg (fun y : Port => { y with hops := [] }) (port_setPort_self _ n (s.calmPort n p))

theorem quarShown_unquarantine_self (s : State) (n : Nat) (hp : p < 64) : (s.unquarantine n p).quarShown n p = (false, false) := by
  obtain ⟨hok, hw⟩ := quarWord_ok n p
  rw [unquarantine_eq s n hp]
  refine Prod.ext ?_ (bit_setBit_self _ _ _ (by simp [RF.ok, F.RPU_PORT_POS_QUAR]) rfl)
  exact (fbit_setFld_ne _ _ _ _ _ (quarWord_ne_pos n p p)).trans (fbit_setFbit_self s _ _ _ hok (by omega))

/-- The end of one quarantine leaves the others. -/
theorem quarShown_unquarantine_ne (s : State) (n : Nat) (hp : p < 64) (hq : q < 64) (h : p ≠ q) :
    (s.unquarantine n p).quarShown n q = s.quarShown n q := by
  have hpos : R.RPU_PORT_POS n q ≠ R.RPU_PORT_POS n p := by simp only [R.RPU_PORT_POS]; omega
  have hset : (s.setFbit (quarWord n p) (p % 32) false).fbit (quarWord n q) (q % 32) = s.fbit (quarWord n q) (q % 32) := by
    by_cases hw : p / 32 = q / 32
    · have hsame : quarWord n p = quarWord n q := by simp only [quarWord, show p < 32 ↔ q < 32 by omega]
      rw [hsame]
      exact fbit_setFbit_bit_ne s _ false (quarWord_ok n q).1 (by omega)
    · refine fbit_setFld_ne s _ _ _ _ ?_
      rw [quarWord_addr, quarWord_addr]
      simp only [R.RPU_PORT_QUAR_LO, R.RPU_PORT_QUAR_HI]
      split_ifs <;> omega
  rw [unquarantine_eq s n hp]
  exact Prod.ext ((fbit_setFld_ne _ _ _ _ _ (quarWord_ne_pos n q p)).trans hset)
    ((bit_setBit_ne _ _ _ _ hpos).trans (bit_setFld_ne s _ _ _ (quarWord_ne_pos n p q).symm))

/-! ## The quarantine of many positions -/

/-- The quarantines of the `m` positions from `off` on that `c` chooses end. -/
def State.quarEnds (s : State) (n m off : Nat) (c : Nat → Bool) : State :=
  (List.range m).foldl (fun s b => if c b then s.unquarantine n (b + off) else s) s

theorem quarClear_eq (s : State) (n : Nat) (hi : Bool) (v : BitVec 32) :
    s.quarClear n hi v = s.quarEnds n 32 (if hi then 32 else 0) v.getLsbD := rfl

/-- Each chosen position shows no quarantine, each other one its own as before. -/
theorem quarShown_quarEnds (s : State) (n : Nat) (hm : m + off ≤ 64) (c : Nat → Bool) {b : Nat} (hb : b < m) :
    (s.quarEnds n m off c).quarShown n (b + off) = if c b then (false, false) else s.quarShown n (b + off) := by
  obtain ⟨v, hv, hr⟩ := foldl_range_obs (fun (s : State) b => if c b then s.unquarantine n (b + off) else s) (·.quarShown n (b + off)) hb
    (fun v j hj hlt => by
      split
      · exact quarShown_unquarantine_ne v n (by omega) (by omega) (by omega)
      · rfl) s
  refine hr.trans ?_
  split
  · exact quarShown_unquarantine_self v n (by omega)
  · exact hv

theorem quarStep_quarEnds (s : State) (n : Nat) (hm : m + off ≤ 64) (c : Nat → Bool)
    (hr : ∀ b < m, (quarWord n (b + off)).addr ∈ rs ∧ R.RPU_PORT_POS n (b + off) ∈ rs) : QuarStep rs n s (s.quarEnds n m off c) := by
  refine List.foldlRecOn _ _ (motive := QuarStep rs n s) (.refl rs n s) fun u hu b hb => ?_
  have hlt := List.mem_range.1 hb
  split
  · obtain ⟨hstep, hltx, hport⟩ := quarStep_unquarantine u n (show b + off < 64 by omega)
    obtain ⟨hword, hpos⟩ := hr b hlt
    exact hu.trans ⟨Frame.mono hstep (by simp [hword, hpos]) (by simp) (by simp), hltx, hport⟩
  · exact hu

/-- A field whose bits are all clear. -/
theorem fld_eq_zero_of_fbit (s : State) {f : RF} (h : ∀ b < f.w, s.fbit f b = false) : s.fld f = 0 := by
  refine Nat.eq_of_testBit_eq fun b => ?_
  rw [Nat.zero_testBit]
  by_cases hb : b < f.w
  · exact h b hb
  · simp [State.fld, RF.testBit_get, hb]

/-- Both words of RPU_PORT_QUAR are clear where no position shows a quarantine. -/
theorem quar_zero_of_quarShown (h : ∀ q < 64, s.quarShown n q = (false, false)) :
    s.fld (F.RPU_PORT_QUAR_LO_V n) = 0 ∧ s.fld (F.RPU_PORT_QUAR_HI_V n) = 0 := by
  have hbit (q : Nat) (hq : q < 64) : s.fbit (quarWord n q) (q % 32) = false := congrArg Prod.fst (h q hq)
  constructor <;> refine fld_eq_zero_of_fbit s fun b hb => ?_
  · have hb : b < 32 := hb
    simpa [quarWord, hb, Nat.mod_eq_of_lt hb] using hbit b (by omega)
  · have hb : b < 32 := hb
    simpa [quarWord, Nat.mod_eq_of_lt hb] using hbit (b + 32) (by omega)

/-! ## The start of a session -/

/-- Session `x` comes into force; the one before it is kept. -/
def State.sessionIn (s : State) (n : Nat) (x : Session) : State :=
  s.setPort n { s.port n with prev := (s.port n).sess, sess := some x, next := none }

/-- A holder that sets up the session goes on to align. -/
def State.alignNext (s : State) (n : Nat) : State := if s.role = roleActive ∧ s.phase n = phSession then s.setPhase n phAlign else s

/-- SESSION_START with session `x` pending, whose start cycle has come. -/
def State.sessionStarted (s : State) (n : Nat) (x : Session) : State := ((s.sessionIn n x).quarEnds n 64 0 fun _ => true).alignNext n

theorem startSession_due (hx : (s.port n).next = some x) (h : x.start ≤ s.cycNow) : s.startSession n = s.sessionStarted n x := by
  unfold State.startSession
  rw [hx]
  exact if_neg (Nat.not_lt.2 h)

theorem startSession_not_due (h : ∀ x, (s.port n).next = some x → s.cycNow < x.start) : s.startSession n = s := by
  unfold State.startSession
  split
  next => rfl
  next x hx => exact if_pos (h x hx)

theorem frame_alignNext (s : State) (n : Nat) : Frame [R.RPU_PORT_STAT n] [n] [] s (s.alignNext n) :=
  .ite _ (fun _ => frame_setPhase s n _) fun _ => .refl _ _ _ s

theorem phase_alignNext (s : State) (hn : n < 64) :
    (s.alignNext n).phase n = if s.role = roleActive ∧ s.phase n = phSession then phAlign else s.phase n := by
  unfold State.alignNext
  split
  · exact phase_setPhase s hn (by decide)
  · rfl

theorem quarShown_alignNext (s : State) (hn : n < 64) (hq : q < 64) : (s.alignNext n).quarShown n q = s.quarShown n q := by
  have hf := frame_alignNext s n
  have hpos := posReg_lt hn (Nat.lt_trans hq (by decide))
  have hword : (quarWord n q).addr ≠ R.RPU_PORT_STAT n ∧ (quarWord n q).addr < 0x880000 := by
    rw [quarWord_addr]
    simp only [R.RPU_PORT_QUAR_LO, R.RPU_PORT_QUAR_HI, R.RPU_PORT_STAT]
    split <;> omega
  exact Prod.ext (hf.fbit _ (by simpa using hword.1) hword.2)
    (hf.bit (by simpa [F.RPU_PORT_POS_QUAR] using posReg_ne_stat n q) (Nat.lt_trans hpos (by decide)))

/-- The registers of ring `n` that show a quarantine. -/
abbrev allQuarRegs (n : Nat) : List Nat := [R.RPU_PORT_QUAR_LO n, R.RPU_PORT_QUAR_HI n] ++ (List.range 64).map (R.RPU_PORT_POS n)

theorem quarStep_quarEnds_all (s : State) (n : Nat) : QuarStep (allQuarRegs n) n s (s.quarEnds n 64 0 fun _ => true) :=
  quarStep_quarEnds s n (by omega) _ fun b hb => ⟨by rw [quarWord_addr]; split <;> simp, by simp [hb, R.RPU_PORT_POS]⟩

theorem not_mem_allQuarRegs {a : Nat} (hlo : a ≠ R.RPU_PORT_QUAR_LO n) (hhi : a ≠ R.RPU_PORT_QUAR_HI n)
    (hpos : ∀ q < 64, R.RPU_PORT_POS n q ≠ a) : a ∉ allQuarRegs n := by
  simpa [hlo, hhi] using hpos

theorem QuarStep.role (h : QuarStep (allQuarRegs n) n s t) (hn : n < 64) : t.role = s.role :=
  h.step.fld (not_mem_allQuarRegs (by simp only [F.RDU_STAT_ROLE, R.RDU_STAT, R.RPU_PORT_QUAR_LO]; omega)
    (by simp only [F.RDU_STAT_ROLE, R.RDU_STAT, R.RPU_PORT_QUAR_HI]; omega)
    fun q hq => by simp only [F.RDU_STAT_ROLE, R.RDU_STAT, R.RPU_PORT_POS]; omega) (by decide)

theorem QuarStep.phase (h : QuarStep (allQuarRegs n) n s t) (hn : n < 64) : t.phase n = s.phase n :=
  h.step.fld (not_mem_allQuarRegs (by simp [F.RPU_PORT_STAT_PHASE, R.RPU_PORT_STAT, R.RPU_PORT_QUAR_LO])
    (by simp [F.RPU_PORT_STAT_PHASE, R.RPU_PORT_STAT, R.RPU_PORT_QUAR_HI]) fun q _ => posReg_ne_stat n q)
    (Nat.lt_trans (portReg_at hn) (by decide))

/-- What a session that comes into force changes. -/
theorem sessionStarted_spec (s : State) (hn : n < 64) (x : Session) (t : State) (ht : t = s.sessionStarted n x) :
    ((t.port n).sess = some x ∧ (t.port n).prev = (s.port n).sess ∧ (t.port n).next = none) ∧
      (∀ q < 64, t.quarShown n q = (false, false)) ∧
      t.phase n = (if s.role = roleActive ∧ s.phase n = phSession then phAlign else s.phase n) ∧
      Frame (R.RPU_PORT_STAT n :: allQuarRegs n) [n] [] { s with ports := t.ports } t := by
  rw [ht, State.sessionStarted]
  have hin : PortStep (R.RPU_PORT_STAT n :: allQuarRegs n) [n] s (s.sessionIn n x) := (PortStep.refl _ _ s).setPort n _
  have hend := quarStep_quarEnds_all (s.sessionIn n x) n
  have hshown (q : Nat) (hq : q < 64) := quarShown_quarEnds (s.sessionIn n x) n (off := 0) (Nat.le_refl 64) (fun _ => true) hq
  generalize (s.sessionIn n x).quarEnds n 64 0 (fun _ => true) = v at hend hshown
  have halign := frame_alignNext v n
  refine ⟨?_, fun q hq => (quarShown_alignNext v hn hq).trans (hshown q hq), ?_, ?_⟩
  · have hport := hend.port
    rw [State.sessionIn, port_setPort_self] at hport
    rw [port_of_ports (ports_of_frame halign)]
    exact ⟨(congrArg Port.sess hport :), (congrArg Port.prev hport :), (congrArg Port.next hport :)⟩
  · rw [phase_alignNext v hn, hend.role hn, hend.phase hn]
    rfl
  · have hquar : PortStep (R.RPU_PORT_STAT n :: allQuarRegs n) [n] (s.sessionIn n x) v :=
      Frame.mono hend.step (List.subset_cons_self _ _) (by simp) (by simp)
    have hphase : PortStep (R.RPU_PORT_STAT n :: allQuarRegs n) [n] v (v.alignNext n) := .of_frame (halign.mono (by simp) (by simp) (by simp))
    exact ((hin.trans hquar).trans hphase).frame ((ltx_of_frame halign).trans hend.ltx)

/-! ## QUAR_CLEAR -/

/-- What a write to a word of RPU_PORT_QUAR changes: the quarantines of its bits. -/
theorem quarClear_spec (s : State) (n : Nat) (hi : Bool) (v : BitVec 32) (f : RF)
    (hf : f = if hi then F.RPU_PORT_QUAR_HI_V n else F.RPU_PORT_QUAR_LO_V n) (o : Nat) (ho : o = if hi then 32 else 0)
    (t : State) (ht : t = s.quarClear n hi v) :
    (∀ b, b < 32 → t.fbit f b = (s.fbit f b && !v.getLsbD b) ∧
      t.bit (F.RPU_PORT_POS_QUAR n (b + o)) = (s.bit (F.RPU_PORT_POS_QUAR n (b + o)) && !v.getLsbD b)) ∧
    Frame (f.addr :: (List.range 32).map fun b => R.RPU_PORT_POS n (b + o)) [] [] { s with ports := t.ports } t := by
  rw [ht, quarClear_eq, ← ho]
  have hm : 32 + o ≤ 64 := by rw [ho]; split <;> omega
  have hword (b : Nat) (hb : b < 32) : quarWord n (b + o) = f ∧ (b + o) % 32 = b := by
    rw [hf, ho]
    cases hi <;> simp [quarWord, hb, Nat.mod_eq_of_lt hb]
  refine ⟨fun b hb => ?_, ?_⟩
  · have hshown := quarShown_quarEnds s n hm v.getLsbD hb
    rw [State.quarShown, State.quarShown, (hword b hb).1, (hword b hb).2] at hshown
    cases hv : v.getLsbD b <;> simpa [hv] using hshown
  · have hstep := quarStep_quarEnds (rs := f.addr :: (List.range 32).map fun b => R.RPU_PORT_POS n (b + o)) s n hm v.getLsbD fun b hb =>
      ⟨by rw [(hword b hb).1]; exact List.mem_cons_self, List.mem_cons_of_mem _ (List.mem_map.2 ⟨b, List.mem_range.2 hb, rfl⟩)⟩
    exact hstep.step.frame hstep.ltx

/-! ## The commands -/

/-- A request that changes the port alone. -/
theorem setPort_spec (s : State) (n : Nat) (y : Port) :
    (s.setPort n y).port n = y ∧ Frame [] [] [] { s with ports := (s.setPort n y).ports } (s.setPort n y) :=
  ⟨port_setPort_self s n y, .refl _ _ _ _⟩

/-- RESESSION in the holder, on an enabled port. -/
theorem resessionPort_spec (hn : n < 64) (h : s.role = roleActive ∧ s.enabled n = true) (t : State) (ht : t = s.resessionPort n) :
    t.port n = { s.port n with reqIdent := true, join := false } ∧ t.phase n = phIdent ∧
      Frame [R.RPU_PORT_STAT n] [n] [] { s with ports := t.ports } t := by
  rw [ht, State.resessionPort, if_pos h]
  have hf := frame_setPhase (s.setPort n { s.port n with reqIdent := true, join := false }) n phIdent
  refine ⟨(port_setPhase _ n _ n).trans (port_setPort_self s n _), phase_setPhase _ hn (by decide), ?_⟩
  rw [ports_of_frame hf]
  exact hf

/-- Settles O54: a due session by what its start shows and leaves, the requests by the port that they write, QUAR_CLEAR bit by bit. -/
theorem ringSessionsAndQuarantine : Obligations.RingSessionsAndQuarantine := by
  unfold Obligations.RingSessionsAndQuarantine
  intro s time port hi v
  refine ⟨answers_of rfl ⟨startSession_not_due (s := s.tick time), fun x hx hdue => ?_⟩,
    answers_of rfl ⟨fun hno => if_neg hno, fun hdue => ?_⟩,
    answers_of rfl ⟨fun hr => if_neg hr, fun hr => ?_⟩,
    answers_of rfl ⟨fun hno => if_neg hno, fun hmay => resessionPort_spec port.isLt hmay _ rfl⟩,
    answers_of rfl (quarClear_spec _ port hi v _ rfl _ rfl _ rfl)⟩
  · rw [startSession_due (s := s.tick time) hx hdue]
    obtain ⟨⟨hsess, hprev, hnext⟩, hquar, hphase, hframe⟩ := sessionStarted_spec (s.tick time) port.isLt x _ rfl
    obtain ⟨hlo, hhi⟩ := quar_zero_of_quarShown hquar
    exact ⟨hsess, hprev, hnext, hlo, hhi, fun q hq => congrArg Prod.snd (hquar q hq), hphase, hframe⟩
  · rw [if_pos hdue]
    exact setPort_spec (s.tick time) port _
  · rw [State.reidentPort, if_pos hr]
    exact setPort_spec (s.tick time) port _

end Sys2Proof.Machine
end

section
/-! What stays through all that follows a jump of the count (R247, R248): the clock, the registers that show the jump, memory and pending
sources; and no action becomes pending anew. -/

namespace Sys2Proof.Machine

variable {fs : List RF} {rs es ks : List Nat} {s t u : State}

/-! ## The relation -/

/-- The count and elapsed time, the timing of the cycles, and the step that is due. -/
def State.clock (s : State) : (Nat × Nat) × CycSt × Option Int := ((s.now, s.mono), s.cyc, s.tbu.step)

/-- From `s` to `t` the fields `fs`, memory, pending sources and the clock stay; an Equinox, a scheduled step of a slot or an action of a timed
output that is not pending does not become so. -/
structure JumpKept (fs : List RF) (s t : State) : Prop where
  keeps : Keeps fs s t
  clock : t.clock = s.clock
  eqx : s.rdu.eqxN = none → t.rdu.eqxN = none
  sch : ∀ i, (s.clus i).sch = none → (t.clus i).sch = none
  tso : ∀ o, (s.tso o).queue = [] → (t.tso o).queue = []

theorem JumpKept.refl (fs : List RF) (s : State) : JumpKept fs s s := ⟨.refl fs s, rfl, id, fun _ => id, fun _ => id⟩

theorem JumpKept.trans (h : JumpKept fs s t) (h' : JumpKept fs t u) : JumpKept fs s u :=
  ⟨h.keeps.trans h'.keeps, h'.clock.trans h.clock, h'.eqx ∘ h.eqx, fun i => h'.sch i ∘ h.sch i, fun o => h'.tso o ∘ h.tso o⟩

theorem JumpKept.mono {gs : List RF} (h : JumpKept fs s t) (hs : gs ⊆ fs) : JumpKept gs s t := ⟨h.keeps.mono hs, h.clock, h.eqx, h.sch, h.tso⟩

theorem JumpKept.now_eq (h : JumpKept fs s t) : t.now = s.now := congrArg (·.1.1) h.clock
theorem JumpKept.mono_eq (h : JumpKept fs s t) : t.mono = s.mono := congrArg (·.1.2) h.clock
theorem JumpKept.cyc_eq (h : JumpKept fs s t) : t.cyc = s.cyc := congrArg (·.2.1) h.clock
theorem JumpKept.step_eq (h : JumpKept fs s t) : t.tbu.step = s.tbu.step := congrArg (·.2.2) h.clock

/-! ## Operations -/

theorem clus_of_clu (h : t.clu = s.clu) (i : Nat) : t.clus i = s.clus i := by simp only [State.clus, h]

/-- Parts of the state that the relation does not speak of change freely. -/
theorem JumpKept.parts (h : JumpKept fs s t) (hr : u.regs = t.regs := by rfl) (hm : u.mem = t.mem := by rfl) (hf : u.fco = t.fco := by rfl)
    (hn : u.notes = t.notes := by rfl) (hc : u.clock = t.clock := by rfl) (he : u.rdu.eqxN = t.rdu.eqxN := by rfl)
    (hs : u.clu = t.clu := by rfl) (ho : u.tbu.tso = t.tbu.tso := by rfl) : JumpKept fs s u :=
  h.trans ⟨(Keeps.refl fs t).parts hr hm hf hn, hc, he.trans, fun i hi => (congrArg _ (clus_of_clu hs i)).trans hi,
    fun o hq => by rwa [State.tso, ho]⟩

theorem JumpKept.wr (h : JumpKept fs s t) {a : Nat} (v : BitVec 32) (ha : ∀ g ∈ fs, g.addr ≠ a) (hb : a < 0x880000) : JumpKept fs s (t.wr a v) :=
  h.trans ⟨(Keeps.refl fs t).wr v ha hb, rfl, id, fun _ => id, fun _ => id⟩

theorem JumpKept.setFld (h : JumpKept fs s t) {f : RF} (x : Nat) (hf : f.clears fs := by decide) (hb : f.addr < 0x880000 := by decide) :
    JumpKept fs s (t.setFld f x) :=
  h.trans ⟨(Keeps.refl fs t).setFld x hf hb, rfl, id, fun _ => id, fun _ => id⟩

theorem JumpKept.setBit (h : JumpKept fs s t) {f : RF} (b : Bool) (hf : f.clears fs := by decide) (hb : f.addr < 0x880000 := by decide) :
    JumpKept fs s (t.setBit f b) := h.setFld _ hf hb

/-- A frame, of which the fields are known to stay. -/
theorem JumpKept.frame (h : JumpKept fs s t) (hf : Frame rs es ks t u) (hk : Keeps fs t u) : JumpKept fs s u :=
  h.trans ⟨hk, show u.bare.clock = t.bare.clock by rw [hf.bare], hf.rdu ▸ id,
    fun i hi => (show (u.bare.clus i).sch = (t.bare.clus i).sch by rw [hf.bare]).trans hi,
    fun o ho => (show (u.bare.tso o).queue = (t.bare.tso o).queue by rw [hf.bare]).trans ho⟩

theorem JumpKept.raiseKey (h : JumpKept fs s t) (n key : Nat) (hb : belowInt fs := by decide) : JumpKept fs s (t.raiseKey n key) :=
  h.frame (((Frame.refl [] [n] [] t).free _).free _ |>.raiseWith _ _ _ (by simp)) ((Keeps.refl fs t).raiseKey n key hb)

theorem JumpKept.raise (h : JumpKept fs s t) (n : Nat) (hb : belowInt fs := by decide) : JumpKept fs s (t.raise n) := h.raiseKey n _ hb

theorem JumpKept.ite {c : Prop} [Decidable c] (ht : JumpKept fs s t) (hu : JumpKept fs s u) : JumpKept fs s (if c then t else u) := by
  by_cases h : c
  · rw [if_pos h]; exact ht
  · rw [if_neg h]; exact hu

theorem JumpKept.when (h : JumpKept fs s t) (c : Bool) {f : State → State} (hf : JumpKept fs s (f t)) : JumpKept fs s (t.when c f) := .ite hf h

theorem JumpKept.foldl {α : Type} (h : JumpKept fs s t) {f : State → α → State} {l : List α} (hf : ∀ x ∈ l, ∀ u, JumpKept fs u (f u x)) :
    JumpKept fs s (l.foldl f t) :=
  List.foldlRecOn l f (motive := JumpKept fs s) h fun u hu x hx => hu.trans (hf x hx u)

/-! ## Registers that do not show the jump -/

/-- What the registers show of a jump: the steps counted, and LOCK. -/
def jumpFields : List RF := [F.TBU_STEP_CNT_STEPS, F.TBU_STAT_LOCK]

/-- A register below the INT block, outside of the time base's own: the timed outputs lie behind those (Table 17.9). -/
def offClock (a : Nat) : Prop := a < 0x340000 ∨ 0x340800 ≤ a ∧ a < 0x880000

/-- One register of a family of `n`. -/
theorem offClock_at {c d i n : Nat} (hi : i < n) (h : 0 < d ∧ (c + n * d ≤ 0x340000 ∨ 0x340800 ≤ c ∧ c + n * d ≤ 0x880000) := by decide) :
    offClock (c + i * d) := by
  have hlt : i * d + d ≤ n * d := by rw [← Nat.succ_mul]; exact Nat.mul_le_mul_right d hi
  unfold offClock
  omega

theorem offClock.below {a : Nat} (h : offClock a) : a < 0x880000 := by unfold offClock at h; omega

theorem jumpFields_not_offClock : ∀ g ∈ jumpFields, ¬ offClock g.addr := by unfold offClock; decide

theorem JumpKept.wrOff (h : JumpKept jumpFields s t) {a : Nat} (v : BitVec 32) (ha : offClock a) : JumpKept jumpFields s (t.wr a v) :=
  h.wr v (fun g hg e => jumpFields_not_offClock g hg (e ▸ ha)) ha.below

theorem JumpKept.setOff (h : JumpKept jumpFields s t) {f : RF} (x : Nat) (hf : offClock f.addr) : JumpKept jumpFields s (t.setFld f x) := h.wrOff _ hf

end Sys2Proof.Machine
end

section
/-! The auxiliary PWM at a jump of the count (R338 to R342): the running periods of aligned channels end, which touches the channels and their
registers alone. -/

namespace Sys2Proof.Machine

variable {s t : State} {c : Nat}

/-! ## A channel's period -/

theorem jumpKept_apwTo (s : State) (c q : Nat) : JumpKept jumpFields s (s.apwTo c q) := (JumpKept.refl _ s).parts

theorem jumpKept_setApwCh (s : State) (c : Nat) (x : ApwCh) : JumpKept jumpFields s (s.setApwCh c x) := (JumpKept.refl _ s).parts

theorem jumpKept_apwTransfer (s : State) (hc : c < 12) (b : Nat) : JumpKept jumpFields s (s.apwTransfer c b) := by
  unfold State.apwTransfer
  extract_lets x per due ph du v w
  have hv : JumpKept jumpFields s v := .ite ((JumpKept.refl _ s).wrOff _ (offClock_at hc)) (.refl _ s)
  have hw : JumpKept jumpFields s w := .ite (hv.wrOff _ (offClock_at hc)) hv
  exact .ite (.refl _ s) (hw.trans (jumpKept_setApwCh w c _))

theorem jumpKept_shortPulse (s : State) (hc : c < 12) (d p : Int) : JumpKept jumpFields s (s.shortPulse c d p).2 := by
  have hinc (v : State) (f : RF) (hf : offClock f.addr) : JumpKept jumpFields v (v.inc f) := (JumpKept.refl _ v).setOff _ hf
  unfold State.shortPulse
  extract_lets dt minp hs ls
  have hr : JumpKept jumpFields s (if hs && ls && decide (2 * d = p) then s.freeBool else (decide (2 * d < p), s)).2 := by
    split
    · exact (JumpKept.refl _ s).parts
    · exact .refl _ s
  generalize (ite ((hs && ls && decide (2 * d = p)) = true) _ _ : Bool × State) = r at hr ⊢
  obtain ⟨tie, v⟩ := r
  dsimp only at hr ⊢
  have hsupp : JumpKept jumpFields s (v.inc (F.APW_CH_CNT_SUPP c)) := hr.trans (hinc v _ (offClock_at hc))
  have hstr : JumpKept jumpFields s (v.inc (F.APW_CH_CNT_STR c)) := hr.trans (hinc v _ (offClock_at hc))
  simp only [apply_ite Prod.snd]
  exact .ite hr (.ite (.ite hsupp hstr) (.ite hr hsupp))

theorem jumpKept_setCarry (s : State) (hc : c < 12) (v : Int) : JumpKept jumpFields s (s.setCarry c v) :=
  JumpKept.wrOff (.ite (((JumpKept.refl _ s).setOff _ (offClock_at hc)).raise 169) (.refl _ s)) _ (offClock_at hc)

theorem jumpKept_apwHigh (s : State) (hc : c < 12) (len : Nat) : JumpKept jumpFields s (s.apwHigh c len).2 := by
  unfold State.apwHigh
  extract_lets period duty p dem carry d
  have hr : JumpKept jumpFields s (if d ≤ 0 then ((0 : Int), s) else if p ≤ d then ((p : Int), s) else s.shortPulse c d p).2 := by
    split_ifs
    · exact .refl _ s
    · exact .refl _ s
    · exact jumpKept_shortPulse s hc d p
  generalize (ite (d ≤ 0) _ _ : Int × State) = r at hr ⊢
  obtain ⟨e, v⟩ := r
  split
  · exact (((JumpKept.refl _ s).setOff _ (offClock_at hc)).setOff _ (offClock_at hc)).raise 164
  · exact .ite (hr.trans (jumpKept_setCarry v hc _)) (hr.setOff _ (offClock_at hc))

theorem jumpKept_apwCarry (s : State) (hc : c < 12) : JumpKept jumpFields s (s.apwCarry c) :=
  .ite ((JumpKept.refl _ s).setOff _ (offClock_at hc)) (.refl _ s)

theorem jumpKept_apwPeriod (s : State) (hc : c < 12) (b tb : Nat) : JumpKept jumpFields s (s.apwPeriod c b tb) := by
  unfold State.apwPeriod
  extract_lets v x period g joining len
  have hv : JumpKept jumpFields s v := (jumpKept_apwTo s c _).trans (jumpKept_apwTransfer _ hc b)
  have hr : JumpKept jumpFields s (v.apwHigh c len).2 := hv.trans (jumpKept_apwHigh v hc len)
  generalize v.apwHigh c len = r at hr ⊢
  obtain ⟨high, w⟩ := r
  dsimp -zeta only at hr ⊢
  extract_lets w1 x1 x2 w2 w3 w4
  have h1 : JumpKept jumpFields s w1 := hr.when _ (hr.raise 168)
  have h2 : JumpKept jumpFields s w2 := h1.trans (jumpKept_setApwCh w1 c x2)
  have h3 : JumpKept jumpFields s w3 := .ite ((h2.setOff _ (offClock_at hc)).setOff _ (by unfold offClock; decide)) h2
  have h4 : JumpKept jumpFields s w4 := h3.setBit _
  exact (h4.trans (jumpKept_apwCarry w4 hc)).trans (jumpKept_apwTo _ c _)

/-! ## All channels -/

theorem jumpKept_apwStep (s : State) : JumpKept jumpFields s s.apwStep := by
  refine (JumpKept.refl _ s).foldl fun c hc u => ?_
  have hlt := List.mem_range.1 hc
  exact .ite (.refl _ u) (.ite (jumpKept_apwPeriod u hlt _ _) (.ite (jumpKept_setApwCh u c _) (.refl _ u)))

end Sys2Proof.Machine
end

section
/-! TIME_STEP (R247, R248): the jump of the count, the end of every pending host-scheduled action, and the command. -/

namespace Sys2Proof.Machine

variable {fs : List RF} {s t : State}

/-! ## Pending actions end (R248) -/

/-- The steps of a fold over `n` things each end the action of one of them. -/
theorem foldl_ends {f : State → Nat → State} {n : Nat} {P : State → Nat → Prop} (hf : ∀ i, i < n → ∀ u, JumpKept fs u (f u i) ∧ P (f u i) i)
    (hP : ∀ {u v : State} {i : Nat}, JumpKept fs u v → P u i → P v i) (s : State) :
    JumpKept fs s ((List.range n).foldl f s) ∧ ∀ i, i < n → P ((List.range n).foldl f s) i := by
  induction n with
  | zero => exact ⟨.refl _ s, fun i hi => absurd hi (Nat.not_lt_zero i)⟩
  | succ n ih =>
    rw [List.range_succ, List.foldl_append, List.foldl_cons, List.foldl_nil]
    obtain ⟨hkept, hends⟩ := ih fun i hi => hf i (Nat.lt_succ_of_lt hi)
    obtain ⟨hstep, hn⟩ := hf n (Nat.lt_succ_self n) ((List.range n).foldl f s)
    refine ⟨hkept.trans hstep, fun i hi => ?_⟩
    rcases Nat.lt_succ_iff_lt_or_eq.1 hi with hlt | rfl
    · exact hP hstep (hends i hlt)
    · exact hn

theorem tso_setTso_self (s : State) (o : Nat) (x : TsoSt) : (s.setTso o x).tso o = x := by simp [State.tso, State.setTso]

theorem tso_setTso_ne (s : State) {o p : Nat} (x : TsoSt) (h : p ≠ o) : (s.setTso o x).tso p = s.tso p := by
  simp [State.tso, State.setTso, spGet_spSet_ne _ _ _ _ _ _ h]

/-- The queue of an output empties. -/
theorem jumpKept_dropQueue (s : State) (o : Nat) : JumpKept fs s (s.setTso o { s.tso o with queue := [] }) := by
  refine ⟨(Keeps.refl fs s).parts, rfl, id, fun _ => id, fun p hp => ?_⟩
  by_cases h : p = o
  · rw [h, tso_setTso_self]
  · rw [tso_setTso_ne s _ h, hp]

theorem jumpKept_tsoCancel (s : State) :
    JumpKept jumpFields s s.tsoCancel ∧ ∀ o, o < 8 → (s.tsoCancel.tso o).queue = [] := by
  refine foldl_ends (P := fun u o => (u.tso o).queue = []) (fun o ho u => ?_) (fun h hq => h.tso _ hq) s
  split
  next hq => exact ⟨.refl _ u, List.isEmpty_iff.1 hq⟩
  next =>
    have hdrop := jumpKept_dropQueue (fs := jumpFields) u o
    have hempty : ((u.setTso o { u.tso o with queue := [] }).tso o).queue = [] := by rw [tso_setTso_self]
    have htold : JumpKept jumpFields (u.setTso o { u.tso o with queue := [] }) ((u.setTsoQ o []).tsoReject o 2) :=
      (((JumpKept.refl _ _).setOff _ (offClock_at ho)).setOff _ (offClock_at ho)).raise 155
    exact ⟨hdrop.trans htold, htold.tso o hempty⟩

theorem clus_setClus_self (s : State) (i : Nat) (x : CluSlot) : (s.setClus i x).clus i = x := by simp [State.clus, State.setClus]

theorem clus_setClus_ne (s : State) {i j : Nat} (x : CluSlot) (h : j ≠ i) : (s.setClus i x).clus j = s.clus j := by
  simp [State.clus, State.setClus, spGet_spSet_ne _ _ _ _ _ _ h]

/-- The scheduled step of a slot goes. -/
theorem jumpKept_dropStep (s : State) (i : Nat) : JumpKept fs s (s.setClus i { s.clus i with sch := none }) := by
  refine ⟨(Keeps.refl fs s).parts, rfl, id, fun j hj => ?_, fun _ => id⟩
  by_cases h : j = i
  · rw [h, clus_setClus_self]
  · rw [clus_setClus_ne s _ h, hj]

theorem jumpKept_cluCancel (s : State) : JumpKept jumpFields s s.cluCancel ∧ ∀ i, i < 64 → (s.cluCancel.clus i).sch = none := by
  refine foldl_ends (P := fun u i => (u.clus i).sch = none) (fun i hi u => ?_) (fun h hs => h.sch _ hs) s
  dsimp only
  split
  next =>
    have hdrop := jumpKept_dropStep (fs := jumpFields) u i
    have hnone : ((u.setClus i { u.clus i with sch := none }).clus i).sch = none := by rw [clus_setClus_self]
    have htold := (((JumpKept.refl jumpFields (u.setClus i { u.clus i with sch := none })).setOff (f := F.CLU_SLOT_SCH_CTL_ARM i) 0
      (offClock_at hi)).setOff (f := F.CLU_SLOT_SCH_CTL_SCH_ST i) 2 (offClock_at hi)).raise 117
    exact ⟨hdrop.trans htold, htold.sch i hnone⟩
  next hs => exact ⟨.refl _ u, Option.not_isSome_iff_eq_none.1 hs⟩

theorem jumpKept_swapCancel (s : State) : JumpKept jumpFields s s.swapCancel := by
  refine (JumpKept.refl _ s).foldl fun c hc u => .ite ?_ (.refl _ u)
  have hat : offClock (R.TDS_CL_CTL c) := offClock_at (List.mem_range.1 hc)
  have hdrop : JumpKept jumpFields u { u with tds := { u.tds with swap := spSet none u.tds.swap c none } } := (JumpKept.refl _ u).parts
  exact ((hdrop.setOff _ hat).setOff _ hat).raise 110

theorem jumpKept_eqxCancel (s : State) : JumpKept jumpFields s s.eqxCancel ∧ s.eqxCancel.rdu.eqxN = none := by
  unfold State.eqxCancel
  split
  next =>
    have hdrop : JumpKept jumpFields s { s with rdu := { s.rdu with eqxN := none } } :=
      ⟨(Keeps.refl _ s).rdu, rfl, fun _ => rfl, fun _ => id, fun _ => id⟩
    have htold : JumpKept jumpFields { s with rdu := { s.rdu with eqxN := none } }
        (((({ s with rdu := { s.rdu with eqxN := none } } : State).setBit F.RDU_EQX_CTL_GO false).eqSt 2).raise 189) :=
      (((JumpKept.refl _ _).setBit _).setFld _).raise 189
    exact ⟨hdrop.trans htold, htold.eqx rfl⟩
  next hs => exact ⟨.refl _ s, Option.not_isSome_iff_eq_none.1 hs⟩

theorem jumpKept_longEnd (s : State) (st : BitVec 8) : JumpKept jumpFields s (s.longEnd st) := by
  unfold State.longEnd
  split
  · exact .refl _ s
  · exact ((((JumpKept.refl _ s).parts).setBit _ |>.setFld _).setFld _).raise 240

theorem jumpKept_switchCancel (s : State) : JumpKept jumpFields s s.switchCancel := by
  have hdrop : JumpKept jumpFields s { s with cfc := { s.cfc with pend := none } } := (JumpKept.refl _ s).parts
  exact .ite (((hdrop.setBit _).setFld _).trans (jumpKept_longEnd _ _)) (.refl _ s)

/-- No Equinox, no scheduled step and no action of a timed output is pending. -/
structure Unscheduled (s : State) : Prop where
  eqx : s.rdu.eqxN = none
  sch : ∀ i, i < 64 → (s.clus i).sch = none
  tso : ∀ o, o < 8 → (s.tso o).queue = []

theorem JumpKept.unscheduled (h : JumpKept fs s t) (hs : Unscheduled s) : Unscheduled t :=
  ⟨h.eqx hs.eqx, fun i hi => h.sch i (hs.sch i hi), fun o ho => h.tso o (hs.tso o ho)⟩

/-- Every pending host-scheduled action ends, and nothing else of the jump changes. -/
theorem jumpKept_schedCancel (s : State) : JumpKept jumpFields s s.schedCancel ∧ Unscheduled s.schedCancel := by
  unfold State.schedCancel
  obtain ⟨htso, hqueue⟩ := jumpKept_tsoCancel s
  generalize s.tsoCancel = v at *
  obtain ⟨hclu, hsch⟩ := jumpKept_cluCancel v
  generalize v.cluCancel = w at *
  have hswap := jumpKept_swapCancel w
  obtain ⟨heqx, hnone⟩ := jumpKept_eqxCancel w.swapCancel
  have hswitch := jumpKept_switchCancel w.swapCancel.eqxCancel
  have hlate := (hswap.trans heqx).trans hswitch
  exact ⟨(htso.trans hclu).trans hlate, hswitch.eqx hnone, fun i hi => hlate.sch i (hsch i hi),
    fun o ho => (hclu.trans hlate).tso o (hqueue o ho)⟩

/-! ## New sessions (R248) and the record of the step -/

theorem jumpKept_resessionPort (s : State) {n : Nat} (hn : n < 64) : JumpKept jumpFields s (s.resessionPort n) := by
  have hask (p : Port) : JumpKept jumpFields s (s.setPort n p) := (JumpKept.refl _ s).parts
  exact .ite (.ite (hask _) (((hask _).setOff _ (offClock_at hn)).raiseKey _ _)) (.refl _ s)

theorem jumpKept_resessionAll (s : State) : JumpKept jumpFields s s.resessionAll :=
  (JumpKept.refl _ s).foldl fun _ hn u => jumpKept_resessionPort u (mem_rings hn)

theorem Keeps.raiseWith (h : Keeps fs s t) {n : Nat} (v q : BitVec 32) (k : Nat) (hb : belowInt fs := by decide) : Keeps fs s (t.raiseWith n v q k) := by
  refine h.frame ((Frame.refl [] [n] [] t).raiseWith v q k (by simp)) (by simp) hb fun m hm hp => ?_
  cases hnever : neverPending n with
  | true => rwa [raiseWith_never hnever]
  | false =>
    by_cases hmn : m = n
    · exact hmn ▸ pends_raiseWith t n v q k hnever (hmn ▸ hm)
    · exact (pends_of_regs (regs_raiseWith hnever t v q k) m).trans ((pends_mark_ne t hm hmn).trans hp)

/-- The step is recorded, and its source is pending. -/
theorem jumpKept_stepRecord (s : State) (d : Int) : JumpKept jumpFields s (s.stepRecord d) ∧ (s.stepRecord d).pends 149 = true := by
  have hraise (v q : BitVec 32) : JumpKept jumpFields s (s.raiseWith 149 v q 0xFF) :=
    (JumpKept.refl _ s).frame ((Frame.refl [] [149] [] s).raiseWith v q _ (by simp)) ((Keeps.refl _ s).raiseWith v q _)
  have hpends (v q : BitVec 32) : (s.raiseWith 149 v q 0xFF).pends 149 = true := pends_raiseWith s 149 v q _ (by decide) (by decide)
  unfold State.stepRecord
  extract_lets x v q told w
  split
  · exact ⟨hraise v q, hpends v q⟩
  · exact ⟨(hraise v q).parts, hpends v q⟩

/-! ## LOCK ends (R248, R250) -/

theorem setLock_false (s : State) : JumpKept [F.TBU_STEP_CNT_STEPS] s (s.setLock false) ∧ (s.setLock false).bit F.TBU_STAT_LOCK = false ∧
    (s.bit F.TBU_STAT_LOCK = true → (s.setLock false).pends 152 = true) := by
  have hrun : JumpKept [F.TBU_STEP_CNT_STEPS] s { s with tbu := { s.tbu with lockN := 0 } } := (JumpKept.refl _ s).parts
  have hbit : ({ s with tbu := { s.tbu with lockN := 0 } } : State).bit F.TBU_STAT_LOCK = s.bit F.TBU_STAT_LOCK := rfl
  unfold State.setLock
  simp only [Bool.false_eq_true, if_false, hbit]
  cases hlock : s.bit F.TBU_STAT_LOCK with
  | false => exact ⟨hrun, hbit.trans hlock, fun h => absurd h (by decide)⟩
  | true =>
    refine ⟨(hrun.setBit false).raise 152, ?_, fun _ => pends_raise _ 152 (by decide) (by decide)⟩
    exact (bit_raise _ _ _ (not_mem_evRegs (by decide) _)).trans (bit_setBit_self _ _ _ (by decide) (by decide))

/-! ## The command -/

/-- The count has jumped by the offset `d`, and cycles wait for the first multiple of Tc. -/
def State.jumped (s : State) (d : Int) : State :=
  (({ s with now := (Int.ofNat s.now - roundNear d 16).toNat, tbu := { s.tbu with step := none, lastPartner := none } } : State).inc
    F.TBU_STEP_CNT_STEPS).cycStep

theorem timeStep_eq (s : State) (d : Int) :
    s.timeStep d = ((((s.jumped d).resessionAll.schedCancel).apwStep).stepRecord d).setLock false := rfl

theorem regs_jumped (s : State) (d : Int) : (s.jumped d).regs = (s.inc F.TBU_STEP_CNT_STEPS).regs := rfl

/-- All that follows the jump leaves the clock as the jump has set it. -/
theorem timeStep_kept (s : State) (d : Int) (t : State) (ht : t = s.timeStep d) :
    t.clock = (s.jumped d).clock ∧ Counted F.TBU_STEP_CNT_STEPS s t ∧ t.bit F.TBU_STAT_LOCK = false ∧ t.pends 149 = true ∧
      (s.bit F.TBU_STAT_LOCK = true → t.pends 152 = true) ∧ Unscheduled t := by
  have hcount : Counted F.TBU_STEP_CNT_STEPS s (s.jumped d) := counted_of_regs (regs_jumped s d) (fld_inc_self _ _ (by decide))
  have hlocked : (s.jumped d).bit F.TBU_STAT_LOCK = s.bit F.TBU_STAT_LOCK :=
    (bit_of_regs (regs_jumped s d) _).trans (bit_setFld_ne _ _ _ _ (by decide))
  rw [ht, timeStep_eq]
  generalize s.jumped d = j at *
  have hsess := jumpKept_resessionAll j
  obtain ⟨hcancel, hended⟩ := jumpKept_schedCancel j.resessionAll
  have hapw := jumpKept_apwStep j.resessionAll.schedCancel
  obtain ⟨hrecord, h149⟩ := jumpKept_stepRecord j.resessionAll.schedCancel.apwStep d
  have hkept := ((hsess.trans hcancel).trans hapw).trans hrecord
  have hfree := (hapw.trans hrecord).unscheduled hended
  generalize j.resessionAll.schedCancel.apwStep.stepRecord d = v at *
  obtain ⟨hlast, hoff, h152⟩ := setLock_false v
  have hall := (hkept.mono (List.cons_subset_cons _ (List.nil_subset _))).trans hlast
  exact ⟨hall.clock, (hall.keeps.fields _ (by decide)).trans hcount, hoff, hlast.keeps.pends _ (by decide) h149,
    fun hl => h152 ((hkept.keeps.bit (by decide)).trans (hlocked.trans hl)), hlast.unscheduled hfree⟩

/-- What a step of the time base changes (R247, R248): the count jumps, pending actions end, and cycles start anew at a multiple of Tc. -/
theorem timeStep_spec (s : State) (d : Int) (t : State) (ht : t = s.timeStep d) :
    t.now = (Int.ofNat s.now - roundNear d 16).toNat ∧ t.mono = s.mono ∧ Counted F.TBU_STEP_CNT_STEPS s t ∧ t.bit F.TBU_STAT_LOCK = false ∧
      t.pends 149 = true ∧ (s.bit F.TBU_STAT_LOCK = true → t.pends 152 = true) ∧ t.cyc.comps = [] ∧ t.cyc.frame = none ∧ t.tbu.step = none ∧
      t.rdu.eqxN = none ∧ t.cyc.resume = (t.now + s.tc - 1) / s.tc * s.tc ∧ (∀ i, i < 64 → (t.clus i).sch = none) ∧
      ∀ o, o < 8 → (t.tso o).queue = [] := by
  obtain ⟨hclock, hcount, hlock, h149, h152, heqx, hsch, htso⟩ := timeStep_kept s d t ht
  have hnow : t.now = (s.jumped d).now := congrArg (·.1.1) hclock
  have hcyc : t.cyc = (s.jumped d).cyc := congrArg (·.2.1) hclock
  have hresume : (s.jumped d).cyc.resume = ((s.jumped d).now + s.tc - 1) / s.tc * s.tc := rfl
  exact ⟨hnow, congrArg (·.1.2) hclock, hcount, hlock, h149, h152, congrArg CycSt.comps hcyc, congrArg CycSt.frame hcyc,
    congrArg (·.2.2) hclock, heqx, by rw [hcyc, hnow, hresume], hsch, htso⟩

end Sys2Proof.Machine
end

section
/-! What the rankers, the auxiliary queue, the CLU's commands and TIME_STEP change (R146, R160, R181, R182, R185, R247 to R249, R379). -/

namespace Sys2Proof.Machine

variable {s t : State} {rs es ks : List Nat}

/-! ## RANK_COMPLETE (R146) -/

/-- Arm `m` of computation `c` has been ranked. -/
def State.ranked (s : State) (m : Nat) (c : Comp) : State :=
  (s.setArm m { s.armSt m with rankDone := decide (s.now < c.p0 + s.fld (F.TDS_CYC_B_BN_Q 5) * 4) }).setFld F.TDS_RANK_DONE_T
    (max (min 0xFFFF (s.now - c.p0At.getD s.now)) (s.fld F.TDS_RANK_DONE_T))

theorem armSt_setArm_self (s : State) (m : Nat) (x : ArmSt) : (s.setArm m x).armSt m = x := by simp [State.armSt, State.setArm]

theorem armSt_setArm_ne (s : State) {m n : Nat} (x : ArmSt) (h : n ≠ m) : (s.setArm m x).armSt n = s.armSt n := by
  simp [State.armSt, State.setArm, spGet_spSet_ne _ _ _ _ _ _ h]

theorem ranked_spec (s : State) (m : Nat) (c : Comp) (t : State) (ht : t = s.ranked m c) :
    (t.armSt m).rankDone = decide (s.now < c.p0 + s.fld (F.TDS_CYC_B_BN_Q 5) * 4) ∧ (∀ n, n ≠ m → t.armSt n = s.armSt n) ∧
      t.fld F.TDS_RANK_DONE_T = max (min 0xFFFF (s.now - c.p0At.getD s.now)) (s.fld F.TDS_RANK_DONE_T) ∧
      Frame [R.TDS_RANK_DONE] [] [] { s with mdu := t.mdu } t := by
  subst ht
  have harm (n : Nat) : (s.ranked m c).armSt n = (s.setArm m _).armSt n := rfl
  refine ⟨by rw [harm, armSt_setArm_self], fun n hn => (harm n).trans (armSt_setArm_ne s _ hn), ?_,
    (Frame.refl _ _ _ (s.setArm m _)).setFld _ (List.mem_singleton_self _)⟩
  have hold : s.fld F.TDS_RANK_DONE_T < 2 ^ 16 := RF.get_lt _ _
  exact fld_setFld_at_self _ _ (by decide) (by omega)

/-! ## MDU_AUX (R160) -/

/-- A write to MDU_AUX that joins the queue (R160, Table 6.7). -/
def State.auxJoins (s : State) (a c : Nat) : Prop := c ≠ 0 ∧ (c < 5 ∨ 7 < c) ∧ s.configured a = true ∧ s.mdu.aux.length < 16

theorem auxWrite_joins {v : BitVec 32} (h : s.auxJoins (F.MDU_AUX_ADDR.get v) (F.MDU_AUX_CMDX.get v)) :
    s.auxWrite v = s.setAux (s.mdu.aux ++ [⟨F.MDU_AUX_ADDR.get v, F.MDU_AUX_CMDX.get v, none⟩]) := by
  obtain ⟨hnone, hcmd, hconf, hroom⟩ := h
  refine if_neg ?_
  rw [hconf]
  simp only [Bool.true_eq_false, false_or]
  omega

theorem auxWrite_rejected {v : BitVec 32} (h : ¬ s.auxJoins (F.MDU_AUX_ADDR.get v) (F.MDU_AUX_CMDX.get v)) :
    s.auxWrite v = s.setBit F.MDU_AUX_STAT_AUX_REJ true := by
  refine if_pos (by_contra fun hn => h ?_)
  obtain ⟨hnone, hn⟩ := not_or.1 hn
  obtain ⟨hcmd, hn⟩ := not_or.1 hn
  obtain ⟨hconf, hroom⟩ := not_or.1 hn
  exact ⟨hnone, by omega, Bool.eq_true_of_not_eq_false hconf, by omega⟩

theorem setAux_spec (s : State) (l : List AuxEnt) (hl : l.length ≤ 16) (t : State) (ht : t = s.setAux l) :
    t.mdu = { s.mdu with aux := l } ∧ t.fld F.MDU_AUX_STAT_DEPTH = l.length ∧ t.bit F.MDU_AUX_STAT_FULL = decide (16 ≤ l.length) ∧
      Frame [R.MDU_AUX_STAT] [] [] { s with mdu := t.mdu } t := by
  subst ht
  have hframe : Frame [R.MDU_AUX_STAT] [] [] { s with mdu := { s.mdu with aux := l } } (s.setAux l) :=
    ((Frame.refl [F.MDU_AUX_STAT_DEPTH.addr] _ _ _).setFld _ (List.mem_singleton_self _)).setBit _ (List.mem_singleton_self _)
  refine ⟨rfl, ?_, bit_setBit_self _ _ _ (by decide) rfl, hframe⟩
  rw [State.setAux, fld_setBit_apart _ _ _ _ (by decide) (by decide)]
  exact fld_setFld_at_self _ _ (by decide) (by omega)

/-! ## CLU_COMMIT (R182) and PRESET (R181) -/

/-- Slot `b` of the half from `o` on is marked where the mask names it. -/
def State.commitMark (mask : BitVec 32) (o : Nat) (s : State) (b : Nat) : State :=
  if mask.getLsbD b then s.setClus (b + o) { s.clus (b + o) with commit := true } else s

/-- The slots that the mask names are marked. -/
def State.commitMarked (s : State) (mask : BitVec 32) (o : Nat) : State := (List.range 32).foldl (State.commitMark mask o) s

theorem cluCommitReq_eq (s : State) (hi : Bool) (mask : BitVec 32) :
    s.cluCommitReq hi mask = (s.commitMarked mask (if hi then 32 else 0)).when (mask != 0) (·.setBit F.CLU_STAT_COMMIT_PEND true) := rfl

theorem clus_commitMark_ne (mask : BitVec 32) (o : Nat) (s : State) {b i : Nat} (h : i ≠ b + o) : (s.commitMark mask o b).clus i = s.clus i := by
  unfold State.commitMark
  split
  · exact clus_setClus_ne s _ h
  · rfl

theorem commit_commitMark (mask : BitVec 32) (o : Nat) (s : State) (b : Nat) :
    ((s.commitMark mask o b).clus (b + o)).commit = (mask.getLsbD b || (s.clus (b + o)).commit) := by
  unfold State.commitMark
  split
  next h => rw [clus_setClus_self, h, Bool.true_or]
  next h => rw [Bool.eq_false_iff.2 h, Bool.false_or]

theorem commit_commitMarked (s : State) (mask : BitVec 32) (o : Nat) {b : Nat} (hb : b < 32) :
    ((s.commitMarked mask o).clus (b + o)).commit = (mask.getLsbD b || (s.clus (b + o)).commit) := by
  obtain ⟨v, hv, hr⟩ := foldl_range_obs (State.commitMark mask o) (fun u => (u.clus (b + o)).commit) hb
    (fun u j hj _ => by rw [clus_commitMark_ne mask o u (by omega)]) s
  exact hr.trans ((commit_commitMark mask o v b).trans (by rw [hv]))

theorem clus_commitMarked_ne (s : State) (mask : BitVec 32) {o i : Nat} (h : i < o ∨ o + 32 ≤ i) : (s.commitMarked mask o).clus i = s.clus i :=
  List.foldlRecOn (List.range 32) _ (motive := fun u => u.clus i = s.clus i) rfl fun u hu b hb =>
    (clus_commitMark_ne mask o u (by have := List.mem_range.1 hb; omega)).trans hu

theorem commitMarked_eq (s : State) (mask : BitVec 32) (o : Nat) : s.commitMarked mask o = { s with clu := (s.commitMarked mask o).clu } := by
  refine List.foldlRecOn (List.range 32) (State.commitMark mask o) (motive := fun u => u = { s with clu := u.clu }) (b := s) rfl fun u hu b _ => ?_
  unfold State.commitMark
  split
  · exact congrArg (fun v : State => { v with clu := (u.setClus (b + o) { u.clus (b + o) with commit := true }).clu }) hu
  · exact hu

theorem clus_when_commitPend (s : State) (c : Bool) (i : Nat) : (s.when c (·.setBit F.CLU_STAT_COMMIT_PEND true)).clus i = s.clus i := by
  cases c <;> rfl

theorem cluCommitReq_spec (s : State) (hi : Bool) (mask : BitVec 32) (t : State) (ht : t = s.cluCommitReq hi mask) :
    (∀ b, b < 32 → (t.clus (b + if hi then 32 else 0)).commit = (mask.getLsbD b || (s.clus (b + if hi then 32 else 0)).commit)) ∧
      (∀ b, b < 32 → t.clus (b + if hi then 0 else 32) = s.clus (b + if hi then 0 else 32)) ∧
      t.bit F.CLU_STAT_COMMIT_PEND = (decide (mask ≠ 0) || s.bit F.CLU_STAT_COMMIT_PEND) ∧ Frame [R.CLU_STAT] [] [] { s with clu := t.clu } t := by
  rw [ht, cluCommitReq_eq]
  have hmarked (b : Nat) (hb : b < 32) := commit_commitMarked s mask (if hi then 32 else 0) hb
  have hother (b : Nat) (hb : b < 32) : (s.commitMarked mask (if hi then 32 else 0)).clus (b + if hi then 0 else 32) =
      s.clus (b + if hi then 0 else 32) := clus_commitMarked_ne s mask (by cases hi <;> simp [hb])
  have heq := commitMarked_eq s mask (if hi then 32 else 0)
  generalize s.commitMarked mask (if hi then 32 else 0) = v at *
  have hbit : v.bit F.CLU_STAT_COMMIT_PEND = s.bit F.CLU_STAT_COMMIT_PEND := by rw [heq]; rfl
  refine ⟨fun b hb => by rw [clus_when_commitPend, hmarked b hb], fun b hb => (clus_when_commitPend v _ _).trans (hother b hb), ?_, ?_⟩
  · by_cases hm : mask = 0
    · simpa [hm, State.when] using hbit
    · rw [State.when, if_pos (bne_iff_ne.2 hm), bit_setBit_self _ _ _ (by decide) rfl, decide_eq_true hm, Bool.true_or]
  · have hclu : (v.when (mask != 0) (·.setBit F.CLU_STAT_COMMIT_PEND true)).clu = v.clu := by cases mask != 0 <;> rfl
    rw [hclu, ← heq]
    exact (Frame.refl _ _ _ v).when fun _ => (Frame.refl _ _ _ v).setBit true (List.mem_singleton_self _)

theorem cluPresetReq_spec (s : State) (i : Nat) (t : State) (ht : t = s.cluPresetReq i) :
    t.clus i = { s.clus i with preset := true } ∧ (∀ j, j ≠ i → t.clus j = s.clus j) ∧ Frame [] [] [] { s with clu := t.clu } t := by
  subst ht
  exact ⟨clus_setClus_self s i _, fun j hj => clus_setClus_ne s _ hj, .refl _ _ _ _⟩

/-! ## SCH_ARM (R185, R379) -/

/-- A scheduled step is accepted for cycle `n`. -/
def State.stepAccepted (s : State) (i n : Nat) (late : Bool) : State :=
  let v := if (s.clus i).sch.isSome then s.setBit (F.CLU_SLOT_SCH_CTL_REPL i) true else s
  let w := (v.setClus i { s.clus i with sch := some (n, late) }).setBit (F.CLU_SLOT_SCH_CTL_ARM i) true
  if late then w.setFld (F.CLU_SLOT_SCH_CTL_SCH_ST i) 3 else w

/-- SCH_ARM as its judgement has it. `State.schArm` is unfolded as a function, not applied: its match would have the kernel evaluate the
judgement of a cycle number that is not known. -/
theorem schArm_judged {i : Nat} {lateOk : Bool} {j : Option (Nat × Bool)}
    (h : s.judge (fullCycle s.cycNow (s.rd (R.CLU_SLOT_SCH_CYC i))) lateOk = j) :
    s.schArm i lateOk = j.elim ((s.setFld (F.CLU_SLOT_SCH_CTL_SCH_ST i) 2).raise 117) fun p => s.stepAccepted i p.1 p.2 := by
  suffices hdef : ∀ f, f = State.schArm →
      f s i lateOk = j.elim ((s.setFld (F.CLU_SLOT_SCH_CTL_SCH_ST i) 2).raise 117) fun p => s.stepAccepted i p.1 p.2 from hdef _ rfl
  intro f hf
  delta State.schArm at hf
  rw [hf]
  beta_reduce
  rw [h]
  cases j <;> rfl

theorem judge_ahead {n : Nat} (lateOk : Bool) (h : ¬ n * s.tc < s.now + 2 * s.tc) : s.judge n lateOk = some (n, false) := if_neg h

theorem judge_late {n : Nat} (lateOk : Bool) (h : n * s.tc < s.now + 2 * s.tc) :
    s.judge n lateOk = if lateOk then some (s.cycNow + 1, true) else none := if_pos h

theorem judge_setBit (s : State) (f : RF) (b : Bool) (n : Nat) (lateOk : Bool) : (s.setBit f b).judge n lateOk = s.judge n lateOk := rfl

theorem cycNow_setBit (s : State) (f : RF) (b : Bool) : (s.setBit f b).cycNow = s.cycNow := rfl

/-- ARM written together with LATE_OK. -/
theorem schArm_setLateOk {i : Nat} {lateOk : Bool} {j : Option (Nat × Bool)}
    (h : s.judge (fullCycle s.cycNow (s.rd (R.CLU_SLOT_SCH_CYC i))) lateOk = j) :
    (s.setBit (F.CLU_SLOT_SCH_CTL_LATE_OK i) lateOk).schArm i lateOk =
      j.elim (((s.setBit (F.CLU_SLOT_SCH_CTL_LATE_OK i) lateOk).setFld (F.CLU_SLOT_SCH_CTL_SCH_ST i) 2).raise 117)
        fun p => (s.setBit (F.CLU_SLOT_SCH_CTL_LATE_OK i) lateOk).stepAccepted i p.1 p.2 := by
  refine schArm_judged ?_
  have hne : R.CLU_SLOT_SCH_CYC i ≠ (F.CLU_SLOT_SCH_CTL_LATE_OK i).addr := by
    simp only [F.CLU_SLOT_SCH_CTL_LATE_OK, R.CLU_SLOT_SCH_CTL, R.CLU_SLOT_SCH_CYC]; omega
  rw [judge_setBit, cycNow_setBit, State.setBit, rd_setFld_ne _ _ _ _ hne]
  exact h

theorem stepCtl_below {i : Nat} (hi : i < 64) : R.CLU_SLOT_SCH_CTL i < 0x880000 := by simp only [R.CLU_SLOT_SCH_CTL]; omega

/-- A request that is refused as late. -/
theorem stepRefused_spec {i : Nat} (hi : i < 64) (s : State) (t : State) (ht : t = (s.setFld (F.CLU_SLOT_SCH_CTL_SCH_ST i) 2).raise 117) :
    t.bit (F.CLU_SLOT_SCH_CTL_LATE_OK i) = s.bit (F.CLU_SLOT_SCH_CTL_LATE_OK i) ∧ t.fld (F.CLU_SLOT_SCH_CTL_SCH_ST i) = 2 ∧
      t.pends 117 = true ∧ Frame [R.CLU_SLOT_SCH_CTL i] [117] [] s t := by
  subst ht
  refine ⟨?_, ?_, pends_raise _ 117 (by decide) (by decide), ((Frame.refl _ _ _ s).setFld _ ?_).raise (List.mem_singleton_self _)⟩
  · rw [bit_raise _ _ _ (not_mem_evRegs (stepCtl_below hi) _)]
    exact bit_setFld_at s (R.CLU_SLOT_SCH_CTL i) 2 (by decide) (by decide)
  · rw [fld_raise _ _ _ (not_mem_evRegs (stepCtl_below hi) _)]
    exact fld_setFld_at_self s (R.CLU_SLOT_SCH_CTL i) (by decide) (by decide)
  · exact List.mem_singleton_self _

theorem Frame.withClu (h : Frame rs es ks s t) (x : CluSt) : Frame rs es ks { s with clu := x } { t with clu := x } :=
  ⟨h.regs, h.mem, h.inbox, h.notes, h.msgs, congrArg (fun b : State => { b with clu := x }) h.bare⟩

/-- A request that is accepted for cycle `n`. -/
theorem stepAccepted_spec (s : State) (i n : Nat) (late : Bool) (t : State) (ht : t = s.stepAccepted i n late) :
    t.bit (F.CLU_SLOT_SCH_CTL_LATE_OK i) = s.bit (F.CLU_SLOT_SCH_CTL_LATE_OK i) ∧ (t.clus i).sch = some (n, late) ∧
      (late = true → t.fld (F.CLU_SLOT_SCH_CTL_SCH_ST i) = 3) ∧ t.bit (F.CLU_SLOT_SCH_CTL_ARM i) = true ∧
      ((s.clus i).sch.isSome = true → t.bit (F.CLU_SLOT_SCH_CTL_REPL i) = true) ∧
      Frame [R.CLU_SLOT_SCH_CTL i] [] [] { s with clu := t.clu } t := by
  have hmem : R.CLU_SLOT_SCH_CTL i ∈ [R.CLU_SLOT_SCH_CTL i] := List.mem_singleton_self _
  subst ht
  unfold State.stepAccepted
  extract_lets v _ w
  have hv : Frame [R.CLU_SLOT_SCH_CTL i] [] [] s v := .ite _ (fun _ => (Frame.refl _ _ _ s).setBit _ hmem) fun _ => .refl _ _ _ s
  have hvLateOk : v.bit (F.CLU_SLOT_SCH_CTL_LATE_OK i) = s.bit (F.CLU_SLOT_SCH_CTL_LATE_OK i) := by
    unfold v
    split
    · exact bit_setBit_at s (R.CLU_SLOT_SCH_CTL i) true (by decide) (by decide)
    · rfl
  have hvRepl : (s.clus i).sch.isSome = true → v.bit (F.CLU_SLOT_SCH_CTL_REPL i) = true := fun h => by
    unfold v
    rw [if_pos h]
    exact bit_setBit_at_self s (R.CLU_SLOT_SCH_CTL i) true (by decide)
  clear_value v
  have hw : Frame [R.CLU_SLOT_SCH_CTL i] [] [] { s with clu := w.clu } w := (hv.withClu w.clu).setBit true hmem
  have hwLateOk : w.bit (F.CLU_SLOT_SCH_CTL_LATE_OK i) = s.bit (F.CLU_SLOT_SCH_CTL_LATE_OK i) :=
    (bit_setBit_at (v.setClus i _) (R.CLU_SLOT_SCH_CTL i) true (by decide) (by decide)).trans hvLateOk
  have hwRepl (h : (s.clus i).sch.isSome = true) : w.bit (F.CLU_SLOT_SCH_CTL_REPL i) = true :=
    (bit_setBit_at (v.setClus i _) (R.CLU_SLOT_SCH_CTL i) true (by decide) (by decide)).trans (hvRepl h)
  have hwArm : w.bit (F.CLU_SLOT_SCH_CTL_ARM i) = true := bit_setBit_at_self (v.setClus i _) (R.CLU_SLOT_SCH_CTL i) true (by decide)
  have hwSch : (w.clus i).sch = some (n, late) := congrArg CluSlot.sch (clus_setClus_self v i _)
  clear_value w
  cases late with
  | false =>
    simp only [Bool.false_eq_true, if_false]
    exact ⟨hwLateOk, hwSch, fun h => absurd h (by decide), hwArm, hwRepl, hw⟩
  | true =>
    simp only [if_true]
    have hother (lo : Nat) (hlo : lo + 1 ≤ 28 ∨ 30 ≤ lo) (hle : lo + 1 ≤ 32) :
        (w.setFld (F.CLU_SLOT_SCH_CTL_SCH_ST i) 3).bit ⟨R.CLU_SLOT_SCH_CTL i, lo, 1⟩ = w.bit ⟨R.CLU_SLOT_SCH_CTL i, lo, 1⟩ :=
      bit_setFld_at w (R.CLU_SLOT_SCH_CTL i) 3 hle hlo.symm
    have hclus : (w.setFld (F.CLU_SLOT_SCH_CTL_SCH_ST i) 3).clus i = w.clus i := clus_of_clu (setFld_clu w _ 3) i
    exact ⟨(hother 30 (by decide) (by decide)).trans hwLateOk, (congrArg CluSlot.sch hclus).trans hwSch,
      fun _ => fld_setFld_at_self w (R.CLU_SLOT_SCH_CTL i) (by decide) (by decide), (hother 31 (by decide) (by decide)).trans hwArm,
      fun h => (hother 27 (by decide) (by decide)).trans (hwRepl h), hw.setFld 3 hmem⟩

/-- SCH_ARM of slot `i` for the cycle nearest to the present that SCH_CYC names. -/
theorem schArm_spec {i : Nat} (hi : i < 64) (s : State) (lateOk : Bool) (n : Nat) (hn : n = fullCycle s.cycNow (s.rd (R.CLU_SLOT_SCH_CYC i)))
    (t : State) (ht : t = (s.setBit (F.CLU_SLOT_SCH_CTL_LATE_OK i) lateOk).schArm i lateOk) :
    let late : Prop := n * s.tc < s.now + 2 * s.tc
    t.bit (F.CLU_SLOT_SCH_CTL_LATE_OK i) = lateOk ∧
      (late → lateOk = false → t.fld (F.CLU_SLOT_SCH_CTL_SCH_ST i) = 2 ∧ t.pends 117 = true ∧ Frame [R.CLU_SLOT_SCH_CTL i] [117] [] s t) ∧
      (late → lateOk = true → (t.clus i).sch = some (s.cycNow + 1, true) ∧ t.fld (F.CLU_SLOT_SCH_CTL_SCH_ST i) = 3) ∧
      (¬ late → (t.clus i).sch = some (n, false)) ∧
      ((¬ late ∨ lateOk = true) → t.bit (F.CLU_SLOT_SCH_CTL_ARM i) = true ∧
        ((s.clus i).sch.isSome = true → t.bit (F.CLU_SLOT_SCH_CTL_REPL i) = true) ∧
        Frame [R.CLU_SLOT_SCH_CTL i] [] [] { s with clu := t.clu } t) := by
  intro late
  have hask : Frame [R.CLU_SLOT_SCH_CTL i] [] [] s (s.setBit (F.CLU_SLOT_SCH_CTL_LATE_OK i) lateOk) :=
    (Frame.refl _ _ _ s).setBit lateOk (List.mem_singleton_self _)
  have hbit : (s.setBit (F.CLU_SLOT_SCH_CTL_LATE_OK i) lateOk).bit (F.CLU_SLOT_SCH_CTL_LATE_OK i) = lateOk :=
    bit_setBit_at_self s (R.CLU_SLOT_SCH_CTL i) lateOk (by decide)
  have hclus : (s.setBit (F.CLU_SLOT_SCH_CTL_LATE_OK i) lateOk).clus i = s.clus i :=
    clus_of_clu (setBit_clu s _ lateOk) i
  have hjudged {j : Option (Nat × Bool)} (h : s.judge n lateOk = j) := ht.trans (schArm_setLateOk (hn ▸ h))
  generalize s.setBit (F.CLU_SLOT_SCH_CTL_LATE_OK i) lateOk = v at hask hbit hclus hjudged
  by_cases hl : late
  · rw [judge_late lateOk hl] at hjudged
    cases lateOk with
    | false =>
      obtain ⟨hok, hst, h117, hf⟩ := stepRefused_spec hi v t (hjudged rfl)
      exact ⟨hok.trans hbit, fun _ _ => ⟨hst, h117, (hask.mono (List.Subset.refl _) (by simp) (by simp)).trans hf⟩,
        fun _ h => absurd h (by decide), fun h => absurd hl h, fun h => h.elim (absurd hl) fun h => absurd h (by decide)⟩
    | true =>
      obtain ⟨hok, hsch, hst, harm, hrepl, hf⟩ := stepAccepted_spec v i _ true t (hjudged rfl)
      exact ⟨hok.trans hbit, fun _ h => absurd h (by decide), fun _ _ => ⟨hsch, hst rfl⟩, fun h => absurd hl h,
        fun _ => ⟨harm, hclus ▸ hrepl, (hask.withClu _).trans hf⟩⟩
  · obtain ⟨hok, hsch, -, harm, hrepl, hf⟩ := stepAccepted_spec v i _ false t (hjudged (judge_ahead lateOk hl))
    exact ⟨hok.trans hbit, fun h => absurd h hl, fun h => absurd h hl, fun _ => hsch, fun _ => ⟨harm, hclus ▸ hrepl, (hask.withClu _).trans hf⟩⟩

end Sys2Proof.Machine
end

section
/-! Rankers, auxiliary queue, CLU commands and the step of the count: the statement (R146, R160, R181, R182, R185, R247 to R249, R379). -/

namespace Sys2Proof.Machine

variable {s : State} {time : Nat} {o : Option Int} {d : Int}

/-! ## RANK_COMPLETE and TIME_STEP on a die that runs -/

theorem exec_rankComplete {arm : Fin 12} {c : Comp} (hs : s.Live)
    (h : s.cyc.comps.find? (fun c => c.p0At.isSome && decide (c.rel ≤ 6)) = some c) :
    exec (.rankComplete time arm) s = .next ((s.tick time).ranked arm c) := by
  show Host.Outcome.next (s.onDie time _) = _
  rw [onDie_live s time _ hs, tick_cyc, h]
  rfl

/-- A step that is due steps the count at a cycle start (R247). -/
theorem exec_timeStep_due (hs : s.Live) (hd : (s.tick time).stepDue o = some d) (hstart : time % (s.tick time).tc = 0) :
    exec (.timeStep time o) s = .next ((s.tick time).timeStep d) := by
  show Host.Outcome.next (s.onDie time _) = _
  rw [onDie_live s time _ hs, hd]
  exact congrArg _ (if_pos hstart)

/-- Without a step that is due, or elsewhere, only time passes. -/
theorem exec_timeStep_idle (hs : s.Live) (h : ¬ ∃ d, (s.tick time).stepDue o = some d ∧ time % (s.tick time).tc = 0) :
    exec (.timeStep time o) s = .next (s.tick time) := by
  show Host.Outcome.next (s.onDie time _) = _
  rw [onDie_live s time _ hs]
  cases hd : (s.tick time).stepDue o with
  | none => rfl
  | some d => exact congrArg _ (if_neg fun hstart => h ⟨d, hd, hstart⟩)

/-! ## The statement -/

/-- Settles O50: each command by the rule of what it does; TIME_STEP by what all that follows the jump of the count leaves alone. -/
theorem rankersTheAuxQueueAndTheCluTakeCommands : Obligations.RankersTheAuxQueueAndTheCluTakeCommands := by
  unfold Obligations.RankersTheAuxQueueAndTheCluTakeCommands
  intro s time v mask arm hi lateOk slot o
  refine ⟨fun c hc hs => ⟨_, exec_rankComplete hs hc, ranked_spec (s.tick time) arm c _ rfl⟩, answers_of rfl ⟨fun hok => ?_, fun hno => ?_⟩,
    answers_of rfl (cluCommitReq_spec (s.tick time) hi mask _ rfl), answers_of rfl (cluPresetReq_spec (s.tick time) slot _ rfl),
    answers_of rfl (schArm_spec slot.isLt (s.tick time) lateOk _ rfl _ rfl), fun hs => ?_⟩
  · rw [auxWrite_joins (s := s.tick time) hok]
    have hlen (x : AuxEnt) : ((s.tick time).mdu.aux ++ [x]).length = (s.tick time).mdu.aux.length + 1 := List.length_append
    obtain ⟨-, -, -, hroom⟩ := hok
    obtain ⟨hmdu, hdepth, hfull, hframe⟩ := setAux_spec (s.tick time) (_ ++ [_]) ((hlen _).trans_le hroom) _ rfl
    rw [hlen] at hdepth hfull
    exact ⟨hmdu, hdepth, hfull.trans (decide_eq_decide.2 (by omega)), hframe⟩
  · rw [auxWrite_rejected (s := s.tick time) hno]
    exact ⟨bit_setBit_self _ _ _ (by decide) rfl, (Frame.refl _ _ _ _).setBit _ (List.mem_singleton_self _)⟩
  · by_cases hdue : ∃ d, (s.tick time).stepDue o = some d ∧ time % (s.tick time).tc = 0
    · obtain ⟨d, hd, hstart⟩ := hdue
      refine ⟨_, exec_timeStep_due hs hd hstart, fun hidle => ?_, fun d' hd' _ => ?_⟩
      · rcases hidle with hnone | hoff
        · exact absurd (hd.symm.trans hnone) (by simp)
        · exact absurd hstart hoff
      · obtain rfl := Option.some.inj (hd.symm.trans hd')
        exact timeStep_spec (s.tick time) d _ rfl
    · exact ⟨_, exec_timeStep_idle hs hdue, fun _ => rfl, fun d hd hstart => absurd ⟨d, hd, hstart⟩ hdue⟩

end Sys2Proof.Machine
end

section
/-! The words of the signal engines (Table 8.1, R189): every instruction whose fields fit its format is read back from its word. -/

namespace Sys2Proof.Machine

-- One declaration after another, here and below: what threads beside each other take would add to the memory that the text needs.
set_option Elab.async false

/-! ## A word as its fields -/

/-- The 25 bits of a word below its opcode (Table 8.1). -/
def SeIns.operands (i : SeIns) : Shape → Nat
  | .none => 0
  | .da => i.d % 64 * 2 ^ 19 + i.a % 64 * 2 ^ 13
  | .dab => i.d % 64 * 2 ^ 19 + i.a % 64 * 2 ^ 13 + i.b % 64 * 2 ^ 7
  | .dabc => i.d % 64 * 2 ^ 19 + i.a % 64 * 2 ^ 13 + i.b % 64 * 2 ^ 7 + i.c % 64 * 2 ^ 1
  | .a => i.a % 64 * 2 ^ 13
  | .ab => i.a % 64 * 2 ^ 13 + i.b % 64 * 2 ^ 7
  | .dai => i.d % 64 * 2 ^ 19 + i.a % 64 * 2 ^ 13 + i.imm.toNat % 2 ^ 13
  | .ai => i.a % 64 * 2 ^ 13 + i.imm.toNat % 2 ^ 13
  | .du => i.d % 64 * 2 ^ 19 + i.imm.toNat % 2 ^ 16
  | .aj => i.a % 64 * 2 ^ 19 + i.imm.toNat % 2 ^ 19
  | .j => i.imm.toNat % 2 ^ 19

/-- An instruction with the operands that the 25 bits `v` below its opcode hold. -/
def SeIns.withOperands (i : SeIns) (v : Nat) : Shape → SeIns
  | .none => i
  | .da => { i with d := v / 2 ^ 19 % 64, a := v / 2 ^ 13 % 64 }
  | .dab => { i with d := v / 2 ^ 19 % 64, a := v / 2 ^ 13 % 64, b := v / 2 ^ 7 % 64 }
  | .dabc => { i with d := v / 2 ^ 19 % 64, a := v / 2 ^ 13 % 64, b := v / 2 ^ 7 % 64, c := v / 2 % 64 }
  | .a => { i with a := v / 2 ^ 13 % 64 }
  | .ab => { i with a := v / 2 ^ 13 % 64, b := v / 2 ^ 7 % 64 }
  | .dai => { i with d := v / 2 ^ 19 % 64, a := v / 2 ^ 13 % 64, imm := imm13 (BitVec.ofNat 13 v) }
  | .ai => { i with a := v / 2 ^ 13 % 64, imm := imm13 (BitVec.ofNat 13 v) }
  | .du => { i with d := v / 2 ^ 19 % 64, imm := imm16 (BitVec.ofNat 16 v) }
  | .aj => { i with a := v / 2 ^ 19 % 64, imm := ofs19 (BitVec.ofNat 19 v) }
  | .j => { i with imm := ofs19 (BitVec.ofNat 19 v) }

theorem operands_lt (i : SeIns) (sh : Shape) : i.operands sh < 2 ^ 25 := by
  cases sh <;> simp only [SeIns.operands] <;> omega

/-- The word of an instruction is P, the opcode and the operands side by side. -/
theorem toNat_word {i : SeIns} {sh : Shape} (ho : i.op < 64) (hs : seShape i.op = some sh) :
    i.word.toNat = i.p.toNat * 2 ^ 31 + i.op * 2 ^ 25 + i.operands sh := by
  have hlt := operands_lt i sh
  have hp : (if i.p then 2 ^ 31 else 0) = i.p.toNat * 2 ^ 31 := by cases i.p <;> rfl
  have hp1 := i.p.toNat_le
  have hw : i.word = BitVec.ofNat 32 (i.p.toNat * 2 ^ 31 + i.op * 2 ^ 25 + i.operands sh) := by
    unfold SeIns.word
    rw [hs, hp, Nat.mod_eq_of_lt ho]
    cases sh <;> rfl
  rw [hw, BitVec.toNat_ofNat, Nat.mod_eq_of_lt (by omega)]

/-- A word is read as P, its opcode and the operands of the opcode's format. -/
theorem seOfWord_eq (w : BitVec 32) : seOfWord w = (seShape (w.toNat / 2 ^ 25 % 64)).map
    (({ p := decide (2 ^ 31 ≤ w.toNat), op := w.toNat / 2 ^ 25 % 64 } : SeIns).withOperands w.toNat) := by
  unfold seOfWord
  dsimp only
  cases seShape (w.toNat / 2 ^ 25 % 64) with
  | none => rfl
  | some sh => cases sh <;> rfl

/-! ## Operands read back -/

/-- The low bits of a sign-extended value are the value. -/
theorem toNat_signExtend_mod {k : Nat} (hk : k ≤ 32) (v : BitVec k) : (v.signExtend 32).toNat % 2 ^ k = v.toNat := by
  have hv : (v.signExtend 32).setWidth k = v := by
    ext j hj
    simp [BitVec.getElem_signExtend, hj, show j < 32 by omega]
  rw [← BitVec.toNat_setWidth, hv]

/-- An immediate of `k` bits comes back from the `k` low bits of a word. -/
theorem signExtend_low {k : Nat} (hk : k ≤ 32) (v : BitVec k) {h : Nat} (hh : h % 2 ^ k = 0) :
    (BitVec.ofNat k (h + (v.signExtend 32).toNat % 2 ^ k)).signExtend 32 = v.signExtend 32 := by
  congr 1
  apply BitVec.eq_of_toNat_eq
  rw [toNat_signExtend_mod hk, BitVec.toNat_ofNat, Nat.add_mod, hh, Nat.zero_add, Nat.mod_mod, Nat.mod_eq_of_lt v.isLt]

/-- The fields that a format does not use are zero, and the immediate is one that it can hold. -/
def SeIns.Fits (i : SeIns) : Shape → Prop
  | .none => i.d = 0 ∧ i.a = 0 ∧ i.b = 0 ∧ i.c = 0 ∧ i.imm = 0
  | .da => i.b = 0 ∧ i.c = 0 ∧ i.imm = 0
  | .dab => i.c = 0 ∧ i.imm = 0
  | .dabc => i.imm = 0
  | .a => i.d = 0 ∧ i.b = 0 ∧ i.c = 0 ∧ i.imm = 0
  | .ab => i.d = 0 ∧ i.c = 0 ∧ i.imm = 0
  | .dai => i.b = 0 ∧ i.c = 0 ∧ ∃ v : BitVec 13, i.imm = v.signExtend 32
  | .ai => i.d = 0 ∧ i.b = 0 ∧ i.c = 0 ∧ ∃ v : BitVec 13, i.imm = v.signExtend 32
  | .du => i.a = 0 ∧ i.b = 0 ∧ i.c = 0 ∧ ∃ v : BitVec 16, i.imm = v.signExtend 32
  | .aj => i.d = 0 ∧ i.b = 0 ∧ i.c = 0 ∧ ∃ v : BitVec 19, i.imm = v.signExtend 32
  | .j => i.d = 0 ∧ i.a = 0 ∧ i.b = 0 ∧ i.c = 0 ∧ ∃ v : BitVec 19, i.imm = v.signExtend 32

/-- What stands above the 25 bits of the operands does not reach into them, and each operand is read from its own bits. -/
theorem withOperands_operands {i : SeIns} {sh : Shape} (hd : i.d < 64) (ha : i.a < 64) (hb : i.b < 64) (hc : i.c < 64) (hf : i.Fits sh) (h : Nat) :
    ({ p := i.p, op := i.op } : SeIns).withOperands (h * 2 ^ 25 + i.operands sh) sh = i := by
  obtain ⟨p, op, d, a, b, c, imm⟩ := i
  dsimp only at hd ha hb hc
  cases sh with
  | none => obtain ⟨rfl, rfl, rfl, rfl, rfl⟩ := hf; rfl
  | da =>
    obtain ⟨rfl, rfl, rfl⟩ := hf
    simp only [SeIns.withOperands, SeIns.operands, SeIns.mk.injEq, true_and, and_true]
    omega
  | dab =>
    obtain ⟨rfl, rfl⟩ := hf
    simp only [SeIns.withOperands, SeIns.operands, SeIns.mk.injEq, true_and, and_true]
    omega
  | dabc =>
    obtain rfl := hf
    simp only [SeIns.withOperands, SeIns.operands, SeIns.mk.injEq, true_and, and_true]
    omega
  | a =>
    obtain ⟨rfl, rfl, rfl, rfl⟩ := hf
    simp only [SeIns.withOperands, SeIns.operands, SeIns.mk.injEq, true_and, and_true]
    omega
  | ab =>
    obtain ⟨rfl, rfl, rfl⟩ := hf
    simp only [SeIns.withOperands, SeIns.operands, SeIns.mk.injEq, true_and, and_true]
    omega
  | dai =>
    obtain ⟨rfl, rfl, v, rfl⟩ := hf
    simp only [SeIns.withOperands, SeIns.operands, SeIns.mk.injEq, true_and]
    refine ⟨by omega, by omega, ?_⟩
    rw [← Nat.add_assoc]
    exact signExtend_low (by omega) v (by omega)
  | ai =>
    obtain ⟨rfl, rfl, rfl, v, rfl⟩ := hf
    simp only [SeIns.withOperands, SeIns.operands, SeIns.mk.injEq, true_and]
    refine ⟨by omega, ?_⟩
    rw [← Nat.add_assoc]
    exact signExtend_low (by omega) v (by omega)
  | du =>
    obtain ⟨rfl, rfl, rfl, v, rfl⟩ := hf
    simp only [SeIns.withOperands, SeIns.operands, SeIns.mk.injEq, true_and]
    refine ⟨by omega, ?_⟩
    rw [← Nat.add_assoc]
    exact signExtend_low (by omega) v (by omega)
  | aj =>
    obtain ⟨rfl, rfl, rfl, v, rfl⟩ := hf
    simp only [SeIns.withOperands, SeIns.operands, SeIns.mk.injEq, true_and]
    refine ⟨by omega, ?_⟩
    rw [← Nat.add_assoc]
    exact signExtend_low (by omega) v (by omega)
  | j =>
    obtain ⟨rfl, rfl, rfl, rfl, v, rfl⟩ := hf
    simp only [SeIns.withOperands, SeIns.operands, SeIns.mk.injEq, true_and]
    exact signExtend_low (by omega) v (by omega)

theorem seOfWord_word {i : SeIns} {sh : Shape} (ho : i.op < 64) (hs : seShape i.op = some sh) (hd : i.d < 64) (ha : i.a < 64) (hb : i.b < 64)
    (hc : i.c < 64) (hf : i.Fits sh) : seOfWord i.word = some i := by
  have hlt := operands_lt i sh
  have hp1 := i.p.toNat_le
  have hop : i.word.toNat / 2 ^ 25 % 64 = i.op := by rw [toNat_word ho hs]; omega
  have hp : decide (2 ^ 31 ≤ i.word.toNat) = i.p := by
    rw [toNat_word ho hs]
    cases h : i.p
    · exact decide_eq_false (by simp only [Bool.toNat_false]; omega)
    · exact decide_eq_true (by simp only [Bool.toNat_true]; omega)
  have hv : i.word.toNat = (i.p.toNat * 2 ^ 6 + i.op) * 2 ^ 25 + i.operands sh := by rw [toNat_word ho hs]; omega
  rw [seOfWord_eq, hop, hp, hs, Option.map_some, hv, withOperands_operands hd ha hb hc hf]

/-- Settles O18: the word is P, opcode and operands side by side, and each is read from its own bits. -/
theorem engineWordsRoundTrip : Obligations.EngineWordsRoundTrip := by
  unfold Obligations.EngineWordsRoundTrip
  intro i sh ho hs hd ha hb hc hf
  refine seOfWord_word ho hs hd ha hb hc ?_
  cases sh <;> exact hf

end Sys2Proof.Machine
end

section
/-! Integer instructions and those that move words between formats (Table 8.2, R186, R188, R191): each one's result word. -/

namespace Sys2Proof.Machine

set_option Elab.async false

/-! ## Words -/

/-- LIH keeps the low half of D under its immediate. -/
theorem lih_word (w : BitVec 16) (d : BitVec 32) : (imm16 w <<< 16) ||| (d &&& 0xFFFF) = w ++ d.extractLsb' 0 16 := by
  apply BitVec.eq_of_getLsbD_eq
  intro j hj
  have hm : (0xFFFF : BitVec 32).getLsbD j = decide (j < 16) := by
    rw [show (0xFFFF : BitVec 32) = BitVec.ofNat 32 (2 ^ 16 - 1) from rfl, BitVec.getLsbD_ofNat, Nat.testBit_two_pow_sub_one]
    simp [hj]
  rw [BitVec.getLsbD_or, BitVec.getLsbD_and, hm, BitVec.getLsbD_shiftLeft, BitVec.getLsbD_append, BitVec.getLsbD_extractLsb', imm16,
    BitVec.getLsbD_signExtend]
  by_cases h : j < 16
  · simp [h]
  · simp [h, hj, show j - 16 < 32 by omega, show j - 16 < 16 by omega]

/-- FABS clears the sign (Table 8.2). -/
theorem fabs32_eq (a : BitVec 32) : fabs32 a = if fnan32 a then 0x7FC00000 else a &&& 0x7FFFFFFF := by
  unfold fabs32 fAbsB fnan32
  split
  · rfl
  · apply BitVec.eq_of_getLsbD_eq
    intro j hj
    rw [show (0x7FFFFFFF : BitVec 32) = BitVec.ofNat 32 (2 ^ 31 - 1) from rfl, BitVec.getLsbD_and, BitVec.getLsbD_ofNat, BitVec.getLsbD_ofNat,
      Nat.testBit_two_pow_sub_one, show fmt32.width - 1 = 31 from rfl, Nat.testBit_mod_two_pow, BitVec.getLsbD]
    cases a.toNat.testBit j <;> simp [hj]

/-- FNEG inverts the sign. -/
theorem fneg32_eq (a : BitVec 32) : fneg32 a = if fnan32 a then 0x7FC00000 else a ^^^ 0x80000000 := by
  unfold fneg32 fNegate fnan32
  split
  · rfl
  · apply BitVec.eq_of_getLsbD_eq
    intro j hj
    rw [show (0x80000000 : BitVec 32) = BitVec.ofNat 32 (2 ^ 31) from rfl, BitVec.getLsbD_xor, BitVec.getLsbD_ofNat, BitVec.getLsbD_ofNat,
      Nat.testBit_two_pow, show fmt32.width = 32 from rfl, Nat.testBit_mod_two_pow, BitVec.getLsbD, Nat.add_comm]
    by_cases h : j = 31
    · subst h
      simp [Nat.testBit_two_pow_add_eq a.toNat 31]
    · simp [hj, Nat.testBit_two_pow_add_gt (show j < 31 by omega), show ¬ 31 = j from fun e => h e.symm]

/-! ## Instructions -/

/-- An instruction whose effect is one word in a register, without flags. -/
theorem writes_word {s : State} {n : Nat} {c : Instr} {i : SeIns} {d : Nat} {v v' : BitVec 32} (hx : exec c s = .next (s.seIssue n i .ok))
    (ho : i.odd = false) (he : seEffect (s.eng n) (fun ad => s.mw (tileBase n + ad)) i = effW d v') (hv : v' = v) : s.Writes n c i d v {} :=
  writes_of_effect hx ho (by rw [he, hv]; rfl)

/-- Settles O8: each instruction is one register write, of the word that its row of Table 8.2 gives. -/
theorem integerInstructionsWriteTheirResult : Obligations.IntegerInstructionsWriteTheirResult := by
  unfold Obligations.IntegerInstructionsWriteTheirResult
  intro s n d a b c imm w x
  have hslt : (if (x.get a).slt (x.get b) then 1 else 0 : BitVec 32) = if (x.get a).toInt < (x.get b).toInt then 1 else 0 := by
    simp only [BitVec.slt, decide_eq_true_eq]
  have hsel : (if x.get c != 0 then x.get a else x.get b) = if x.get c = 0 then x.get b else x.get a := by
    by_cases h : x.get c = 0 <;> simp [h]
  exact ⟨writes_word rfl rfl rfl rfl, writes_word rfl rfl rfl rfl, writes_word rfl rfl rfl rfl, writes_word rfl rfl rfl rfl,
    writes_word rfl rfl rfl rfl, writes_word rfl rfl rfl rfl, writes_word rfl rfl rfl rfl, writes_word rfl rfl rfl rfl,
    writes_word rfl rfl rfl rfl, writes_word rfl rfl rfl rfl, writes_word rfl rfl rfl hslt, writes_word rfl rfl rfl hsel,
    writes_word rfl rfl rfl rfl, writes_word rfl rfl rfl (lih_word _ _), writes_word rfl rfl rfl (fabs32_eq _),
    writes_word rfl rfl rfl (fneg32_eq _), writes_word rfl rfl rfl rfl⟩

end Sys2Proof.Machine
end

section
/-! Floating-point instructions and ACCRD (Table 8.2, R191, R195): each one's result word and the flags that it signals. -/

namespace Sys2Proof.Machine

set_option Elab.async false

/-- FRCPE signals what the exact quotient signals. -/
theorem seRcp_flags (a : BitVec 32) : (seRcp a).flags = (fDiv fmt32 0x3F800000 a.toNat).flags := by
  unfold seRcp
  dsimp only
  split <;> rfl

/-- FRCPE: an estimate within the bound, or the rounded quotient (log entry 6). -/
theorem seRcp_word (a : BitVec 32) : rcpOk (w32 (seRcp a)) a = true ∨ w32 (seRcp a) = w32 (fDiv fmt32 0x3F800000 a.toNat) := by
  unfold seRcp
  dsimp only
  split
  · next h => exact .inl (by simpa [w32] using h)
  · exact .inr rfl

/-- FRSQE is invalid where the root is. -/
theorem seRsq_inv (a : BitVec 32) : (seRsq a).inv = (fSqrt fmt32 a.toNat).inv := by
  unfold seRsq
  dsimp only
  split <;> rfl

/-- FRSQE: an estimate within the bound, or the rounded quotient by the rounded root (log entry 6). -/
theorem seRsq_word (a : BitVec 32) :
    rsqOk (w32 (seRsq a)) a = true ∨ w32 (seRsq a) = w32 (fDiv fmt32 0x3F800000 (fSqrt fmt32 a.toNat).bits) := by
  unfold seRsq
  dsimp only
  split
  · next h => exact .inl (by simpa [w32] using h)
  · exact .inr rfl

/-- What ACCRD writes and signals: the rounded accumulator saturated to int32. -/
theorem sat32_eq (r : Int) : sat32 r = (if r < -2147483648 then 0x80000000 else if 2147483647 < r then 0x7FFFFFFF else BitVec.ofInt 32 r,
    decide (r < -2147483648 ∨ 2147483647 < r)) := by
  unfold sat32
  by_cases h1 : r < -2147483648
  · simp [h1]
  · by_cases h2 : 2147483647 < r <;> simp [h1, h2]

/-- The shift of ACCRD is IMM13[5:0]. -/
theorem imm13_mod_64 (v : BitVec 13) : (imm13 v).toNat % 64 = v.toNat % 64 := by
  have h := toNat_signExtend_mod (by decide) v
  unfold imm13
  omega

/-- ACCRD with an even A meets no error. -/
theorem odd_accrd {d a : Nat} (imm : BitVec 32) (h : a % 2 = 0) : SeIns.odd { op := 0x15, d := d, a := a, imm := imm } = false := by
  have : SeIns.odd { op := 0x15, d := d, a := a, imm := imm } = (a % 2 == 1) := rfl
  rw [this, h]
  rfl

/-- An instruction whose effect is a binary32 result in a register, with that operation's flags. -/
theorem writes_fres {s : State} {n : Nat} {c : Instr} {i : SeIns} {d : Nat} {r : FRes} (hx : exec c s = .next (s.seIssue n i .ok))
    (ho : i.odd = false) (he : seEffect (s.eng n) (fun ad => s.mw (tileBase n + ad)) i = effF d r) : s.Writes n c i d (w32 r) r.flags :=
  writes_of_effect hx ho he

/-- Settles O9: each instruction is one register write with the flags of its operation. -/
theorem floatInstructionsWriteResultAndFlags : Obligations.FloatInstructionsWriteResultAndFlags := by
  unfold Obligations.FloatInstructionsWriteResultAndFlags
  intro s n d a b c imm x va vb vc i sum diff prod low high
  refine ⟨writes_fres rfl rfl rfl, writes_fres rfl rfl rfl, writes_fres rfl rfl rfl, writes_fres rfl rfl rfl, writes_fres rfl rfl rfl,
    writes_fres rfl rfl rfl, writes_fres rfl rfl rfl, writes_of_effect rfl rfl rfl, writes_of_effect rfl rfl ?_, writes_of_effect rfl rfl ?_,
    writes_of_effect rfl rfl rfl, ⟨w32 (seRcp va), ?_, seRcp_word va⟩,
    ⟨w32 (seRsq va), (seRsq va).flags, writes_fres rfl rfl rfl, seRsq_inv va, seRsq_word va⟩, fun ha => ?_⟩
  · show ({ effW d (if flt32 va vb then 1 else 0) with fl := { inv := cmpInv va vb } } : SeEff) = _
    simp only [flt32, fLt, beq_iff_eq]
    rfl
  · show ({ effW d (if fCmp fmt32 va.toNat vb.toNat == some .eq then 1 else 0) with fl := { inv := cmpInv va vb } } : SeEff) = _
    simp only [beq_iff_eq]
    rfl
  · rw [← seRcp_flags]
    exact writes_fres rfl rfl rfl
  · refine writes_of_effect rfl (odd_accrd _ ha) ?_
    show ({ effW d (seAccrd (x.pair a) ((imm13 imm).toNat % 64)).1 with fl := { sat := (seAccrd (x.pair a) ((imm13 imm).toNat % 64)).2 } } : SeEff) = _
    rw [imm13_mod_64, seAccrd, sat32_eq]
    rfl

end Sys2Proof.Machine
end

section
/-! Handshakes of the signal engines (R189, R193, R197): what a handshake of any instructions does, with an error and without one, and the
state that a task error leaves. -/

namespace Sys2Proof.Machine

set_option Elab.async false

variable {n : Nat} {x y : Eng} {rs es ks : List Nat} {s t u : State}

/-! ## Steps of one engine -/

/-- What happens outside of the engines keeps the step of an engine. -/
theorem EngStep.frameThen (h : EngStep n x rs es ks s t) (hf : Frame rs es ks t u) : EngStep n x rs es ks s u := by
  have he : ∀ m, u.eng m = t.eng m := fun m => by simp only [State.eng, hf.tds]
  exact ⟨(he n).trans h.own, fun m hm => (he m).trans (h.others m hm), h.frame.trans
    ⟨hf.regs, hf.mem, hf.inbox, hf.notes, hf.msgs, congrArg (fun b : State => { b with tds := { b.tds with eng := [] } }) hf.bare⟩⟩

theorem EngStep.mono {rs' es' ks' : List Nat} (h : EngStep n x rs es ks s t) (hr : rs ⊆ rs') (he : es ⊆ es') (hk : ks ⊆ ks') :
    EngStep n x rs' es' ks' s t := ⟨h.own, h.others, h.frame.mono hr he hk⟩

/-- A step of an engine after one that writes the engine back only. -/
theorem EngStep.after (h : EngStep n x rs es ks t u) (h1 : EngStep n y [] [] [] s t) : EngStep n x rs es ks s u :=
  ⟨h.own, fun m hm => (h.others m hm).trans (h1.others m hm), (h1.frame.mono (by simp) (by simp) (by simp)).trans h.frame⟩

theorem EngStep.rd (h : EngStep n x [] [] [] s t) (a : Nat) : t.rd a = s.rd a := h.frame.regs a (by simp) (by simp)

theorem EngStep.fld (h : EngStep n x [] [] [] s t) (f : RF) : t.fld f = s.fld f := by simp only [State.fld, h.rd]

theorem Frame.inFlight (h : Frame rs es [] s t) : t.fco.inFlight = s.fco.inFlight := by
  obtain ⟨l, hl, hk⟩ := h.msgs
  obtain rfl : l = [] := List.eq_nil_iff_forall_not_mem.2 fun m hm => absurd (hk m hm) (by simp)
  exact hl.trans (List.append_nil _)

theorem EngStep.inFlight (h : EngStep n x rs es [] s t) : t.fco.inFlight = s.fco.inFlight := h.frame.inFlight

/-! ## Task errors (R197) -/

theorem Frame.sendMsg (h : Frame rs es ks s t) (region inst unit kind sev level qual : Nat) (hk : kind % 256 ∈ ks) :
    Frame rs es ks s (t.sendMsg region inst unit kind (some sev) (some level) (some qual)) :=
  h.trans ⟨fun _ _ _ => rfl, fun _ => rfl, ⟨[], (List.append_nil _).symm, by simp⟩, ⟨[], (List.append_nil _).symm, by simp⟩, ⟨[fmsg region inst unit kind sev level qual], rfl, by
    simpa [msgKind_fmsg] using hk⟩, rfl⟩

theorem inFlight_sendMsg (s : State) (region inst unit kind sev level qual : Nat) :
    (s.sendMsg region inst unit kind (some sev) (some level) (some qual)).fco.inFlight =
      s.fco.inFlight ++ [fmsg region inst unit kind sev level qual] := rfl

theorem neverPending_taskErr (hn : n < 32) : neverPending (72 + n) = false := by
  have h : ∀ m < 32, neverPending (72 + m) = false := by decide
  exact h n hn

/-- The word of SE_ERR (Table 8.8). -/
def Eng.errWord (x : Eng) (code : Nat) : Nat := code % 16 * 2 ^ 28 + x.task % 8192 * 2 ^ 13 + x.pc % 8192

/-- The task error from its registers on. -/
def State.taskErrRegs (s : State) (n code : Nat) : State :=
  (((s.setEng n { s.eng n with failed := (s.eng n).run.isSome, waiting := [] }).wr (R.SE_ERR n) (BitVec.ofNat 32 ((s.eng n).errWord code))).setBit
    (F.SE_STAT_TASK_ERR n) true).inc (F.SE_ERR_CNT_V n)

theorem taskError_eq (s : State) (n code : Nat) : s.taskError n code =
    ((s.taskErrRegs n code).raise (72 + n)).sendMsg 1 (seInst n) 0 0x22 (some 1) (some 0) (some ((s.eng n).errWord code)) := rfl

/-- The state of an abandoned task before SE_STAT and SE_ERR_CNT show it. -/
def State.taskLeft (s : State) (n code : Nat) : State :=
  (s.setEng n { s.eng n with failed := (s.eng n).run.isSome, waiting := [] }).wr (R.SE_ERR n) (BitVec.ofNat 32 ((s.eng n).errWord code))

theorem taskErrRegs_eq (s : State) (n code : Nat) :
    s.taskErrRegs n code = ((s.taskLeft n code).setBit (F.SE_STAT_TASK_ERR n) true).inc (F.SE_ERR_CNT_V n) := rfl

theorem errRegs_ne (n : Nat) : R.SE_ERR n ≠ R.SE_STAT n ∧ R.SE_ERR n ≠ R.SE_ERR_CNT n ∧ R.SE_STAT n ≠ R.SE_ERR_CNT n := by
  simp only [R.SE_STAT, R.SE_ERR, R.SE_ERR_CNT]
  omega

theorem rd_taskLeft_ne (s : State) (n code : Nat) {a : Nat} (h : a ≠ R.SE_ERR n) : (s.taskLeft n code).rd a = s.rd a :=
  rd_wr_ne _ _ _ _ h

theorem engStep_taskErrRegs (s : State) (n code : Nat) : EngStep n { s.eng n with failed := (s.eng n).run.isSome, waiting := [] }
    [R.SE_STAT n, R.SE_ERR n, R.SE_ERR_CNT n] [72 + n] [0x22] s (s.taskErrRegs n code) :=
  ((((EngStep.refl n _ _ _ s).setEng _).wr _ (by simp)).wr _ (by simp [F.SE_STAT_TASK_ERR])).wr _ (by simp [F.SE_ERR_CNT_V])

theorem rd_err_taskErrRegs (s : State) (n code : Nat) : (s.taskErrRegs n code).rd (R.SE_ERR n) = BitVec.ofNat 32 ((s.eng n).errWord code) := by
  obtain ⟨hes, hec, -⟩ := errRegs_ne n
  rw [taskErrRegs_eq, State.inc, State.addFld, rd_setFld_ne _ _ _ _ hec, State.setBit, rd_setFld_ne _ _ _ _ hes]
  exact rd_wr_self _ _ _

theorem rd_stat_taskErrRegs (s : State) (n code : Nat) : (s.taskErrRegs n code).rd (R.SE_STAT n) = s.rd (R.SE_STAT n) ||| 0x80000000 := by
  obtain ⟨hes, -, hsc⟩ := errRegs_ne n
  rw [taskErrRegs_eq, State.inc, State.addFld, rd_setFld_ne _ _ _ _ hsc, F.SE_STAT_TASK_ERR, rd_setBit_true _ _ _ (by decide),
    rd_taskLeft_ne _ _ _ hes.symm]
  rfl

theorem cnt_taskErrRegs (s : State) (n code : Nat) :
    (s.taskErrRegs n code).fld (F.SE_ERR_CNT_V n) = min (s.fld (F.SE_ERR_CNT_V n) + 1) (2 ^ 32 - 1) := by
  obtain ⟨-, hec, hsc⟩ := errRegs_ne n
  have h : (s.taskLeft n code).fld (F.SE_ERR_CNT_V n) = s.fld (F.SE_ERR_CNT_V n) := congrArg _ (rd_taskLeft_ne s n code hec.symm)
  rw [taskErrRegs_eq, fld_inc_self _ _ (by simp [RF.ok, F.SE_ERR_CNT_V]), fld_setBit_ne _ _ _ _ hsc.symm, h, F.SE_ERR_CNT_V]

/-- What the source event and the message add. -/
theorem frame_taskError (s : State) (n code : Nat) : Frame [] [72 + n] [0x22] (s.taskErrRegs n code) (s.taskError n code) := by
  rw [taskError_eq]
  exact ((Frame.refl _ _ _ _).raise (by simp)).sendMsg _ _ _ _ _ _ _ (by simp)

theorem inFlight_taskError (s : State) (n code : Nat) : (s.taskError n code).fco.inFlight =
    s.fco.inFlight ++ [fmsg 1 (seInst n) 0 0x22 1 0 ((s.eng n).errWord code)] := by
  rw [taskError_eq, inFlight_sendMsg, (frame_raise _ _).inFlight, taskErrRegs_eq, inc_fco, setBit_fco, State.taskLeft, wr_fco, setEng_fco]

/-- A task error writes what R197 names and nothing else. -/
theorem taskError_spec (s : State) (hn : n < 32) (code : Nat) : s.TaskError n code (s.taskError n code) := by
  have hrd : ∀ a, a < 0x880000 → (s.taskError n code).rd a = (s.taskErrRegs n code).rd a := fun a ha =>
    (frame_taskError s n code).regs a (by simp) fun m _ => not_mem_evRegs ha m
  have hw : (s.eng n).errWord code < 2 ^ 32 := by unfold Eng.errWord; omega
  have hse : (s.taskError n code).rd (R.SE_ERR n) = BitVec.ofNat 32 ((s.eng n).errWord code) := by
    rw [hrd _ (by simp only [R.SE_ERR]; omega), rd_err_taskErrRegs]
  have hpend : ((s.taskErrRegs n code).raise (72 + n)).pends (72 + n) = true := pends_raise _ _ (neverPending_taskErr hn) (by omega)
  refine ⟨(engStep_taskErrRegs s n code).frameThen ((frame_taskError s n code).mono (by simp) (by simp) (by simp)), hse, ?_, ?_, ?_, ?_⟩
  · rw [hrd _ (by simp only [R.SE_STAT]; omega), rd_stat_taskErrRegs]
  · rw [State.fld, hrd _ (by simp only [F.SE_ERR_CNT_V, R.SE_ERR_CNT]; omega), ← State.fld, cnt_taskErrRegs]
  · rw [taskError_eq]
    exact (pends_of_regs rfl _).trans hpend
  · rw [hse, BitVec.toNat_ofNat, Nat.mod_eq_of_lt hw, inFlight_taskError]

/-- A task error in a state that shows the same as `s`, but for what waits in the engine, is one of `s`. -/
theorem State.TaskError.after {code : Nat} {w : List SeCmd} (h : t.TaskError n code u) (h1 : EngStep n { s.eng n with waiting := w } [] [] [] s t) :
    s.TaskError n code u := by
  obtain ⟨hstep, herr, hstat, hcnt, hpend, hmsg⟩ := h
  rw [h1.own] at hstep herr
  exact ⟨hstep.after h1, herr, by rw [hstat, h1.rd], by rw [hcnt, h1.fld], hpend, by rw [hmsg, h1.inFlight]⟩

/-- Writing the engine back leaves a task error one. -/
theorem State.TaskError.idled {code : Nat} (h : s.TaskError n code t) (hi : Idled n t u) : s.TaskError n code u := by
  obtain ⟨hstep, hrest⟩ := h
  refine ⟨hstep.idled hi, ?_⟩
  rcases hi with rfl | rfl <;> exact hrest

/-! ## What a handshake meets (R189, R190, R192, R194) -/

/-- The effects of the instructions of a handshake of engine `n`. -/
def State.effects (s : State) (n : Nat) (cs : List SeCmd) : List SeEff :=
  cs.map fun c =>
    let e := seEffect (s.eng n) (fun ad => s.mw (tileBase n + ad)) c.i
    { e with out := e.out.map fun o => { o with err := c.err } }

/-- The error codes that apply to a handshake. -/
def State.codesOf (s : State) (n : Nat) (cs : List SeCmd) : List Nat := s.shakeCodes (s.eng n) cs (s.effects n cs)

/-- What an engine and its tile show decides the errors of a handshake. -/
theorem codesOf_after (h : EngStep n (s.eng n) [] [] [] s t) (hm : t.mem = s.mem) (htt : t.tds.tt = s.tds.tt) (cs : List SeCmd) :
    t.codesOf n cs = s.codesOf n cs := by
  simp only [State.codesOf, State.effects, h.own, mw_of_mem hm, shakeCodes_tt htt]

/-- A handshake to which one error code applies is a task error. -/
theorem seShake_code {cs : List SeCmd} {code : Nat} (hc : s.codesOf n cs = [code]) : s.seShake n cs = s.taskError n code := by
  simp only [State.codesOf, State.effects] at hc
  simp only [State.seShake, hc]
  rfl

/-- An instruction with a register error is ILLEGAL, whatever else applies (log entry 50). -/
theorem shakeCodes_odd (s : State) (x : Eng) {c : SeCmd} (e : SeEff) (h : c.i.odd = true) : s.shakeCodes x [c] [e] = [1] := by
  simp [State.shakeCodes, h]

/-- An instruction that neither branches nor stores to the map meets its own codes. -/
theorem shakeCodes_own (s : State) (x : Eng) {c : SeCmd} {e : SeEff} (ho : c.i.odd = false) (hc : 1 ∉ e.codes) (hb : e.br = none)
    (hu : ∀ o, e.out = some o → o.kind ≠ .sts) : s.shakeCodes x [c] [e] = e.codes.eraseDups := by
  cases h : e.out with
  | none => simp [State.shakeCodes, ho, hc, hb, h]
  | some o => simp [State.shakeCodes, ho, hc, hb, h, hu o h]

end Sys2Proof.Machine
end

section
/-! Instructions on register pairs (Table 8.2, R189, R191), and what an instruction that names an odd pair register meets. -/

namespace Sys2Proof.Machine

set_option Elab.async false

variable {n : Nat} {s : State}

/-! ## Pairs -/

theorem odd_of_pairD {i : SeIns} (h : pairD i.op = true) (hd : i.d % 2 = 1) : i.odd = true := by simp [SeIns.odd, h, hd]

theorem odd_of_pairA {i : SeIns} (h : pairA i.op = true) (ha : i.a % 2 = 1) : i.odd = true := by simp [SeIns.odd, h, ha]

theorem not_odd_of_even {i : SeIns} (h : pairA i.op = false) (hd : i.d % 2 = 0) : i.odd = false := by simp [SeIns.odd, h, hd]

@[simp] theorem Eng.phys_putPhys (x : Eng) (r i : Nat) (v : BitVec 32) : (x.putPhys r v).phys i = x.phys i := by
  unfold Eng.putPhys
  split <;> rfl

@[simp] theorem Eng.phys_put (x : Eng) (r i : Nat) (v : BitVec 32) : (x.put r v).phys i = x.phys i := x.phys_putPhys _ _ _

/-- Rotation maps different registers to different ones. -/
theorem Eng.phys_inj (x : Eng) {i j : Nat} (hi : i < 64) (hj : j < 64) (h : x.phys i = x.phys j) : i = j := by
  unfold Eng.phys at h
  split at h <;> split at h <;> omega

/-- Registers that are all different are written one after the other. -/
theorem putRegs_nodup (t : State) {l : List (Nat × BitVec 32)} : ∀ {x : Eng}, (l.map fun w => x.phys w.1).Nodup →
    t.putRegs x [] l = (l.foldl (fun x w => x.put w.1 w.2) x, t) := by
  induction l with
  | nil => intros; rfl
  | cons w l ih =>
    intro x h
    rw [List.map_cons, List.nodup_cons] at h
    obtain ⟨hw, hl⟩ := h
    have hany : l.any (fun c => x.phys c.1 == x.phys w.1) = false := by
      rw [List.any_eq_false]
      intro c hc hcw
      exact hw (List.mem_map.2 ⟨c, hc, by simpa using hcw⟩)
    simp only [State.putRegs, List.contains_nil, Bool.false_eq_true, if_false, hany, List.foldl_cons]
    exact ih (x := x.put w.1 w.2) (by simpa using hl)

/-- A register that is written twice holds a free value (log entry 22). -/
theorem putRegs_twice (t : State) (x : Eng) (r : Nat) (v w : BitVec 32) :
    t.putRegs x [] [(r, v), (r, w)] = (x.put r (Config.free32 t.freeCtr), { t with freeCtr := t.freeCtr + 1 }) := by
  simp [State.putRegs, Eng.put, State.free32]

/-- The two registers of a pair are written. -/
theorem putRegs_pair (t : State) (x : Eng) {d : Nat} (hd : d % 2 = 0) (hlt : d < 64) (v w : BitVec 32) :
    t.putRegs x [] [(d, v), (d + 1, w)] = ((x.put d v).put (d + 1) w, t) :=
  putRegs_nodup t (by simpa using fun h => absurd (x.phys_inj hlt (by omega) h) (by omega))

/-! ## Outcomes -/

/-- An instruction to which one error code applies fails with it. -/
theorem fails_of_code {c : Instr} {i : SeIns} {err : EccErr} {code : Nat} (hn : n < 32) (hx : exec c s = .next (s.seIssue n i err))
    (hc : s.codesOf n [⟨i, err⟩] = [code]) : s.Fails n c i code := by
  intro h
  obtain ⟨s1, h1, htt, -, hm, -, hq⟩ := seIssue_alone i err h
  have hshake : s1.seShake n [⟨i, err⟩] = s1.taskError n code := seShake_code ((codesOf_after h1 hm htt _).trans hc)
  have herr := (taskError_spec s1 hn code).after h1
  refine ⟨_, hx, ?_⟩
  rw [hq, hshake]
  exact herr.idled (drain_idled (by rw [herr.1.own]) 1)

/-- An instruction with an odd pair register is ILLEGAL. -/
theorem fails_of_odd {c : Instr} {i : SeIns} {err : EccErr} (hn : n < 32) (hx : exec c s = .next (s.seIssue n i err)) (ho : i.odd = true) :
    s.Fails n c i 1 :=
  fails_of_code hn hx (shakeCodes_odd _ _ _ ho)

/-- An instruction whose effect is a 64-bit quantity in a pair. -/
theorem runs_of_pair {c : Instr} {i : SeIns} {v : BitVec 64} (hx : exec c s = .next (s.seIssue n i .ok)) (hp : pairA i.op = false)
    (hd : i.d % 2 = 0) (hlt : i.d < 64) (he : seEffect (s.eng n) (fun ad => s.mw (tileBase n + ad)) i = effP i.d v) :
    s.Runs n c i (((s.eng n).put i.d (v.setWidth 32)).put (i.d + 1) ((v >>> 32).setWidth 32)).advance {} :=
  runs_of_effect (e := effP i.d v) hx he (shakeCodes_clean _ _ _ _ (not_odd_of_even hp hd) rfl rfl rfl) (fun _ => rfl) rfl rfl
    (fun t => putRegs_pair t _ hd hlt _ _) (by simp [Eng.after, Eng.advance, effP])

/-- Settles O10: with an even D the pair takes the 64-bit result; an odd pair register is ILLEGAL whatever else the instruction meets. -/
theorem accumulatorPairsWrite : Obligations.AccumulatorPairsWrite := by
  unfold Obligations.AccumulatorPairsWrite
  intro s n d a b imm err x y op opI
  refine ⟨fun hd => ⟨runs_of_pair rfl rfl hd d.isLt rfl, runs_of_pair rfl rfl hd d.isLt rfl, runs_of_pair rfl rfl hd d.isLt rfl⟩, fun hd => ?_,
    fun ha => fails_of_odd n.isLt rfl (odd_of_pairA rfl ha)⟩
  exact ⟨fails_of_odd n.isLt rfl (odd_of_pairD rfl hd), fails_of_odd n.isLt rfl (odd_of_pairD rfl hd),
    fails_of_odd n.isLt rfl (odd_of_pairD rfl hd), fails_of_odd n.isLt rfl (odd_of_pairD rfl hd), fails_of_odd n.isLt rfl (odd_of_pairD rfl hd),
    fails_of_odd n.isLt rfl (odd_of_pairD rfl hd), fails_of_odd n.isLt rfl (odd_of_pairD rfl hd)⟩

end Sys2Proof.Machine
end

section
/-! A handshake of one instruction that meets no error (R189, R191): register writes, stores to the tile, SPAWN, and what of it the state shows. -/

namespace Sys2Proof.Machine

set_option Elab.async false

variable {n : Nat} {x y : Eng} {rs es ks : List Nat} {s t u : State}

/-! ## Words of memory -/

theorem mw_of_mb {a : Nat} (h : ∀ j < 4, t.mb (a + j) = s.mb (a + j)) : t.mw a = s.mw a := by
  simp only [State.mw, State.mleFrom]
  rw [show a + 1 + 1 + 1 = a + 3 from rfl, show a + 1 + 1 = a + 2 from rfl, show t.mb a = s.mb a from h 0 (by decide), h 1 (by decide),
    h 2 (by decide), h 3 (by decide)]

/-- Words stored in the tile of engine `n`. -/
def State.storeWords (s : State) (n : Nat) (st : List (Nat × BitVec 32)) : State :=
  st.foldl (fun s w => s.setMw (tileBase n + w.1) w.2) s

/-- Stores change memory alone. -/
theorem storeWords_eq (n : Nat) : ∀ (st : List (Nat × BitVec 32)) (s : State), s.storeWords n st = { s with mem := (s.storeWords n st).mem }
  | [], _ => rfl
  | w :: st, s => by
    have h := storeWords_eq n st (s.setMw (tileBase n + w.1) w.2)
    have hw : s.setMw (tileBase n + w.1) w.2 = { s with mem := (s.setMw (tileBase n + w.1) w.2).mem } := setMle_eq 4 _ _ _
    rw [State.storeWords, List.foldl_cons, ← State.storeWords, h]
    rw [hw]

theorem mb_storeWords_ne (n : Nat) {b : Nat} : ∀ (st : List (Nat × BitVec 32)) (s : State),
    (∀ p ∈ st, b < tileBase n + p.1 ∨ tileBase n + p.1 + 4 ≤ b) → (s.storeWords n st).mb b = s.mb b
  | [], _, _ => rfl
  | w :: st, s, h => (mb_storeWords_ne n st _ fun p hp => h p (by simp [hp])).trans (mb_setMw_ne _ _ _ _ (h w (by simp)))

/-- Words that do not overlap are all found in memory. -/
theorem mw_storeWords (n : Nat) : ∀ (st : List (Nat × BitVec 32)) (s : State), st.Pairwise (fun p q => q.1 + 4 ≤ p.1 ∨ p.1 + 4 ≤ q.1) →
    ∀ p ∈ st, (s.storeWords n st).mw (tileBase n + p.1) = p.2
  | [], _, _, p, hp => absurd hp (by simp)
  | w :: st, s, h, p, hp => by
    obtain ⟨hw, hst⟩ := List.pairwise_cons.1 h
    rcases List.mem_cons.1 hp with rfl | hp
    · refine (mw_of_mb fun j hj => mb_storeWords_ne n st _ fun q hq => ?_).trans (mw_setMw _ _ _)
      have := hw q hq
      omega
    · exact mw_storeWords n st _ hst p hp

/-! ## The handshake -/

/-- The state after a handshake without errors, before a SPAWN: `y` and `u` are the engine and the state with its registers written. -/
def State.shaken (u : State) (n : Nat) (y : Eng) (err : EccErr) (e : SeEff) : State :=
  ((u.setEng n (y.after err e)).seFlags n e.fl).storeWords n e.st

theorem seShake_clean {i : SeIns} {err : EccErr} {e : SeEff} (he : seEffect (s.eng n) (fun ad => s.mw (tileBase n + ad)) i = e)
    (hc : s.codesOf n [⟨i, err⟩] = []) (ht : e.tile = true → err = .ok) (hwr : s.putRegs (s.eng n) [] e.wr = (y, u)) :
    s.seShake n [⟨i, err⟩] = match e.spawn with
      | some (a, b) => (u.shaken n y err e).spawn a b
      | none => u.shaken n y err e := by
  have hd : ∀ k, k ≠ .ok → (e.tile && err == k) = false := by
    intro k hk
    cases h : e.tile
    · rfl
    · rw [ht h]
      simpa using hk.symm
  simp only [State.codesOf, State.effects, List.map_cons, List.map_nil, he] at hc
  simp only [State.seShake, List.map_cons, List.map_nil, he, hc, List.isEmpty_nil, Bool.not_true, Bool.false_eq_true, if_false, List.any_cons,
    List.any_nil, Bool.or_false, hd .double (by decide), hd .single (by decide), List.flatMap_cons, List.flatMap_nil, List.append_nil, hwr,
    List.foldl_cons, List.foldl_nil, List.length_cons, List.length_nil, List.findSome?_cons, List.findSome?_nil, State.shaken, Eng.after,
    State.storeWords]
  cases e.lc <;> cases e.dlx <;> cases e.br <;> cases e.out <;> cases e.spawn <;> simp

/-! ## From the issue on -/

theorem putRegs_waiting : ∀ (l : List (Nat × BitVec 32)) (t : State) (x : Eng) (d : List Nat), (t.putRegs x d l).1.waiting = x.waiting
  | [], _, _, _ => rfl
  | (r, v) :: l, t, x, d => by
    simp only [State.putRegs]
    split_ifs <;> rw [putRegs_waiting l] <;> simp

theorem EngStep.withMem (h : EngStep n x rs es ks s t) (m : List Host.Cell) : EngStep n x rs es ks { s with mem := m } { t with mem := m } :=
  ⟨h.own, h.others, h.frame.regs, fun _ => rfl, h.frame.inbox, h.frame.notes, h.frame.msgs, h.frame.bare⟩

theorem Idled.regs (h : Idled n s t) : t.regs = s.regs := by
  rcases h with rfl | rfl <;> rfl

/-- An instruction that its engine executes alone, without errors and SPAWN: the engine with its registers and special registers written, the
flags or-ed into SE_STAT, the words stored, and nothing else. -/
theorem seIssue_clean {i : SeIns} {err : EccErr} {e : SeEff} (h : s.Executes n i)
    (he : seEffect (s.eng n) (fun ad => s.mw (tileBase n + ad)) i = e) (hc : s.codesOf n [⟨i, err⟩] = []) (ht : e.tile = true → err = .ok)
    (hsp : e.spawn = none) (hwr : ∀ t : State, t.freeCtr = s.freeCtr → ∃ k, t.putRegs (s.eng n) [] e.wr = (y, { t with freeCtr := k })) :
    let t := s.seIssue n i err
    EngStep n (y.after err e) [R.SE_STAT n] [] [] { s with mem := t.mem } t ∧ t.rd (R.SE_STAT n) = s.rd (R.SE_STAT n) ||| e.fl.mask ∧
      ∃ v : State, v.mem = s.mem ∧ t.mem = (v.storeWords n e.st).mem := by
  intro t
  obtain ⟨s1, h1, htt, hr, hm, hfree, hq⟩ := seIssue_alone i err h
  have hy : y.waiting = [] := by
    obtain ⟨k, hk⟩ := hwr s rfl
    have hw := putRegs_waiting e.wr s (s.eng n) []
    rw [hk] at hw
    obtain ⟨-, -, -, hwait, -⟩ := h
    exact hw.trans hwait
  obtain ⟨k, hk⟩ := hwr s1 hfree
  obtain ⟨b, hb⟩ : ∃ b : State, b = (({ s1 with freeCtr := k } : State).setEng n (y.after err e)).seFlags n e.fl := ⟨_, rfl⟩
  have hshake : s1.seShake n [⟨i, err⟩] = b.storeWords n e.st := by
    have he1 : seEffect (s1.eng n) (fun ad => s1.mw (tileBase n + ad)) i = e := by
      rw [h1.own, ← he]
      simp only [mw_of_mem hm]
    rw [← h1.own] at hk
    rw [seShake_clean he1 ((codesOf_after h1 hm htt _).trans hc) ht hk, hsp, hb]
    rfl
  have hstep : EngStep n (y.after err e) [R.SE_STAT n] [] [] s b :=
    hb ▸ (((h1.mono (by simp) (by simp) (by simp)).free k).setEng _).seFlags e.fl (by simp)
  have hmem : b.mem = s.mem := by
    rw [hb, ← hm]
    simp only [State.seFlags, State.when]
    split_ifs <;> rfl
  have hi : Idled n (b.storeWords n e.st) t := by
    rw [show t = (b.storeWords n e.st).seDrain n 1 from hq.trans (by rw [hshake])]
    refine drain_idled ?_ 1
    rw [storeWords_eq]
    exact (congrArg Eng.waiting hstep.own).trans hy
  obtain ⟨htm, -⟩ := hi.rest
  refine ⟨?_, ?_, b, hmem, htm⟩
  · rw [htm]
    refine EngStep.idled ?_ hi
    have := hstep.withMem (b.storeWords n e.st).mem
    rwa [← storeWords_eq] at this
  · rw [rd_of_regs hi.regs, storeWords_eq]
    refine (show (b.rd (R.SE_STAT n)) = _ from ?_)
    rw [hb, rd_seFlags]
    exact congrArg (· ||| _) (rd_of_regs hr _)

/-- An instruction without errors, stores and SPAWN runs as its effect says. -/
theorem runs_of_clean {c : Instr} {i : SeIns} {err : EccErr} {e : SeEff} {z : Eng} (hx : exec c s = .next (s.seIssue n i err))
    (he : seEffect (s.eng n) (fun ad => s.mw (tileBase n + ad)) i = e) (hc : s.codesOf n [⟨i, err⟩] = []) (ht : e.tile = true → err = .ok)
    (hsp : e.spawn = none) (hst : e.st = []) (hwr : ∀ t : State, t.freeCtr = s.freeCtr → ∃ k, t.putRegs (s.eng n) [] e.wr = (y, { t with freeCtr := k }))
    (hz : y.after err e = z) : s.Runs n c i z e.fl := by
  intro h
  obtain ⟨hstep, hstat, v, hv, hm⟩ := seIssue_clean h he hc ht hsp hwr
  refine ⟨_, hx, ?_, hstat⟩
  rw [hst] at hm
  rw [hm, State.storeWords, List.foldl_nil, hv, hz] at hstep
  exact hstep

/-- An instruction without errors and SPAWN stores what its effect says. -/
theorem stores_of_clean {c : Instr} {i : SeIns} {e : SeEff} {z : Eng} (hx : exec c s = .next (s.seIssue n i .ok))
    (he : seEffect (s.eng n) (fun ad => s.mw (tileBase n + ad)) i = e) (hc : s.codesOf n [⟨i, .ok⟩] = []) (hsp : e.spawn = none)
    (hst : e.st.Pairwise fun p q => q.1 + 4 ≤ p.1 ∨ p.1 + 4 ≤ q.1)
    (hwr : ∀ t : State, t.freeCtr = s.freeCtr → ∃ k, t.putRegs (s.eng n) [] e.wr = (y, { t with freeCtr := k }))
    (hz : y.after .ok e = z) : s.Stores n c i z e.fl e.st := by
  intro h
  obtain ⟨hstep, hstat, v, hv, hm⟩ := seIssue_clean h he hc (fun _ => rfl) hsp hwr
  refine ⟨_, hx, hz ▸ hstep, hstat, fun p hp => ?_, fun b hb => ?_⟩
  · rw [mw_of_mem hm]
    exact mw_storeWords n _ _ hst p hp
  · rw [mb_of_mem hm, mb_storeWords_ne n _ _ hb, mb_of_mem hv]

end Sys2Proof.Machine
end

section
/-! Loads from the tile (Table 8.2, R191, R192, R197, R349): addresses, the words that reach the registers, what an uncorrectable word does. -/

namespace Sys2Proof.Machine

set_option Elab.async false

variable {n : Nat} {s t u : State}

/-! ## Addresses in the tile (R192) -/

theorem tileCodes_ok {ad : Nat} (h : ad < 0x40000) (ha : ad % 4 = 0) : tileCodes ad = [] := by simp [tileCodes, addrCodes, Nat.not_le.2 h, ha]

theorem tileCodes_align {ad : Nat} (h : ad < 0x40000) (ha : ad % 4 ≠ 0) : tileCodes ad = [2] := by simp [tileCodes, addrCodes, Nat.not_le.2 h, ha]

theorem tileCodes_range {ad : Nat} (h : 0x40000 ≤ ad) (ha : ad % 4 = 0) : tileCodes ad = [3] := by simp [tileCodes, addrCodes, h, ha]

/-- Two words one after the other inside the tile. -/
theorem tileCodes_two_ok {ad : Nat} (h : ad + 4 < 0x40000) (ha : ad % 4 = 0) : tileCodes ad ++ tileCodes (ad + 4) = [] := by
  rw [tileCodes_ok (by omega) ha, tileCodes_ok h (by omega)]
  rfl

theorem tileCodes_two_align {ad : Nat} (h : ad + 4 < 0x40000) (ha : ad % 4 ≠ 0) : (tileCodes ad ++ tileCodes (ad + 4)).eraseDups = [2] := by
  rw [tileCodes_align (by omega) ha, tileCodes_align h (by omega)]
  rfl

theorem tileCodes_two_range {ad : Nat} (h : 0x40000 ≤ ad + 4) (ha : ad % 4 = 0) : (tileCodes ad ++ tileCodes (ad + 4)).eraseDups = [3] := by
  rw [tileCodes_range h (by omega)]
  by_cases hin : ad < 0x40000
  · rw [tileCodes_ok hin ha]
    rfl
  · rw [tileCodes_range (by omega) ha]
    rfl

theorem one_not_mem_addrCodes (lim al ad : Nat) : 1 ∉ addrCodes lim al ad := by
  unfold addrCodes
  split_ifs <;> decide

theorem one_not_mem_tileCodes (ad : Nat) : 1 ∉ tileCodes ad := one_not_mem_addrCodes _ _ _

/-! ## Errors of a tile access -/

/-- An access to the tile meets the errors of its addresses. -/
theorem codesOf_tile {i : SeIns} {err : EccErr} {e : SeEff} {l : List Nat} (he : seEffect (s.eng n) (fun ad => s.mw (tileBase n + ad)) i = e)
    (ho : i.odd = false) (h1 : 1 ∉ e.codes) (hb : e.br = none) (hu : e.out = none) (hl : e.codes.eraseDups = l) : s.codesOf n [⟨i, err⟩] = l := by
  have h : s.effects n [⟨i, err⟩] = [{ e with out := e.out.map fun o => { o with err := err } }] := by simp only [State.effects, List.map_cons, List.map_nil, he]
  rw [State.codesOf, h, ← hl]
  exact shakeCodes_own _ _ ho h1 hb (by simp [hu])

/-- From `s` to `t` engines change in their prefetch slots at most. -/
def PreOnly (s t : State) : Prop := ∀ m, ∃ l, t.eng m = { s.eng m with pre := l }

theorem PreOnly.refl (s : State) : PreOnly s s := fun m => ⟨(s.eng m).pre, rfl⟩

theorem PreOnly.trans (h : PreOnly s t) (h' : PreOnly t u) : PreOnly s u := fun m => by
  obtain ⟨l, hl⟩ := h m
  obtain ⟨l', hl'⟩ := h' m
  exact ⟨l', by rw [hl', hl]⟩

theorem PreOnly.of_tds (h : t.tds = s.tds) : PreOnly s t := fun m => ⟨(s.eng m).pre, by simp only [State.eng, h]⟩

theorem PreOnly.foldl {α : Type} {f : State → α → State} {l : List α} (h : PreOnly s t) (hf : ∀ u x, PreOnly u (f u x)) : PreOnly s (l.foldl f t) := by
  induction l generalizing t with
  | nil => exact h
  | cons x l ih => exact ih (h.trans (hf t x))

theorem preOnly_setEng (s : State) (j : Nat) (l : List (BitVec 64)) : PreOnly s (s.setEng j { s.eng j with pre := l }) := fun m => by
  by_cases h : m = j
  · subst h
    exact ⟨l, eng_setEng_self _ _ _⟩
  · exact ⟨(s.eng m).pre, eng_setEng_ne _ _ _ _ h⟩

/-- Descriptors that go back to the ready queue leave the rest of their engines alone. -/
theorem preOnly_maskSync (s : State) : PreOnly s s.maskSync := by
  unfold State.maskSync
  extract_lets k away
  generalize hv : List.foldl _ s _ = v
  refine PreOnly.trans ?_ (.of_tds (frame_qSync v).tds)
  rw [← hv]
  refine (PreOnly.refl s).foldl fun u j => ?_
  dsimp only
  split_ifs
  · exact preOnly_setEng { u with tds := { u.tds with queue := (u.eng j).pre.filter away ++ u.tds.queue } } j _
  · exact .refl u

/-- The state in which the tile of engine `n` is noted as isolated. -/
def State.tileNoted (s : State) (n : Nat) : State := { s with memu := { s.memu with tileIso := s.memu.tileIso ||| (1#32 <<< n) } }

theorem tileUnc_eq (s : State) (n : Nat) : s.tileUnc n =
    ((s.tileNoted n).maskSync.setFbit (F.TDS_CL_CTL_ISOL (n / 4)) (n % 4) true).sendFco 1 (seInst n) 0 0x20 (some 1) none := rfl

theorem frame_tileUnc (s : State) (n : Nat) :
    Frame [] [] [0x20] ((s.tileNoted n).maskSync.setFbit (F.TDS_CL_CTL_ISOL (n / 4)) (n % 4) true) (s.tileUnc n) := by
  rw [tileUnc_eq]
  exact (Frame.refl _ _ _ _).sendFco _ _ _ _ _ _ (by decide)

theorem preOnly_tileUnc (s : State) (n : Nat) : PreOnly s (s.tileUnc n) := by
  have htds : (s.tileUnc n).tds = (s.tileNoted n).maskSync.tds := (frame_tileUnc s n).tds.trans (setFbit_tds _ _ _ _)
  exact ((PreOnly.of_tds rfl).trans (preOnly_maskSync (s.tileNoted n))).trans (.of_tds htds)

/-- The message of an isolated tile. -/
theorem inFlight_tileUnc (s : State) (n : Nat) : ∃ m, (s.tileUnc n).fco.inFlight = s.fco.inFlight ++ [m] ∧ msgKind m = 0x20 := by
  obtain ⟨m, hm, hk⟩ := inFlight_sendFco ((s.tileNoted n).maskSync.setFbit (F.TDS_CL_CTL_ISOL (n / 4)) (n % 4) true) 1 (seInst n) 0 0x20 (some 1) none
  refine ⟨m, ?_, hk⟩
  rw [tileUnc_eq, hm, setFbit_fco, (frame_maskSync _).inFlight]
  rfl

/-- A handshake that meets an uncorrectable word of the tile, and no other error (R15, R197). -/
theorem seShake_double {i : SeIns} {e : SeEff} (he : seEffect (s.eng n) (fun ad => s.mw (tileBase n + ad)) i = e)
    (hc : s.codesOf n [⟨i, .double⟩] = []) (ht : e.tile = true) : s.seShake n [⟨i, .double⟩] = (s.tileUnc n).taskError n 5 := by
  have hd : (e.tile && EccErr.double == .double) = true := by rw [ht]; rfl
  simp only [State.codesOf, State.effects, List.map_cons, List.map_nil, he] at hc
  simp only [State.seShake, List.map_cons, List.map_nil, he, hc, List.isEmpty_nil, Bool.not_true, Bool.false_eq_true, if_false, List.any_cons,
    List.any_nil, Bool.or_false, hd, if_true]

theorem EngStep.fbit {x : Eng} {rs es ks : List Nat} (h : EngStep n x rs es ks s t) {f : RF} (b : Nat) (hr : f.addr ∉ rs)
    (hb : f.addr < 0x880000) : t.fbit f b = s.fbit f b := by
  have hrd : t.rd f.addr = s.rd f.addr := h.frame.regs _ hr fun n _ => not_mem_evRegs hb n
  simp only [State.fbit, State.fld, hrd]

theorem EngStep.mb {x : Eng} {rs es ks : List Nat} (h : EngStep n x rs es ks s t) (q : Nat) : t.mb q = s.mb q := h.frame.mem q

theorem EngStep.memu {x : Eng} {rs es ks : List Nat} (h : EngStep n x rs es ks s t) : t.memu = s.memu :=
  show t.sansEng.memu = s.sansEng.memu from h.frame.memu

theorem tileIso_tileUnc (s : State) (hn : n < 32) : (s.tileUnc n).memu.tileIso.getLsbD n = true := by
  rw [(frame_tileUnc s n).memu, setFbit_memu, (frame_maskSync _).memu]
  exact getLsbD_or_one _ hn

/-- What shows of a task error in a state whose tile has just been isolated. -/
theorem taskError_tileBreaks (hn : n < 32) (h1 : EngStep n (s.eng n) [] [] [] s t) (h : (t.tileUnc n).TaskError n 5 u) :
    (u.eng n).failed = (s.eng n).run.isSome ∧ (u.eng n).waiting = [] ∧ (u.eng n).v = (s.eng n).v ∧
      u.rd (R.SE_ERR n) = BitVec.ofNat 32 (5 * 2 ^ 28 + (s.eng n).task % 8192 * 2 ^ 13 + (s.eng n).pc % 8192) ∧
      u.bit (F.SE_STAT_TASK_ERR n) = true ∧ u.pends (72 + n) = true ∧ u.fbit (F.TDS_CL_CTL_ISOL (n / 4)) (n % 4) = true ∧
      u.engMask.getLsbD n = true ∧ (∃ m, u.fco.inFlight = s.fco.inFlight ++ [m, fmsg 1 (seInst n) 0 0x22 1 0 (u.rd (R.SE_ERR n)).toNat] ∧
        msgKind m = 0x20) ∧ ∀ q, u.mb q = s.mb q := by
  obtain ⟨hstep, herr, hstat, -, hpend, hmsg⟩ := h
  obtain ⟨hisol, -, -, hframe⟩ := tileUnc_spec t hn
  obtain ⟨l, hl⟩ := preOnly_tileUnc t n n
  obtain ⟨m, hm, hkind⟩ := inFlight_tileUnc t n
  rw [h1.own] at hl
  have hown := hstep.own
  rw [hl] at hown herr
  have hcl : R.TDS_CL_CTL (n / 4) ∉ [R.SE_STAT n, R.SE_ERR n, R.SE_ERR_CNT n] := by
    simp only [R.TDS_CL_CTL, R.SE_STAT, R.SE_ERR, R.SE_ERR_CNT, List.mem_cons, List.not_mem_nil, or_false]
    omega
  refine ⟨by rw [hown], by rw [hown], by rw [hown], herr, ?_, hpend, ?_, engMask_of_tileIso ?_, ⟨m, ?_, hkind⟩, fun q => ?_⟩
  · have hb := getLsbD_rd u (R.SE_STAT n) 31
    rw [hstat, BitVec.getLsbD_or, show (0x80000000 : BitVec 32).getLsbD 31 = true from rfl, Bool.or_true] at hb
    exact hb.symm
  · rw [hstep.fbit _ hcl (by simp only [F.TDS_CL_CTL_ISOL, R.TDS_CL_CTL]; omega)]
    exact hisol
  · rw [hstep.memu]
    exact tileIso_tileUnc t hn
  · rw [hmsg, hm, h1.inFlight, List.append_assoc]
    rfl
  · have hmb : (t.tileUnc n).mb q = t.mb q := (hframe.mem q).trans (mb_of_mem (by rfl) q)
    rw [hstep.mb, hmb, h1.mb]

/-- An access to the tile whose word is uncorrectable isolates the tile and fails the task. -/
theorem tileBreaks_of_effect {c : Instr} {i : SeIns} {e : SeEff} (hn : n < 32) (hx : exec c s = .next (s.seIssue n i .double))
    (he : seEffect (s.eng n) (fun ad => s.mw (tileBase n + ad)) i = e) (hc : s.codesOf n [⟨i, .double⟩] = []) (ht : e.tile = true) :
    s.TileBreaks n c i := by
  intro h
  obtain ⟨s1, h1, htt, -, hm, -, hq⟩ := seIssue_alone i .double h
  have he1 : seEffect (s1.eng n) (fun ad => s1.mw (tileBase n + ad)) i = e := by
    rw [h1.own, ← he]
    simp only [mw_of_mem hm]
  have hshake := seShake_double he1 ((codesOf_after h1 hm htt _).trans hc) ht
  have herr := taskError_spec (s1.tileUnc n) hn 5
  refine ⟨_, hx, taskError_tileBreaks hn h1 ?_⟩
  rw [hq, hshake]
  exact herr.idled (drain_idled (by rw [herr.1.own]) 1)

/-- An instruction that reaches the tile and nothing else outside of its engine. -/
structure TileAccess (s : State) (n : Nat) (i : SeIns) (e : SeEff) : Prop where
  effect : seEffect (s.eng n) (fun ad => s.mw (tileBase n + ad)) i = e
  even : i.odd = false
  branch : e.br = none
  out : e.out = none
  spawn : e.spawn = none
  tile : e.tile = true
  legal : 1 ∉ e.codes

theorem TileAccess.codes {i : SeIns} {e : SeEff} (h : TileAccess s n i e) (err : EccErr) : s.codesOf n [⟨i, err⟩] = e.codes.eraseDups :=
  codesOf_tile h.effect h.even h.legal h.branch h.out rfl

theorem TileAccess.fails {c : Instr} {i : SeIns} {e : SeEff} {err : EccErr} {code : Nat} (h : TileAccess s n i e) (hn : n < 32)
    (hx : exec c s = .next (s.seIssue n i err)) (hc : e.codes.eraseDups = [code]) : s.Fails n c i code :=
  fails_of_code hn hx ((h.codes err).trans hc)

theorem TileAccess.tileBreaks {c : Instr} {i : SeIns} {e : SeEff} (h : TileAccess s n i e) (hn : n < 32)
    (hx : exec c s = .next (s.seIssue n i .double)) (hc : e.codes = []) : s.TileBreaks n c i :=
  tileBreaks_of_effect hn hx h.effect ((h.codes _).trans (by rw [hc]; rfl)) h.tile

theorem TileAccess.runs {c : Instr} {i : SeIns} {e : SeEff} {y z : Eng} (h : TileAccess s n i e) (hx : exec c s = .next (s.seIssue n i .ok))
    (hc : e.codes = []) (hst : e.st = []) (hwr : ∀ t : State, t.freeCtr = s.freeCtr → ∃ k, t.putRegs (s.eng n) [] e.wr = (y, { t with freeCtr := k }))
    (hz : y.after .ok e = z) : s.Runs n c i z e.fl :=
  runs_of_clean hx h.effect ((h.codes _).trans (by rw [hc]; rfl)) (fun _ => rfl) h.spawn hst hwr hz

/-- An instruction without special registers, branch, outstanding operation and END leaves its engine at the next index. -/
theorem after_eq_advance {y : Eng} {err : EccErr} {e : SeEff} (hl : e.lc = none) (hd : e.dlx = none) (hr : e.rot = false) (hb : e.br = none)
    (ho : e.out = none) (hs : e.stop = false) : y.after err e = y.advance := by
  simp [Eng.after, Eng.advance, hl, hd, hr, hb, ho, hs]

/-! ## The loads -/

theorem lw_access (s : State) (n : Nat) (d a : Fin 64) (imm : BitVec 13) :
    TileAccess s n { op := 0x25, d := d, a := a, imm := imm13 imm }
      { wr := [(d, s.mw (tileBase n + ((s.eng n).get a + imm.signExtend 32).toNat))],
        codes := tileCodes ((s.eng n).get a + imm.signExtend 32).toNat, tile := true } :=
  ⟨rfl, rfl, rfl, rfl, rfl, rfl, one_not_mem_tileCodes _⟩

theorem lwi_access (s : State) (n : Nat) (d a : Fin 64) (imm : BitVec 13) :
    TileAccess s n { op := 0x27, d := d, a := a, imm := imm13 imm }
      { wr := [(d, s.mw (tileBase n + ((s.eng n).get a).toNat)), (a, (s.eng n).get a + imm.signExtend 32)],
        codes := tileCodes ((s.eng n).get a).toNat, tile := true } :=
  ⟨rfl, rfl, rfl, rfl, rfl, rfl, one_not_mem_tileCodes _⟩

theorem lw2_access (s : State) (n : Nat) {d : Fin 64} (a : Fin 64) (imm : BitVec 13) (hd : d.val % 2 = 0) :
    TileAccess s n { op := 0x29, d := d, a := a, imm := imm13 imm }
      { wr := [(d, s.mw (tileBase n + ((s.eng n).get a + imm.signExtend 32).toNat)),
               (d + 1, s.mw (tileBase n + (((s.eng n).get a + imm.signExtend 32).toNat + 4)))],
        codes := tileCodes ((s.eng n).get a + imm.signExtend 32).toNat ++ tileCodes (((s.eng n).get a + imm.signExtend 32).toNat + 4),
        tile := true } :=
  ⟨rfl, not_odd_of_even rfl hd, rfl, rfl, rfl, rfl, by simp [one_not_mem_tileCodes]⟩

/-- Settles O11: the addresses decide which errors apply; without one the words reach the registers, with an uncorrectable word the tile goes. -/
theorem tileLoadsReadTheTile : Obligations.TileLoadsReadTheTile := by
  unfold Obligations.TileLoadsReadTheTile
  intro s n d a imm err x va ad m op
  have hn := n.isLt
  have lw := lw_access s n d a imm
  have lwi := lwi_access s n d a imm
  have lw2 := fun hd => lw2_access s n (d := d) a imm hd
  refine ⟨fun h ha => ?_, fun h ha hne => ?_, fun h ha heq => ?_, fun h ha hd => ?_, fun h ha => ?_, fun h ha => ?_, fun h ha hd => ?_,
    fun h ha => ?_, fun h ha => ?_, fun h ha hd => ?_, fun h ha => ?_, fun h ha => ?_, fun h ha hd => ?_⟩
  · exact lw.runs rfl (tileCodes_ok h ha) rfl (fun t _ => ⟨t.freeCtr, putRegs_nodup t (by simp)⟩) (after_eq_advance rfl rfl rfl rfl rfl rfl)
  · exact lwi.runs rfl (tileCodes_ok h ha) rfl (fun t _ => ⟨t.freeCtr, putRegs_nodup t (by
      simpa using fun e => hne (Fin.ext (x.phys_inj d.isLt a.isLt e)))⟩) (after_eq_advance rfl rfl rfl rfl rfl rfl)
  · subst heq
    exact ⟨_, lwi.runs rfl (tileCodes_ok h ha) rfl (fun t ht => ⟨s.freeCtr + 1, ht ▸ putRegs_twice t x d _ _⟩) (after_eq_advance rfl rfl rfl rfl rfl rfl)⟩
  · exact (lw2 hd).runs rfl (tileCodes_two_ok h ha) rfl (fun t _ => ⟨t.freeCtr, putRegs_pair t _ hd d.isLt _ _⟩)
      (after_eq_advance rfl rfl rfl rfl rfl rfl)
  · exact lw.fails hn rfl (congrArg List.eraseDups (tileCodes_align h ha))
  · exact lwi.fails hn rfl (congrArg List.eraseDups (tileCodes_align h ha))
  · exact (lw2 hd).fails hn rfl (tileCodes_two_align h ha)
  · exact lw.fails hn rfl (congrArg List.eraseDups (tileCodes_range h ha))
  · exact lwi.fails hn rfl (congrArg List.eraseDups (tileCodes_range h ha))
  · exact (lw2 hd).fails hn rfl (tileCodes_two_range h ha)
  · exact lw.tileBreaks hn rfl (tileCodes_ok h ha)
  · exact lwi.tileBreaks hn rfl (tileCodes_ok h ha)
  · exact (lw2 hd).tileBreaks hn rfl (tileCodes_two_ok h ha)

end Sys2Proof.Machine
end

section
/-! Stores to the tile and TAP (Table 8.2, R191, R192, R196). -/

namespace Sys2Proof.Machine

set_option Elab.async false

variable {n : Nat} {s : State}

theorem TileAccess.stores {c : Instr} {i : SeIns} {e : SeEff} {y z : Eng} (h : TileAccess s n i e) (hx : exec c s = .next (s.seIssue n i .ok))
    (hc : e.codes = []) (hst : e.st.Pairwise fun p q => q.1 + 4 ≤ p.1 ∨ p.1 + 4 ≤ q.1)
    (hwr : ∀ t : State, t.freeCtr = s.freeCtr → ∃ k, t.putRegs (s.eng n) [] e.wr = (y, { t with freeCtr := k })) (hz : y.after .ok e = z) :
    s.Stores n c i z e.fl e.st :=
  stores_of_clean hx h.effect ((h.codes _).trans (by rw [hc]; rfl)) h.spawn hst hwr hz

/-! ## The stores -/

theorem sw_access (s : State) (n : Nat) (d a : Fin 64) (imm : BitVec 13) :
    TileAccess s n { op := 0x26, d := d, a := a, imm := imm13 imm }
      { st := [(((s.eng n).get a + imm.signExtend 32).toNat, (s.eng n).get d)], codes := tileCodes ((s.eng n).get a + imm.signExtend 32).toNat,
        tile := true } :=
  ⟨rfl, rfl, rfl, rfl, rfl, rfl, one_not_mem_tileCodes _⟩

theorem swi_access (s : State) (n : Nat) (d a : Fin 64) (imm : BitVec 13) :
    TileAccess s n { op := 0x28, d := d, a := a, imm := imm13 imm }
      { st := [(((s.eng n).get a).toNat, (s.eng n).get d)], wr := [(a, (s.eng n).get a + imm.signExtend 32)],
        codes := tileCodes ((s.eng n).get a).toNat, tile := true } :=
  ⟨rfl, rfl, rfl, rfl, rfl, rfl, one_not_mem_tileCodes _⟩

theorem sw2_access (s : State) (n : Nat) {d : Fin 64} (a : Fin 64) (imm : BitVec 13) (hd : d.val % 2 = 0) :
    TileAccess s n { op := 0x2A, d := d, a := a, imm := imm13 imm }
      { st := [(((s.eng n).get a + imm.signExtend 32).toNat, (s.eng n).get d),
               (((s.eng n).get a + imm.signExtend 32).toNat + 4, (s.eng n).get (d + 1))],
        codes := tileCodes ((s.eng n).get a + imm.signExtend 32).toNat ++ tileCodes (((s.eng n).get a + imm.signExtend 32).toNat + 4),
        tile := true } :=
  ⟨rfl, not_odd_of_even rfl hd, rfl, rfl, rfl, rfl, by simp [one_not_mem_tileCodes]⟩

/-! ## TAP (R196) -/

/-- An instruction that also writes DLX. -/
theorem after_eq_advance_dlx {y : Eng} {err : EccErr} {e : SeEff} {v : BitVec 32} (hd : e.dlx = some v) (hl : e.lc = none) (hr : e.rot = false)
    (hb : e.br = none) (ho : e.out = none) (hs : e.stop = false) : y.after err e = { y.advance with dlx := v } := by
  simp [Eng.after, Eng.advance, hl, hd, hr, hb, ho, hs]

/-- The register writes of TAP on engine `x`, `r` being the result: D first, unless A or B is the same register, then A and B. -/
def tapWrites (x : Eng) (d a b : Fin 64) (r : BitVec 32) : List (Nat × BitVec 32) :=
  (if (d : Nat) = a ∨ (d : Nat) = b then [] else [((d : Nat), r)]) ++
    ((a : Nat), x.get a + 4) :: (if (b : Nat) = a then [] else [((b : Nat), x.get b + 4)])

theorem tap_access (s : State) (n : Nat) (d a b : Fin 64) :
    TileAccess s n { op := 0x11, d := d, a := a, b := b }
      { codes := tileCodes ((s.eng n).get a).toNat ++ tileCodes ((s.eng n).get b).toNat, tile := true,
        fl := (fFma fmt32 (s.mw (tileBase n + ((s.eng n).get a).toNat)).toNat (s.eng n).dlx.toNat ((s.eng n).get d).toNat).flags,
        wr := tapWrites (s.eng n) d a b
          (w32 (fFma fmt32 (s.mw (tileBase n + ((s.eng n).get a).toNat)).toNat (s.eng n).dlx.toNat ((s.eng n).get d).toNat)),
        st := [(((s.eng n).get b).toNat, (s.eng n).dlx)], dlx := some (s.mw (tileBase n + ((s.eng n).get b).toNat)) } :=
  ⟨rfl, rfl, rfl, rfl, rfl, rfl, by simp [one_not_mem_tileCodes]⟩

/-- The registers of TAP after its writes: no register is written twice. -/
theorem putRegs_tap (t : State) (x : Eng) (d a b : Fin 64) (r : BitVec 32) : t.putRegs x [] (tapWrites x d a b r) =
    (let y := if d = a ∨ d = b then x else x.put d r
     if a = b then y.put a (x.get a + 4) else (y.put a (x.get a + 4)).put b (x.get b + 4), t) := by
  have hne : ∀ i j : Fin 64, i ≠ j → x.phys i ≠ x.phys j := fun i j h e => h (Fin.ext (x.phys_inj i.isLt j.isLt e))
  unfold tapWrites
  simp only [Fin.val_inj]
  by_cases hab : a = b
  · subst hab
    by_cases hda : d = a
    · subst hda
      rw [putRegs_nodup t (by simp)]
      simp
    · rw [putRegs_nodup t (by simpa [hda] using hne d a hda)]
      simp [hda]
  · have hba : ¬ b = a := fun h => hab h.symm
    by_cases hd : d = a ∨ d = b
    · rw [putRegs_nodup t (by simpa [hd, hba] using hne a b hab)]
      simp [hd, hab, hba]
    · obtain ⟨hda, hdb⟩ := not_or.1 hd
      rw [putRegs_nodup t (by simpa [hda, hdb, hba] using ⟨⟨hne d a hda, hne d b hdb⟩, hne a b hab⟩)]
      simp [hda, hdb, hab, hba]

/-- Settles O12: the addresses decide which errors apply; without one the words are found in the tile, and no other byte has changed. -/
theorem tileStoresWriteTheTile : Obligations.TileStoresWriteTheTile := by
  unfold Obligations.TileStoresWriteTheTile
  intro s n d a b imm err x va vb ad m op
  have hn := n.isLt
  have sw := sw_access s n d a imm
  have swi := swi_access s n d a imm
  have sw2 := fun hd => sw2_access s n (d := d) a imm hd
  have tap := tap_access s n d a b
  refine ⟨fun h ha => ?_, fun h ha => ?_, fun h ha hd => ?_, fun h ha hb hvb => ?_, fun h ha => ?_, fun h ha => ?_, fun h ha hd => ?_,
    fun h ha => ?_, fun h ha => ?_, fun h ha hd => ?_⟩
  · exact sw.stores rfl (tileCodes_ok h ha) (List.pairwise_singleton _ _) (fun t _ => ⟨t.freeCtr, rfl⟩) (after_eq_advance rfl rfl rfl rfl rfl rfl)
  · exact swi.stores rfl (tileCodes_ok h ha) (List.pairwise_singleton _ _) (fun t _ => ⟨t.freeCtr, putRegs_nodup t (by simp)⟩)
      (after_eq_advance rfl rfl rfl rfl rfl rfl)
  · exact (sw2 hd).stores rfl (tileCodes_two_ok h ha) (by simp) (fun t _ => ⟨t.freeCtr, rfl⟩) (after_eq_advance rfl rfl rfl rfl rfl rfl)
  · intro r y z
    exact tap.stores rfl (by rw [tileCodes_ok h ha, tileCodes_ok hb hvb]; rfl) (List.pairwise_singleton _ _)
      (fun t _ => ⟨t.freeCtr, putRegs_tap t _ _ _ _ _⟩) (after_eq_advance_dlx rfl rfl rfl rfl rfl rfl)
  · exact sw.fails hn rfl (congrArg List.eraseDups (tileCodes_align h ha))
  · exact swi.fails hn rfl (congrArg List.eraseDups (tileCodes_align h ha))
  · exact (sw2 hd).fails hn rfl (tileCodes_two_align h ha)
  · exact sw.fails hn rfl (congrArg List.eraseDups (tileCodes_range h ha))
  · exact swi.fails hn rfl (congrArg List.eraseDups (tileCodes_range h ha))
  · exact (sw2 hd).fails hn rfl (tileCodes_two_range h ha)

end Sys2Proof.Machine
end

section
/-! Accesses to the signal map and the cluster bank (Table 8.2, R191 to R194): outstanding operations, the write window. -/

namespace Sys2Proof.Machine

set_option Elab.async false

variable {n : Nat} {s : State}

/-! ## Errors of a map or bank access -/

theorem effects_one {i : SeIns} {err : EccErr} {e : SeEff} (he : seEffect (s.eng n) (fun ad => s.mw (tileBase n + ad)) i = e) :
    s.effects n [⟨i, err⟩] = [{ e with out := e.out.map fun o => { o with err := err } }] := by
  simp only [State.effects, List.map_cons, List.map_nil, he]

/-- An instruction whose effect is an outstanding operation `o`, with register writes `w`. -/
structure OutAccess (s : State) (n : Nat) (i : SeIns) (cs : List Nat) (w : List (Nat × BitVec 32)) (o : Outst) : Prop where
  effect : seEffect (s.eng n) (fun ad => s.mw (tileBase n + ad)) i = { codes := cs, wr := w, out := some o }
  even : i.odd = false

variable {i : SeIns} {err : EccErr} {cs : List Nat} {w : List (Nat × BitVec 32)} {o : Outst}

/-- An access that is no store to the map meets the errors of its address. -/
theorem OutAccess.codes (h : OutAccess s n i cs w o) (err : EccErr) (h1 : 1 ∉ cs) (hk : o.kind ≠ .sts) : s.codesOf n [⟨i, err⟩] = cs.eraseDups := by
  rw [State.codesOf, effects_one h.effect]
  exact shakeCodes_own _ _ h.even h1 rfl (by simpa using hk)

/-- The map index lies outside the write window of the running task; without one the window is empty (R194, log entry 21). -/
def State.outsideWindow (s : State) (n ad : Nat) : Prop :=
  (s.eng n).run = none ∨ ad < tWbase (s.task (s.eng n).task) ∨ tWbase (s.task (s.eng n).task) + tWlen (s.task (s.eng n).task) ≤ ad

theorem outsideWindow_iff (s : State) (n ad : Nat) : s.outsideWindow n ad ↔
    ((s.eng n).run.isNone || decide (ad < tWbase (s.task (s.eng n).task)) ||
      decide (tWbase (s.task (s.eng n).task) + tWlen (s.task (s.eng n).task) ≤ ad)) = true := by
  simp [State.outsideWindow, or_assoc]

/-- A store to the map outside the write window is WINDOW. -/
theorem OutAccess.codes_outside (h : OutAccess s n i [] w o) (err : EccErr) (hk : o.kind = .sts) (hw : s.outsideWindow n o.addr) :
    s.codesOf n [⟨i, err⟩] = [4] := by
  rw [State.codesOf, effects_one h.effect]
  simp [State.shakeCodes, h.even, hk, (outsideWindow_iff _ _ _).1 hw]
  rfl

/-- One inside it meets no error. -/
theorem OutAccess.codes_inside (h : OutAccess s n i [] w o) (err : EccErr) (hk : o.kind = .sts) (hw : ¬ s.outsideWindow n o.addr) :
    s.codesOf n [⟨i, err⟩] = [] := by
  rw [outsideWindow_iff, Bool.not_eq_true] at hw
  rw [State.codesOf, effects_one h.effect]
  simp [State.shakeCodes, h.even, hk, hw]

/-- An access that meets no error completes its handshake and leaves its operation last in the list. -/
theorem OutAccess.runs {c : Instr} {y : Eng} (h : OutAccess s n i cs w o) (hx : exec c s = .next (s.seIssue n i err))
    (hc : s.codesOf n [⟨i, err⟩] = []) (hwr : ∀ t : State, t.putRegs (s.eng n) [] w = (y, t)) :
    s.Runs n c i { y.advance with out := y.out ++ [{ o with err := err }] } {} :=
  runs_of_clean (e := { codes := cs, wr := w, out := some o }) hx h.effect hc (fun ht => nomatch ht) rfl rfl (fun t _ => ⟨t.freeCtr, hwr t⟩)
    (by simp [Eng.after, Eng.advance])

/-! ## Addresses of the map and the bank -/

theorem mapCodes_ok {ad : Nat} (h : ad < 0x4000) : addrCodes 0x4000 1 ad = [] := by simp [addrCodes, Nat.not_le.2 h, Nat.mod_one]

theorem mapCodes_range {ad : Nat} (h : 0x4000 ≤ ad) : addrCodes 0x4000 1 ad = [3] := by simp [addrCodes, h, Nat.mod_one]

theorem bankCodes_ok {ad : Nat} (h : ad < 0x200000) (ha : ad % 8 = 0) : bankCodes ad = [] := by simp [bankCodes, addrCodes, Nat.not_le.2 h, ha]

/-! ## The instructions -/

@[simp] theorem Eng.put_out (x : Eng) (i : Nat) (v : BitVec 32) : (x.put i v).out = x.out := by
  unfold Eng.put Eng.putPhys
  split <;> rfl

theorem lds_access (s : State) (n : Nat) (d a : Fin 64) (imm : BitVec 13) :
    OutAccess s n { op := 0x2B, d := d, a := a, imm := imm13 imm } (addrCodes 0x4000 1 ((s.eng n).get a + imm.signExtend 32).toNat) []
      { kind := .lds, addr := ((s.eng n).get a + imm.signExtend 32).toNat, dst := [(s.eng n).phys d] } := ⟨rfl, rfl⟩

theorem ldsi_access (s : State) (n : Nat) (d a : Fin 64) (imm : BitVec 13) :
    OutAccess s n { op := 0x2C, d := d, a := a, imm := imm13 imm } (addrCodes 0x4000 1 ((s.eng n).get a).toNat)
      [(a, (s.eng n).get a + imm.signExtend 32)] { kind := .lds, addr := ((s.eng n).get a).toNat, dst := [(s.eng n).phys d] } := ⟨rfl, rfl⟩

theorem sts_access (s : State) (n : Nat) (d a : Fin 64) (imm : BitVec 13) :
    OutAccess s n { op := 0x2D, d := d, a := a, imm := imm13 imm } [] []
      { kind := .sts, addr := ((s.eng n).get a + imm.signExtend 32).toNat, val := ((s.eng n).get d).setWidth 64 } := ⟨rfl, rfl⟩

theorem ldc_access (s : State) (n : Nat) {d : Fin 64} (a : Fin 64) (imm : BitVec 13) (hd : d.val % 2 = 0) :
    OutAccess s n { op := 0x2E, d := d, a := a, imm := imm13 imm } (bankCodes ((s.eng n).get a + imm.signExtend 32).toNat) []
      { kind := .ldc, addr := ((s.eng n).get a + imm.signExtend 32).toNat, dst := [(s.eng n).phys d, (s.eng n).phys (d + 1)] } :=
  ⟨rfl, not_odd_of_even rfl hd⟩

theorem stc_access (s : State) (n : Nat) {d : Fin 64} (a : Fin 64) (imm : BitVec 13) (hd : d.val % 2 = 0) :
    OutAccess s n { op := 0x2F, d := d, a := a, imm := imm13 imm } (bankCodes ((s.eng n).get a + imm.signExtend 32).toNat) []
      { kind := .stc, addr := ((s.eng n).get a + imm.signExtend 32).toNat, val := (s.eng n).get (d + 1) ++ (s.eng n).get d } :=
  ⟨rfl, not_odd_of_even rfl hd⟩

/-- Settles O13: an access with a good address stands last among the outstanding operations; a bad index or a store outside the window fails. -/
theorem mapAndBankAccessesAreOutstanding : Obligations.MapAndBankAccessesAreOutstanding := by
  unfold Obligations.MapAndBankAccessesAreOutstanding
  intro s n d a imm err x e ad op y
  have hn := n.isLt
  have lds := lds_access s n d a imm
  have ldsi := ldsi_access s n d a imm
  have sts := sts_access s n d a imm
  have ldc := fun hd => ldc_access s n (d := d) a imm hd
  have stc := fun hd => stc_access s n (d := d) a imm hd
  refine ⟨fun h => ?_, fun h => ?_, fun hr hlo hhi => ?_, fun h ha hd => ⟨?_, ?_⟩, fun hw => ?_, fun h => ?_⟩
  · have hc := mapCodes_ok h
    exact lds.runs rfl ((lds.codes err (one_not_mem_addrCodes _ _ _) nofun).trans (congrArg List.eraseDups hc)) (fun t => rfl)
  · have hc := mapCodes_ok h
    have hout : (x.put a (x.get a + imm.signExtend 32)).out = x.out := Eng.put_out _ _ _
    rw [← hout]
    exact ldsi.runs rfl ((ldsi.codes err (one_not_mem_addrCodes _ _ _) nofun).trans (congrArg List.eraseDups hc)) (fun t => putRegs_nodup t (by simp))
  · have hin : ¬ s.outsideWindow n ad := by
      rintro (h | h | h)
      · rw [h] at hr
        cases hr
      · exact Nat.not_lt.2 hlo h
      · exact Nat.not_lt.2 h hhi
    exact sts.runs rfl (sts.codes_inside .ok rfl hin) (fun t => rfl)
  · have hc := bankCodes_ok h ha
    exact (ldc hd).runs rfl (((ldc hd).codes err (one_not_mem_addrCodes _ _ _) nofun).trans (congrArg List.eraseDups hc)) (fun t => rfl)
  · have hc := bankCodes_ok h ha
    exact (stc hd).runs rfl (((stc hd).codes err (one_not_mem_addrCodes _ _ _) nofun).trans (congrArg List.eraseDups hc)) (fun t => rfl)
  · exact fails_of_code hn rfl (sts.codes_outside .ok rfl hw)
  · have hc := mapCodes_range h
    exact fails_of_code hn rfl ((lds.codes err (one_not_mem_addrCodes _ _ _) nofun).trans (congrArg List.eraseDups hc))

end Sys2Proof.Machine
end

section
/-! Control instructions (Table 8.2, R188, R190, R191, R193): branches, loops, latches, END, and a FENCE that waits. -/

namespace Sys2Proof.Machine

set_option Elab.async false

variable {n : Nat} {s : State}

/-! ## Branches (R190) -/

/-- The branch target of engine `x` at offset `o` is an index of the program. -/
def Eng.reaches (x : Eng) (o : Int) : Prop := 0 ≤ (x.pc : Int) + o ∧ (x.pc : Int) + o ≤ 8191

/-- An instruction whose effect is a branch by `o` where `taken`, with what LC and ROT become. -/
structure Branch (s : State) (n : Nat) (i : SeIns) (taken : Bool) (o : Int) (l : Option (BitVec 32)) (r : Bool) : Prop where
  effect : seEffect (s.eng n) (fun ad => s.mw (tileBase n + ad)) i = { br := if taken then some o else none, lc := l, rot := r }
  even : i.odd = false

variable {i : SeIns} {taken : Bool} {o : Int} {l : Option (BitVec 32)} {r : Bool} {c : Instr}

theorem Branch.codes (h : Branch s n i taken o l r) (hin : taken = true → (s.eng n).reaches o) : s.codesOf n [⟨i, .ok⟩] = [] := by
  rw [State.codesOf, effects_one h.effect]
  cases taken with
  | false => simp [State.shakeCodes, h.even]
  | true =>
    obtain ⟨hlo, hhi⟩ := hin rfl
    simp [State.shakeCodes, h.even, Int.not_lt.2 hlo, Int.not_lt.2 hhi]

/-- The engine after a branch. -/
def Eng.branched (x : Eng) (taken : Bool) (o : Int) : Eng := if taken then { x with pc := ((x.pc : Int) + o).toNat } else x.advance

/-- A branch that stays in the program goes to its target, or to the next index where it is not taken. -/
theorem Branch.runs (h : Branch s n i taken o l r) (hx : exec c s = .next (s.seIssue n i .ok)) (hin : taken = true → (s.eng n).reaches o) :
    s.Runs n c i { (s.eng n).branched taken o with lc := l.getD (s.eng n).lc, rot := if r then ((s.eng n).rot + 31) % 32 else (s.eng n).rot } {} :=
  runs_of_clean (e := { br := if taken then some o else none, lc := l, rot := r }) hx h.effect (h.codes hin) (fun ht => nomatch ht) rfl rfl
    (fun t _ => ⟨t.freeCtr, rfl⟩) (by cases taken <;> simp [Eng.after, Eng.branched, Eng.advance])

/-- One that leaves the program is ILLEGAL. -/
theorem Branch.fails (h : Branch s n i true o l r) (hn : n < 32) (hx : exec c s = .next (s.seIssue n i .ok)) (hout : ¬ (s.eng n).reaches o) :
    s.Fails n c i 1 := by
  refine fails_of_code hn hx ?_
  have hb : (decide (((s.eng n).pc : Int) + o < 0) || decide (8191 < ((s.eng n).pc : Int) + o)) = true := by
    rw [Bool.or_eq_true, decide_eq_true_eq, decide_eq_true_eq]
    by_contra hno
    obtain ⟨hlo, hhi⟩ := not_or.1 hno
    exact hout ⟨Int.not_lt.1 hlo, Int.not_lt.1 hhi⟩
  rw [State.codesOf, effects_one h.effect]
  simp [State.shakeCodes, h.even, hb]

theorem toInt_ofs19 (ofs : BitVec 19) : (ofs19 ofs).toInt = ofs.toInt := BitVec.toInt_signExtend_of_le (by decide)

theorem bnz_branch (s : State) (n : Nat) (a : Fin 64) (ofs : BitVec 19) :
    Branch s n { op := 0x38, a := a, imm := ofs19 ofs } ((s.eng n).get a != 0) ofs.toInt none false := ⟨toInt_ofs19 ofs ▸ rfl, rfl⟩

theorem bz_branch (s : State) (n : Nat) (a : Fin 64) (ofs : BitVec 19) :
    Branch s n { op := 0x39, a := a, imm := ofs19 ofs } ((s.eng n).get a == 0) ofs.toInt none false := ⟨toInt_ofs19 ofs ▸ rfl, rfl⟩

theorem loop_branch (s : State) (n : Nat) (ofs : BitVec 19) :
    Branch s n { op := 0x3A, imm := ofs19 ofs } (decide (0 < ((s.eng n).lc - 1).toInt)) ofs.toInt (some ((s.eng n).lc - 1)) true :=
  ⟨toInt_ofs19 ofs ▸ rfl, rfl⟩

theorem loopn_branch (s : State) (n : Nat) (ofs : BitVec 19) :
    Branch s n { op := 0x3B, imm := ofs19 ofs } (decide (0 < ((s.eng n).lc - 1).toInt)) ofs.toInt (some ((s.eng n).lc - 1)) false :=
  ⟨toInt_ofs19 ofs ▸ rfl, rfl⟩

/-! ## Instructions that touch special registers alone -/

/-- An instruction without errors, register writes and access. -/
theorem runs_special {e : SeEff} {z : Eng} (hx : exec c s = .next (s.seIssue n i .ok))
    (he : seEffect (s.eng n) (fun ad => s.mw (tileBase n + ad)) i = e) (ho : i.odd = false) (hc : e.codes = []) (hb : e.br = none)
    (hu : e.out = none) (hsp : e.spawn = none) (hst : e.st = []) (hwr : e.wr = []) (hz : (s.eng n).after .ok e = z) : s.Runs n c i z e.fl := by
  refine runs_of_clean (y := s.eng n) hx he ?_ (fun _ => rfl) hsp hst (fun t _ => ⟨t.freeCtr, by rw [hwr]; rfl⟩) hz
  rw [State.codesOf, effects_one he]
  exact shakeCodes_clean _ _ _ _ ho hc hb (by simp [hu])

/-! ## Instructions that wait -/

/-- An instruction that cannot execute yet waits in its engine. -/
theorem seIssue_waits {err : EccErr} (hs : s.Live) (he : (s.eng n).ended = false) (hf : (s.eng n).failed = false) (hw : (s.eng n).waiting = [])
    (h : i.p = true ∨ (s.eng n).mustWait i = true) : s.seIssue n i err = s.setEng n { s.eng n with waiting := [⟨i, err⟩] } := by
  have hheld : s.held = false := hs
  have hb : ((s.eng n).ended || (s.eng n).failed) = false := by rw [he, hf]; rfl
  simp only [State.seIssue, hheld, hw, List.nil_append, List.length_cons, List.length_nil, State.seDrain, eng_setEng_self, hb,
    Bool.false_eq_true, if_false, nextShake]
  rcases h with hp | hm
  · simp only [hp, if_true]
  · cases hp : i.p with
    | true => simp only [if_true]
    | false => simp only [Bool.false_eq_true, if_false, List.any_cons, List.any_nil, Bool.or_false, mustWait_waiting, hm, if_true]

theorem waits_step {err : EccErr} (hx : exec c s = .next (s.seIssue n i err)) (hs : s.Live) (he : (s.eng n).ended = false)
    (hf : (s.eng n).failed = false) (hw : (s.eng n).waiting = []) (h : i.p = true ∨ (s.eng n).mustWait i = true) :
    ∃ t, exec c s = .next t ∧ EngStep n { s.eng n with waiting := [⟨i, err⟩] } [] [] [] s t :=
  ⟨_, hx.trans (congrArg _ (seIssue_waits hs he hf hw h)), (EngStep.refl n [] [] [] s).setEng _⟩

/-- A FENCE waits while an operation is outstanding (R193). -/
theorem mustWait_fence {x : Eng} (h : x.out ≠ []) : x.mustWait { op := 0x30 } = true := by
  obtain ⟨o, l, hl⟩ := List.exists_cons_of_ne_nil h
  simp [Eng.mustWait, hl]

/-- Settles O15: a branch is taken as its condition says and must stay in the program; the rest touch the special registers alone. -/
theorem controlInstructionsSteerTheEngine : Obligations.ControlInstructionsSteerTheEngine := by
  unfold Obligations.ControlInstructionsSteerTheEngine
  intro s n a ofs imm x tgt inside lc rot go j l
  have hn := n.isLt
  have bnz := bnz_branch s n a ofs
  have bz := bz_branch s n a ofs
  have loop := loop_branch s n ofs
  have loopn := loopn_branch s n ofs
  refine ⟨?_, ?_, fun h => ?_, fun h => ?_, fun h => ?_, fun h => ?_, ?_, ?_, ?_, fun hout => ⟨fun ha => ?_, fun ha => ?_, fun hl => ⟨?_, ?_⟩⟩, ?_⟩
  · exact runs_special (e := {}) rfl rfl rfl rfl rfl rfl rfl rfl rfl (by simp [Eng.after, Eng.advance, x])
  · exact runs_special (e := {}) rfl rfl rfl rfl rfl rfl rfl rfl rfl (by simp [Eng.after, Eng.advance, x])
  · have hz : { x.branched (x.get a != 0) ofs.toInt with lc := x.lc, rot := x.rot } = if x.get a = 0 then x.advance else go x := by
      by_cases h0 : x.get a = 0
      · rw [if_pos h0, h0]
        rfl
      · rw [if_neg h0, bne_iff_ne.2 h0]
        rfl
    exact hz ▸ bnz.runs rfl fun ht => h.resolve_left (by simpa using ht)
  · have hz : { x.branched (x.get a == 0) ofs.toInt with lc := x.lc, rot := x.rot } = if x.get a = 0 then go x else x.advance := by
      by_cases h0 : x.get a = 0
      · rw [if_pos h0, h0]
        rfl
      · rw [if_neg h0, beq_eq_false_iff_ne.2 h0]
        rfl
    exact hz ▸ bz.runs rfl fun ht => h.resolve_left (by simpa using ht)
  · have hz : { x.branched (decide (0 < lc.toInt)) ofs.toInt with lc := lc, rot := rot } =
        if 0 < lc.toInt then { go x with lc := lc, rot := rot } else { x.advance with lc := lc, rot := rot } := by
      by_cases h0 : 0 < lc.toInt <;> simp [Eng.branched, Eng.advance, go, tgt, h0]
    exact hz ▸ loop.runs rfl fun ht => h.resolve_left (Int.not_le.2 (of_decide_eq_true ht))
  · have hz : { x.branched (decide (0 < lc.toInt)) ofs.toInt with lc := lc, rot := x.rot } =
        if 0 < lc.toInt then { go x with lc := lc } else { x.advance with lc := lc } := by
      by_cases h0 : 0 < lc.toInt <;> simp [Eng.branched, Eng.advance, go, tgt, h0]
    exact hz ▸ loopn.runs rfl fun ht => h.resolve_left (Int.not_le.2 (of_decide_eq_true ht))
  · exact runs_special (e := { lc := some (x.get a + imm.signExtend 32) }) rfl rfl rfl rfl rfl rfl rfl rfl rfl (by simp [Eng.after, Eng.advance, x])
  · exact runs_special (e := { dlx := some (x.get a) }) rfl rfl rfl rfl rfl rfl rfl rfl rfl (by simp [Eng.after, Eng.advance, x])
  · intro h
    obtain ⟨-, hended, -⟩ := id h
    exact runs_special (e := { stop := true }) rfl rfl rfl rfl rfl rfl rfl rfl rfl (by simp [Eng.after, Eng.advance, x, hended]) h
  · rw [show (x.get a != 0) = true by simpa using ha] at bnz
    exact bnz.fails hn rfl hout
  · rw [show (x.get a == 0) = true by simpa using ha] at bz
    exact bz.fails hn rfl hout
  · rw [show decide (0 < lc.toInt) = true from decide_eq_true hl] at loop
    exact loop.fails hn rfl hout
  · rw [show decide (0 < lc.toInt) = true from decide_eq_true hl] at loopn
    exact loopn.fails hn rfl hout
  · exact fun hs he hf hw ho => waits_step rfl hs he hf hw (.inr (mustWait_fence ho))

end Sys2Proof.Machine
end

section
/-! Pairs (R189): the first instruction waits for the second, both read before either writes, and the order of their classes. -/

namespace Sys2Proof.Machine

set_option Elab.async false

variable {n : Nat} {s : State}

/-! ## A pair in its engine -/

/-- What an engine fetches as a pair is no reserved word. -/
theorem seReserved_of_fetches_two {c c' : SeCmd} (hq : s.seFetches n [c, c'] = true) : s.seReserved n = false := by
  cases hr : (s.eng n).run with
  | none => simp [State.seReserved, hr]
  | some r =>
    simp only [State.seFetches, hr, Option.isNone_some, Bool.false_or, List.all_eq_true, List.mem_range, beq_iff_eq] at hq
    have h0 := hq 0 (by simp)
    have h1 := hq 1 (by simp)
    simp only [List.getElem?_cons_zero, List.getElem?_cons_succ, Option.map_some, Nat.add_zero] at h0 h1
    simp [State.seReserved, h0, h1]

/-- An instruction that is the second of a pair makes one handshake with the first. -/
theorem seIssue_second {i j : SeIns} (hs : s.Live) (he : (s.eng n).ended = false) (hf : (s.eng n).failed = false)
    (hw : (s.eng n).waiting = [⟨i, .ok⟩]) (hp : i.p = true) (hi : (s.eng n).mustWait i = false) (hj : (s.eng n).mustWait j = false)
    (hq : s.seFetches n [⟨i, .ok⟩, ⟨j, .ok⟩] = true) :
    ∃ s1, EngStep n { s.eng n with waiting := [] } [] [] [] s s1 ∧ s.seIssue n j .ok = (s1.seShake n [⟨i, .ok⟩, ⟨j, .ok⟩]).seDrain n 2 := by
  have hheld : s.held = false := hs
  have hb : ((s.eng n).ended || (s.eng n).failed) = false := by rw [he, hf]; rfl
  refine ⟨(s.setEng n { s.eng n with waiting := [⟨i, .ok⟩, ⟨j, .ok⟩] }).setEng n { s.eng n with waiting := [] },
    ((EngStep.refl n [] [] [] s).setEng _).setEng _, ?_⟩
  have hq' : ((s.setEng n { s.eng n with waiting := [⟨i, .ok⟩, ⟨j, .ok⟩] }).setEng n { s.eng n with waiting := [] }).seFetches n
      [⟨i, .ok⟩, ⟨j, .ok⟩] = true := by
    simpa [State.seFetches, State.psel, State.progWord, State.setEng, State.fld, State.rd, State.eng] using hq
  simp only [State.seIssue, hheld, hw, List.cons_append, List.nil_append, List.length_cons, List.length_nil, Bool.false_eq_true, if_false]
  simp only [State.seDrain, eng_setEng_self, hb, Bool.false_eq_true, if_false, nextShake, hp, if_true, List.any_cons, List.any_nil, Bool.or_false,
    mustWait_waiting, hi, hj, seReserved_of_fetches_two hq', hq']

/-- A handshake of two instructions that each write a word into a register and meet no error. -/
theorem seShake_two {c c' : SeCmd} {d e : Nat} {v w : BitVec 32} {y : Eng} (hes : s.effects n [c, c'] = [effW d v, effW e w])
    (hc : s.codesOf n [c, c'] = []) (hwr : s.putRegs (s.eng n) [] [(d, v), (e, w)] = (y, s)) :
    s.seShake n [c, c'] = s.setEng n { y with pc := (y.pc + 2) % 8192 } := by
  rw [State.codesOf, hes] at hc
  simp only [State.effects] at hes
  simp only [State.seShake, hes, hc]
  simp [effW, hwr, seFlags_none]

/-! ## The order of the classes -/

/-- Two instructions of which the second may not follow the first in a pair are ILLEGAL. -/
theorem shakeCodes_order (s : State) (x : Eng) {c c' : SeCmd} (e e' : SeEff) (h : pairOrder (seClass c.i.op) (seClass c'.i.op) = false) :
    s.shakeCodes x [c, c'] [e, e'] = [1] := by
  simp [State.shakeCodes, h]

/-- Two register instructions in the right order that write different registers meet no error. -/
theorem shakeCodes_pair_words (s : State) (x : Eng) {c c' : SeCmd} {d e : Nat} {v w : BitVec 32}
    (h : pairOrder (seClass c.i.op) (seClass c'.i.op) = true) (hw : c.i.writes = [d]) (hw' : c'.i.writes = [e]) (hne : x.phys d ≠ x.phys e)
    (ho : c.i.odd = false) (ho' : c'.i.odd = false) (ha : seAccesses c.i.op = 0) (ha' : seAccesses c'.i.op = 0) :
    s.shakeCodes x [c, c'] [effW d v, effW e w] = [] := by
  simp [State.shakeCodes, effW, h, hw, hw', hne, ho, ho', ha, ha']

/-! ## Registers while instructions wait -/

theorem Eng.putPhys_withWaiting (x : Eng) (w : List SeCmd) (r : Nat) (v : BitVec 32) :
    ({ x with waiting := w } : Eng).putPhys r v = { x.putPhys r v with waiting := w } := by
  unfold Eng.putPhys
  split <;> rfl

theorem Eng.put_withWaiting (x : Eng) (w : List SeCmd) (i : Nat) (v : BitVec 32) :
    ({ x with waiting := w } : Eng).put i v = { x.put i v with waiting := w } := x.putPhys_withWaiting w (x.phys i) v

@[simp] theorem Eng.put_pc (x : Eng) (i : Nat) (v : BitVec 32) : (x.put i v).pc = x.pc := by
  unfold Eng.put Eng.putPhys
  split <;> rfl

/-- Settles O17: the first of a pair waits; MUL and ADD take their operands before either writes; ADD before MUL is ILLEGAL. -/
theorem pairsReadBeforeTheyWrite : Obligations.PairsReadBeforeTheyWrite := by
  unfold Obligations.PairsReadBeforeTheyWrite
  intro s n d a b e f g p hs x i j i' j' hended hfailed
  have hn := n.isLt
  refine ⟨fun hw => waits_step rfl hs hended hfailed hw (.inl rfl), fun hw hi hj hq hne => ?_, fun hw hi hj hq => ?_⟩
  · obtain ⟨s1, h1, hissue⟩ := seIssue_second hs hended hfailed hw rfl hi hj hq
    let y : Eng := { (x.put d (x.get a * x.get b)).put e (x.get f + x.get g) with waiting := [] }
    have hes : s1.effects n [⟨i, .ok⟩, ⟨j, .ok⟩] = [effW d (x.get a * x.get b), effW e (x.get f + x.get g)] := by
      simp only [State.effects, h1.own]
      rfl
    have hc : s1.codesOf n [⟨i, .ok⟩, ⟨j, .ok⟩] = [] := by
      rw [State.codesOf, hes, h1.own]
      exact shakeCodes_pair_words _ _ rfl rfl rfl hne rfl rfl rfl rfl
    have hwr : s1.putRegs (s1.eng n) [] [((d : Nat), x.get a * x.get b), ((e : Nat), x.get f + x.get g)] = (y, s1) := by
      have hnd : ([((d : Nat), x.get a * x.get b), ((e : Nat), x.get f + x.get g)].map fun r => ({ x with waiting := [] } : Eng).phys r.1).Nodup :=
        List.nodup_cons.2 ⟨fun h => hne (List.mem_singleton.1 h), List.nodup_singleton _⟩
      rw [h1.own]
      refine (putRegs_nodup s1 hnd).trans ?_
      simp only [List.foldl_cons, List.foldl_nil, Eng.put_withWaiting]
      rfl
    have hstep := (h1.setEng { y with pc := (y.pc + 2) % 8192 })
    rw [← seShake_two hes hc hwr] at hstep
    have hpc : y.pc = x.pc := (Eng.put_pc _ _ _).trans (Eng.put_pc _ _ _)
    refine ⟨_, congrArg Host.Outcome.next hissue, ?_⟩
    rw [← hpc]
    exact hstep.drain rfl 2
  · obtain ⟨s1, h1, hissue⟩ := seIssue_second hs hended hfailed hw rfl hi hj hq
    have hshake : s1.seShake n [⟨i', .ok⟩, ⟨j', .ok⟩] = s1.taskError n 1 := seShake_code (shakeCodes_order _ _ _ _ rfl)
    have herr := taskError_spec s1 hn 1
    refine ⟨_, congrArg Host.Outcome.next hissue, ?_⟩
    rw [hshake]
    exact (herr.after h1).idled (drain_idled (by rw [herr.1.own]) 2)

end Sys2Proof.Machine
end

section
/-! SPAWN (R198, R205, Table 8.3): a request that is dropped, and one whose descriptor joins the ready queue. -/

namespace Sys2Proof.Machine

set_option Elab.async false

variable {n : Nat} {x : Eng} {rs es ks : List Nat} {s t u : State}

/-! ## What an engine's step leaves alone -/

theorem EngStep.tdsRest (h : EngStep n x rs es ks s t) : t.sansEng.tds = s.sansEng.tds := h.frame.tds

theorem EngStep.spawned (h : EngStep n x rs es ks s t) : t.tds.spawned = s.tds.spawned :=
  show t.sansEng.tds.spawned = s.sansEng.tds.spawned by rw [h.tdsRest]

theorem EngStep.queue (h : EngStep n x rs es ks s t) : t.tds.queue = s.tds.queue :=
  show t.sansEng.tds.queue = s.sansEng.tds.queue by rw [h.tdsRest]

theorem EngStep.closed (h : EngStep n x rs es ks s t) : t.tds.closed = s.tds.closed :=
  show t.sansEng.tds.closed = s.sansEng.tds.closed by rw [h.tdsRest]

theorem EngStep.hostMask (h : EngStep n x rs es ks s t) : t.tds.hostMask = s.tds.hostMask :=
  show t.sansEng.tds.hostMask = s.sansEng.tds.hostMask by rw [h.tdsRest]

theorem EngStep.task (h : EngStep n x rs es ks s t) (i : Nat) : t.task i = s.task i :=
  show t.sansEng.task i = s.sansEng.task i by simp only [State.task, h.tdsRest]

/-- The engine mask (R206) is read from the registers, the memory unit and the host mask. -/
theorem engMask_congr (hr : ∀ a, t.rd a = s.rd a) (hm : t.memu = s.memu) (hh : t.tds.hostMask = s.tds.hostMask) : t.engMask = s.engMask := by
  simp only [State.engMask, State.bit, State.fld, hr, hm, hh]
  rfl

/-! ## The ready queue -/

/-- A descriptor that joins, or is discarded, changes no engine. -/
theorem enqueue_tds (s : State) (d : BitVec 64) : ∃ q, (s.enqueue d).tds = { s.tds with queue := q } := by
  unfold State.enqueue
  split_ifs
  · exact ⟨s.tds.queue, (frame_raise _ 109).tds⟩
  · exact ⟨s.tds.queue, rfl⟩
  · exact ⟨_, rfl⟩

theorem mb_enqueue (s : State) (d : BitVec 64) (q : Nat) : (s.enqueue d).mb q = s.mb q := by
  unfold State.enqueue
  split_ifs
  · exact (frame_raise _ 109).mem q
  · rfl
  · rfl

/-- A descriptor with an unmasked engine stands last while the computation dispatches. -/
theorem queue_enqueue {d : BitVec 64} (hm : dEmask d &&& ~~~s.engMask ≠ 0) (hc : s.tds.closed = false) :
    (s.enqueue d).tds = { s.tds with queue := s.tds.queue ++ [d] } := by
  rw [State.enqueue, if_neg hm, hc]
  rfl

/-! ## SPAWN (R205) -/

/-- The entry of the task table that SPAWN names. -/
def State.spawnEntry (s : State) (k : Nat) : BitVec 192 := if k < 8192 then s.task k else 0

/-- The entry may be spawned: it is spawnable, of a later phase, and has not been spawned in this computation. -/
def State.maySpawn (s : State) (k : Nat) : Prop :=
  tKind (s.spawnEntry k) = 2 ∧ s.fld F.TDS_STAT_PHASE < dPhase (tDesc (s.spawnEntry k)) ∧ k ∉ s.tds.spawned

/-- A dropped request. -/
def State.spawnDropped (s : State) : State := ((s.inc F.TDS_SPDROP_CNT_V).setBit F.TDS_STAT_SPDROP true).raise 107

/-- The descriptor of an entry with its ARG replaced. -/
def withArg (d : BitVec 64) (arg : Nat) : BitVec 64 := BitVec.ofNat 64 (d.toNat / 8192 * 8192 + arg % 8192)

theorem spawn_drops {k : Nat} (h : ¬ s.maySpawn k) (arg : Nat) : s.spawn k arg = s.spawnDropped := by
  refine if_pos ?_
  by_contra hno
  obtain ⟨hk, hp, hs⟩ : tKind (s.spawnEntry k) = 2 ∧ ¬ dPhase (tDesc (s.spawnEntry k)) ≤ s.fld F.TDS_STAT_PHASE ∧ ¬ s.tds.spawned.contains k = true := by
    simpa [State.spawnEntry] using hno
  exact h ⟨hk, Nat.not_le.1 hp, by simpa using hs⟩

theorem spawn_enqueues {k : Nat} (h : s.maySpawn k) (arg : Nat) : s.spawn k arg =
    (({ s with tds := { s.tds with spawned := s.tds.spawned ++ [k] } } : State).enqueue (withArg (tDesc (s.spawnEntry k)) arg)).qSync := by
  obtain ⟨hk, hp, hs⟩ := h
  refine if_neg ?_
  rintro (h | h | h)
  · exact h hk
  · exact Nat.not_le.2 hp h
  · exact hs (by simpa using h)

theorem spawnDropped_spec (s : State) : Frame [R.TDS_STAT, R.TDS_SPDROP_CNT] [107] [] s s.spawnDropped ∧
    s.spawnDropped.fld F.TDS_SPDROP_CNT_V = min (s.fld F.TDS_SPDROP_CNT_V + 1) (2 ^ F.TDS_SPDROP_CNT_V.w - 1) ∧
    s.spawnDropped.bit F.TDS_STAT_SPDROP = true ∧ s.spawnDropped.pends 107 = true := by
  refine ⟨(((Frame.refl _ _ _ _).inc (by decide)).setBit _ (by decide)).raise (by decide), ?_, ?_, pends_raise _ 107 (by decide) (by decide)⟩
  · rw [State.spawnDropped, fld_raise _ _ _ (not_mem_evRegs (by decide) _), fld_setBit_ne _ _ _ _ (by decide), fld_inc_self _ _ (by decide)]
  · rw [State.spawnDropped, bit_raise _ _ _ (not_mem_evRegs (by decide) _), bit_setBit_self _ _ _ (by decide) rfl]

/-- Whatever becomes of the request, SPAWN changes no engine and no byte of memory. -/
theorem spawn_keeps (s : State) (k arg : Nat) : (s.spawn k arg).tds.eng = s.tds.eng ∧ ∀ q, (s.spawn k arg).mb q = s.mb q := by
  by_cases h : s.maySpawn k
  · rw [spawn_enqueues h]
    generalize hv : ({ s with tds := { s.tds with spawned := s.tds.spawned ++ [k] } } : State) = v
    obtain ⟨q, hq⟩ := enqueue_tds v (withArg (tDesc (s.spawnEntry k)) arg)
    have hf := frame_qSync (v.enqueue (withArg (tDesc (s.spawnEntry k)) arg))
    refine ⟨?_, fun a => ?_⟩
    · rw [hf.tds, hq, ← hv]
    · rw [hf.mem, mb_enqueue, ← hv]
      rfl
  · obtain ⟨hf, -⟩ := spawnDropped_spec s
    rw [spawn_drops h]
    exact ⟨by rw [hf.tds], hf.mem⟩

/-- A request that is not dropped puts its descriptor last in the ready queue. -/
theorem spawn_queues {k : Nat} (h : s.maySpawn k) {arg : Nat} (hm : dEmask (withArg (tDesc (s.spawnEntry k)) arg) &&& ~~~s.engMask ≠ 0)
    (hc : s.tds.closed = false) :
    (s.spawn k arg).tds.queue = s.tds.queue ++ [withArg (tDesc (s.spawnEntry k)) arg] ∧ k ∈ (s.spawn k arg).tds.spawned := by
  rw [spawn_enqueues h]
  generalize hv : ({ s with tds := { s.tds with spawned := s.tds.spawned ++ [k] } } : State) = v
  have hmask : v.engMask = s.engMask := by subst hv; exact engMask_congr (fun _ => rfl) rfl rfl
  have htds : v.tds = { s.tds with spawned := s.tds.spawned ++ [k] } := by subst hv; rfl
  have hq := queue_enqueue (s := v) (by rwa [hmask]) (by rwa [htds])
  rw [(frame_qSync _).tds, hq, htds]
  exact ⟨rfl, List.mem_append_right _ (List.mem_singleton.2 rfl)⟩

/-- SPAWN given to an engine that executes it at once: the engine goes on, then the request is judged. -/
theorem seIssue_spawn {i : SeIns} {k arg : Nat} (h : s.Executes n i) (ho : i.odd = false)
    (he : seEffect (s.eng n) (fun ad => s.mw (tileBase n + ad)) i = { spawn := some (k, arg) }) :
    ∃ b, EngStep n (s.eng n).advance [] [] [] s b ∧ Idled n (b.spawn k arg) (s.seIssue n i .ok) := by
  obtain ⟨s1, h1, -, -, hm, -, hq⟩ := seIssue_alone i .ok h
  obtain ⟨-, -, -, hw, -⟩ := h
  have he1 : seEffect (s1.eng n) (fun ad => s1.mw (tileBase n + ad)) i = { spawn := some (k, arg) } := by
    rw [h1.own, ← he]
    simp only [mw_of_mem hm]
  have hc : s1.codesOf n [⟨i, .ok⟩] = [] := by
    rw [State.codesOf, effects_one he1]
    exact shakeCodes_clean _ _ _ _ ho rfl rfl rfl
  have hshake := seShake_clean he1 hc (fun _ => rfl) (y := s1.eng n) (u := s1) rfl
  have hb : s1.shaken n (s1.eng n) .ok { spawn := some (k, arg) } = s1.setEng n (s.eng n).advance := by
    rw [State.shaken, seFlags_none, h1.own, after_eq_advance rfl rfl rfl rfl rfl rfl]
    rfl
  simp only [hb] at hshake
  refine ⟨_, h1.setEng (s.eng n).advance, ?_⟩
  rw [hq, hshake]
  refine drain_idled ?_ 1
  rw [State.eng, (spawn_keeps _ k arg).1, ← State.eng, eng_setEng_self]
  exact hw

theorem Idled.eng (h : Idled n s t) (m : Nat) : t.eng m = s.eng m := by
  rcases h with rfl | rfl
  · rfl
  · by_cases hm : m = n
    · subst hm
      exact eng_setEng_self _ _ _
    · exact eng_setEng_ne _ _ _ _ hm

theorem Idled.lists (h : Idled n s t) : t.tds.queue = s.tds.queue ∧ t.tds.spawned = s.tds.spawned := by
  rcases h with rfl | rfl <;> exact ⟨rfl, rfl⟩

theorem EngStep.spawnEntry (h : EngStep n x rs es ks s t) (k : Nat) : t.spawnEntry k = s.spawnEntry k := by
  rw [State.spawnEntry, h.task, State.spawnEntry]

theorem EngStep.maySpawn (h : EngStep n x [] [] [] s t) (k : Nat) : t.maySpawn k ↔ s.maySpawn k := by
  rw [State.maySpawn, h.spawnEntry, h.fld, h.spawned, State.maySpawn]

theorem EngStep.engMask (h : EngStep n x [] [] [] s t) : t.engMask = s.engMask := engMask_congr h.rd h.memu h.hostMask

/-- Settles O16: the three conditions decide whether the request is dropped; one that is not joins the ready queue. -/
theorem spawnEnqueuesOnce : Obligations.SpawnEnqueuesOnce := by
  unfold Obligations.SpawnEnqueuesOnce
  intro s n a b hexec x k e ok d
  obtain ⟨v, hstep, hi⟩ := seIssue_spawn (k := k) (arg := (x.get b).toNat % 8192) hexec rfl rfl
  obtain ⟨heng, hmb⟩ := spawn_keeps v k ((x.get b).toNat % 8192)
  have hengs : ∀ m, (v.spawn k ((x.get b).toNat % 8192)).eng m = v.eng m := fun m => by simp only [State.eng, heng]
  have hd : withArg (tDesc (v.spawnEntry k)) ((x.get b).toNat % 8192) = d := by
    rw [hstep.spawnEntry, withArg, Nat.mod_mod]
    rfl
  refine ⟨s.seIssue n _ .ok, rfl, ?_, fun m hm => ?_, fun q => ?_, fun hok hm hc => ?_, fun hno => ?_⟩
  · rw [hi.eng, hengs, hstep.own]
  · rw [hi.eng, hengs, hstep.others m hm]
  · rw [mb_of_mem hi.rest.1, hmb, hstep.mb]
  · have hq := spawn_queues ((hstep.maySpawn k).2 hok) (by rwa [hd, hstep.engMask]) (by rwa [hstep.closed])
    rwa [hd, hstep.queue, ← hi.lists.1, ← hi.lists.2] at hq
  · obtain ⟨hframe, hcnt, hbit, hpend⟩ := spawnDropped_spec v
    rw [spawn_drops fun h => hno ((hstep.maySpawn k).1 h)] at hi
    refine ⟨?_, ?_, ?_, ?_, ((hstep.mono (by simp) (by simp) (by simp)).frameThen hframe).idled hi⟩
    · rw [hi.lists.1, hframe.tds, hstep.queue]
    · rw [fld_of_regs hi.regs, hcnt, hstep.fld]
    · rw [bit_of_regs hi.regs, hbit]
    · rw [pends_of_regs hi.regs, hpend]

end Sys2Proof.Machine
end

section
/-! The end of a task and the start of the next one (R186, R193, R197, R198). -/

namespace Sys2Proof.Machine

set_option Elab.async false

variable {n m donor : Nat} {x : Eng} {s u : State} {d : BitVec 64} {r : Run}

/-! ## A task starts (R186, R197) -/

/-- The engine that starts the task of descriptor `d`. -/
def State.started (s : State) (n : Nat) (d : BitVec 64) : Eng :=
  { v := spSet 0 (spSet 0 (spSet 0 [] 1 (BitVec.ofNat 32 (dArg d * 32))) 2 (BitVec.ofNat 32 n)) 3 (cyc32 s.tds.k),
    pc := tEntry (s.task (dTask d)), run := some { desc := d, at' := s.mono }, pre := (s.eng n).pre, busy := (s.eng n).busy }

theorem taskStart_eq (s : State) (n : Nat) (d : BitVec 64) : s.taskStart n d = s.setEng n (s.started n d) := rfl

theorem startPre_running (h : (s.eng n).run.isSome = true) : s.startPre n = s := if_pos h

theorem startPre_waiting (h : (s.eng n).pre.find? s.released = none) : s.startPre n = s := by
  simp [State.startPre, h]

/-- An idle engine starts the first descriptor of a released phase. -/
theorem startPre_starts (hr : (s.eng n).run = none) (h : (s.eng n).pre.find? s.released = some d) :
    s.startPre n = (s.setEng n { s.eng n with pre := (s.eng n).pre.erase d }).taskStart n d := by
  simp [State.startPre, hr, h]

/-- A start concerns no other engine, no register and no byte of memory. -/
theorem engStep_startPre (s : State) (n : Nat) : EngStep n ((s.startPre n).eng n) [] [] [] s (s.startPre n) := by
  cases hr : (s.eng n).run with
  | some r =>
    rw [startPre_running (by rw [hr]; rfl)]
    exact EngStep.refl n _ _ _ s
  | none =>
    cases hf : (s.eng n).pre.find? s.released with
    | none =>
      rw [startPre_waiting hf]
      exact EngStep.refl n _ _ _ s
    | some d =>
      rw [startPre_starts hr hf, taskStart_eq, eng_setEng_self]
      exact ((EngStep.refl n _ _ _ s).setEng _).setEng _

/-- The engine that has started the only descriptor of its prefetch slots. -/
theorem eng_startPre_one (hr : (s.eng n).run = none) (hp : (s.eng n).pre = [d]) (hd : s.released d = true) :
    (s.startPre n).eng n = { s.started n d with pre := [] } := by
  have hf : (s.eng n).pre.find? s.released = some d := by rw [hp, List.find?_cons_of_pos hd]
  have he : [d].erase d = [] := List.erase_cons_head d []
  rw [startPre_starts hr hf, taskStart_eq, eng_setEng_self, State.started, eng_setEng_self, hp, he]
  rfl

/-- Before its first instruction an engine has v1 to v3, and every other register is 0. -/
theorem get_started (s : State) (n : Nat) (d : BitVec 64) (l : List (BitVec 64)) :
    let y : Eng := { s.started n d with pre := l }
    y.get 1 = BitVec.ofNat 32 (dArg d * 32) ∧ y.get 2 = BitVec.ofNat 32 n ∧ y.get 3 = cyc32 s.tds.k ∧ ∀ i, 4 ≤ i → i < 64 → y.get i = 0 := by
  intro y
  have hget : ∀ i, 1 ≤ i → i < 64 → y.get i =
      spGet 0 (spSet 0 (spSet 0 (spSet 0 [] 1 (BitVec.ofNat 32 (dArg d * 32))) 2 (BitVec.ofNat 32 n)) 3 (cyc32 s.tds.k)) i := fun i h1 h64 => by
    have hphys : y.phys i = i := by
      show (if i < 32 then i else 32 + (i - 32 + 0) % 32) = i
      split_ifs <;> omega
    rw [Eng.get, hphys, if_neg (by omega)]
    rfl
  refine ⟨?_, ?_, ?_, fun i h4 h64 => ?_⟩
  · rw [hget 1 (by decide) (by decide), spGet_spSet_ne _ _ _ _ _ _ (show 1 ≠ 3 by decide), spGet_spSet_ne _ _ _ _ _ _ (show 1 ≠ 2 by decide),
      spGet_spSet_self]
  · rw [hget 2 (by decide) (by decide), spGet_spSet_ne _ _ _ _ _ _ (show 2 ≠ 3 by decide), spGet_spSet_self]
  · rw [hget 3 (by decide) (by decide), spGet_spSet_self]
  · rw [hget i (by omega) h64, spGet_spSet_ne _ _ _ _ _ _ (show i ≠ 3 by omega), spGet_spSet_ne _ _ _ _ _ _ (show i ≠ 2 by omega),
      spGet_spSet_ne _ _ _ _ _ _ (show i ≠ 1 by omega)]
    rfl

/-! ## Migration and a waiting release (R46, R202) -/

theorem migrate_running (h : (s.eng n).run.isSome = true) : s.migrate n donor = s := if_pos (by simp [h])

/-- Without a prefetched descriptor nothing migrates. -/
theorem migrate_empty (h : ∀ m, (s.eng m).pre = []) : s.migrate n donor = s := by
  simp [State.migrate, h]

/-- Migration concerns engines alone. -/
theorem migrate_keeps (s : State) (n donor : Nat) : (s.migrate n donor).regs = s.regs ∧ (s.migrate n donor).cyc = s.cyc := by
  unfold State.migrate
  split_ifs
  · exact ⟨rfl, rfl⟩
  · extract_lets cand ms
    split
    · exact ⟨rfl, rfl⟩
    · split <;> exact ⟨rfl, rfl⟩

theorem lateP0_of_released (h : s.cyc.comps.all (fun c => c.p0At.isSome) = true) : s.lateP0 = s := by
  have hf : s.cyc.comps.find? (fun c => c.p0At.isNone) = none := by
    rw [List.find?_eq_none]
    intro c hc hno
    have := List.all_eq_true.1 h c hc
    simp_all
  simp only [State.lateP0, hf]

/-! ## TASK_COMPLETE (R193, R197) -/

/-- A completed task is counted, a failed one is not (log entry 50). -/
def State.taskCounted (s : State) (n : Nat) : State := if (s.eng n).failed then s else s.inc (F.SE_TASK_CNT_V n)

/-- The engine without a task. -/
def State.taskGone (s : State) (n : Nat) (r : Run) : State :=
  (s.taskCounted n).setEng n { pre := (s.eng n).pre, busy := (s.eng n).busy + ((s.taskCounted n).mono - r.at') }

theorem exec_taskComplete {time : Nat} {n : Fin 32} (hs : s.Live) (hr : (s.eng n).run = some r)
    (he : ((s.eng n).ended || (s.eng n).failed) = true) (ho : (s.eng n).out = []) :
    exec (.taskComplete time n donor) s = .next ((((s.tick time).taskGone n r).startPre n).migrate n donor).lateP0 := by
  have hr' : ((s.tick time).eng n).run = some r := hr
  have he' : (((s.tick time).eng n).ended || ((s.tick time).eng n).failed) = true := he
  have ho' : ((s.tick time).eng n).out = [] := ho
  refine congrArg Host.Outcome.next ((onDie_live s time _ hs).trans ?_)
  simp only [hr', he', ho', List.isEmpty_nil, Bool.and_true, if_true]
  rfl

theorem engStep_taskCounted (s : State) (n : Nat) : EngStep n (s.eng n) [R.SE_TASK_CNT n] [] [] s (s.taskCounted n) := by
  unfold State.taskCounted
  split_ifs
  · exact EngStep.refl n _ _ _ s
  · exact (EngStep.refl n _ _ _ s).wr _ (by simp [F.SE_TASK_CNT_V])

theorem mono_taskCounted (s : State) (n : Nat) : (s.taskCounted n).mono = s.mono := by
  unfold State.taskCounted
  split_ifs <;> rfl

theorem fld_taskCounted (s : State) (n : Nat) : (s.taskCounted n).fld (F.SE_TASK_CNT_V n) =
    if (s.eng n).failed then s.fld (F.SE_TASK_CNT_V n) else min (s.fld (F.SE_TASK_CNT_V n) + 1) (2 ^ 32 - 1) := by
  unfold State.taskCounted
  split_ifs
  · rfl
  · exact fld_inc_self _ _ (by simp [RF.ok, F.SE_TASK_CNT_V])

theorem engStep_taskGone (s : State) (n : Nat) (r : Run) :
    EngStep n { pre := (s.eng n).pre, busy := (s.eng n).busy + (s.mono - r.at') } [R.SE_TASK_CNT n] [] [] s (s.taskGone n r) := by
  rw [← mono_taskCounted s n]
  exact (engStep_taskCounted s n).setEng _

theorem EngStep.cyc {y : Eng} {rs es ks : List Nat} (h : EngStep n y rs es ks s u) : u.cyc = s.cyc :=
  show u.sansEng.bare.cyc = s.sansEng.bare.cyc by rw [h.frame.bare]

theorem EngStep.clock {y : Eng} {rs es ks : List Nat} (h : EngStep n y rs es ks s u) : u.mono = s.mono :=
  show u.sansEng.bare.mono = s.sansEng.bare.mono by rw [h.frame.bare]

theorem EngStep.cycleIndex {y : Eng} {rs es ks : List Nat} (h : EngStep n y rs es ks s u) : u.tds.k = s.tds.k :=
  show u.sansEng.tds.k = s.sansEng.tds.k by rw [h.tdsRest]

/-- The engine that starts its one prefetched descriptor after its task. -/
theorem eng_startPre_taskGone (hd : (s.eng n).pre = [d]) (hrel : dPhase d ≤ s.fld F.TDS_STAT_PHASE) :
    ((s.taskGone n r).startPre n).eng n = { (s.taskGone n r).started n d with pre := [] } := by
  have hgone := engStep_taskGone s n r
  have hphase : (s.taskGone n r).fld F.TDS_STAT_PHASE = s.fld F.TDS_STAT_PHASE :=
    hgone.frame.fld (by simp [F.TDS_STAT_PHASE, R.TDS_STAT, R.SE_TASK_CNT]; omega) (by decide)
  refine eng_startPre_one (by rw [hgone.own]) (by rw [hgone.own]; exact hd) ?_
  rw [State.released, hphase]
  exact decide_eq_true hrel

/-- TASK_COMPLETE while no computation waits for its P0 release. -/
theorem taskComplete_ends {time : Nat} {n : Fin 32} (hs : s.Live) (hr : (s.eng n).run = some r)
    (he : ((s.eng n).ended || (s.eng n).failed) = true) (ho : (s.eng n).out = []) (hp0 : s.cyc.comps.all (fun c => c.p0At.isSome) = true) :
    exec (.taskComplete time n donor) s = .next ((((s.tick time).taskGone n r).startPre n).migrate n donor) := by
  rw [exec_taskComplete hs hr he ho, lateP0_of_released]
  rwa [(migrate_keeps _ _ _).2, (engStep_startPre _ _).cyc, (engStep_taskGone _ _ _).cyc]

/-- Settles O19: the count changes alone where nothing is prefetched; else the engine starts what it has prefetched, and nothing migrates. -/
theorem tasksCompleteAndStart : Obligations.TasksCompleteAndStart := by
  unfold Obligations.TasksCompleteAndStart
  intro s time n donor r hr he ho hp0 hs
  refine ⟨_, taskComplete_ends hs hr he ho hp0, ?_, fun hpre => ?_, fun d hd hrel => ?_⟩
  · rw [fld_of_regs (migrate_keeps _ _ _).1, (engStep_startPre _ _).fld]
    exact fld_taskCounted (s.tick time) n
  · have hgone := engStep_taskGone (s.tick time) n r
    have hempty : ∀ m, (((s.tick time).taskGone n r).eng m).pre = [] := fun m => by
      by_cases hm : m = n
      · rw [hm, hgone.own]
        exact hpre n
      · rw [hgone.others m hm]
        exact hpre m
    have hnone : ((s.tick time).eng n).pre = [] := hpre n
    rw [startPre_waiting (by rw [hempty]; rfl), migrate_empty hempty]
    rwa [hnone] at hgone
  · have hgone := engStep_taskGone (s.tick time) n r
    have hy := eng_startPre_taskGone (s := s.tick time) (r := r) hd hrel
    obtain ⟨h1, h2, h3, hzero⟩ := get_started ((s.tick time).taskGone n r) n d []
    have hstart := engStep_startPre ((s.tick time).taskGone n r) n
    have hrun : ((((s.tick time).taskGone n r).startPre n).eng n).run.isSome = true := by rw [hy]; rfl
    rw [migrate_running hrun, hy]
    refine ⟨?_, rfl, ?_, rfl, rfl, rfl, rfl, rfl, rfl, h1, h2, ?_, hzero, fun m hm => ?_, fun a => ?_⟩
    · rw [State.started, hgone.clock]
    · rw [State.started, hgone.task]
      rfl
    · rw [h3, hgone.cycleIndex]
      rfl
    · rw [hstart.others m hm, hgone.others m hm]
      rfl
    · rw [hstart.mb, hgone.mb]
      rfl

end Sys2Proof.Machine
end

section
/-! Dispatch into prefetch slots and the bound of a task (R201, R204, Table 8.12). -/

namespace Sys2Proof.Machine

set_option Elab.async false

variable {n : Nat} {x : Eng} {s t u : State} {d : BitVec 64} {r : Run}

/-! ## The choice among the eligible descriptors (R201) -/

theorem dPrio_le (d : BitVec 64) : dPrio d ≤ 7 := by
  have := d.isLt
  unfold dPrio
  omega

/-- The highest priority (the lowest PRIO number) of a list. -/
def topPrio (l : List (BitVec 64)) : Nat := l.foldl (fun m d => min m (dPrio d)) 7

theorem foldl_min_le (l : List (BitVec 64)) (b : Nat) :
    l.foldl (fun m d => min m (dPrio d)) b ≤ b ∧ ∀ d ∈ l, l.foldl (fun m d => min m (dPrio d)) b ≤ dPrio d := by
  induction l generalizing b with
  | nil => exact ⟨le_refl b, nofun⟩
  | cons c l ih =>
    obtain ⟨hb, hl⟩ := ih (min b (dPrio c))
    refine ⟨hb.trans (min_le_left _ _), fun d hd => ?_⟩
    rcases List.mem_cons.1 hd with rfl | hd
    · exact hb.trans (min_le_right _ _)
    · exact hl d hd

theorem foldl_min_reached (l : List (BitVec 64)) (b : Nat) :
    l.foldl (fun m d => min m (dPrio d)) b = b ∨ ∃ d ∈ l, dPrio d = l.foldl (fun m d => min m (dPrio d)) b := by
  induction l generalizing b with
  | nil => exact .inl rfl
  | cons c l ih =>
    rcases ih (min b (dPrio c)) with h | ⟨d, hd, h⟩
    · rcases min_choice b (dPrio c) with hm | hm
      · exact .inl (h.trans hm)
      · exact .inr ⟨c, List.mem_cons_self, (h.trans hm).symm⟩
    · exact .inr ⟨d, List.mem_cons_of_mem c hd, h⟩

theorem topPrio_le {l : List (BitVec 64)} (h : d ∈ l) : topPrio l ≤ dPrio d := (foldl_min_le l 7).2 d h

/-- A descriptor of the highest priority exists: no PRIO number is above 7. -/
theorem exists_topPrio {l : List (BitVec 64)} (h : l ≠ []) : ∃ d ∈ l, dPrio d = topPrio l := by
  rcases foldl_min_reached l 7 with h7 | hd
  · obtain ⟨c, hc⟩ := List.exists_mem_of_ne_nil l h
    exact ⟨c, hc, le_antisymm ((dPrio_le c).trans_eq h7.symm) (topPrio_le hc)⟩
  · exact hd

/-- Whatever the choice, it is one of the list. -/
theorem exists_getElem?_mod {α : Type} {l : List α} (h : l ≠ []) (pick : Nat) : ∃ a ∈ l, l[pick % max l.length 1]? = some a := by
  have hl := List.length_pos_iff.2 h
  have hlt : pick % max l.length 1 < l.length := by
    rw [max_eq_left hl]
    exact Nat.mod_lt _ hl
  exact ⟨l[pick % max l.length 1], List.getElem_mem hlt, List.getElem?_eq_getElem hlt⟩

/-! ## A prefetch slot is filled -/

theorem Frame.clock {rs es ks : List Nat} (h : Frame rs es ks s t) : t.mono = s.mono := show t.bare.mono = s.bare.mono by rw [h.bare]

theorem engMask_tick (s : State) (time : Nat) : (s.tick time).engMask = s.engMask := engMask_congr (fun _ => rfl) rfl rfl

theorem eligible_tick (s : State) (time n : Nat) : (s.tick time).eligible n = s.eligible n := rfl

/-- Descriptor `d` leaves the ready queue for a prefetch slot of engine `n`. -/
def State.prefetched (s : State) (n : Nat) (d : BitVec 64) : State :=
  (({ s with tds := { s.tds with queue := s.tds.queue.erase d } } : State).setEng n { s.eng n with pre := (s.eng n).pre ++ [d] }).qSync

theorem exec_descriptorDispatch {time pick : Nat} {n : Fin 32} (hs : s.Live) (hc : s.tds.closed = false) (hm : s.engMask.getLsbD n = false)
    (hp : (s.eng n).pre.length < 2) (he : s.eligible n ≠ []) :
    ∃ d ∈ s.eligible n, (∀ e ∈ s.eligible n, dPrio d ≤ dPrio e) ∧
      exec (.descriptorDispatch time n pick) s = .next (((s.tick time).prefetched n d).startPre n) := by
  obtain ⟨c, hce, hcp⟩ := exists_topPrio he
  have hne : (s.eligible n).filter (fun d => dPrio d == topPrio (s.eligible n)) ≠ [] :=
    List.ne_nil_of_mem (List.mem_filter.2 ⟨hce, beq_iff_eq.2 hcp⟩)
  obtain ⟨d, hd, hpick⟩ := exists_getElem?_mod hne pick
  obtain ⟨hde, hdp⟩ := List.mem_filter.1 hd
  refine ⟨d, hde, fun e h => (beq_iff_eq.1 hdp).trans_le (topPrio_le h), ?_⟩
  have hclosed : (s.tick time).tds.closed = false := hc
  have hlen : ¬ 2 ≤ ((s.tick time).eng n).pre.length := Nat.not_le.2 hp
  show execDescriptorDispatch time n pick s = _
  rw [execDescriptorDispatch, onDie_live s time _ hs]
  rw [topPrio] at hpick
  simp only [hclosed, engMask_tick, hm, hlen, eligible_tick, List.isEmpty_eq_false_iff.2 he, hpick, decide_false, Bool.or_self, Bool.false_eq_true,
    if_false, State.prefetched]

theorem prefetched_eng (s : State) (n : Nat) (d : BitVec 64) :
    (s.prefetched n d).eng n = { s.eng n with pre := (s.eng n).pre ++ [d] } ∧ ∀ m, m ≠ n → (s.prefetched n d).eng m = s.eng m := by
  have he : ∀ (v : State) m, v.qSync.eng m = v.eng m := fun v m => by rw [State.eng, (frame_qSync v).tds, State.eng]
  refine ⟨?_, fun m hm => ?_⟩
  · rw [State.prefetched, he, eng_setEng_self]
  · rw [State.prefetched, he, eng_setEng_ne _ _ _ _ hm]
    rfl

theorem prefetched_queue (s : State) (n : Nat) (d : BitVec 64) : (s.prefetched n d).tds.queue = s.tds.queue.erase d := by
  rw [State.prefetched, (frame_qSync _).tds]
  rfl

theorem prefetched_mb (s : State) (n : Nat) (d : BitVec 64) (q : Nat) : (s.prefetched n d).mb q = s.mb q := by
  rw [State.prefetched, (frame_qSync _).mem]
  rfl

theorem prefetched_phase (s : State) (n : Nat) (d : BitVec 64) : (s.prefetched n d).fld F.TDS_STAT_PHASE = s.fld F.TDS_STAT_PHASE := by
  rw [State.prefetched, (frame_qSync _).fld (by decide) (by decide)]
  rfl

theorem prefetched_mono (s : State) (n : Nat) (d : BitVec 64) : (s.prefetched n d).mono = s.mono := by
  rw [State.prefetched, (frame_qSync _).clock]
  rfl

/-! ## The bound of a task (R204) -/

/-- A task that has run longer than its BOUND is noted. -/
def State.boundNoted (s : State) (n : Nat) (r : Run) : State := s.setEng n { s.eng n with run := some { r with exc := true } }

/-- BOUND_EXCEEDED counts and reports; the task runs on. -/
def State.boundReported (s : State) (n : Nat) (r : Run) : State :=
  (((s.boundNoted n r).inc F.TDS_BEXC_CNT_V).setBit F.TDS_STAT_BEXC true).raise 108

theorem exec_boundExceeded {time : Nat} {n : Fin 32} (hs : s.Live) (hr : (s.eng n).run = some r) (he : r.exc = false)
    (hb : tBound (s.task (dTask r.desc)) < ((s.tick time).mono - r.at') * 10) :
    exec (.boundExceeded time n) s = .next ((s.tick time).boundReported n r) := by
  have hr' : ((s.tick time).eng n).run = some r := hr
  have hb' : tBound ((s.tick time).task (dTask r.desc)) < ((s.tick time).mono - r.at') * 10 := hb
  refine congrArg Host.Outcome.next ((onDie_live s time _ hs).trans ?_)
  simp only [hr', he, hb', Bool.not_false, decide_true, Bool.and_self, if_true]
  rfl

theorem engStep_boundReported (s : State) (n : Nat) (r : Run) :
    EngStep n { s.eng n with run := some { r with exc := true } } [R.TDS_BEXC_CNT, R.TDS_STAT] [108] [] s (s.boundReported n r) :=
  ((EngStep.refl n _ _ _ s).setEng _).frameThen
    ((((Frame.refl _ _ _ _).inc (by decide)).setBit _ (by decide)).raise (by decide))

theorem boundReported_shows (s : State) (n : Nat) (r : Run) :
    (s.boundReported n r).fld F.TDS_BEXC_CNT_V = min (s.fld F.TDS_BEXC_CNT_V + 1) (2 ^ F.TDS_BEXC_CNT_V.w - 1) ∧
      (s.boundReported n r).bit F.TDS_STAT_BEXC = true ∧ (s.boundReported n r).pends 108 = true := by
  unfold State.boundReported
  refine ⟨?_, ?_, pends_raise _ 108 (by decide) (by decide)⟩
  · rw [fld_raise _ _ _ (not_mem_evRegs (by decide) _), fld_setBit_ne _ _ _ _ (by decide), fld_inc_self _ _ (by decide)]
    rfl
  · rw [bit_raise _ _ _ (not_mem_evRegs (by decide) _), bit_setBit_self _ _ _ (by decide) rfl]

/-- Settles O20: the descriptor comes out of the queue into a slot, and an idle engine starts it; an exceeded bound is reported alone. -/
theorem dispatchFillsPrefetchSlots : Obligations.DispatchFillsPrefetchSlots := by
  unfold Obligations.DispatchFillsPrefetchSlots
  intro s time n pick x
  refine ⟨fun hc hm hp he hs => ?_, fun r hr hexc hb hs => ⟨_, exec_boundExceeded hs hr hexc hb, engStep_boundReported (s.tick time) n r, boundReported_shows _ _ _⟩⟩
  obtain ⟨d, hd, hmin, hexec⟩ := exec_descriptorDispatch hs hc hm hp he
  obtain ⟨hown, hothers⟩ := prefetched_eng (s.tick time) n d
  have hstart := engStep_startPre ((s.tick time).prefetched n d) n
  refine ⟨_, hexec, d, hd, hmin, ?_, fun hrun => ?_, fun hrun hpre hrel => ?_, fun m hm => ?_, fun a => ?_⟩
  · rw [hstart.queue, prefetched_queue]
    rfl
  · rw [startPre_running (by rw [hown]; exact hrun), hown]
    rfl
  · have hpre' : (((s.tick time).prefetched n d).eng n).pre = [d] := by
      rw [hown]
      exact congrArg (· ++ [d]) hpre
    have hrel' : ((s.tick time).prefetched n d).released d = true := by
      rw [State.released, prefetched_phase]
      exact decide_eq_true hrel
    rw [eng_startPre_one (by rw [hown]; exact hrun) hpre' hrel', State.started, prefetched_mono]
  · rw [hstart.others m hm, hothers m hm]
    rfl
  · rw [hstart.mb, prefetched_mb]
    rfl

end Sys2Proof.Machine
end

section
/-! The program-slot window and the ready-queue registers (R200, R208, Tables 8.6 and 8.12). -/

namespace Sys2Proof.Machine

set_option Elab.async false

variable {n : Nat} {s : State}

/-! ## The index of the window -/

theorem frame_pNext (s : State) (n : Nat) : Frame [R.SE_PADDR n] [] [] s (s.pNext n) :=
  (Frame.refl _ _ _ _).setFld _ (List.mem_singleton.2 rfl)

theorem index_pNext (s : State) (n : Nat) : (s.pNext n).fld (F.SE_PADDR_INDEX n) = (s.fld (F.SE_PADDR_INDEX n) + 1) % 8192 :=
  fld_setFld_self s (F.SE_PADDR_INDEX n) _ (by simp only [RF.ok, F.SE_PADDR_INDEX]; decide)

theorem pwrErr_pNext (s : State) (n : Nat) : (s.pNext n).bit (F.SE_PADDR_PWR_ERR n) = s.bit (F.SE_PADDR_PWR_ERR n) :=
  bit_setFld_at s _ _ (by decide) (by decide)

/-! ## A write through SE_PDATA (R208) -/

/-- The word of the program memory of engine `n` in `slot` at `idx`, written. -/
def State.progPut (s : State) (n slot idx : Nat) (v : BitVec 32) : State :=
  { s with tds := { s.tds with prog := spSet 0 s.tds.prog (n * 16384 + slot * 8192 + idx) v } }

theorem pdataWrite_inactive (h : s.fld (F.SE_PADDR_SLOT n) ≠ s.psel n) (v : BitVec 32) :
    s.pdataWrite n v = (s.progPut n (s.fld (F.SE_PADDR_SLOT n)) (s.fld (F.SE_PADDR_INDEX n)) v).pNext n := by
  simp only [State.pdataWrite, h, if_false]
  rfl

theorem pdataWrite_active (h : s.fld (F.SE_PADDR_SLOT n) = s.psel n) (v : BitVec 32) :
    s.pdataWrite n v = (s.setBit (F.SE_PADDR_PWR_ERR n) true).pNext n := by
  simp only [State.pdataWrite, h, if_true]

/-- Words of different engines, slots or indices do not share a place. -/
theorem progWord_progPut {slot idx : Nat} (hs : slot < 2) (hi : idx < 8192) (v : BitVec 32) (m : Nat) {k i : Nat} (hk : k < 2) (hi' : i < 8192) :
    (s.progPut n slot idx v).progWord m k i = if m = n ∧ k = slot ∧ i = idx then v else s.progWord m k i := by
  simp only [State.progWord, State.progPut, Nat.mod_eq_of_lt hi']
  by_cases h : m = n ∧ k = slot ∧ i = idx
  · obtain ⟨rfl, rfl, rfl⟩ := h
    rw [spGet_spSet_self, if_pos ⟨rfl, rfl, rfl⟩]
  · rw [spGet_spSet_ne _ _ _ _ _ _ (by omega), if_neg h]

theorem exec_sePdataWrite {time : Nat} {n : Fin 32} (hs : s.Live) (v : BitVec 32) :
    exec (.sePdataWrite time n v) s = .next ((s.tick time).pdataWrite n v) := congrArg Host.Outcome.next (onDie_live s time _ hs)

/-! ## Reads that leave a trace -/

theorem exec_sePdataRead {time : Nat} {n : Fin 32} (hs : s.Live) : exec (.sePdataRead time n) s =
    .next (((s.tick time).gave (s.progWord n (s.fld (F.SE_PADDR_SLOT n)) (s.fld (F.SE_PADDR_INDEX n)))).pNext n) :=
  congrArg Host.Outcome.next (onDie_live s time _ hs)

theorem exec_qStatRead {time : Nat} {q : Fin 8} (hs : s.Live) : exec (.qStatRead time q) s =
    .next (((s.tick time).gave (s.rd (R.TDS_Q_STAT q))).setFld (F.TDS_Q_STAT_PEAK q) 0) := congrArg Host.Outcome.next (onDie_live s time _ hs)

/-- Settles O21: each access advances the index; a write reaches the inactive slot alone, and a read of TDS_Qp_STAT clears PEAK alone. -/
theorem programWindowAndQueueReads : Obligations.ProgramWindowAndQueueReads := by
  unfold Obligations.ProgramWindowAndQueueReads
  intro s time n v q slot idx next
  refine ⟨fun h hs => ?_, fun h hs => ?_, fun hs => ?_, fun hs => ?_⟩
  · refine ⟨_, (exec_sePdataWrite hs v).trans (congrArg _ (pdataWrite_inactive (s := s.tick time) h v)), fun m k i hi hk => ?_, ?_, ?_, ?_⟩
    · exact progWord_progPut (RF.get_lt _ _) (RF.get_lt _ _) v m hk hi
    · exact index_pNext _ _
    · exact pwrErr_pNext _ _
    · exact frame_pNext _ _
  · refine ⟨_, (exec_sePdataWrite hs v).trans (congrArg _ (pdataWrite_active (s := s.tick time) h v)), ?_, ?_, ?_⟩
    · rw [pwrErr_pNext]
      exact bit_setBit_at_self _ _ _ (by decide)
    · have hidx : ((s.tick time).setBit (F.SE_PADDR_PWR_ERR n) true).fld (F.SE_PADDR_INDEX n) = idx :=
        fld_setBit_at (s.tick time) _ _ (by decide) (by decide)
      exact (index_pNext _ _).trans (by rw [hidx])
    · exact ((Frame.refl [R.SE_PADDR n] [] [] _).setBit (f := F.SE_PADDR_PWR_ERR n) _ (List.mem_singleton.2 rfl)).trans (frame_pNext _ _)
  · exact ⟨_, exec_sePdataRead hs, index_pNext _ _, frame_pNext _ _⟩
  · exact ⟨_, exec_qStatRead hs, fld_setFld_at_self _ _ (by decide) (by decide), fld_setFld_at _ _ _ (by decide) (by decide),
      (Frame.refl _ _ _ _).setFld _ (List.mem_singleton.2 rfl)⟩

end Sys2Proof.Machine
end

section
/-! Admission of a cluster and requests for a swap (R207, R209, R379). -/

namespace Sys2Proof.Machine

set_option Elab.async false

variable {s t u : State} {c n a : Nat}

theorem clCtl_below (hc : c < 8) : R.TDS_CL_CTL c < 0x880000 := by
  simp only [R.TDS_CL_CTL]
  omega

/-! ## Memory: what a wipe leaves, and what never writes memory -/

/-- A wipe below the non-volatile memory leaves zeroes. -/
theorem mb_memWipe (s : State) {lo hi : Nat} (h : hi ≤ nvBase) (a : Nat) : (s.memWipe lo hi).mb a = if lo ≤ a ∧ a < hi then 0 else s.mb a := by
  split_ifs with hin
  · have hd : memDefault a = 0 := if_neg (by omega)
    rw [State.mb, State.memWipe, spGet_filter_out _ (fun k => decide (k < lo) || decide (hi ≤ k)) _ (by simp; omega), hd]
  · exact spGet_filter _ (fun k => decide (k < lo) || decide (hi ≤ k)) _ (by simp; omega)

theorem mb_wipeTiles (a : Nat) : ∀ (l : List Nat) (s : State), (∀ i ∈ l, i < 32) →
    (l.foldl (fun s i => s.memWipe (tileBase i) (tileBase (i + 1))) s).mb a = if ∃ i ∈ l, tileBase i ≤ a ∧ a < tileBase (i + 1) then 0 else s.mb a
  | [], s, _ => by simp
  | i :: l, s, h => by
    have hi : tileBase (i + 1) ≤ nvBase := by
      have := h i List.mem_cons_self
      simp only [tileBase, nvBase]
      omega
    rw [List.foldl_cons, mb_wipeTiles a l _ fun j hj => h j (List.mem_cons_of_mem i hj), mb_memWipe s hi]
    simp only [List.exists_mem_cons_iff, ← ite_or, or_comm]

theorem mb_winWake (s : State) (cb : Bool) (i q : Nat) : (s.winWake cb i).mb q = s.mb q := by
  refine mb_of_mem ?_ q
  unfold State.winWake
  cases cb <;> split_ifs <;> rfl

theorem mb_wakeCluster (s : State) (c q : Nat) : (s.wakeCluster c).mb q = s.mb q := by
  simp only [State.wakeCluster, List.foldl_cons, List.foldl_nil, mb_winWake]

/-! ## ADMIT (R207) -/

/-- The tiles and the bank of a cluster, wiped. -/
def State.clusterWiped (s : State) (c : Nat) : State :=
  ([4 * c, 4 * c + 1, 4 * c + 2, 4 * c + 3].foldl (fun s i => s.memWipe (tileBase i) (tileBase (i + 1))) s).memWipe (bankBase c) (bankBase (c + 1))

theorem admitCluster_eq (h : s.bit (F.TDS_CL_CTL_ADMIT c) = false) :
    s.admitCluster c = (((s.wakeCluster c).setBit (F.TDS_CL_CTL_ADMIT c) true).maskSync).clusterWiped c := by
  simp only [State.admitCluster, h, Bool.false_eq_true, if_false]
  rfl

theorem regs_clusterWiped (s : State) (c : Nat) : (s.clusterWiped c).regs = s.regs := rfl

theorem mb_clusterWiped (s : State) (hc : c < 8) (a : Nat) : (s.clusterWiped c).mb a = if ofCluster c a then 0 else s.mb a := by
  have hbank : bankBase (c + 1) ≤ nvBase := by
    simp only [bankBase, nvBase]
    omega
  have htiles : (∃ i ∈ [4 * c, 4 * c + 1, 4 * c + 2, 4 * c + 3], tileBase i ≤ a ∧ a < tileBase (i + 1)) ↔
      tileBase (4 * c) ≤ a ∧ a < tileBase (4 * c + 4) := by
    simp only [List.exists_mem_cons_iff, List.not_mem_nil, false_and, exists_false, or_false, tileBase]
    omega
  rw [State.clusterWiped, mb_memWipe _ hbank, mb_wipeTiles a _ _ (by simp; omega)]
  simp only [htiles, ofCluster, Bool.or_eq_true, Bool.and_eq_true, decide_eq_true_eq, ← ite_or, or_comm]

/-- The registers of the ready queues are none of the cluster's. -/
theorem clCtl_not_mem_qRegs (c : Nat) : R.TDS_CL_CTL c ∉ qRegs := fun h => by
  obtain ⟨p, hp, he⟩ := List.mem_map.1 h
  rw [List.mem_range] at hp
  simp only [R.TDS_CL_CTL, R.TDS_Q_STAT] at he
  omega

theorem bit_withTds (s : State) (x : TdsSt) (f : RF) : ({ s with tds := x } : State).bit f = s.bit f := rfl

theorem mb_withTds (s : State) (x : TdsSt) (q : Nat) : ({ s with tds := x } : State).mb q = s.mb q := rfl

theorem mb_withUnits (s : State) (y : MemSt) (x : TdsSt) (q : Nat) : ({ s with memu := y, tds := x } : State).mb q = s.mb q := rfl

theorem bit_maskSync_clCtl (s : State) (hc : c < 8) (i : Nat) : s.maskSync.bit ⟨R.TDS_CL_CTL c, i, 1⟩ = s.bit ⟨R.TDS_CL_CTL c, i, 1⟩ :=
  ((frame_maskSync s).bit (clCtl_not_mem_qRegs c) (clCtl_below hc)).trans (bit_withTds s _ _)

theorem mb_maskSync (s : State) (q : Nat) : s.maskSync.mb q = s.mb q := ((frame_maskSync s).mem q).trans (mb_withTds s _ q)

theorem mb_setBit (s : State) (f : RF) (b : Bool) (q : Nat) : (s.setBit f b).mb q = s.mb q := rfl

theorem admitCluster_spec (hc : c < 8) (h : s.bit (F.TDS_CL_CTL_ADMIT c) = false) :
    (s.admitCluster c).bit (F.TDS_CL_CTL_ADMIT c) = true ∧ ∀ a, (s.admitCluster c).mb a = if ofCluster c a then 0 else s.mb a := by
  rw [admitCluster_eq h]
  refine ⟨?_, fun a => ?_⟩
  · rw [bit_of_regs (regs_clusterWiped _ c)]
    exact (bit_maskSync_clCtl _ hc 26).trans (bit_setBit_at_self (s.wakeCluster c) _ _ (by decide))
  · rw [mb_clusterWiped _ hc, mb_maskSync, mb_setBit, mb_wakeCluster]

/-! ## ADMISSION_COMPLETE (R15, R207) -/

/-- A memory load writes memory alone. -/
theorem loadWords_keeps (s : State) (old : List (Nat × Nat × Nat × Option Nat)) (x : Nat × Nat × Nat × Option Nat) :
    (s.loadWords old x).regs = s.regs ∧ (s.loadWords old x).tds = s.tds := by
  unfold State.loadWords
  refine List.foldlRecOn _ _ (motive := fun v : State => v.regs = s.regs ∧ v.tds = s.tds) ⟨rfl, rfl⟩ fun v hv i _ => ?_
  dsimp only
  split_ifs
  · rw [State.setMw, setMle_eq]
    exact hv
  · exact hv

theorem reloadCluster_keeps (s : State) (c : Nat) : (s.reloadCluster c).regs = s.regs ∧ (s.reloadCluster c).tds = s.tds := by
  unfold State.reloadCluster State.memLoads
  split_ifs
  · refine List.foldlRecOn _ _ (motive := fun v : State => v.regs = s.regs ∧ v.tds = s.tds) ⟨rfl, rfl⟩ fun v hv x _ => ?_
    obtain ⟨hr, ht⟩ := loadWords_keeps v [] x
    exact ⟨hr.trans hv.1, ht.trans hv.2⟩
  · exact ⟨rfl, rfl⟩

/-- The cluster is noted for the next P0 release, which unmasks it. -/
def State.admissionNoted (s : State) (c : Nat) : State :=
  { s with tds := { s.tds with admitted := s.tds.admitted ||| (1#8 <<< c) }, memu := { s.memu with cluIso := s.memu.cluIso ||| (1#8 <<< c) } }

theorem bit_admissionNoted (s : State) (c : Nat) (f : RF) : (s.admissionNoted c).bit f = s.bit f := rfl

theorem admitted_passes (h : s.bit (F.TDS_CL_CTL_ADMIT c) = true) :
    s.admitted c none = (((s.reloadCluster c).setBit (F.TDS_CL_CTL_ADMIT c) false).admissionNoted c).raise 111 := by
  simp only [State.admitted, h, Bool.not_true, Bool.false_eq_true, if_false]
  rfl

theorem admitted_passes_spec (hc : c < 8) (h : s.bit (F.TDS_CL_CTL_ADMIT c) = true) :
    (s.admitted c none).bit (F.TDS_CL_CTL_ADMIT c) = false ∧ (s.admitted c none).tds.admitted = s.tds.admitted ||| (1#8 <<< c) ∧
      (s.admitted c none).pends 111 = true := by
  rw [admitted_passes h]
  refine ⟨?_, ?_, pends_raise _ 111 (by decide) (by decide)⟩
  · rw [bit_raise _ _ _ (not_mem_evRegs (clCtl_below hc) _), bit_admissionNoted]
    exact bit_setBit_at_self (s.reloadCluster c) _ _ (by decide)
  · rw [(frame_raise _ 111).tds, State.admissionNoted, setBit_tds, (reloadCluster_keeps s c).2]

/-- A failing memory isolates its tile, where it is one. -/
def State.memoryFailed (s : State) (c b : Nat) : State := s.when (decide (b < 4)) (·.tileUnc (4 * c + b))

/-- The cluster stays isolated. -/
def State.clusterIsolated (s : State) (c : Nat) : State := { s with memu := { s.memu with cluIso := s.memu.cluIso ||| (1#8 <<< c) } }

theorem admitted_fails {b : Nat} (h : s.bit (F.TDS_CL_CTL_ADMIT c) = true) : s.admitted c (some b) =
    (((((s.memoryFailed c b).clusterIsolated c).setBit (F.TDS_CL_CTL_ADMIT c) false).setBit (F.TDS_CL_CTL_ADM_FAIL c) true)).raise 111 := by
  simp only [State.admitted, h, Bool.not_true, Bool.false_eq_true, if_false]
  rfl

theorem admitted_maskSync (s : State) : s.maskSync.tds.admitted = s.tds.admitted := by
  unfold State.maskSync
  extract_lets m away
  rw [(frame_qSync _).tds]
  refine List.foldlRecOn _ _ (motive := fun v : State => v.tds.admitted = s.tds.admitted) rfl fun v hv i _ => ?_
  dsimp only
  split_ifs
  · exact hv
  · exact hv

theorem memoryFailed_keeps (s : State) (hc : c < 8) (b : Nat) :
    (s.memoryFailed c b).tds.admitted = s.tds.admitted ∧ ∀ q, (s.memoryFailed c b).mb q = s.mb q := by
  unfold State.memoryFailed State.when
  split_ifs with hb
  · have hb4 : b < 4 := of_decide_eq_true hb
    refine ⟨?_, fun q => ?_⟩
    · rw [(frame_tileUnc s _).tds, setFbit_tds, admitted_maskSync]
      rfl
    · obtain ⟨-, -, -, hf⟩ := tileUnc_spec s (n := 4 * c + b) (by omega)
      exact (hf.mem q).trans (mb_withUnits s _ _ q)
  · exact ⟨rfl, fun _ => rfl⟩

theorem admitted_fails_spec {b : Nat} (hc : c < 8) (h : s.bit (F.TDS_CL_CTL_ADMIT c) = true) :
    (s.admitted c (some b)).bit (F.TDS_CL_CTL_ADMIT c) = false ∧ (s.admitted c (some b)).bit (F.TDS_CL_CTL_ADM_FAIL c) = true ∧
      (s.admitted c (some b)).memu.cluIso.getLsbD c = true ∧ (s.admitted c (some b)).tds.admitted = s.tds.admitted ∧
      (s.admitted c (some b)).pends 111 = true ∧ SameMem s (s.admitted c (some b)) := by
  rw [admitted_fails h]
  obtain ⟨hadm, hmb⟩ := memoryFailed_keeps s hc b
  generalize s.memoryFailed c b = v at *
  have hbelow := not_mem_evRegs (clCtl_below hc) 111
  have hf := frame_raise ((((v.clusterIsolated c).setBit (F.TDS_CL_CTL_ADMIT c) false).setBit (F.TDS_CL_CTL_ADM_FAIL c) true)) 111
  refine ⟨?_, ?_, ?_, ?_, pends_raise _ 111 (by decide) (by decide), fun q => ?_⟩
  · rw [bit_raise _ _ _ hbelow]
    exact (bit_setBit_at _ _ _ (by decide) (by decide)).trans (bit_setBit_at_self (v.clusterIsolated c) _ _ (by decide))
  · rw [bit_raise _ _ _ hbelow]
    exact bit_setBit_at_self _ _ _ (by decide)
  · rw [hf.memu]
    exact getLsbD_or_one v.memu.cluIso hc
  · rw [hf.tds, setBit_tds, setBit_tds]
    exact hadm
  · rw [hf.mem, mb_setBit, mb_setBit]
    exact hmb q

/-! ## SWAP (R209, R379) -/

/-- A swap is accepted for cycle `n`. -/
def State.swapPending (s : State) (c n : Nat) (late : Bool) : State :=
  ({ s with tds := { s.tds with swap := spSet none s.tds.swap c (some (n, late)) } } : State).setBit (F.TDS_CL_CTL_SWAP c) true

def State.swapAccepted (s : State) (c n : Nat) (late : Bool) : State :=
  if late then (s.swapPending c n late).setFld (F.TDS_CL_CTL_SW_ST c) 3 else s.swapPending c n late

theorem swapReq_refused {lateOk : Bool} (h : s.bit (F.TDS_CL_CTL_SHADOW_OK c) = false) :
    s.swapReq c lateOk = (s.setBit (F.TDS_CL_CTL_SW_REF c) true).raise 110 := if_pos (by rw [h]; rfl)

/-- SWAP as its judgement has it. `State.swapReq` is unfolded as a function, as `State.schArm` is in `schArm_judged`. -/
theorem swapReq_judged {lateOk : Bool} {j : Option (Nat × Bool)} (hok : s.bit (F.TDS_CL_CTL_SHADOW_OK c) = true)
    (h : s.judge (fullCycle s.cycNow (s.rd (R.TDS_CL_SWCYC c))) lateOk = j) :
    s.swapReq c lateOk = j.elim ((s.setFld (F.TDS_CL_CTL_SW_ST c) 2).raise 110) fun p => s.swapAccepted c p.1 p.2 := by
  suffices hdef : ∀ f, f = State.swapReq →
      f s c lateOk = j.elim ((s.setFld (F.TDS_CL_CTL_SW_ST c) 2).raise 110) fun p => s.swapAccepted c p.1 p.2 from hdef _ rfl
  intro f hf
  delta State.swapReq at hf
  rw [hf]
  beta_reduce
  rw [hok, h]
  cases j <;> rfl

theorem shadowOk_setLateOk (s : State) (c : Nat) (lateOk : Bool) :
    (s.setBit (F.TDS_CL_CTL_LATE_OK c) lateOk).bit (F.TDS_CL_CTL_SHADOW_OK c) = s.bit (F.TDS_CL_CTL_SHADOW_OK c) :=
  bit_setBit_at s _ _ (by decide) (by decide)

/-- SWAP written together with LATE_OK. -/
theorem swapReq_setLateOk {lateOk : Bool} {j : Option (Nat × Bool)} (hok : s.bit (F.TDS_CL_CTL_SHADOW_OK c) = true)
    (h : s.judge (fullCycle s.cycNow (s.rd (R.TDS_CL_SWCYC c))) lateOk = j) :
    (s.setBit (F.TDS_CL_CTL_LATE_OK c) lateOk).swapReq c lateOk =
      j.elim (((s.setBit (F.TDS_CL_CTL_LATE_OK c) lateOk).setFld (F.TDS_CL_CTL_SW_ST c) 2).raise 110)
        fun p => (s.setBit (F.TDS_CL_CTL_LATE_OK c) lateOk).swapAccepted c p.1 p.2 := by
  refine swapReq_judged ((shadowOk_setLateOk s c lateOk).trans hok) ?_
  have hne : R.TDS_CL_SWCYC c ≠ (F.TDS_CL_CTL_LATE_OK c).addr := by
    simp only [F.TDS_CL_CTL_LATE_OK, R.TDS_CL_CTL, R.TDS_CL_SWCYC]
    omega
  rw [judge_setBit, cycNow_setBit, State.setBit, rd_setFld_ne _ _ _ _ hne]
  exact h

theorem swapRefused_spec (hc : c < 8) (s : State) : ((s.setBit (F.TDS_CL_CTL_SW_REF c) true).raise 110).bit (F.TDS_CL_CTL_SW_REF c) = true ∧
    ((s.setBit (F.TDS_CL_CTL_SW_REF c) true).raise 110).pends 110 = true ∧
    Frame [R.TDS_CL_CTL c] [110] [] s ((s.setBit (F.TDS_CL_CTL_SW_REF c) true).raise 110) := by
  refine ⟨?_, pends_raise _ 110 (by decide) (by decide), ((Frame.refl [R.TDS_CL_CTL c] [110] [] s).setBit _ (List.mem_singleton.2 rfl)).raise (List.mem_singleton.2 rfl)⟩
  rw [bit_raise _ _ _ (not_mem_evRegs (clCtl_below hc) _)]
  exact bit_setBit_at_self s _ _ (by decide)

theorem swapLate_spec (hc : c < 8) (s : State) : ((s.setFld (F.TDS_CL_CTL_SW_ST c) 2).raise 110).fld (F.TDS_CL_CTL_SW_ST c) = 2 ∧
    ((s.setFld (F.TDS_CL_CTL_SW_ST c) 2).raise 110).pends 110 = true ∧
    Frame [R.TDS_CL_CTL c] [110] [] s ((s.setFld (F.TDS_CL_CTL_SW_ST c) 2).raise 110) := by
  refine ⟨?_, pends_raise _ 110 (by decide) (by decide), ((Frame.refl [R.TDS_CL_CTL c] [110] [] s).setFld _ (List.mem_singleton.2 rfl)).raise (List.mem_singleton.2 rfl)⟩
  rw [fld_raise _ _ _ (not_mem_evRegs (clCtl_below hc) _)]
  exact fld_setFld_at_self s _ (by decide) (by decide)

theorem Frame.withTds {rs es ks : List Nat} (h : Frame rs es ks s t) (x : TdsSt) : Frame rs es ks { s with tds := x } { t with tds := x } :=
  ⟨h.regs, h.mem, h.inbox, h.notes, h.msgs, congrArg (fun b : State => { b with tds := x }) h.bare⟩

theorem swapAccepted_tds (s : State) (c n : Nat) (late : Bool) :
    (s.swapAccepted c n late).tds = { s.tds with swap := spSet none s.tds.swap c (some (n, late)) } := by
  cases late <;> rfl

theorem swapPending_bit (s : State) (c n : Nat) (late : Bool) : (s.swapPending c n late).bit (F.TDS_CL_CTL_SWAP c) = true :=
  bit_setBit_at_self _ _ _ (by decide)

theorem frame_swapPending (s : State) (c n : Nat) (late : Bool) :
    Frame [R.TDS_CL_CTL c] [] [] { s with tds := { s.tds with swap := spSet none s.tds.swap c (some (n, late)) } } (s.swapPending c n late) :=
  (Frame.refl [R.TDS_CL_CTL c] [] [] _).setBit _ (List.mem_singleton.2 rfl)

theorem swapAccepted_spec (s : State) (c n : Nat) (late : Bool) :
    (s.swapAccepted c n late).bit (F.TDS_CL_CTL_SWAP c) = true ∧
      (late = true → (s.swapAccepted c n late).fld (F.TDS_CL_CTL_SW_ST c) = 3) ∧
      Frame [R.TDS_CL_CTL c] [] [] { s with tds := { s.tds with swap := spSet none s.tds.swap c (some (n, late)) } } (s.swapAccepted c n late) := by
  cases late with
  | false => exact ⟨swapPending_bit s c n false, nofun, frame_swapPending s c n false⟩
  | true => exact ⟨(bit_setFld_at _ _ _ (by decide) (by decide)).trans (swapPending_bit s c n true),
      fun _ => fld_setFld_at_self _ _ (by decide) (by decide), (frame_swapPending s c n true).setFld _ (List.mem_singleton.2 rfl)⟩

/-- What an accepted request leaves of the state that took it. -/
theorem swapTaken_spec (s : State) (c n : Nat) (late lateOk : Bool) (t : State)
    (ht : t = (s.setBit (F.TDS_CL_CTL_LATE_OK c) lateOk).swapAccepted c n late) :
    spGet none t.tds.swap c = some (n, late) ∧ t.bit (F.TDS_CL_CTL_SWAP c) = true ∧ (late = true → t.fld (F.TDS_CL_CTL_SW_ST c) = 3) ∧
      Frame [R.TDS_CL_CTL c] [] [] { s with tds := { s.tds with swap := t.tds.swap } } t := by
  have hask : Frame [R.TDS_CL_CTL c] [] [] s (s.setBit (F.TDS_CL_CTL_LATE_OK c) lateOk) :=
    (Frame.refl [R.TDS_CL_CTL c] [] [] s).setBit _ (List.mem_singleton.2 rfl)
  have htds : (s.setBit (F.TDS_CL_CTL_LATE_OK c) lateOk).tds = s.tds := rfl
  generalize s.setBit (F.TDS_CL_CTL_LATE_OK c) lateOk = v at *
  obtain ⟨hswap, hst, hf⟩ := swapAccepted_spec v c n late
  have hsw : t.tds.swap = spSet none s.tds.swap c (some (n, late)) := by rw [ht, swapAccepted_tds, htds]
  rw [htds, ← ht] at hf
  rw [← ht] at hswap hst
  rw [hsw]
  exact ⟨spGet_spSet_self _ _ _ _, hswap, hst, (hask.withTds _).trans hf⟩

theorem frame_setLateOk (s : State) (c : Nat) (lateOk : Bool) :
    Frame [R.TDS_CL_CTL c] [110] [] s (s.setBit (F.TDS_CL_CTL_LATE_OK c) lateOk) :=
  (Frame.refl [R.TDS_CL_CTL c] [110] [] s).setBit _ (List.mem_singleton.2 rfl)

/-- Settles O22: the memories of an admitted cluster read 0; its end clears ADMIT; a request for a swap goes by SHADOW_OK, then by its judgement. -/
theorem clusterAdmissionAndSwap : Obligations.ClusterAdmissionAndSwap := by
  unfold Obligations.ClusterAdmissionAndSwap
  intro s time c b lateOk
  refine ⟨fun h => answers_of rfl (admitCluster_spec (s := s.tick time) c.isLt h), fun h => ⟨answers_of rfl (admitted_passes_spec (s := s.tick time) c.isLt h),
    answers_of rfl (admitted_fails_spec (s := s.tick time) c.isLt h)⟩, fun h => answers_of rfl ?_, fun h => answers_of rfl ?_⟩
  · rw [swapReq_refused ((shadowOk_setLateOk (s.tick time) c lateOk).trans h)]
    obtain ⟨href, hpend, hf⟩ := swapRefused_spec c.isLt ((s.tick time).setBit (F.TDS_CL_CTL_LATE_OK c) lateOk)
    exact ⟨href, hpend, (frame_setLateOk _ _ _).trans hf⟩
  · intro n late
    by_cases hl : n * (s.tick time).tc < (s.tick time).now + 2 * (s.tick time).tc
    · have hlate : late = true := decide_eq_true hl
      cases lateOk with
      | false =>
        rw [swapReq_setLateOk (s := s.tick time) h (judge_late false hl)]
        obtain ⟨hst, hpend, hf⟩ := swapLate_spec c.isLt ((s.tick time).setBit (F.TDS_CL_CTL_LATE_OK c) false)
        rw [hlate, if_pos rfl]
        exact ⟨hst, hpend, (frame_setLateOk _ _ _).trans hf⟩
      | true =>
        rw [swapReq_setLateOk (s := s.tick time) h (judge_late true hl), hlate, if_neg (by decide), if_pos rfl]
        exact swapTaken_spec (s.tick time) c _ true true _ rfl
    · have hlate : late = false := decide_eq_false hl
      rw [swapReq_setLateOk (s := s.tick time) h (judge_ahead lateOk hl), hlate, if_neg (by simp), if_neg (by decide)]
      exact swapTaken_spec (s.tick time) c _ false lateOk _ rfl

end Sys2Proof.Machine
end
